-- ==== Sys2Proof/Syntax.lean ====
section
/-! DEFINITION. The instruction type of the W7: one constructor for each row of the opcode table.
The first 216 kinds are core words (06 R148-R169); the K constructors are element operations (12 R325); the others are
the hardware, host and platform steps that the table lists without an encoding. Operands of a step name the unit it acts on:
a core by its package-wide key `pkg * 8192 + core id`, a context by `core key * 8 + index`, a grove by `pkg * 256 + die * 64 + grove`. -/

namespace Sys2Proof

/-- One row of the opcode table. Register and immediate fields are natural numbers; `WellFormed` bounds them. -/
inductive Instr where
  /-- ADD (R184): Writes Aa + Ab modulo 2^64 to Ad. -/
  | add (d a b : Nat)
  /-- SUB (R184): Writes Aa - Ab modulo 2^64 to Ad. -/
  | sub (d a b : Nat)
  /-- AND (R184): Writes the bitwise AND of Aa and Ab to Ad. -/
  | and (d a b : Nat)
  /-- OR (R184): Writes the bitwise OR of Aa and Ab to Ad. -/
  | or (d a b : Nat)
  /-- XOR (R184): Writes the bitwise XOR of Aa and Ab to Ad. -/
  | xor (d a b : Nat)
  /-- ANDN (R184): Writes Aa AND NOT Ab to Ad. -/
  | andn (d a b : Nat)
  /-- SLL (R184): Shifts Aa left by Ab[5:0] with zero fill into Ad. -/
  | sll (d a b : Nat)
  /-- SRL (R184): Shifts Aa right by Ab[5:0] with zero fill into Ad. -/
  | srl (d a b : Nat)
  /-- SRA (R184): Shifts Aa right by Ab[5:0] with sign fill into Ad. -/
  | sra (d a b : Nat)
  /-- ROL (R184): Rotates Aa left by Ab[5:0] into Ad. -/
  | rol (d a b : Nat)
  /-- MUL (R184): Writes the low 64 bits of Aa times Ab to Ad. -/
  | mul (d a b : Nat)
  /-- MULH (R184): Writes the high 64 bits of the signed product to Ad. -/
  | mulh (d a b : Nat)
  /-- MULHU (R184): Writes the high 64 bits of the unsigned product to Ad. -/
  | mulhu (d a b : Nat)
  /-- DIV (R186): Signed division truncating toward zero, never trapping. -/
  | div (d a b : Nat)
  /-- DIVU (R186): Unsigned division, all ones on divide by zero. -/
  | divu (d a b : Nat)
  /-- REM (R186): Signed remainder with the sign of the dividend. -/
  | rem (d a b : Nat)
  /-- REMU (R186): Unsigned remainder, the dividend on divide by zero. -/
  | remu (d a b : Nat)
  /-- MIN (R184): Writes the signed smaller of Aa and Ab to Ad. -/
  | min (d a b : Nat)
  /-- MAX (R184): Writes the signed larger of Aa and Ab to Ad. -/
  | max (d a b : Nat)
  /-- MINU (R184): Writes the unsigned smaller of Aa and Ab to Ad. -/
  | minu (d a b : Nat)
  /-- MAXU (R184): Writes the unsigned larger of Aa and Ab to Ad. -/
  | maxu (d a b : Nat)
  /-- SLT (R184): Writes 1 if Aa < Ab signed, else 0. -/
  | slt (d a b : Nat)
  /-- SLTU (R184): Writes 1 if Aa < Ab unsigned, else 0. -/
  | sltu (d a b : Nat)
  /-- SEQ (R184): Writes 1 if Aa equals Ab, else 0. -/
  | seq (d a b : Nat)
  /-- CLZ (R184): Counts the leading zero bits of Aa. -/
  | clz (d a : Nat)
  /-- CTZ (R184): Counts the trailing zero bits of Aa. -/
  | ctz (d a : Nat)
  /-- POPC (R184): Counts the set bits of Aa. -/
  | popc (d a : Nat)
  /-- BREV (R184): Reverses the bit order of Aa. -/
  | brev (d a : Nat)
  /-- BSWAP (R184): Reverses the byte order of Aa. -/
  | bswap (d a : Nat)
  /-- SEXT (R185): Sign-extends the low n bits of Aa. -/
  | sext (d a b : Nat)
  /-- ZEXT (R185): Zero-extends the low n bits of Aa. -/
  | zext (d a b : Nat)
  /-- EXTR (R185): Extracts a bit field of Aa described by Ab. -/
  | extr (d a b : Nat)
  /-- INSR (R185): Inserts Aa into a bit field of Ad described by Ab. -/
  | insr (d a b : Nat)
  /-- SEL (R185): Writes Aa if old Ad is nonzero, else Ab. -/
  | sel (d a b : Nat)
  /-- ADDI (R187): Adds the sign-extended immediate to Aa. -/
  | addi (d a i : Nat)
  /-- ANDI (R187): ANDs Aa with the zero-extended immediate. -/
  | andi (d a i : Nat)
  /-- ORI (R187): ORs Aa with the zero-extended immediate. -/
  | ori (d a i : Nat)
  /-- XORI (R187): XORs Aa with the zero-extended immediate. -/
  | xori (d a i : Nat)
  /-- SLTI (R187): Writes 1 if Aa is below the signed immediate. -/
  | slti (d a i : Nat)
  /-- SLLI (R187): Shifts Aa left by an immediate amount. -/
  | slli (d a s : Nat)
  /-- SRLI (R187): Shifts Aa right logically by an immediate amount. -/
  | srli (d a s : Nat)
  /-- SRAI (R187): Shifts Aa right arithmetically by an immediate amount. -/
  | srai (d a s : Nat)
  /-- LIH (R187): Shifts Aa left 16 and ORs in the immediate. -/
  | lih (d a i : Nat)
  /-- LIL (R187): Loads the zero-extended immediate into Ad. -/
  | lil (d i : Nat)
  /-- LEA (R187): Adds the signed immediate times 65,536 to Aa. -/
  | lea (d a i : Nat)
  /-- ADDPC (R187): Writes the instruction address plus four times the signed immediate. -/
  | addpc (d i : Nat)
  /-- LD_B (R188): Loads a sign-extended byte. -/
  | ldB (d a i : Nat)
  /-- LD_H (R188): Loads a sign-extended half. -/
  | ldH (d a i : Nat)
  /-- LD_W (R188): Loads a sign-extended word. -/
  | ldW (d a i : Nat)
  /-- LD_D (R188): Loads a dword. -/
  | ldD (d a i : Nat)
  /-- LD_B_Z (R188): Loads a zero-extended byte. -/
  | ldBZ (d a i : Nat)
  /-- LD_H_Z (R188): Loads a zero-extended half. -/
  | ldHZ (d a i : Nat)
  /-- LD_W_Z (R188): Loads a zero-extended word. -/
  | ldWZ (d a i : Nat)
  /-- ST_B (R188): Stores the low byte of Ab. -/
  | stB (a b i : Nat)
  /-- ST_H (R188): Stores the low half of Ab. -/
  | stH (a b i : Nat)
  /-- ST_W (R188): Stores the low word of Ab. -/
  | stW (a b i : Nat)
  /-- ST_D (R188): Stores the dword in Ab. -/
  | stD (a b i : Nat)
  /-- LDX (R189): Loads from base plus optionally scaled index. -/
  | ldx (d a b x z w : Nat)
  /-- STX (R189): Stores the d register at base plus optionally scaled index. -/
  | stx (d a b x w : Nat)
  /-- LDF_TAKE (R194): Waits for full, reads the dword and sets it empty; an acquire. -/
  | ldfTake (d a : Nat)
  /-- LDF_PEEK (R194): Waits for full and reads the dword, leaving it full; an acquire. -/
  | ldfPeek (d a : Nat)
  /-- STE (R194): Waits for empty, writes the dword and sets it full; a release. -/
  | ste (a b : Nat)
  /-- TAGSET (R194): Sets a dword's full/empty bit without waiting. -/
  | tagset (a b : Nat)
  /-- TAGGET (R194): Reads a dword's full/empty bit. -/
  | tagget (d a : Nat)
  /-- ACQ (R197): Self-invalidates before any later load or atomic. -/
  | acq
  /-- REL (R197): Waits for earlier stores to be registered before later stores. -/
  | rel
  /-- FENCE_E (R198): Waits until a counter reaches a target, then acquires, without suspending. -/
  | fenceE (a b : Nat)
  /-- PREF (R199): Asks for a line to be brought to the L1 data cache, never faulting. -/
  | pref (a : Nat)
  /-- AADD (R260): Atomically adds and returns the old value. -/
  | aadd (d a b w : Nat)
  /-- AMIN (R260): Atomically keeps the smaller value and returns the old one. -/
  | amin (d a b u w : Nat)
  /-- AMAX (R260): Atomically keeps the larger value and returns the old one. -/
  | amax (d a b u w : Nat)
  /-- AAND (R260): Atomic bitwise AND returning the old value. -/
  | aand (d a b w : Nat)
  /-- AOR (R260): Atomic bitwise OR returning the old value. -/
  | aor (d a b w : Nat)
  /-- AXOR (R260): Atomic bitwise XOR returning the old value. -/
  | axor (d a b w : Nat)
  /-- ASWP (R260): Atomic swap returning the old value. -/
  | aswp (d a b w : Nat)
  /-- ACAS (R260): Atomic compare-and-swap against Ad. -/
  | acas (d a b w : Nat)
  /-- AFADD (R260): Atomic FP32 add returning the old value. -/
  | afadd (d a b : Nat)
  /-- AUPD (R114): Update-only atomic applied at the issuing grove's slice. -/
  | aupd (a b o u w : Nat)
  /-- BEQ (R200): Branches when Aa equals Ab. -/
  | beq (a b i : Nat)
  /-- BNE (R200): Branches when Aa differs from Ab. -/
  | bne (a b i : Nat)
  /-- BLT (R200): Branches when Aa < Ab signed. -/
  | blt (a b i : Nat)
  /-- BGE (R200): Branches when Aa >= Ab signed. -/
  | bge (a b i : Nat)
  /-- BLTU (R200): Branches when Aa < Ab unsigned. -/
  | bltu (a b i : Nat)
  /-- BGEU (R200): Branches when Aa >= Ab unsigned. -/
  | bgeu (a b i : Nat)
  /-- BZ (R200): Branches when Aa is zero. -/
  | bz (a i : Nat)
  /-- BNZ (R200): Branches when Aa is nonzero. -/
  | bnz (a i : Nat)
  /-- JMP (R201): Jumps by a signed word offset. -/
  | jmp (j : Nat)
  /-- JAL (R201): Jumps and writes the link to A31. -/
  | jal (j : Nat)
  /-- JR (R201): Jumps to the address in Aa. -/
  | jr (a : Nat)
  /-- JALR (R201): Jumps to Aa and writes the link to Ad. -/
  | jalr (d a : Nat)
  /-- LOOP (R62): Sets up a hardware loop level with a count from a register. -/
  | loop (l c n : Nat)
  /-- LOOPI (R62): Sets up a hardware loop level with an immediate count. -/
  | loopi (l k n : Nat)
  /-- VADD (R207): Element-wise add. -/
  | vadd (d a b m : Nat)
  /-- VSUB (R207): Element-wise subtract. -/
  | vsub (d a b m : Nat)
  /-- VMUL (R207): Element-wise multiply. -/
  | vmul (d a b m : Nat)
  /-- VFMA (R207): Element-wise fused multiply-add into Vd. -/
  | vfma (d a b m : Nat)
  /-- VFMS (R207): Element-wise fused Vd minus product. -/
  | vfms (d a b m : Nat)
  /-- VMIN (R207): Element-wise minimum. -/
  | vmin (d a b m : Nat)
  /-- VMAX (R207): Element-wise maximum. -/
  | vmax (d a b m : Nat)
  /-- VABS (R207): Element-wise absolute value. -/
  | vabs (d a m : Nat)
  /-- VNEG (R207): Element-wise negation. -/
  | vneg (d a m : Nat)
  /-- VAND (R209): Bitwise AND of two registers. -/
  | vand (d a b m : Nat)
  /-- VOR (R209): Bitwise OR of two registers. -/
  | vor (d a b m : Nat)
  /-- VXOR (R209): Bitwise XOR of two registers. -/
  | vxor (d a b m : Nat)
  /-- VSHL (R210): Element-wise shift left. -/
  | vshl (d a b m : Nat)
  /-- VSHR (R210): Element-wise shift right. -/
  | vshr (d a b m : Nat)
  /-- VCMP (R211): Compares elements and writes a mask register. -/
  | vcmp (d a b m c : Nat)
  /-- VSEL (R212): Selects each element from Va or Vb by mask. -/
  | vsel (d a b m : Nat)
  /-- VRCP (R213): Fixed reciprocal approximation. -/
  | vrcp (d a m : Nat)
  /-- VRSQ (R213): Fixed reciprocal square root approximation. -/
  | vrsq (d a m : Nat)
  /-- VEXP2 (R213): Fixed base-2 exponential approximation. -/
  | vexp2 (d a m : Nat)
  /-- VLOG2 (R213): Fixed base-2 logarithm approximation. -/
  | vlog2 (d a m : Nat)
  /-- VPACK (R216): Packs the low halves of two registers. -/
  | vpack (d a b : Nat)
  /-- VUNPK (R216): Moves one half of a register to the low half. -/
  | vunpk (d a h : Nat)
  /-- VSPLAT (R217): Copies an A register value into every active element. -/
  | vsplat (d a t m : Nat)
  /-- VEXT (R217): Extracts one element into an A register. -/
  | vext (d a b : Nat)
  /-- VINS (R217): Inserts an A register value into one element. -/
  | vins (d a b : Nat)
  /-- VPERM (R218): Permutes elements by an index register. -/
  | vperm (d a b m : Nat)
  /-- VRED (R219): Reduces a register over the fixed tree into element 0. -/
  | vred (d a m o : Nat)
  /-- VSCAN (R220): Inclusive scan in ascending element order. -/
  | vscan (d a m o : Nat)
  /-- VCVT (R215): Converts elements to a destination format with a rounding mode. -/
  | vcvt (d a r m t : Nat)
  /-- VLD (R222): Loads 128 contiguous bytes into a vector register. -/
  | vld (d a m t : Nat)
  /-- VST (R222): Stores a vector register to 128 contiguous bytes. -/
  | vst (d a m t : Nat)
  /-- VLDS (R223): Strided vector load. -/
  | vlds (d a b m t : Nat)
  /-- VSTS (R223): Strided vector store. -/
  | vsts (d a b m t : Nat)
  /-- VLDI (R224): Indexed vector load. -/
  | vldi (d a b m t : Nat)
  /-- VSTI (R224): Indexed vector store. -/
  | vsti (d a b m t : Nat)
  /-- VLDP (R225): Loads the leading n planes of a BPI group. -/
  | vldp (d a m n : Nat)
  /-- VSTP (R226): Stores all eight planes of a BPI group. -/
  | vstp (d a m : Nat)
  /-- VNZS (R231): Lists the indices of active nonzero elements. -/
  | vnzs (d a m : Nat)
  /-- VBAND (R228): ANDs two bitmaps word by word. -/
  | vband (d a b m : Nat)
  /-- VPOPP (R229): Exclusive prefix popcount of bitmap words. -/
  | vpopp (d a m : Nat)
  /-- VISECT (R230): Lists rank pairs of positions common to two bitmaps. -/
  | visect (d a b m : Nat)
  /-- VMOVM_MASK_TO_VECTOR (R232): Copies a mask register into the low bits of a vector. -/
  | vmovmMaskToVector (d a : Nat)
  /-- MAND (R232): ANDs two mask registers. -/
  | mand (d a b : Nat)
  /-- MOR (R232): ORs two mask registers. -/
  | mor (d a b : Nat)
  /-- MNOT (R232): Inverts a mask register. -/
  | mnot (d a : Nat)
  /-- MPOP (R232): Counts the set bits of a mask register. -/
  | mpop (d a : Nat)
  /-- VMOVM_VECTOR_TO_MASK (R232): Copies the low 128 bits of a vector into a mask register. -/
  | vmovmVectorToMask (d a : Nat)
  /-- SEND (R236): Checks, copies the payload into the injector and sends one message; a release. -/
  | send (a b p h : Nat)
  /-- SENDI (R237): Sends a zero-length message. -/
  | sendi (a b p h : Nat)
  /-- SENDM (R238): Sends one message to every core of a route-class set. -/
  | sendm (a b r p h : Nat)
  /-- SPAWN (R239): Zeroes the counter, arms an empty trigger and hands a range to the spawn sequencer. -/
  | spawn (a b p h : Nat)
  /-- XDSP (R241): Routes one token to an expert or the residual route by a capacity decision. -/
  | xdsp (a b p h : Nat)
  /-- END (R242): Retires the thread after the release waits, freeing its slot and spawn link. -/
  | endThread
  /-- YIELD (R242): Writes a full frame and queues the record in the ready pool. -/
  | yield
  /-- SUSPEND (R243): Writes the thread's record and live registers and makes the context dormant. -/
  | suspend (a b : Nat)
  /-- RESUME (R244): Takes a record once and releases it to a grove's ready pool. -/
  | resume (d a b : Nat)
  /-- HBEAT (R242): Resets the context's heartbeat count. -/
  | hbeat
  /-- CNTI (R245): Sets a counter to a value. -/
  | cnti (a b : Nat)
  /-- CNTA (R245): Adds to a counter and returns the old value. -/
  | cnta (d a b : Nat)
  /-- CNTA_REL (R245): Adds to a counter after the release waits; a release. -/
  | cntaRel (d a b : Nat)
  /-- CNTW (R245): Waits until a counter reaches a target; an acquire. -/
  | cntw (d a b : Nat)
  /-- CNTT (R246): Arms a trigger on a counter with a message or post action. -/
  | cntt (d a b : Nat)
  /-- BARINIT (R248): Sets a barrier's expected count and clears A and T. -/
  | barinit (a b : Nat)
  /-- BARARV (R248): Arrives at a barrier and returns the current phase. -/
  | bararv (d a : Nat)
  /-- BARDROP (R60): Lowers a barrier's expected count. -/
  | bardrop (a : Nat)
  /-- BARWAIT (R59): Waits for a barrier phase to complete. -/
  | barwait (a b : Nat)
  /-- BARTX (R58): Adds to a barrier's pending-byte count. -/
  | bartx (a b : Nat)
  /-- GJOIN (R250): Makes the core a group member or raises its join count. -/
  | gjoin (d b : Nat)
  /-- GLEAVE (R250): Lowers the join count and leaves at zero; a release. -/
  | gleave (d b : Nat)
  /-- GLD (R251): Returns a reduction over group members' words. -/
  | gld (d a t o : Nat)
  /-- GLDF (R252): Group reduction whose member reads wait for full. -/
  | gldf (d a t o : Nat)
  /-- GBAR (R253): Arrives at and waits on a group's built-in barrier. -/
  | gbar (d b : Nat)
  /-- GINFO (R250): Returns rank, member count, join count and phase of a group. -/
  | ginfo (d b : Nat)
  /-- GBAR_RELEASE (R253): Releases a core's GBAR waiters at completion cycle plus the stagger. -/
  | gbarRelease (pkg grp core : Nat)
  /-- FORK (R255): Adds to a join counter and pushes a record for the other arm. -/
  | fork (a b : Nat)
  /-- JOIN (R41): Decrements a join counter; retires unless it is the last arrival. -/
  | join (a : Nat)
  /-- DQPUSH (R256): Pushes a record to the bottom of the core's deque. -/
  | dqpush (d a : Nat)
  /-- DQPOP (R256): Pops the bottom record of the core's deque. -/
  | dqpop (d a : Nat)
  /-- RGET (R258): Reserves a ring slot. -/
  | rget (d a : Nat)
  /-- RPUT (R258): Publishes a reserved ring slot; a release. -/
  | rput (a b : Nat)
  /-- RTAKE (R258): Waits for and takes a consumer's next ring slot; an acquire. -/
  | rtake (d a b : Nat)
  /-- RFREE (R258): Frees a ring slot for one consumer and advances FREE. -/
  | rfree (d a b : Nat)
  /-- ECOPY (R296): Issues a multi-dimensional copy to the copy engine. -/
  | ecopy (a b s : Nat)
  /-- EGATH (R297): Issues an indexed row gather. -/
  | egath (a b s o : Nat)
  /-- ESCAT (R297): Issues an indexed row scatter. -/
  | escat (a b s o : Nat)
  /-- ESUB (R299): Subscribes or unsubscribes a ring to a Skidder stream. -/
  | esub (a b : Nat)
  /-- EBIND (R298): Claims a stream slot and issues a Skidder stream. -/
  | ebind (a b s : Nat)
  /-- ENEAR (R301): Issues a near-bank command of one or more passes. -/
  | enear (a b s : Nat)
  /-- EQRY (R302): Issues a copy of hotness entries. -/
  | eqry (a s : Nat)
  /-- QLOAD (R304): Issues a load of a collective plan into a plan slot. -/
  | qload (a b s : Nat)
  /-- QPLAY (R305): Issues a play of a loaded collective plan. -/
  | qplay (a s : Nat)
  /-- NSEND (R306): Posts a send work entry to a queue pair; a release. -/
  | nsend (a b : Nat)
  /-- NRECV (R306): Posts a receive work entry to a queue pair. -/
  | nrecv (a b : Nat)
  /-- NPOLL (R308): Removes and writes out the oldest completion entries. -/
  | npoll (a b s : Nat)
  /-- MIGR (R309): Issues a page migration to a destination physical page. -/
  | migr (a b s : Nat)
  /-- MZERO (R275): Claims and zeroes a tile, or releases it in mode 2. -/
  | mzero (m t : Nat)
  /-- MLDA (R276): Loads an A panel into the grove's A latch. -/
  | mlda (a b : Nat)
  /-- MLDB (R276): Loads a B panel into the grove's B latch. -/
  | mldb (a b : Nat)
  /-- MPOST (R277): Posts one outer-product run from the issuing core. -/
  | mpost (a b : Nat)
  /-- MOP (R278): Issues one outer-product run described by an engine set. -/
  | mop (a b s : Nat)
  /-- MOPM (R279): Issues outer-product runs for the marked tiles of a mask row. -/
  | mopm (a b k s : Nat)
  /-- MST (R280): Writes a tile to memory. -/
  | mst (a b s : Nat)
  /-- MRD (R281): Reads one tile element after waiting in the queue. -/
  | mrd (a b t : Nat)
  /-- MSCALE (R282): Scales a tile into FP32 by row and column scales. -/
  | mscale (a b p t : Nat)
  /-- MSTAT (R281): Reads a tile status word, or the Cruise status with CR = 1. -/
  | mstat (a c t : Nat)
  /-- CRUISE (R283): Issues a scout scoring of key tiles from leading planes. -/
  | cruise (a b s : Nat)
  /-- BLAZE (R287): Turns a score grid into a B-register mask by threshold or top-k. -/
  | blaze (a b m d : Nat)
  /-- BLZMOV (R288): Copies one B register and descriptor to another. -/
  | blzmov (s d : Nat)
  /-- BLZMOV_STORE (R288): Writes the 32 bytes of a B register to memory. -/
  | blzmovStore (a s : Nat)
  /-- BLZMOV_LOAD (R288): Loads a B register from memory with a given descriptor. -/
  | blzmovLoad (a b d : Nat)
  /-- BLZMOV_AND (R288): ANDs one B register into another. -/
  | blzmovAnd (s d : Nat)
  /-- BLZPOP (R289): Counts the set mask bits of a B register in the grid or a row. -/
  | blzpop (a b s : Nat)
  /-- EWR (R171): Writes an engine register, zeroing and claiming the set for a new owner. -/
  | ewr (a n : Nat)
  /-- ERD (R171): Reads an engine register of an owned set. -/
  | erd (a n : Nat)
  /-- NOP (R310): Does nothing. -/
  | nop
  /-- TRAP (R310): Raises a software trap whose record resumes at the next instruction. -/
  | trap (d a : Nat)
  /-- ERET (R311): Takes a fault record and continues the recorded thread in this context. -/
  | eret
  /-- WFE (R312): Waits for the context's event bit or a timeout. -/
  | wfe
  /-- SYNCI (R313): Discards the instruction cache and prefetched instructions. -/
  | synci
  /-- TLBINV_PAGE (R314): Shoots down the job's translations covering one address. -/
  | tlbinvPage (a : Nat)
  /-- TLBINV_JOB (R314): Shoots down every translation of the job. -/
  | tlbinvJob
  /-- BRK (R315): Stops the context for the debugger or traps with breakpoint. -/
  | brk (d : Nat)
  /-- CRD (R316): Reads a control register. -/
  | crd (d i : Nat)
  /-- CWR (R316): Writes a control register. -/
  | cwr (a i : Nat)
  /-- SAFEPT (R317): In safe-point mode, suspends with the registers of a live map. -/
  | safept (i : Nat)
  /-- KADD (R326): Element adds two tokens. -/
  | kadd (pkg stk slot el isl : Nat)
  /-- KSUB (R326): Element subtracts two tokens. -/
  | ksub (pkg stk slot el isl : Nat)
  /-- KMUL (R326): Element multiplies two tokens. -/
  | kmul (pkg stk slot el isl : Nat)
  /-- KMAC (R326): Element fused multiply-accumulate into a local register. -/
  | kmac (pkg stk slot el isl : Nat)
  /-- KAND (R326): Element bitwise AND. -/
  | kand (pkg stk slot el isl : Nat)
  /-- KOR (R326): Element bitwise OR. -/
  | kor (pkg stk slot el isl : Nat)
  /-- KXOR (R326): Element bitwise XOR. -/
  | kxor (pkg stk slot el isl : Nat)
  /-- KSHL (R326): Element shift left. -/
  | kshl (pkg stk slot el isl : Nat)
  /-- KSHR (R326): Element shift right. -/
  | kshr (pkg stk slot el isl : Nat)
  /-- KCMP (R326): Element comparison producing 1 or 0. -/
  | kcmp (pkg stk slot el isl : Nat)
  /-- KSEL (R326): Element selection by a predicate. -/
  | ksel (pkg stk slot el isl : Nat)
  /-- KMIN (R326): Element minimum. -/
  | kmin (pkg stk slot el isl : Nat)
  /-- KMAX (R326): Element maximum. -/
  | kmax (pkg stk slot el isl : Nat)
  /-- KCVT (R326): Element format conversion. -/
  | kcvt (pkg stk slot el isl : Nat)
  /-- KPOPC (R326): Element population count. -/
  | kpopc (pkg stk slot el isl : Nat)
  /-- KPASS (R326): Passes a token unchanged. -/
  | kpass (pkg stk slot el isl : Nat)
  /-- KRED (R328): Level-aware reduction into a local register. -/
  | kred (pkg stk slot el isl : Nat)
  /-- KEND (R326): Emits an end marker of a given level. -/
  | kend (pkg stk slot el isl : Nat)
  /-- KSETP (R327): Sets predicates. -/
  | ksetp (pkg stk slot el isl : Nat)
  /-- KCLRP (R327): Clears predicates. -/
  | kclrp (pkg stk slot el isl : Nat)
  /-- KDEQ (R329): Stream port reads the next stream bytes as a token. -/
  | kdeq (pkg stk slot el isl : Nat)
  /-- KENQ (R329): Stream port appends or writes a token and delivers tiles. -/
  | kenq (pkg stk slot el isl : Nat)
  /-- KLGEN (R330): Emits the index tokens of a nest of loops from bound tokens. -/
  | klgen (pkg stk slot el isl : Nat)
  /-- KMRD (R332): Memory element read at window base plus scaled offset. -/
  | kmrd (pkg stk slot el isl : Nat)
  /-- KMWR (R332): Memory element write at window base plus scaled offset. -/
  | kmwr (pkg stk slot el isl : Nat)
  /-- WAVE (R333): The wave unit performs one wave of the ordered slots in sequence. -/
  | wave (pkg stk slot el : Nat)
  /-- KNBADD (R343): One block of a near-bank add in a memory element. -/
  | knbadd (pkg stk slot el isl : Nat)
  /-- KNBSCL (R343): One block of a near-bank scale in a memory element. -/
  | knbscl (pkg stk slot el isl : Nat)
  /-- KNBSUM (R343): One block of a near-bank sum in a memory element. -/
  | knbsum (pkg stk slot el isl : Nat)
  /-- PACKET_ARRIVAL (R21): The receiving NI checks, places and counts a message packet. -/
  | packetArrival (n : Nat)
  /-- PACKET_RESEND (R22): The injector resends a refused packet after 256 cycles. -/
  | packetResend (n : Nat)
  /-- MESSAGE_ACCEPTANCE (R19): Acceptance of a message's last packet frees the injector's hold and number. -/
  | messageAcceptance (core num : Nat)
  /-- DECK_REFILL (R47): The oldest deck record is written to a reserved landing-queue entry. -/
  | deckRefill (core prio : Nat)
  /-- RECORD_AGING (R49): A record aged 4,096 cycles moves up one priority. -/
  | recordAging (core prio n : Nat)
  /-- RECORD_START (R50): A dormant context takes the first record in queue, pool, deque or steal order. -/
  | recordStart (core : Nat)
  /-- HARDWARE_SUSPENSION (R32): A wait that lasts WTH cycles writes a frame and parks the record. -/
  | hardwareSuspension (ctx : Nat)
  /-- SPAWN_SEQUENCER_SEND (R239): The spawn sequencer sends the next point's message. -/
  | spawnSequencerSend (core : Nat)
  /-- ENGINE_OPERATION_START (R293): An issued engine operation starts when its after counter reaches target. -/
  | engineOperationStart (core n : Nat)
  /-- ENGINE_OPERATION_COMPLETION (R293): A finished engine operation writes its status and increments its counter. -/
  | engineOperationCompletion (core n : Nat)
  /-- SAWMILL_QUEUE_ENTRY (R265): A waiting Sawmill operation enters the queue when its counter reaches target. -/
  | sawmillQueueEntry (grove n : Nat)
  /-- SAWMILL_START (R265): The operation at the queue head starts once stagger and governor admit it. -/
  | sawmillStart (grove : Nat)
  /-- SAWMILL_COMPLETION (R272): A finished Sawmill operation updates OPS and increments its completion counter. -/
  | sawmillCompletion (grove : Nat)
  /-- CRUISE_START (R284): The operation at the Cruise queue head starts. -/
  | cruiseStart (grove : Nat)
  /-- CRUISE_COMPLETION (R285): A finished CRUISE writes scores, status and its counter. -/
  | cruiseCompletion (grove : Nat)
  /-- TLB_MISS_REQUEST (R83): A first-level miss reaches the translation home slice. -/
  | tlbMissRequest (core job va : Nat)
  /-- WALK_RETRY (R84): A refused miss is resent after 256 cycles. -/
  | walkRetry (grove n : Nat)
  /-- WALK_COMPLETION (R85): A walk installs a translation and sets A and D, or faults. -/
  | walkCompletion (grove n : Nat)
  /-- TLBINV_COMPLETION (R86): A shootdown completes once every TLB acknowledges and old accesses drain. -/
  | tlbinvCompletion (pkg n : Nat)
  /-- STORE_REGISTRATION (R105): A home slice registers a store and transfers word ownership. -/
  | storeRegistration (n : Nat)
  /-- OWNED_WORD_EVICTION (R105): An evicted owned word is written back to its home slice. -/
  | ownedWordEviction (core key : Nat)
  /-- UPDATE_ONLY_FLUSH (R415): A slice flushes one update-only partial to the home slice. -/
  | updateOnlyFlush (grove line : Nat)
  /-- LANDING_RETRY (R354): A thread facing a full landing retries its access after 256 cycles. -/
  | landingRetry (ctx : Nat)
  /-- PAGE_REQUEST_ENTRY (R355): The landing writes a request entry to the host ring when room exists. -/
  | pageRequestEntry (pkg : Nat)
  /-- PAGE_REQUEST_ANSWER (R356): A host answer write to BAR0 0x120 releases or refuses a request's waiters. -/
  | pageRequestAnswer (pkg value : Nat)
  /-- FAULT_DELIVERY (R381): A trapped thread is written to a frame and fault-ring entry and FCORE is launched. -/
  | faultDelivery (ctx : Nat)
  /-- FAULT_DELIVERY_RETRY (R384): A thread facing a full fault ring retries delivery every 256 cycles. -/
  | faultDeliveryRetry (ctx : Nat)
  /-- HEARTBEAT_MISS (R387): A heartbeat count reaching HBI fences the core. -/
  | heartbeatMiss (ctx : Nat)
  /-- SPARE_TAKEOVER (R388): 64 cycles after a fence a spare takes the fenced logical id. -/
  | spareTakeover (core : Nat)
  /-- PARTIAL_MESSAGE_DISCARD (R429): An incomplete message with no new packet for 2^20 cycles is discarded. -/
  | partialMessageDiscard (core n : Nat)
  /-- WFE_TIMEOUT (R312): WFE completes after 65,536 cycles without an event. -/
  | wfeTimeout (ctx : Nat)
  /-- HOST_ACTIVE_MESSAGE (R350): A 64-byte host write to an injector page starts a thread or is discarded. -/
  | hostActiveMessage (pkg page ofs size data : Nat)
  /-- HOST_MESSAGE_RETRY (R351): An accepted host message held on a full deck is retried. -/
  | hostMessageRetry (pkg : Nat)
  /-- INSTALL (R35): Installs a job descriptor on its cores. -/
  | install (pkg : Nat)
  /-- REMOVE (R375): Tears down a job and discards its records and resources. -/
  | remove (pkg : Nat)
  /-- ASET (R71): Writes a job's address-space table entry. -/
  | aset (pkg : Nat)
  /-- SHOOT (R86): Host-requested shootdown in page, job or everything scope. -/
  | shoot (pkg : Nat)
  /-- BIND (R350): Binds or unbinds an injector page to a job. -/
  | bind (pkg : Nat)
  /-- GRANT (R353): Grants or revokes a migration destination range for a job. -/
  | grant (pkg : Nat)
  /-- HOTREAD (R353): Copies hotness entries to host or HBM memory. -/
  | hotread (pkg : Nat)
  /-- REGION (R363): Registers an Ethernet memory region. -/
  | region (pkg : Nat)
  /-- QPSET (R362): Binds or unbinds a queue pair context. -/
  | qpset (pkg : Nat)
  /-- GOVCTL_WRITE (R370): The management processor sets the governor limits. -/
  | govctlWrite (pkg value : Nat)
  /-- REGISTER_WRITE (R5): A write to a register with no row of its own, including W1C clears. -/
  | registerWrite (pkg ofs value fw : Nat)
  /-- HOTNESS_HALVING (R91): Every 2^24 cycles all DLV and STV values are halved. -/
  | hotnessHalving (pkg : Nat)
  /-- MONITOR_REFRESH (R371): Monitor records are refreshed every 2^16 cycles. -/
  | monitorRefresh (pkg n temp vcore : Nat)
  /-- CURRENT_LIMIT (R372): Package current above the fused maximum holds starts. -/
  | currentLimit (pkg : Nat)
  /-- THERMAL_TRIP (R372): A junction at 110 C removes power and enters Off. -/
  | thermalTrip (pkg : Nat)
  /-- BOOT (R373): The security root verifies and starts the signed firmware stages. -/
  | boot (pkg image : Nat)
  /-- RECOVERY_IMAGE_WRITE (R373): A signed image written through BAR0 in Recovery is verified. -/
  | recoveryImageWrite (pkg image : Nat)
  /-- FUSE_WRITE (R373): A one-way key revocation or anti-rollback counter raise. -/
  | fuseWrite (pkg kind value : Nat)
  /-- GET_VERSION (R374): SPDM version request. -/
  | getVersion (pkg : Nat)
  /-- GET_CAPABILITIES (R374): SPDM capabilities request. -/
  | getCapabilities (pkg : Nat)
  /-- NEGOTIATE_ALGORITHMS (R374): SPDM algorithm negotiation. -/
  | negotiateAlgorithms (pkg asym hash : Nat)
  /-- GET_DIGESTS (R374): SPDM digests request. -/
  | getDigests (pkg : Nat)
  /-- GET_CERTIFICATE (R374): SPDM certificate request. -/
  | getCertificate (pkg slot ofs len : Nat)
  /-- CHALLENGE (R374): SPDM challenge. -/
  | challenge (pkg slot nonce : Nat)
  /-- GET_MEASUREMENTS (R374): SPDM measurements request. -/
  | getMeasurements (pkg index : Nat)
  /-- SPDM_OTHER_REQUEST (R374): Any other SPDM request is answered with ERROR UnsupportedRequest. -/
  | spdmOtherRequest (pkg code : Nat)
  /-- DEBUG_TOKEN (R376): A signed debug token raises the debug level or is refused. -/
  | debugToken (pkg level token : Nat)
  /-- LIFECYCLE_CHANGE (R376): A lifecycle state change taking effect at the next boot. -/
  | lifecycleChange (pkg next : Nat)
  /-- POWER_STATE_CHANGE (R376): Transition among Off, Standby and Run. -/
  | powerStateChange (pkg next : Nat)
  /-- DEVICE_RESET (R192): Resets full/empty bits, engine registers, tiles and fences. -/
  | deviceReset
  /-- PRE_EMPTION (R395): Quiesces a job, saves its state and releases its resources. -/
  | preEmption (pkg job : Nat)
  /-- RESTORATION (R399): Restores a pre-empted job and resumes its threads. -/
  | restoration (pkg job : Nat)
  /-- SAFE_POINT_MODE_SET (R401): The management processor sets SPM on a job's cores. -/
  | safePointModeSet (pkg job : Nat)
  /-- SAFE_POINT_TIMEOUT (R401): A thread reaching neither SAFEPT nor END in 2^20 cycles is stopped. -/
  | safePointTimeout (ctx : Nat)
  /-- SAFE_POINT_RELEASE (R401): Clears SPM and places saved records in ready pools. -/
  | safePointRelease (pkg job : Nat)
  /-- CHUNK_START (R305): A collective chunk starts when its dependency counter is met. -/
  | chunkStart (play chunk : Nat)
  /-- CHUNK_COMPLETION (R360): A chunk acknowledged by every member increments SIGC. -/
  | chunkCompletion (play chunk : Nat)
  /-- CHUNK_REDO (R432): A chunk with a failed edge or late contribution is redone over the alternate tree. -/
  | chunkRedo (play chunk : Nat)
  /-- PLAY_ABORT (R434): A play aborts and each member writes its completion record. -/
  | playAbort (play cause : Nat)
  /-- LINK_RETRANSMISSION (R427): A Pelrek flit failing its CRC is retransmitted. -/
  | linkRetransmission (pkg port : Nat)
  /-- LANE_DOWN (R427): A lane failing 16 times in a row is taken down. -/
  | laneDown (pkg port lane : Nat)
  /-- ROUTER_UNCORRECTABLE (R428): A Pelrek router with bad state takes every port down. -/
  | routerUncorrectable (pkg : Nat)
  /-- UNREACHABLE_TIMEOUT (R429): Traffic to an unreachable package ends after 2^22 cycles. -/
  | unreachableTimeout (kind n : Nat)
  /-- UCIE_LANE_REPAIR (R430): A UCIe link repairs lanes or reduces width. -/
  | ucieLaneRepair (pkg link : Nat)
  /-- UCIE_LINK_DOWN (R430): A die-to-die link goes down and traffic reroutes. -/
  | ucieLinkDown (pkg link : Nat)
  /-- CXL_PORT_FAILURE (R423): A CXL port fails on link loss or a 2^22-cycle timeout. -/
  | cxlPortFailure (pkg port tmo : Nat)
  /-- CXL_PORT_RECOVERY (R424): A failed CXL port trains again and UP sets. -/
  | cxlPortRecovery (pkg port : Nat)
  /-- ETH_RECEIVE (R364): An inbound RoCE message is placed in a posted receive buffer. -/
  | ethReceive (pkg qp len data imm iv : Nat)
  /-- ETH_SEND_COMPLETION (R364): A remote acknowledgement completes a send. -/
  | ethSendCompletion (pkg qp : Nat)
  /-- RNR_RETRY (R364): A sender retries after a receiver-not-ready NAK every 64 microseconds. -/
  | rnrRetry (pkg qp : Nat)
  /-- ETH_PORT_DOWN (R435): An Ethernet port link going down fails its queue pairs. -/
  | ethPortDown (pkg port : Nat)
  /-- PATROL_SCRUB (R436): The scrubber reads and corrects one HBM4E block. -/
  | patrolScrub (pkg block : Nat)
  /-- HOST_HDM_ACCESS (R347): A host read or write through the CXL.mem HDM range reaches HBM physical address x as an access of the agent host. -/
  | hostHdmAccess (pkg wr ofs size value : Nat)
  /-- REMOTE_STORE_ACKNOWLEDGEMENT (R106): The target NI performs a remote scratchpad store and acknowledges it, which lets a waiting release of the storing thread proceed. -/
  | remoteStoreAcknowledgement (n : Nat)
  /-- CURRENT_FALLS_BELOW_LIMIT (R372): Package current falls below 95 % of the fused maximum, and held Sawmill, Cruise and Skidder work resumes in order. -/
  | currentFallsBelowLimit (pkg : Nat)
  /-- LANE_DISABLE (R438): Firmware lowers a Pelrek lane rate or disables a lane, which then counts as down. -/
  | laneDisable (pkg port lane : Nat)
  /-- CORE_POWERED_DOWN (R410): The management processor powers down a core, which then counts as fenced for group loads. -/
  | corePoweredDown (core : Nat)
  /-- DEBUG_ACCESS (R376): A trace, scan or management access reads or writes device state or memory, subject to the debug level and the firewalls. -/
  | debugAccess (pkg wr space addr size value : Nat)
  /-- WORK_ENTRY_REACHED (R363): The Ethernet engine reaches a posted work entry, checks its region key and starts the send or arms the receive buffer. -/
  | workEntryReached (pkg qp snd : Nat)
  /-- SOFT_ERROR (R408): A protected unit's data becomes corrupt, so that a later reader finds it uncorrectable or corrected. -/
  | softError (kind key : Nat)
deriving DecidableEq, Repr

end Sys2Proof
end

