-- ==== Sys2Proof/WellFormed.lean ====
section
/-! DEFINITION. Which instruction terms are legal words: field widths (06 R149), register ranges (R153, R167, R233, R274),
assigned function values (R155-R169) and assigned control-register indices (R174, 11 R316). A step without an encoding has no word,
so nothing restricts it here. -/

namespace Sys2Proof

/-- The control registers that CRD may name (R174, R316). -/
def crdIndex (i : Nat) : Bool :=
  decide (i ≤ 6) || (decide (8 ≤ i) && decide (i ≤ 14)) || (decide (0x40 ≤ i) && decide (i ≤ 0x4D))

/-- The control registers that CWR may name: those that R316 marks RW. -/
def cwrIndex (i : Nat) : Bool :=
  i == 4 || i == 5 || (decide (8 ≤ i) && decide (i ≤ 13)) || i == 0x47 || i == 0x4B || i == 0x4C

/-- Legality of an instruction term: each field fits its bits, and no excluded value stands in it. -/
def wellFormed : Instr → Bool
  | .add d a b => decide (d < 32) && decide (a < 32) && decide (b < 32)
  | .sub d a b => decide (d < 32) && decide (a < 32) && decide (b < 32)
  | .and d a b => decide (d < 32) && decide (a < 32) && decide (b < 32)
  | .or d a b => decide (d < 32) && decide (a < 32) && decide (b < 32)
  | .xor d a b => decide (d < 32) && decide (a < 32) && decide (b < 32)
  | .andn d a b => decide (d < 32) && decide (a < 32) && decide (b < 32)
  | .sll d a b => decide (d < 32) && decide (a < 32) && decide (b < 32)
  | .srl d a b => decide (d < 32) && decide (a < 32) && decide (b < 32)
  | .sra d a b => decide (d < 32) && decide (a < 32) && decide (b < 32)
  | .rol d a b => decide (d < 32) && decide (a < 32) && decide (b < 32)
  | .mul d a b => decide (d < 32) && decide (a < 32) && decide (b < 32)
  | .mulh d a b => decide (d < 32) && decide (a < 32) && decide (b < 32)
  | .mulhu d a b => decide (d < 32) && decide (a < 32) && decide (b < 32)
  | .div d a b => decide (d < 32) && decide (a < 32) && decide (b < 32)
  | .divu d a b => decide (d < 32) && decide (a < 32) && decide (b < 32)
  | .rem d a b => decide (d < 32) && decide (a < 32) && decide (b < 32)
  | .remu d a b => decide (d < 32) && decide (a < 32) && decide (b < 32)
  | .min d a b => decide (d < 32) && decide (a < 32) && decide (b < 32)
  | .max d a b => decide (d < 32) && decide (a < 32) && decide (b < 32)
  | .minu d a b => decide (d < 32) && decide (a < 32) && decide (b < 32)
  | .maxu d a b => decide (d < 32) && decide (a < 32) && decide (b < 32)
  | .slt d a b => decide (d < 32) && decide (a < 32) && decide (b < 32)
  | .sltu d a b => decide (d < 32) && decide (a < 32) && decide (b < 32)
  | .seq d a b => decide (d < 32) && decide (a < 32) && decide (b < 32)
  | .clz d a => decide (d < 32) && decide (a < 32)
  | .ctz d a => decide (d < 32) && decide (a < 32)
  | .popc d a => decide (d < 32) && decide (a < 32)
  | .brev d a => decide (d < 32) && decide (a < 32)
  | .bswap d a => decide (d < 32) && decide (a < 32)
  | .sext d a b => decide (d < 32) && decide (a < 32) && decide (b < 32)
  | .zext d a b => decide (d < 32) && decide (a < 32) && decide (b < 32)
  | .extr d a b => decide (d < 32) && decide (a < 32) && decide (b < 32)
  | .insr d a b => decide (d < 32) && decide (a < 32) && decide (b < 32)
  | .sel d a b => decide (d < 32) && decide (a < 32) && decide (b < 32)
  | .addi d a i => decide (d < 32) && decide (a < 32) && decide (i < 65536)
  | .andi d a i => decide (d < 32) && decide (a < 32) && decide (i < 65536)
  | .ori d a i => decide (d < 32) && decide (a < 32) && decide (i < 65536)
  | .xori d a i => decide (d < 32) && decide (a < 32) && decide (i < 65536)
  | .slti d a i => decide (d < 32) && decide (a < 32) && decide (i < 65536)
  | .slli d a s => decide (d < 32) && decide (a < 32) && decide (s < 64)
  | .srli d a s => decide (d < 32) && decide (a < 32) && decide (s < 64)
  | .srai d a s => decide (d < 32) && decide (a < 32) && decide (s < 64)
  | .lih d a i => decide (d < 32) && decide (a < 32) && decide (i < 65536)
  | .lil d i => decide (d < 32) && decide (i < 65536)
  | .lea d a i => decide (d < 32) && decide (a < 32) && decide (i < 65536)
  | .addpc d i => decide (d < 32) && decide (i < 65536)
  | .ldB d a i => decide (d < 32) && decide (a < 32) && decide (i < 65536)
  | .ldH d a i => decide (d < 32) && decide (a < 32) && decide (i < 65536)
  | .ldW d a i => decide (d < 32) && decide (a < 32) && decide (i < 65536)
  | .ldD d a i => decide (d < 32) && decide (a < 32) && decide (i < 65536)
  | .ldBZ d a i => decide (d < 32) && decide (a < 32) && decide (i < 65536)
  | .ldHZ d a i => decide (d < 32) && decide (a < 32) && decide (i < 65536)
  | .ldWZ d a i => decide (d < 32) && decide (a < 32) && decide (i < 65536)
  | .stB a b i => decide (a < 32) && decide (b < 32) && decide (i < 65536)
  | .stH a b i => decide (a < 32) && decide (b < 32) && decide (i < 65536)
  | .stW a b i => decide (a < 32) && decide (b < 32) && decide (i < 65536)
  | .stD a b i => decide (a < 32) && decide (b < 32) && decide (i < 65536)
  | .ldx d a b x z w => decide (d < 32) && decide (a < 32) && decide (b < 32) && decide (x < 2) && decide (z < 2) && decide (w < 4) && !(z == 1 && w == 3)
  | .stx d a b x w => decide (d < 32) && decide (a < 32) && decide (b < 32) && decide (x < 2) && decide (w < 4)
  | .ldfTake d a => decide (d < 32) && decide (a < 32)
  | .ldfPeek d a => decide (d < 32) && decide (a < 32)
  | .ste a b => decide (a < 32) && decide (b < 32)
  | .tagset a b => decide (a < 32) && decide (b < 32)
  | .tagget d a => decide (d < 32) && decide (a < 32)
  | .acq => true
  | .rel => true
  | .fenceE a b => decide (a < 32) && decide (b < 32)
  | .pref a => decide (a < 32)
  | .aadd d a b w => decide (d < 32) && decide (a < 32) && decide (b < 32) && decide (w < 4) && decide (2 ≤ w)
  | .amin d a b u w => decide (d < 32) && decide (a < 32) && decide (b < 32) && decide (u < 2) && decide (w < 4) && decide (2 ≤ w)
  | .amax d a b u w => decide (d < 32) && decide (a < 32) && decide (b < 32) && decide (u < 2) && decide (w < 4) && decide (2 ≤ w)
  | .aand d a b w => decide (d < 32) && decide (a < 32) && decide (b < 32) && decide (w < 4) && decide (2 ≤ w)
  | .aor d a b w => decide (d < 32) && decide (a < 32) && decide (b < 32) && decide (w < 4) && decide (2 ≤ w)
  | .axor d a b w => decide (d < 32) && decide (a < 32) && decide (b < 32) && decide (w < 4) && decide (2 ≤ w)
  | .aswp d a b w => decide (d < 32) && decide (a < 32) && decide (b < 32) && decide (w < 4) && decide (2 ≤ w)
  | .acas d a b w => decide (d < 32) && decide (a < 32) && decide (b < 32) && decide (w < 4) && decide (2 ≤ w)
  | .afadd d a b => decide (d < 32) && decide (a < 32) && decide (b < 32)
  | .aupd a b o u w => decide (a < 32) && decide (b < 32) && decide (o < 8) && decide (u < 2) && decide (w < 4) && decide (2 ≤ w) && decide (o ≤ 6) && !(u == 1 && !(o == 1 || o == 2)) && !(o == 6 && w == 3)
  | .beq a b i => decide (a < 32) && decide (b < 32) && decide (i < 65536)
  | .bne a b i => decide (a < 32) && decide (b < 32) && decide (i < 65536)
  | .blt a b i => decide (a < 32) && decide (b < 32) && decide (i < 65536)
  | .bge a b i => decide (a < 32) && decide (b < 32) && decide (i < 65536)
  | .bltu a b i => decide (a < 32) && decide (b < 32) && decide (i < 65536)
  | .bgeu a b i => decide (a < 32) && decide (b < 32) && decide (i < 65536)
  | .bz a i => decide (a < 32) && decide (i < 65536)
  | .bnz a i => decide (a < 32) && decide (i < 65536)
  | .jmp j => decide (j < 67108864)
  | .jal j => decide (j < 67108864)
  | .jr a => decide (a < 32)
  | .jalr d a => decide (d < 32) && decide (a < 32)
  | .loop l c n => decide (l < 2) && decide (c < 32) && decide (n < 1024) && decide (1 ≤ n)
  | .loopi l k n => decide (l < 2) && decide (k < 32768) && decide (n < 1024) && decide (1 ≤ n)
  | .vadd d a b m => decide (d < 32) && decide (a < 32) && decide (b < 32) && decide (m < 8)
  | .vsub d a b m => decide (d < 32) && decide (a < 32) && decide (b < 32) && decide (m < 8)
  | .vmul d a b m => decide (d < 32) && decide (a < 32) && decide (b < 32) && decide (m < 8)
  | .vfma d a b m => decide (d < 32) && decide (a < 32) && decide (b < 32) && decide (m < 8)
  | .vfms d a b m => decide (d < 32) && decide (a < 32) && decide (b < 32) && decide (m < 8)
  | .vmin d a b m => decide (d < 32) && decide (a < 32) && decide (b < 32) && decide (m < 8)
  | .vmax d a b m => decide (d < 32) && decide (a < 32) && decide (b < 32) && decide (m < 8)
  | .vabs d a m => decide (d < 32) && decide (a < 32) && decide (m < 8)
  | .vneg d a m => decide (d < 32) && decide (a < 32) && decide (m < 8)
  | .vand d a b m => decide (d < 32) && decide (a < 32) && decide (b < 32) && decide (m < 8)
  | .vor d a b m => decide (d < 32) && decide (a < 32) && decide (b < 32) && decide (m < 8)
  | .vxor d a b m => decide (d < 32) && decide (a < 32) && decide (b < 32) && decide (m < 8)
  | .vshl d a b m => decide (d < 32) && decide (a < 32) && decide (b < 32) && decide (m < 8)
  | .vshr d a b m => decide (d < 32) && decide (a < 32) && decide (b < 32) && decide (m < 8)
  | .vcmp d a b m c => decide (d < 8) && decide (a < 32) && decide (b < 32) && decide (m < 8) && decide (c < 8) && decide (c ≤ 5)
  | .vsel d a b m => decide (d < 32) && decide (a < 32) && decide (b < 32) && decide (m < 8)
  | .vrcp d a m => decide (d < 32) && decide (a < 32) && decide (m < 8)
  | .vrsq d a m => decide (d < 32) && decide (a < 32) && decide (m < 8)
  | .vexp2 d a m => decide (d < 32) && decide (a < 32) && decide (m < 8)
  | .vlog2 d a m => decide (d < 32) && decide (a < 32) && decide (m < 8)
  | .vpack d a b => decide (d < 32) && decide (a < 32) && decide (b < 32)
  | .vunpk d a h => decide (d < 32) && decide (a < 32) && decide (h < 2)
  | .vsplat d a t m => decide (d < 32) && decide (a < 32) && decide (t < 16) && decide (m < 8) && decide (1 ≤ t) && (decide (t ≤ 7) || t == 9 || t == 10)
  | .vext d a b => decide (d < 32) && decide (a < 32) && decide (b < 32)
  | .vins d a b => decide (d < 32) && decide (a < 32) && decide (b < 32)
  | .vperm d a b m => decide (d < 32) && decide (a < 32) && decide (b < 32) && decide (m < 8)
  | .vred d a m o => decide (d < 32) && decide (a < 32) && decide (m < 8) && decide (o < 8) && decide (o ≤ 5)
  | .vscan d a m o => decide (d < 32) && decide (a < 32) && decide (m < 8) && decide (o < 4) && decide (o ≤ 2)
  | .vcvt d a r m t => decide (d < 32) && decide (a < 32) && decide (r < 8) && decide (m < 8) && decide (t < 16) && decide (1 ≤ t) && decide (t ≤ 8) && decide (r ≤ 4)
  | .vld d a m t => decide (d < 32) && decide (a < 32) && decide (m < 8) && decide (t < 16) && (decide (t ≤ 7) || t == 9 || t == 10)
  | .vst d a m t => decide (d < 32) && decide (a < 32) && decide (m < 8) && decide (t < 16) && (decide (t ≤ 7) || t == 9 || t == 10)
  | .vlds d a b m t => decide (d < 32) && decide (a < 32) && decide (b < 32) && decide (m < 8) && decide (t < 16) && (decide (t ≤ 7) || t == 9 || t == 10)
  | .vsts d a b m t => decide (d < 32) && decide (a < 32) && decide (b < 32) && decide (m < 8) && decide (t < 16) && (decide (t ≤ 7) || t == 9 || t == 10)
  | .vldi d a b m t => decide (d < 32) && decide (a < 32) && decide (b < 32) && decide (m < 8) && decide (t < 16) && (decide (t ≤ 7) || t == 9 || t == 10)
  | .vsti d a b m t => decide (d < 32) && decide (a < 32) && decide (b < 32) && decide (m < 8) && decide (t < 16) && (decide (t ≤ 7) || t == 9 || t == 10)
  | .vldp d a m n => decide (d < 32) && decide (a < 32) && decide (m < 8) && decide (n < 16) && decide (2 ≤ n) && decide (n ≤ 8)
  | .vstp d a m => decide (d < 32) && decide (a < 32) && decide (m < 8)
  | .vnzs d a m => decide (d < 32) && decide (a < 32) && decide (m < 8)
  | .vband d a b m => decide (d < 32) && decide (a < 32) && decide (b < 32) && decide (m < 8)
  | .vpopp d a m => decide (d < 32) && decide (a < 32) && decide (m < 8)
  | .visect d a b m => decide (d < 32) && decide (a < 32) && decide (b < 32) && decide (m < 8)
  | .vmovmMaskToVector d a => decide (d < 32) && decide (a < 8)
  | .mand d a b => decide (d < 8) && decide (a < 8) && decide (b < 8)
  | .mor d a b => decide (d < 8) && decide (a < 8) && decide (b < 8)
  | .mnot d a => decide (d < 8) && decide (a < 8)
  | .mpop d a => decide (d < 32) && decide (a < 8)
  | .vmovmVectorToMask d a => decide (d < 8) && decide (a < 32)
  | .send a b p h => decide (a < 32) && decide (b < 32) && decide (p < 4) && decide (h < 4096) && decide (1 ≤ b) && decide (b ≤ 29)
  | .sendi a b p h => decide (a < 32) && decide (b < 32) && decide (p < 4) && decide (h < 4096) && decide (1 ≤ b) && decide (b ≤ 30)
  | .sendm a b r p h => decide (a < 32) && decide (b < 32) && decide (r < 4) && decide (p < 4) && decide (h < 4096) && decide (1 ≤ b) && decide (b ≤ 29)
  | .spawn a b p h => decide (a < 32) && decide (b < 32) && decide (p < 4) && decide (h < 4096) && decide (1 ≤ a) && decide (a ≤ 30) && decide (1 ≤ b) && decide (b ≤ 30)
  | .xdsp a b p h => decide (a < 32) && decide (b < 32) && decide (p < 4) && decide (h < 4096) && decide (1 ≤ a) && decide (a ≤ 30) && decide (1 ≤ b) && decide (b ≤ 29)
  | .endThread => true
  | .yield => true
  | .suspend a b => decide (a < 32) && decide (b < 32)
  | .resume d a b => decide (d < 32) && decide (a < 32) && decide (b < 32)
  | .hbeat => true
  | .cnti a b => decide (a < 32) && decide (b < 32)
  | .cnta d a b => decide (d < 32) && decide (a < 32) && decide (b < 32)
  | .cntaRel d a b => decide (d < 32) && decide (a < 32) && decide (b < 32)
  | .cntw d a b => decide (d < 32) && decide (a < 32) && decide (b < 32)
  | .cntt d a b => decide (d < 32) && decide (a < 32) && decide (b < 32) && decide (1 ≤ d) && decide (d ≤ 29)
  | .barinit a b => decide (a < 32) && decide (b < 32)
  | .bararv d a => decide (d < 32) && decide (a < 32)
  | .bardrop a => decide (a < 32)
  | .barwait a b => decide (a < 32) && decide (b < 32)
  | .bartx a b => decide (a < 32) && decide (b < 32)
  | .gjoin d b => decide (d < 32) && decide (b < 32)
  | .gleave d b => decide (d < 32) && decide (b < 32)
  | .gld d a t o => decide (d < 32) && decide (a < 32) && decide (t < 4) && decide (o < 8) && decide (t ≤ 2) && decide (o ≤ 5) && !(t == 2 && decide (3 ≤ o))
  | .gldf d a t o => decide (d < 32) && decide (a < 32) && decide (t < 4) && decide (o < 8) && decide (t ≤ 2) && decide (o ≤ 5) && !(t == 2 && decide (3 ≤ o))
  | .gbar d b => decide (d < 32) && decide (b < 32) && decide (1 ≤ d)
  | .ginfo d b => decide (d < 32) && decide (b < 32)
  | .gbarRelease _ _ _ => true
  | .fork a b => decide (a < 32) && decide (b < 32)
  | .join a => decide (a < 32)
  | .dqpush d a => decide (d < 32) && decide (a < 32)
  | .dqpop d a => decide (d < 32) && decide (a < 32)
  | .rget d a => decide (d < 32) && decide (a < 32)
  | .rput a b => decide (a < 32) && decide (b < 32)
  | .rtake d a b => decide (d < 32) && decide (a < 32) && decide (b < 32)
  | .rfree d a b => decide (d < 32) && decide (a < 32) && decide (b < 32)
  | .ecopy a b s => decide (a < 32) && decide (b < 32) && decide (s < 8) && decide (s + 4 ≤ 8)
  | .egath a b s o => decide (a < 32) && decide (b < 32) && decide (s < 8) && decide (o < 8) && decide (s + 2 ≤ 8)
  | .escat a b s o => decide (a < 32) && decide (b < 32) && decide (s < 8) && decide (o < 4) && decide (s + 2 ≤ 8)
  | .esub a b => decide (a < 32) && decide (b < 32)
  | .ebind a b s => decide (a < 32) && decide (b < 32) && decide (s < 8) && decide (s + 1 ≤ 8)
  | .enear a b s => decide (a < 32) && decide (b < 32) && decide (s < 8) && decide (s + 2 ≤ 8)
  | .eqry a s => decide (a < 32) && decide (s < 8) && decide (s + 1 ≤ 8)
  | .qload a b s => decide (a < 32) && decide (b < 32) && decide (s < 8) && decide (s + 1 ≤ 8)
  | .qplay a s => decide (a < 32) && decide (s < 8) && decide (s + 2 ≤ 8)
  | .nsend a b => decide (a < 32) && decide (b < 32)
  | .nrecv a b => decide (a < 32) && decide (b < 32)
  | .npoll a b s => decide (a < 32) && decide (b < 32) && decide (s < 8) && decide (s + 1 ≤ 8)
  | .migr a b s => decide (a < 32) && decide (b < 32) && decide (s < 8) && decide (s + 1 ≤ 8)
  | .mzero m t => decide (m < 4) && decide (t < 8) && decide (m ≤ 2)
  | .mlda a b => decide (a < 32) && decide (b < 32)
  | .mldb a b => decide (a < 32) && decide (b < 32)
  | .mpost a b => decide (a < 32) && decide (b < 32) && decide (1 ≤ b) && decide (b ≤ 30)
  | .mop a b s => decide (a < 32) && decide (b < 32) && decide (s < 8)
  | .mopm a b k s => decide (a < 32) && decide (b < 32) && decide (k < 4) && decide (s < 8)
  | .mst a b s => decide (a < 32) && decide (b < 32) && decide (s < 8)
  | .mrd a b t => decide (a < 32) && decide (b < 32) && decide (t < 8)
  | .mscale a b p t => decide (a < 32) && decide (b < 32) && decide (p < 2) && decide (t < 8)
  | .mstat a c t => decide (a < 32) && decide (c < 2) && decide (t < 8) && !(c == 1 && decide (1 ≤ t))
  | .cruise a b s => decide (a < 32) && decide (b < 32) && decide (s < 8)
  | .blaze a b m d => decide (a < 32) && decide (b < 32) && decide (m < 2) && decide (d < 4)
  | .blzmov s d => decide (s < 4) && decide (d < 4)
  | .blzmovStore a s => decide (a < 32) && decide (s < 4)
  | .blzmovLoad a b d => decide (a < 32) && decide (b < 32) && decide (d < 4)
  | .blzmovAnd s d => decide (s < 4) && decide (d < 4)
  | .blzpop a b s => decide (a < 32) && decide (b < 32) && decide (s < 4)
  | .ewr a n => decide (a < 32) && decide (n < 64)
  | .erd a n => decide (a < 32) && decide (n < 64)
  | .nop => true
  | .trap d a => decide (d < 32) && decide (a < 32)
  | .eret => true
  | .wfe => true
  | .synci => true
  | .tlbinvPage a => decide (a < 32)
  | .tlbinvJob => true
  | .brk d => decide (d < 32)
  | .crd d i => decide (d < 32) && decide (i < 4096) && crdIndex i
  | .cwr a i => decide (a < 32) && decide (i < 4096) && cwrIndex i
  | .safept i => decide (i < 65536)
  | .kadd _ _ _ _ _ => true
  | .ksub _ _ _ _ _ => true
  | .kmul _ _ _ _ _ => true
  | .kmac _ _ _ _ _ => true
  | .kand _ _ _ _ _ => true
  | .kor _ _ _ _ _ => true
  | .kxor _ _ _ _ _ => true
  | .kshl _ _ _ _ _ => true
  | .kshr _ _ _ _ _ => true
  | .kcmp _ _ _ _ _ => true
  | .ksel _ _ _ _ _ => true
  | .kmin _ _ _ _ _ => true
  | .kmax _ _ _ _ _ => true
  | .kcvt _ _ _ _ _ => true
  | .kpopc _ _ _ _ _ => true
  | .kpass _ _ _ _ _ => true
  | .kred _ _ _ _ _ => true
  | .kend _ _ _ _ _ => true
  | .ksetp _ _ _ _ _ => true
  | .kclrp _ _ _ _ _ => true
  | .kdeq _ _ _ _ _ => true
  | .kenq _ _ _ _ _ => true
  | .klgen _ _ _ _ _ => true
  | .kmrd _ _ _ _ _ => true
  | .kmwr _ _ _ _ _ => true
  | .wave _ _ _ _ => true
  | .knbadd _ _ _ _ _ => true
  | .knbscl _ _ _ _ _ => true
  | .knbsum _ _ _ _ _ => true
  | .packetArrival _ => true
  | .packetResend _ => true
  | .messageAcceptance _ _ => true
  | .deckRefill _ _ => true
  | .recordAging _ _ _ => true
  | .recordStart _ => true
  | .hardwareSuspension _ => true
  | .spawnSequencerSend _ => true
  | .engineOperationStart _ _ => true
  | .engineOperationCompletion _ _ => true
  | .sawmillQueueEntry _ _ => true
  | .sawmillStart _ => true
  | .sawmillCompletion _ => true
  | .cruiseStart _ => true
  | .cruiseCompletion _ => true
  | .tlbMissRequest _ _ _ => true
  | .walkRetry _ _ => true
  | .walkCompletion _ _ => true
  | .tlbinvCompletion _ _ => true
  | .storeRegistration _ => true
  | .ownedWordEviction _ _ => true
  | .updateOnlyFlush _ _ => true
  | .landingRetry _ => true
  | .pageRequestEntry _ => true
  | .pageRequestAnswer _ _ => true
  | .faultDelivery _ => true
  | .faultDeliveryRetry _ => true
  | .heartbeatMiss _ => true
  | .spareTakeover _ => true
  | .partialMessageDiscard _ _ => true
  | .wfeTimeout _ => true
  | .hostActiveMessage _ _ _ _ _ => true
  | .hostMessageRetry _ => true
  | .install _ => true
  | .remove _ => true
  | .aset _ => true
  | .shoot _ => true
  | .bind _ => true
  | .grant _ => true
  | .hotread _ => true
  | .region _ => true
  | .qpset _ => true
  | .govctlWrite _ _ => true
  | .registerWrite _ _ _ _ => true
  | .hotnessHalving _ => true
  | .monitorRefresh _ _ _ _ => true
  | .currentLimit _ => true
  | .thermalTrip _ => true
  | .boot _ _ => true
  | .recoveryImageWrite _ _ => true
  | .fuseWrite _ _ _ => true
  | .getVersion _ => true
  | .getCapabilities _ => true
  | .negotiateAlgorithms _ _ _ => true
  | .getDigests _ => true
  | .getCertificate _ _ _ _ => true
  | .challenge _ _ _ => true
  | .getMeasurements _ _ => true
  | .spdmOtherRequest _ _ => true
  | .debugToken _ _ _ => true
  | .lifecycleChange _ _ => true
  | .powerStateChange _ _ => true
  | .deviceReset => true
  | .preEmption _ _ => true
  | .restoration _ _ => true
  | .safePointModeSet _ _ => true
  | .safePointTimeout _ => true
  | .safePointRelease _ _ => true
  | .chunkStart _ _ => true
  | .chunkCompletion _ _ => true
  | .chunkRedo _ _ => true
  | .playAbort _ _ => true
  | .linkRetransmission _ _ => true
  | .laneDown _ _ _ => true
  | .routerUncorrectable _ => true
  | .unreachableTimeout _ _ => true
  | .ucieLaneRepair _ _ => true
  | .ucieLinkDown _ _ => true
  | .cxlPortFailure _ _ _ => true
  | .cxlPortRecovery _ _ => true
  | .ethReceive _ _ _ _ _ _ => true
  | .ethSendCompletion _ _ => true
  | .rnrRetry _ _ => true
  | .ethPortDown _ _ => true
  | .patrolScrub _ _ => true
  | .hostHdmAccess _ _ _ _ _ => true
  | .remoteStoreAcknowledgement _ => true
  | .currentFallsBelowLimit _ => true
  | .laneDisable _ _ _ => true
  | .corePoweredDown _ => true
  | .debugAccess _ _ _ _ _ _ => true
  | .workEntryReached _ _ _ => true
  | .softError _ _ => true

/-- The instruction is a legal term. -/
abbrev WellFormed (i : Instr) : Prop := wellFormed i = true

/-- The instruction is one of the 216 that have a word. -/
def isCoreWord : Instr → Bool
  | .add _ _ _ => true
  | .sub _ _ _ => true
  | .and _ _ _ => true
  | .or _ _ _ => true
  | .xor _ _ _ => true
  | .andn _ _ _ => true
  | .sll _ _ _ => true
  | .srl _ _ _ => true
  | .sra _ _ _ => true
  | .rol _ _ _ => true
  | .mul _ _ _ => true
  | .mulh _ _ _ => true
  | .mulhu _ _ _ => true
  | .div _ _ _ => true
  | .divu _ _ _ => true
  | .rem _ _ _ => true
  | .remu _ _ _ => true
  | .min _ _ _ => true
  | .max _ _ _ => true
  | .minu _ _ _ => true
  | .maxu _ _ _ => true
  | .slt _ _ _ => true
  | .sltu _ _ _ => true
  | .seq _ _ _ => true
  | .clz _ _ => true
  | .ctz _ _ => true
  | .popc _ _ => true
  | .brev _ _ => true
  | .bswap _ _ => true
  | .sext _ _ _ => true
  | .zext _ _ _ => true
  | .extr _ _ _ => true
  | .insr _ _ _ => true
  | .sel _ _ _ => true
  | .addi _ _ _ => true
  | .andi _ _ _ => true
  | .ori _ _ _ => true
  | .xori _ _ _ => true
  | .slti _ _ _ => true
  | .slli _ _ _ => true
  | .srli _ _ _ => true
  | .srai _ _ _ => true
  | .lih _ _ _ => true
  | .lil _ _ => true
  | .lea _ _ _ => true
  | .addpc _ _ => true
  | .ldB _ _ _ => true
  | .ldH _ _ _ => true
  | .ldW _ _ _ => true
  | .ldD _ _ _ => true
  | .ldBZ _ _ _ => true
  | .ldHZ _ _ _ => true
  | .ldWZ _ _ _ => true
  | .stB _ _ _ => true
  | .stH _ _ _ => true
  | .stW _ _ _ => true
  | .stD _ _ _ => true
  | .ldx _ _ _ _ _ _ => true
  | .stx _ _ _ _ _ => true
  | .ldfTake _ _ => true
  | .ldfPeek _ _ => true
  | .ste _ _ => true
  | .tagset _ _ => true
  | .tagget _ _ => true
  | .acq => true
  | .rel => true
  | .fenceE _ _ => true
  | .pref _ => true
  | .aadd _ _ _ _ => true
  | .amin _ _ _ _ _ => true
  | .amax _ _ _ _ _ => true
  | .aand _ _ _ _ => true
  | .aor _ _ _ _ => true
  | .axor _ _ _ _ => true
  | .aswp _ _ _ _ => true
  | .acas _ _ _ _ => true
  | .afadd _ _ _ => true
  | .aupd _ _ _ _ _ => true
  | .beq _ _ _ => true
  | .bne _ _ _ => true
  | .blt _ _ _ => true
  | .bge _ _ _ => true
  | .bltu _ _ _ => true
  | .bgeu _ _ _ => true
  | .bz _ _ => true
  | .bnz _ _ => true
  | .jmp _ => true
  | .jal _ => true
  | .jr _ => true
  | .jalr _ _ => true
  | .loop _ _ _ => true
  | .loopi _ _ _ => true
  | .vadd _ _ _ _ => true
  | .vsub _ _ _ _ => true
  | .vmul _ _ _ _ => true
  | .vfma _ _ _ _ => true
  | .vfms _ _ _ _ => true
  | .vmin _ _ _ _ => true
  | .vmax _ _ _ _ => true
  | .vabs _ _ _ => true
  | .vneg _ _ _ => true
  | .vand _ _ _ _ => true
  | .vor _ _ _ _ => true
  | .vxor _ _ _ _ => true
  | .vshl _ _ _ _ => true
  | .vshr _ _ _ _ => true
  | .vcmp _ _ _ _ _ => true
  | .vsel _ _ _ _ => true
  | .vrcp _ _ _ => true
  | .vrsq _ _ _ => true
  | .vexp2 _ _ _ => true
  | .vlog2 _ _ _ => true
  | .vpack _ _ _ => true
  | .vunpk _ _ _ => true
  | .vsplat _ _ _ _ => true
  | .vext _ _ _ => true
  | .vins _ _ _ => true
  | .vperm _ _ _ _ => true
  | .vred _ _ _ _ => true
  | .vscan _ _ _ _ => true
  | .vcvt _ _ _ _ _ => true
  | .vld _ _ _ _ => true
  | .vst _ _ _ _ => true
  | .vlds _ _ _ _ _ => true
  | .vsts _ _ _ _ _ => true
  | .vldi _ _ _ _ _ => true
  | .vsti _ _ _ _ _ => true
  | .vldp _ _ _ _ => true
  | .vstp _ _ _ => true
  | .vnzs _ _ _ => true
  | .vband _ _ _ _ => true
  | .vpopp _ _ _ => true
  | .visect _ _ _ _ => true
  | .vmovmMaskToVector _ _ => true
  | .mand _ _ _ => true
  | .mor _ _ _ => true
  | .mnot _ _ => true
  | .mpop _ _ => true
  | .vmovmVectorToMask _ _ => true
  | .send _ _ _ _ => true
  | .sendi _ _ _ _ => true
  | .sendm _ _ _ _ _ => true
  | .spawn _ _ _ _ => true
  | .xdsp _ _ _ _ => true
  | .endThread => true
  | .yield => true
  | .suspend _ _ => true
  | .resume _ _ _ => true
  | .hbeat => true
  | .cnti _ _ => true
  | .cnta _ _ _ => true
  | .cntaRel _ _ _ => true
  | .cntw _ _ _ => true
  | .cntt _ _ _ => true
  | .barinit _ _ => true
  | .bararv _ _ => true
  | .bardrop _ => true
  | .barwait _ _ => true
  | .bartx _ _ => true
  | .gjoin _ _ => true
  | .gleave _ _ => true
  | .gld _ _ _ _ => true
  | .gldf _ _ _ _ => true
  | .gbar _ _ => true
  | .ginfo _ _ => true
  | .gbarRelease _ _ _ => false
  | .fork _ _ => true
  | .join _ => true
  | .dqpush _ _ => true
  | .dqpop _ _ => true
  | .rget _ _ => true
  | .rput _ _ => true
  | .rtake _ _ _ => true
  | .rfree _ _ _ => true
  | .ecopy _ _ _ => true
  | .egath _ _ _ _ => true
  | .escat _ _ _ _ => true
  | .esub _ _ => true
  | .ebind _ _ _ => true
  | .enear _ _ _ => true
  | .eqry _ _ => true
  | .qload _ _ _ => true
  | .qplay _ _ => true
  | .nsend _ _ => true
  | .nrecv _ _ => true
  | .npoll _ _ _ => true
  | .migr _ _ _ => true
  | .mzero _ _ => true
  | .mlda _ _ => true
  | .mldb _ _ => true
  | .mpost _ _ => true
  | .mop _ _ _ => true
  | .mopm _ _ _ _ => true
  | .mst _ _ _ => true
  | .mrd _ _ _ => true
  | .mscale _ _ _ _ => true
  | .mstat _ _ _ => true
  | .cruise _ _ _ => true
  | .blaze _ _ _ _ => true
  | .blzmov _ _ => true
  | .blzmovStore _ _ => true
  | .blzmovLoad _ _ _ => true
  | .blzmovAnd _ _ => true
  | .blzpop _ _ _ => true
  | .ewr _ _ => true
  | .erd _ _ => true
  | .nop => true
  | .trap _ _ => true
  | .eret => true
  | .wfe => true
  | .synci => true
  | .tlbinvPage _ => true
  | .tlbinvJob => true
  | .brk _ => true
  | .crd _ _ => true
  | .cwr _ _ => true
  | .safept _ => true
  | .kadd _ _ _ _ _ => false
  | .ksub _ _ _ _ _ => false
  | .kmul _ _ _ _ _ => false
  | .kmac _ _ _ _ _ => false
  | .kand _ _ _ _ _ => false
  | .kor _ _ _ _ _ => false
  | .kxor _ _ _ _ _ => false
  | .kshl _ _ _ _ _ => false
  | .kshr _ _ _ _ _ => false
  | .kcmp _ _ _ _ _ => false
  | .ksel _ _ _ _ _ => false
  | .kmin _ _ _ _ _ => false
  | .kmax _ _ _ _ _ => false
  | .kcvt _ _ _ _ _ => false
  | .kpopc _ _ _ _ _ => false
  | .kpass _ _ _ _ _ => false
  | .kred _ _ _ _ _ => false
  | .kend _ _ _ _ _ => false
  | .ksetp _ _ _ _ _ => false
  | .kclrp _ _ _ _ _ => false
  | .kdeq _ _ _ _ _ => false
  | .kenq _ _ _ _ _ => false
  | .klgen _ _ _ _ _ => false
  | .kmrd _ _ _ _ _ => false
  | .kmwr _ _ _ _ _ => false
  | .wave _ _ _ _ => false
  | .knbadd _ _ _ _ _ => false
  | .knbscl _ _ _ _ _ => false
  | .knbsum _ _ _ _ _ => false
  | .packetArrival _ => false
  | .packetResend _ => false
  | .messageAcceptance _ _ => false
  | .deckRefill _ _ => false
  | .recordAging _ _ _ => false
  | .recordStart _ => false
  | .hardwareSuspension _ => false
  | .spawnSequencerSend _ => false
  | .engineOperationStart _ _ => false
  | .engineOperationCompletion _ _ => false
  | .sawmillQueueEntry _ _ => false
  | .sawmillStart _ => false
  | .sawmillCompletion _ => false
  | .cruiseStart _ => false
  | .cruiseCompletion _ => false
  | .tlbMissRequest _ _ _ => false
  | .walkRetry _ _ => false
  | .walkCompletion _ _ => false
  | .tlbinvCompletion _ _ => false
  | .storeRegistration _ => false
  | .ownedWordEviction _ _ => false
  | .updateOnlyFlush _ _ => false
  | .landingRetry _ => false
  | .pageRequestEntry _ => false
  | .pageRequestAnswer _ _ => false
  | .faultDelivery _ => false
  | .faultDeliveryRetry _ => false
  | .heartbeatMiss _ => false
  | .spareTakeover _ => false
  | .partialMessageDiscard _ _ => false
  | .wfeTimeout _ => false
  | .hostActiveMessage _ _ _ _ _ => false
  | .hostMessageRetry _ => false
  | .install _ => false
  | .remove _ => false
  | .aset _ => false
  | .shoot _ => false
  | .bind _ => false
  | .grant _ => false
  | .hotread _ => false
  | .region _ => false
  | .qpset _ => false
  | .govctlWrite _ _ => false
  | .registerWrite _ _ _ _ => false
  | .hotnessHalving _ => false
  | .monitorRefresh _ _ _ _ => false
  | .currentLimit _ => false
  | .thermalTrip _ => false
  | .boot _ _ => false
  | .recoveryImageWrite _ _ => false
  | .fuseWrite _ _ _ => false
  | .getVersion _ => false
  | .getCapabilities _ => false
  | .negotiateAlgorithms _ _ _ => false
  | .getDigests _ => false
  | .getCertificate _ _ _ _ => false
  | .challenge _ _ _ => false
  | .getMeasurements _ _ => false
  | .spdmOtherRequest _ _ => false
  | .debugToken _ _ _ => false
  | .lifecycleChange _ _ => false
  | .powerStateChange _ _ => false
  | .deviceReset => false
  | .preEmption _ _ => false
  | .restoration _ _ => false
  | .safePointModeSet _ _ => false
  | .safePointTimeout _ => false
  | .safePointRelease _ _ => false
  | .chunkStart _ _ => false
  | .chunkCompletion _ _ => false
  | .chunkRedo _ _ => false
  | .playAbort _ _ => false
  | .linkRetransmission _ _ => false
  | .laneDown _ _ _ => false
  | .routerUncorrectable _ => false
  | .unreachableTimeout _ _ => false
  | .ucieLaneRepair _ _ => false
  | .ucieLinkDown _ _ => false
  | .cxlPortFailure _ _ _ => false
  | .cxlPortRecovery _ _ => false
  | .ethReceive _ _ _ _ _ _ => false
  | .ethSendCompletion _ _ => false
  | .rnrRetry _ _ => false
  | .ethPortDown _ _ => false
  | .patrolScrub _ _ => false
  | .hostHdmAccess _ _ _ _ _ => false
  | .remoteStoreAcknowledgement _ => false
  | .currentFallsBelowLimit _ => false
  | .laneDisable _ _ _ => false
  | .corePoweredDown _ => false
  | .debugAccess _ _ _ _ _ _ => false
  | .workEntryReached _ _ _ => false
  | .softError _ _ => false

end Sys2Proof
end

