-- ==== Sys2Proof/Decode.lean ====
section
/-! DEFINITION. The decoder and the encoder of core words (06 R148-R169, 07, 08, 09 R233, 10 R274, 11 R292, R310, R316).
`pick` reads the major opcode and the function fields and extracts the operand fields; `decodeWord` then accepts the term only when it
is well formed and its own word is the word that was read, so that every must-be-zero bit is checked (R152). -/

namespace Sys2Proof

/-- Bits [lo + n - 1 : lo] of w (R3). -/
def bits (w lo n : Nat) : Nat := w / 2 ^ lo % 2 ^ n

/-- The word of a well-formed instruction (R149); a step without an encoding has none, and gives 0, which is illegal (R154). -/
def encode : Instr → Nat
  | .add d a b => 0x4000000 + d * 2097152 + a * 65536 + b * 2048
  | .sub d a b => 0x4000001 + d * 2097152 + a * 65536 + b * 2048
  | .and d a b => 0x4000002 + d * 2097152 + a * 65536 + b * 2048
  | .or d a b => 0x4000003 + d * 2097152 + a * 65536 + b * 2048
  | .xor d a b => 0x4000004 + d * 2097152 + a * 65536 + b * 2048
  | .andn d a b => 0x4000005 + d * 2097152 + a * 65536 + b * 2048
  | .sll d a b => 0x4000006 + d * 2097152 + a * 65536 + b * 2048
  | .srl d a b => 0x4000007 + d * 2097152 + a * 65536 + b * 2048
  | .sra d a b => 0x4000008 + d * 2097152 + a * 65536 + b * 2048
  | .rol d a b => 0x4000009 + d * 2097152 + a * 65536 + b * 2048
  | .mul d a b => 0x400000a + d * 2097152 + a * 65536 + b * 2048
  | .mulh d a b => 0x400000b + d * 2097152 + a * 65536 + b * 2048
  | .mulhu d a b => 0x400000c + d * 2097152 + a * 65536 + b * 2048
  | .div d a b => 0x400000d + d * 2097152 + a * 65536 + b * 2048
  | .divu d a b => 0x400000e + d * 2097152 + a * 65536 + b * 2048
  | .rem d a b => 0x400000f + d * 2097152 + a * 65536 + b * 2048
  | .remu d a b => 0x4000010 + d * 2097152 + a * 65536 + b * 2048
  | .min d a b => 0x4000011 + d * 2097152 + a * 65536 + b * 2048
  | .max d a b => 0x4000012 + d * 2097152 + a * 65536 + b * 2048
  | .minu d a b => 0x4000013 + d * 2097152 + a * 65536 + b * 2048
  | .maxu d a b => 0x4000014 + d * 2097152 + a * 65536 + b * 2048
  | .slt d a b => 0x4000015 + d * 2097152 + a * 65536 + b * 2048
  | .sltu d a b => 0x4000016 + d * 2097152 + a * 65536 + b * 2048
  | .seq d a b => 0x4000017 + d * 2097152 + a * 65536 + b * 2048
  | .clz d a => 0x4000018 + d * 2097152 + a * 65536
  | .ctz d a => 0x4000019 + d * 2097152 + a * 65536
  | .popc d a => 0x400001a + d * 2097152 + a * 65536
  | .brev d a => 0x400001b + d * 2097152 + a * 65536
  | .bswap d a => 0x400001c + d * 2097152 + a * 65536
  | .sext d a b => 0x400001d + d * 2097152 + a * 65536 + b * 2048
  | .zext d a b => 0x400001e + d * 2097152 + a * 65536 + b * 2048
  | .extr d a b => 0x400001f + d * 2097152 + a * 65536 + b * 2048
  | .insr d a b => 0x4000020 + d * 2097152 + a * 65536 + b * 2048
  | .sel d a b => 0x4000021 + d * 2097152 + a * 65536 + b * 2048
  | .addi d a i => 0x8000000 + d * 2097152 + a * 65536 + i
  | .andi d a i => 0xc000000 + d * 2097152 + a * 65536 + i
  | .ori d a i => 0x10000000 + d * 2097152 + a * 65536 + i
  | .xori d a i => 0x14000000 + d * 2097152 + a * 65536 + i
  | .slti d a i => 0x18000000 + d * 2097152 + a * 65536 + i
  | .slli d a s => 0x1c000000 + d * 2097152 + a * 65536 + s
  | .srli d a s => 0x1c004000 + d * 2097152 + a * 65536 + s
  | .srai d a s => 0x1c008000 + d * 2097152 + a * 65536 + s
  | .lih d a i => 0x20000000 + d * 2097152 + a * 65536 + i
  | .lil d i => 0x24000000 + d * 2097152 + i
  | .lea d a i => 0x28000000 + d * 2097152 + a * 65536 + i
  | .addpc d i => 0x2c000000 + d * 2097152 + i
  | .ldB d a i => 0x40000000 + d * 2097152 + a * 65536 + i
  | .ldH d a i => 0x44000000 + d * 2097152 + a * 65536 + i
  | .ldW d a i => 0x48000000 + d * 2097152 + a * 65536 + i
  | .ldD d a i => 0x4c000000 + d * 2097152 + a * 65536 + i
  | .ldBZ d a i => 0x50000000 + d * 2097152 + a * 65536 + i
  | .ldHZ d a i => 0x54000000 + d * 2097152 + a * 65536 + i
  | .ldWZ d a i => 0x58000000 + d * 2097152 + a * 65536 + i
  | .stB a b i => 0x60000000 + a * 2097152 + b * 65536 + i
  | .stH a b i => 0x64000000 + a * 2097152 + b * 65536 + i
  | .stW a b i => 0x68000000 + a * 2097152 + b * 65536 + i
  | .stD a b i => 0x6c000000 + a * 2097152 + b * 65536 + i
  | .ldx d a b x z w => 0x70000000 + d * 2097152 + a * 65536 + b * 2048 + x * 16 + z * 8 + w
  | .stx d a b x w => 0x70000004 + d * 2097152 + a * 65536 + b * 2048 + x * 16 + w
  | .ldfTake d a => 0x74000000 + d * 2097152 + a * 65536
  | .ldfPeek d a => 0x74000001 + d * 2097152 + a * 65536
  | .ste a b => 0x74000002 + a * 65536 + b * 2048
  | .tagset a b => 0x74000003 + a * 65536 + b * 2048
  | .tagget d a => 0x74000004 + d * 2097152 + a * 65536
  | .acq => 0x74000005
  | .rel => 0x74000006
  | .fenceE a b => 0x74000007 + a * 65536 + b * 2048
  | .pref a => 0x74000008 + a * 65536
  | .aadd d a b w => 0x78000000 + d * 2097152 + a * 65536 + b * 2048 + w * 16
  | .amin d a b u w => 0x78000001 + d * 2097152 + a * 65536 + b * 2048 + u * 64 + w * 16
  | .amax d a b u w => 0x78000002 + d * 2097152 + a * 65536 + b * 2048 + u * 64 + w * 16
  | .aand d a b w => 0x78000003 + d * 2097152 + a * 65536 + b * 2048 + w * 16
  | .aor d a b w => 0x78000004 + d * 2097152 + a * 65536 + b * 2048 + w * 16
  | .axor d a b w => 0x78000005 + d * 2097152 + a * 65536 + b * 2048 + w * 16
  | .aswp d a b w => 0x78000006 + d * 2097152 + a * 65536 + b * 2048 + w * 16
  | .acas d a b w => 0x78000007 + d * 2097152 + a * 65536 + b * 2048 + w * 16
  | .afadd d a b => 0x78000028 + d * 2097152 + a * 65536 + b * 2048
  | .aupd a b o u w => 0x78000009 + a * 65536 + b * 2048 + o * 128 + u * 64 + w * 16
  | .beq a b i => 0x80000000 + a * 2097152 + b * 65536 + i
  | .bne a b i => 0x84000000 + a * 2097152 + b * 65536 + i
  | .blt a b i => 0x88000000 + a * 2097152 + b * 65536 + i
  | .bge a b i => 0x8c000000 + a * 2097152 + b * 65536 + i
  | .bltu a b i => 0x90000000 + a * 2097152 + b * 65536 + i
  | .bgeu a b i => 0x94000000 + a * 2097152 + b * 65536 + i
  | .bz a i => 0x98000000 + a * 2097152 + i
  | .bnz a i => 0x9c000000 + a * 2097152 + i
  | .jmp j => 0xa0000000 + j
  | .jal j => 0xa4000000 + j
  | .jr a => 0xa8000000 + a * 65536
  | .jalr d a => 0xa8000001 + d * 2097152 + a * 65536
  | .loop l c n => 0xac000000 + l * 33554432 + c * 1048576 + n * 1024
  | .loopi l k n => 0xb0000000 + l * 33554432 + (k / 1024) * 1048576 + n * 1024 + k % 1024
  | .vadd d a b m => 0xc0000000 + d * 2097152 + a * 65536 + b * 2048 + m * 256
  | .vsub d a b m => 0xc0000001 + d * 2097152 + a * 65536 + b * 2048 + m * 256
  | .vmul d a b m => 0xc0000002 + d * 2097152 + a * 65536 + b * 2048 + m * 256
  | .vfma d a b m => 0xc0000003 + d * 2097152 + a * 65536 + b * 2048 + m * 256
  | .vfms d a b m => 0xc0000004 + d * 2097152 + a * 65536 + b * 2048 + m * 256
  | .vmin d a b m => 0xc0000005 + d * 2097152 + a * 65536 + b * 2048 + m * 256
  | .vmax d a b m => 0xc0000006 + d * 2097152 + a * 65536 + b * 2048 + m * 256
  | .vabs d a m => 0xc0000007 + d * 2097152 + a * 65536 + m * 256
  | .vneg d a m => 0xc0000008 + d * 2097152 + a * 65536 + m * 256
  | .vand d a b m => 0xc0000009 + d * 2097152 + a * 65536 + b * 2048 + m * 256
  | .vor d a b m => 0xc000000a + d * 2097152 + a * 65536 + b * 2048 + m * 256
  | .vxor d a b m => 0xc000000b + d * 2097152 + a * 65536 + b * 2048 + m * 256
  | .vshl d a b m => 0xc000000c + d * 2097152 + a * 65536 + b * 2048 + m * 256
  | .vshr d a b m => 0xc000000d + d * 2097152 + a * 65536 + b * 2048 + m * 256
  | .vcmp d a b m c => 0xc0000010 + d * 2097152 + a * 65536 + b * 2048 + m * 256 + c
  | .vsel d a b m => 0xc0000016 + d * 2097152 + a * 65536 + b * 2048 + m * 256
  | .vrcp d a m => 0xc0000018 + d * 2097152 + a * 65536 + m * 256
  | .vrsq d a m => 0xc0000019 + d * 2097152 + a * 65536 + m * 256
  | .vexp2 d a m => 0xc000001a + d * 2097152 + a * 65536 + m * 256
  | .vlog2 d a m => 0xc000001b + d * 2097152 + a * 65536 + m * 256
  | .vpack d a b => 0xc0000020 + d * 2097152 + a * 65536 + b * 2048
  | .vunpk d a h => 0xc0000021 + d * 2097152 + a * 65536 + h * 2048
  | .vsplat d a t m => 0xc0000022 + d * 2097152 + a * 65536 + t * 2048 + m * 256
  | .vext d a b => 0xc0000023 + d * 2097152 + a * 65536 + b * 2048
  | .vins d a b => 0xc0000024 + d * 2097152 + a * 65536 + b * 2048
  | .vperm d a b m => 0xc0000025 + d * 2097152 + a * 65536 + b * 2048 + m * 256
  | .vred d a m o => 0xc0000028 + d * 2097152 + a * 65536 + m * 256 + o
  | .vscan d a m o => 0xc0000030 + d * 2097152 + a * 65536 + m * 256 + o
  | .vcvt d a r m t => 0xc0000040 + d * 2097152 + a * 65536 + r * 2048 + m * 256 + t
  | .vld d a m t => 0xc4000000 + d * 2097152 + a * 65536 + m * 256 + t
  | .vst d a m t => 0xc4000010 + d * 2097152 + a * 65536 + m * 256 + t
  | .vlds d a b m t => 0xc4000020 + d * 2097152 + a * 65536 + b * 2048 + m * 256 + t
  | .vsts d a b m t => 0xc4000030 + d * 2097152 + a * 65536 + b * 2048 + m * 256 + t
  | .vldi d a b m t => 0xc4000040 + d * 2097152 + a * 65536 + b * 2048 + m * 256 + t
  | .vsti d a b m t => 0xc4000050 + d * 2097152 + a * 65536 + b * 2048 + m * 256 + t
  | .vldp d a m n => 0xc4000060 + d * 2097152 + a * 65536 + m * 256 + n
  | .vstp d a m => 0xc4000070 + d * 2097152 + a * 65536 + m * 256
  | .vnzs d a m => 0xc8000000 + d * 2097152 + a * 65536 + m * 256
  | .vband d a b m => 0xc8000001 + d * 2097152 + a * 65536 + b * 2048 + m * 256
  | .vpopp d a m => 0xc8000002 + d * 2097152 + a * 65536 + m * 256
  | .visect d a b m => 0xc8000003 + d * 2097152 + a * 65536 + b * 2048 + m * 256
  | .vmovmMaskToVector d a => 0xc8000008 + d * 2097152 + a * 65536
  | .mand d a b => 0xc8000009 + d * 2097152 + a * 65536 + b * 2048
  | .mor d a b => 0xc800000a + d * 2097152 + a * 65536 + b * 2048
  | .mnot d a => 0xc800000b + d * 2097152 + a * 65536
  | .mpop d a => 0xc800000c + d * 2097152 + a * 65536
  | .vmovmVectorToMask d a => 0xc800000d + d * 2097152 + a * 65536
  | .send a b p h => 0xd0000000 + a * 2097152 + b * 65536 + p * 4096 + h
  | .sendi a b p h => 0xd4000000 + a * 2097152 + b * 65536 + p * 4096 + h
  | .sendm a b r p h => 0xd8000000 + a * 2097152 + b * 65536 + r * 16384 + p * 4096 + h
  | .spawn a b p h => 0xdc000000 + a * 2097152 + b * 65536 + p * 4096 + h
  | .xdsp a b p h => 0xe0000000 + a * 2097152 + b * 65536 + p * 4096 + h
  | .endThread => 0xe4000000
  | .yield => 0xe4000001
  | .suspend a b => 0xe4000002 + a * 65536 + b * 2048
  | .resume d a b => 0xe4000003 + d * 2097152 + a * 65536 + b * 2048
  | .hbeat => 0xe4000004
  | .cnti a b => 0xe4000008 + a * 65536 + b * 2048
  | .cnta d a b => 0xe4000009 + d * 2097152 + a * 65536 + b * 2048
  | .cntaRel d a b => 0xe400000a + d * 2097152 + a * 65536 + b * 2048
  | .cntw d a b => 0xe400000b + d * 2097152 + a * 65536 + b * 2048
  | .cntt d a b => 0xe400000c + d * 2097152 + a * 65536 + b * 2048
  | .barinit a b => 0xe4000010 + a * 65536 + b * 2048
  | .bararv d a => 0xe4000011 + d * 2097152 + a * 65536
  | .bardrop a => 0xe4000012 + a * 65536
  | .barwait a b => 0xe4000013 + a * 65536 + b * 2048
  | .bartx a b => 0xe4000014 + a * 65536 + b * 2048
  | .gjoin d b => 0xe4000018 + d * 2097152 + b * 2048
  | .gleave d b => 0xe4000019 + d * 2097152 + b * 2048
  | .gld d a t o => 0xe400001a + d * 2097152 + a * 65536 + t * 512 + o * 64
  | .gldf d a t o => 0xe400001b + d * 2097152 + a * 65536 + t * 512 + o * 64
  | .gbar d b => 0xe400001c + d * 2097152 + b * 2048
  | .ginfo d b => 0xe400001d + d * 2097152 + b * 2048
  | .fork a b => 0xe4000020 + a * 65536 + b * 2048
  | .join a => 0xe4000021 + a * 65536
  | .dqpush d a => 0xe4000022 + d * 2097152 + a * 65536
  | .dqpop d a => 0xe4000023 + d * 2097152 + a * 65536
  | .rget d a => 0xe4000028 + d * 2097152 + a * 65536
  | .rput a b => 0xe4000029 + a * 65536 + b * 2048
  | .rtake d a b => 0xe400002a + d * 2097152 + a * 65536 + b * 2048
  | .rfree d a b => 0xe400002b + d * 2097152 + a * 65536 + b * 2048
  | .ecopy a b s => 0xe8000000 + a * 2048 + b * 64 + s * 8
  | .egath a b s o => 0xe8400000 + a * 2048 + b * 64 + s * 8 + o
  | .escat a b s o => 0xe8410000 + a * 2048 + b * 64 + s * 8 + o
  | .esub a b => 0xe8800000 + a * 2048 + b * 64
  | .ebind a b s => 0xe8810000 + a * 2048 + b * 64 + s * 8
  | .enear a b s => 0xe8820000 + a * 2048 + b * 64 + s * 8
  | .eqry a s => 0xe8c00000 + a * 2048 + s * 8
  | .qload a b s => 0xe9000000 + a * 2048 + b * 64 + s * 8
  | .qplay a s => 0xe9010000 + a * 2048 + s * 8
  | .nsend a b => 0xe9400000 + a * 2048 + b * 64
  | .nrecv a b => 0xe9410000 + a * 2048 + b * 64
  | .npoll a b s => 0xe9420000 + a * 2048 + b * 64 + s * 8
  | .migr a b s => 0xe9800000 + a * 2048 + b * 64 + s * 8
  | .mzero m t => 0xe9c00000 + m * 8 + t
  | .mlda a b => 0xe9c10000 + a * 2048 + b * 64
  | .mldb a b => 0xe9c20000 + a * 2048 + b * 64
  | .mpost a b => 0xe9c30000 + a * 2048 + b * 64
  | .mop a b s => 0xe9c40000 + a * 2048 + b * 64 + s
  | .mopm a b k s => 0xe9c50000 + a * 2048 + b * 64 + k * 8 + s
  | .mst a b s => 0xe9c60000 + a * 2048 + b * 64 + s
  | .mrd a b t => 0xe9c70000 + a * 2048 + b * 64 + t
  | .mscale a b p t => 0xe9c80000 + a * 2048 + b * 64 + p * 8 + t
  | .mstat a c t => 0xe9c90000 + a * 2048 + c * 8 + t
  | .cruise a b s => 0xea000000 + a * 2048 + b * 64 + s
  | .blaze a b m d => 0xea010000 + a * 2048 + b * 64 + m * 4 + d
  | .blzmov s d => 0xea020000 + s * 16 + d
  | .blzmovStore a s => 0xea020004 + a * 2048 + s * 16
  | .blzmovLoad a b d => 0xea020008 + a * 2048 + b * 64 + d
  | .blzmovAnd s d => 0xea02000c + s * 16 + d
  | .blzpop a b s => 0xea030000 + a * 2048 + b * 64 + s
  | .ewr a n => 0xea400000 + a * 2048 + n
  | .erd a n => 0xea410000 + a * 2048 + n
  | .nop => 0xec000000
  | .trap d a => 0xec000001 + d * 2097152 + a * 65536
  | .eret => 0xec000002
  | .wfe => 0xec000003
  | .synci => 0xec000004
  | .tlbinvPage a => 0xec000005 + a * 65536
  | .tlbinvJob => 0xec200005
  | .brk d => 0xec000006 + d * 2097152
  | .crd d i => 0xf0000000 + d * 2097152 + i
  | .cwr a i => 0xf4000000 + a * 65536 + i
  | .safept i => 0xf8000000 + i
  | _ => 0

/-- Major 0x01. -/
def pickAlu (w : Nat) : Option Instr :=
  match bits w 0 11 with
  | 0x00 => some (.add (bits w 21 5) (bits w 16 5) (bits w 11 5))
  | 0x01 => some (.sub (bits w 21 5) (bits w 16 5) (bits w 11 5))
  | 0x02 => some (.and (bits w 21 5) (bits w 16 5) (bits w 11 5))
  | 0x03 => some (.or (bits w 21 5) (bits w 16 5) (bits w 11 5))
  | 0x04 => some (.xor (bits w 21 5) (bits w 16 5) (bits w 11 5))
  | 0x05 => some (.andn (bits w 21 5) (bits w 16 5) (bits w 11 5))
  | 0x06 => some (.sll (bits w 21 5) (bits w 16 5) (bits w 11 5))
  | 0x07 => some (.srl (bits w 21 5) (bits w 16 5) (bits w 11 5))
  | 0x08 => some (.sra (bits w 21 5) (bits w 16 5) (bits w 11 5))
  | 0x09 => some (.rol (bits w 21 5) (bits w 16 5) (bits w 11 5))
  | 0x0A => some (.mul (bits w 21 5) (bits w 16 5) (bits w 11 5))
  | 0x0B => some (.mulh (bits w 21 5) (bits w 16 5) (bits w 11 5))
  | 0x0C => some (.mulhu (bits w 21 5) (bits w 16 5) (bits w 11 5))
  | 0x0D => some (.div (bits w 21 5) (bits w 16 5) (bits w 11 5))
  | 0x0E => some (.divu (bits w 21 5) (bits w 16 5) (bits w 11 5))
  | 0x0F => some (.rem (bits w 21 5) (bits w 16 5) (bits w 11 5))
  | 0x10 => some (.remu (bits w 21 5) (bits w 16 5) (bits w 11 5))
  | 0x11 => some (.min (bits w 21 5) (bits w 16 5) (bits w 11 5))
  | 0x12 => some (.max (bits w 21 5) (bits w 16 5) (bits w 11 5))
  | 0x13 => some (.minu (bits w 21 5) (bits w 16 5) (bits w 11 5))
  | 0x14 => some (.maxu (bits w 21 5) (bits w 16 5) (bits w 11 5))
  | 0x15 => some (.slt (bits w 21 5) (bits w 16 5) (bits w 11 5))
  | 0x16 => some (.sltu (bits w 21 5) (bits w 16 5) (bits w 11 5))
  | 0x17 => some (.seq (bits w 21 5) (bits w 16 5) (bits w 11 5))
  | 0x18 => some (.clz (bits w 21 5) (bits w 16 5))
  | 0x19 => some (.ctz (bits w 21 5) (bits w 16 5))
  | 0x1A => some (.popc (bits w 21 5) (bits w 16 5))
  | 0x1B => some (.brev (bits w 21 5) (bits w 16 5))
  | 0x1C => some (.bswap (bits w 21 5) (bits w 16 5))
  | 0x1D => some (.sext (bits w 21 5) (bits w 16 5) (bits w 11 5))
  | 0x1E => some (.zext (bits w 21 5) (bits w 16 5) (bits w 11 5))
  | 0x1F => some (.extr (bits w 21 5) (bits w 16 5) (bits w 11 5))
  | 0x20 => some (.insr (bits w 21 5) (bits w 16 5) (bits w 11 5))
  | 0x21 => some (.sel (bits w 21 5) (bits w 16 5) (bits w 11 5))
  | _ => none

/-- Major 0x07. -/
def pickShift (w : Nat) : Option Instr :=
  match bits w 14 2 with
  | 0x00 => some (.slli (bits w 21 5) (bits w 16 5) (bits w 0 6))
  | 0x01 => some (.srli (bits w 21 5) (bits w 16 5) (bits w 0 6))
  | 0x02 => some (.srai (bits w 21 5) (bits w 16 5) (bits w 0 6))
  | _ => none

/-- Major 0x1C. -/
def pickIndexed (w : Nat) : Option Instr :=
  match bits w 2 1 with
  | 0x00 => some (.ldx (bits w 21 5) (bits w 16 5) (bits w 11 5) (bits w 4 1) (bits w 3 1) (bits w 0 2))
  | 0x01 => some (.stx (bits w 21 5) (bits w 16 5) (bits w 11 5) (bits w 4 1) (bits w 0 2))
  | _ => none

/-- Major 0x1D. -/
def pickFullEmpty (w : Nat) : Option Instr :=
  match bits w 0 11 with
  | 0x00 => some (.ldfTake (bits w 21 5) (bits w 16 5))
  | 0x01 => some (.ldfPeek (bits w 21 5) (bits w 16 5))
  | 0x02 => some (.ste (bits w 16 5) (bits w 11 5))
  | 0x03 => some (.tagset (bits w 16 5) (bits w 11 5))
  | 0x04 => some (.tagget (bits w 21 5) (bits w 16 5))
  | 0x05 => some (.acq)
  | 0x06 => some (.rel)
  | 0x07 => some (.fenceE (bits w 16 5) (bits w 11 5))
  | 0x08 => some (.pref (bits w 16 5))
  | _ => none

/-- Major 0x1E. -/
def pickAtomic (w : Nat) : Option Instr :=
  match bits w 0 4 with
  | 0x00 => some (.aadd (bits w 21 5) (bits w 16 5) (bits w 11 5) (bits w 4 2))
  | 0x01 => some (.amin (bits w 21 5) (bits w 16 5) (bits w 11 5) (bits w 6 1) (bits w 4 2))
  | 0x02 => some (.amax (bits w 21 5) (bits w 16 5) (bits w 11 5) (bits w 6 1) (bits w 4 2))
  | 0x03 => some (.aand (bits w 21 5) (bits w 16 5) (bits w 11 5) (bits w 4 2))
  | 0x04 => some (.aor (bits w 21 5) (bits w 16 5) (bits w 11 5) (bits w 4 2))
  | 0x05 => some (.axor (bits w 21 5) (bits w 16 5) (bits w 11 5) (bits w 4 2))
  | 0x06 => some (.aswp (bits w 21 5) (bits w 16 5) (bits w 11 5) (bits w 4 2))
  | 0x07 => some (.acas (bits w 21 5) (bits w 16 5) (bits w 11 5) (bits w 4 2))
  | 0x08 => some (.afadd (bits w 21 5) (bits w 16 5) (bits w 11 5))
  | 0x09 => some (.aupd (bits w 16 5) (bits w 11 5) (bits w 7 3) (bits w 6 1) (bits w 4 2))
  | _ => none

/-- Major 0x2A. -/
def pickJump (w : Nat) : Option Instr :=
  match bits w 0 11 with
  | 0x00 => some (.jr (bits w 16 5))
  | 0x01 => some (.jalr (bits w 21 5) (bits w 16 5))
  | _ => none

/-- Major 0x30. -/
def pickVector (w : Nat) : Option Instr :=
  match bits w 0 8 with
  | 0x00 => some (.vadd (bits w 21 5) (bits w 16 5) (bits w 11 5) (bits w 8 3))
  | 0x01 => some (.vsub (bits w 21 5) (bits w 16 5) (bits w 11 5) (bits w 8 3))
  | 0x02 => some (.vmul (bits w 21 5) (bits w 16 5) (bits w 11 5) (bits w 8 3))
  | 0x03 => some (.vfma (bits w 21 5) (bits w 16 5) (bits w 11 5) (bits w 8 3))
  | 0x04 => some (.vfms (bits w 21 5) (bits w 16 5) (bits w 11 5) (bits w 8 3))
  | 0x05 => some (.vmin (bits w 21 5) (bits w 16 5) (bits w 11 5) (bits w 8 3))
  | 0x06 => some (.vmax (bits w 21 5) (bits w 16 5) (bits w 11 5) (bits w 8 3))
  | 0x07 => some (.vabs (bits w 21 5) (bits w 16 5) (bits w 8 3))
  | 0x08 => some (.vneg (bits w 21 5) (bits w 16 5) (bits w 8 3))
  | 0x09 => some (.vand (bits w 21 5) (bits w 16 5) (bits w 11 5) (bits w 8 3))
  | 0x0A => some (.vor (bits w 21 5) (bits w 16 5) (bits w 11 5) (bits w 8 3))
  | 0x0B => some (.vxor (bits w 21 5) (bits w 16 5) (bits w 11 5) (bits w 8 3))
  | 0x0C => some (.vshl (bits w 21 5) (bits w 16 5) (bits w 11 5) (bits w 8 3))
  | 0x0D => some (.vshr (bits w 21 5) (bits w 16 5) (bits w 11 5) (bits w 8 3))
  | 0x10 | 0x11 | 0x12 | 0x13 | 0x14 | 0x15 => some (.vcmp (bits w 21 3) (bits w 16 5) (bits w 11 5) (bits w 8 3) (bits w 0 3))
  | 0x16 => some (.vsel (bits w 21 5) (bits w 16 5) (bits w 11 5) (bits w 8 3))
  | 0x18 => some (.vrcp (bits w 21 5) (bits w 16 5) (bits w 8 3))
  | 0x19 => some (.vrsq (bits w 21 5) (bits w 16 5) (bits w 8 3))
  | 0x1A => some (.vexp2 (bits w 21 5) (bits w 16 5) (bits w 8 3))
  | 0x1B => some (.vlog2 (bits w 21 5) (bits w 16 5) (bits w 8 3))
  | 0x20 => some (.vpack (bits w 21 5) (bits w 16 5) (bits w 11 5))
  | 0x21 => some (.vunpk (bits w 21 5) (bits w 16 5) (bits w 11 1))
  | 0x22 => some (.vsplat (bits w 21 5) (bits w 16 5) (bits w 11 4) (bits w 8 3))
  | 0x23 => some (.vext (bits w 21 5) (bits w 16 5) (bits w 11 5))
  | 0x24 => some (.vins (bits w 21 5) (bits w 16 5) (bits w 11 5))
  | 0x25 => some (.vperm (bits w 21 5) (bits w 16 5) (bits w 11 5) (bits w 8 3))
  | 0x28 | 0x29 | 0x2A | 0x2B | 0x2C | 0x2D => some (.vred (bits w 21 5) (bits w 16 5) (bits w 8 3) (bits w 0 3))
  | 0x30 | 0x31 | 0x32 => some (.vscan (bits w 21 5) (bits w 16 5) (bits w 8 3) (bits w 0 2))
  | 0x41 | 0x42 | 0x43 | 0x44 | 0x45 | 0x46 | 0x47 | 0x48 => some (.vcvt (bits w 21 5) (bits w 16 5) (bits w 11 3) (bits w 8 3) (bits w 0 4))
  | _ => none

/-- Major 0x31. -/
def pickVectorMemory (w : Nat) : Option Instr :=
  match bits w 4 4 with
  | 0x00 => some (.vld (bits w 21 5) (bits w 16 5) (bits w 8 3) (bits w 0 4))
  | 0x01 => some (.vst (bits w 21 5) (bits w 16 5) (bits w 8 3) (bits w 0 4))
  | 0x02 => some (.vlds (bits w 21 5) (bits w 16 5) (bits w 11 5) (bits w 8 3) (bits w 0 4))
  | 0x03 => some (.vsts (bits w 21 5) (bits w 16 5) (bits w 11 5) (bits w 8 3) (bits w 0 4))
  | 0x04 => some (.vldi (bits w 21 5) (bits w 16 5) (bits w 11 5) (bits w 8 3) (bits w 0 4))
  | 0x05 => some (.vsti (bits w 21 5) (bits w 16 5) (bits w 11 5) (bits w 8 3) (bits w 0 4))
  | 0x06 => some (.vldp (bits w 21 5) (bits w 16 5) (bits w 8 3) (bits w 0 4))
  | 0x07 => some (.vstp (bits w 21 5) (bits w 16 5) (bits w 8 3))
  | _ => none

/-- Major 0x32. -/
def pickSparse (w : Nat) : Option Instr :=
  match bits w 0 8 with
  | 0x00 => some (.vnzs (bits w 21 5) (bits w 16 5) (bits w 8 3))
  | 0x01 => some (.vband (bits w 21 5) (bits w 16 5) (bits w 11 5) (bits w 8 3))
  | 0x02 => some (.vpopp (bits w 21 5) (bits w 16 5) (bits w 8 3))
  | 0x03 => some (.visect (bits w 21 5) (bits w 16 5) (bits w 11 5) (bits w 8 3))
  | 0x08 => some (.vmovmMaskToVector (bits w 21 5) (bits w 16 3))
  | 0x09 => some (.mand (bits w 21 3) (bits w 16 3) (bits w 11 3))
  | 0x0A => some (.mor (bits w 21 3) (bits w 16 3) (bits w 11 3))
  | 0x0B => some (.mnot (bits w 21 3) (bits w 16 3))
  | 0x0C => some (.mpop (bits w 21 5) (bits w 16 3))
  | 0x0D => some (.vmovmVectorToMask (bits w 21 3) (bits w 16 5))
  | _ => none

/-- Major 0x39. -/
def pickSync (w : Nat) : Option Instr :=
  match bits w 0 6 with
  | 0x00 => some (.endThread)
  | 0x01 => some (.yield)
  | 0x02 => some (.suspend (bits w 16 5) (bits w 11 5))
  | 0x03 => some (.resume (bits w 21 5) (bits w 16 5) (bits w 11 5))
  | 0x04 => some (.hbeat)
  | 0x08 => some (.cnti (bits w 16 5) (bits w 11 5))
  | 0x09 => some (.cnta (bits w 21 5) (bits w 16 5) (bits w 11 5))
  | 0x0A => some (.cntaRel (bits w 21 5) (bits w 16 5) (bits w 11 5))
  | 0x0B => some (.cntw (bits w 21 5) (bits w 16 5) (bits w 11 5))
  | 0x0C => some (.cntt (bits w 21 5) (bits w 16 5) (bits w 11 5))
  | 0x10 => some (.barinit (bits w 16 5) (bits w 11 5))
  | 0x11 => some (.bararv (bits w 21 5) (bits w 16 5))
  | 0x12 => some (.bardrop (bits w 16 5))
  | 0x13 => some (.barwait (bits w 16 5) (bits w 11 5))
  | 0x14 => some (.bartx (bits w 16 5) (bits w 11 5))
  | 0x18 => some (.gjoin (bits w 21 5) (bits w 11 5))
  | 0x19 => some (.gleave (bits w 21 5) (bits w 11 5))
  | 0x1A => some (.gld (bits w 21 5) (bits w 16 5) (bits w 9 2) (bits w 6 3))
  | 0x1B => some (.gldf (bits w 21 5) (bits w 16 5) (bits w 9 2) (bits w 6 3))
  | 0x1C => some (.gbar (bits w 21 5) (bits w 11 5))
  | 0x1D => some (.ginfo (bits w 21 5) (bits w 11 5))
  | 0x20 => some (.fork (bits w 16 5) (bits w 11 5))
  | 0x21 => some (.join (bits w 16 5))
  | 0x22 => some (.dqpush (bits w 21 5) (bits w 16 5))
  | 0x23 => some (.dqpop (bits w 21 5) (bits w 16 5))
  | 0x28 => some (.rget (bits w 21 5) (bits w 16 5))
  | 0x29 => some (.rput (bits w 16 5) (bits w 11 5))
  | 0x2A => some (.rtake (bits w 21 5) (bits w 16 5) (bits w 11 5))
  | 0x2B => some (.rfree (bits w 21 5) (bits w 16 5) (bits w 11 5))
  | _ => none

/-- Major 0x3A. -/
def pickEngine (w : Nat) : Option Instr :=
  match bits w 16 10 with
  | 0x000 => some (.ecopy (bits w 11 5) (bits w 6 5) (bits w 3 3))
  | 0x040 => some (.egath (bits w 11 5) (bits w 6 5) (bits w 3 3) (bits w 0 3))
  | 0x041 => some (.escat (bits w 11 5) (bits w 6 5) (bits w 3 3) (bits w 0 2))
  | 0x080 => some (.esub (bits w 11 5) (bits w 6 5))
  | 0x081 => some (.ebind (bits w 11 5) (bits w 6 5) (bits w 3 3))
  | 0x082 => some (.enear (bits w 11 5) (bits w 6 5) (bits w 3 3))
  | 0x0C0 => some (.eqry (bits w 11 5) (bits w 3 3))
  | 0x100 => some (.qload (bits w 11 5) (bits w 6 5) (bits w 3 3))
  | 0x101 => some (.qplay (bits w 11 5) (bits w 3 3))
  | 0x140 => some (.nsend (bits w 11 5) (bits w 6 5))
  | 0x141 => some (.nrecv (bits w 11 5) (bits w 6 5))
  | 0x142 => some (.npoll (bits w 11 5) (bits w 6 5) (bits w 3 3))
  | 0x180 => some (.migr (bits w 11 5) (bits w 6 5) (bits w 3 3))
  | 0x1C0 => some (.mzero (bits w 3 2) (bits w 0 3))
  | 0x1C1 => some (.mlda (bits w 11 5) (bits w 6 5))
  | 0x1C2 => some (.mldb (bits w 11 5) (bits w 6 5))
  | 0x1C3 => some (.mpost (bits w 11 5) (bits w 6 5))
  | 0x1C4 => some (.mop (bits w 11 5) (bits w 6 5) (bits w 0 3))
  | 0x1C5 => some (.mopm (bits w 11 5) (bits w 6 5) (bits w 3 2) (bits w 0 3))
  | 0x1C6 => some (.mst (bits w 11 5) (bits w 6 5) (bits w 0 3))
  | 0x1C7 => some (.mrd (bits w 11 5) (bits w 6 5) (bits w 0 3))
  | 0x1C8 => some (.mscale (bits w 11 5) (bits w 6 5) (bits w 3 1) (bits w 0 3))
  | 0x1C9 => some (.mstat (bits w 11 5) (bits w 3 1) (bits w 0 3))
  | 0x200 => some (.cruise (bits w 11 5) (bits w 6 5) (bits w 0 3))
  | 0x201 => some (.blaze (bits w 11 5) (bits w 6 5) (bits w 2 1) (bits w 0 2))
  | 0x202 => match bits w 2 2 with
    | 0 => some (.blzmov (bits w 4 2) (bits w 0 2))
    | 1 => some (.blzmovStore (bits w 11 5) (bits w 4 2))
    | 2 => some (.blzmovLoad (bits w 11 5) (bits w 6 5) (bits w 0 2))
    | 3 => some (.blzmovAnd (bits w 4 2) (bits w 0 2))
    | _ => none
  | 0x203 => some (.blzpop (bits w 11 5) (bits w 6 5) (bits w 0 2))
  | 0x240 => some (.ewr (bits w 11 5) (bits w 0 6))
  | 0x241 => some (.erd (bits w 11 5) (bits w 0 6))
  | _ => none

/-- Major 0x3B. -/
def pickSystem (w : Nat) : Option Instr :=
  match bits w 0 11 with
  | 0 => some (.nop)
  | 1 => some (.trap (bits w 21 5) (bits w 16 5))
  | 2 => some (.eret)
  | 3 => some (.wfe)
  | 4 => some (.synci)
  | 5 => if bits w 21 5 = 1 then some (.tlbinvJob) else some (.tlbinvPage (bits w 16 5))
  | 6 => some (.brk (bits w 21 5))
  | _ => none

/-- The term that the major opcode and the function fields name, before the legality checks (R154). -/
def pick (w : Nat) : Option Instr :=
  match bits w 26 6 with
  | 0x01 => pickAlu w
  | 0x02 => some (.addi (bits w 21 5) (bits w 16 5) (bits w 0 16))
  | 0x03 => some (.andi (bits w 21 5) (bits w 16 5) (bits w 0 16))
  | 0x04 => some (.ori (bits w 21 5) (bits w 16 5) (bits w 0 16))
  | 0x05 => some (.xori (bits w 21 5) (bits w 16 5) (bits w 0 16))
  | 0x06 => some (.slti (bits w 21 5) (bits w 16 5) (bits w 0 16))
  | 0x07 => pickShift w
  | 0x08 => some (.lih (bits w 21 5) (bits w 16 5) (bits w 0 16))
  | 0x09 => some (.lil (bits w 21 5) (bits w 0 16))
  | 0x0A => some (.lea (bits w 21 5) (bits w 16 5) (bits w 0 16))
  | 0x0B => some (.addpc (bits w 21 5) (bits w 0 16))
  | 0x10 => some (.ldB (bits w 21 5) (bits w 16 5) (bits w 0 16))
  | 0x11 => some (.ldH (bits w 21 5) (bits w 16 5) (bits w 0 16))
  | 0x12 => some (.ldW (bits w 21 5) (bits w 16 5) (bits w 0 16))
  | 0x13 => some (.ldD (bits w 21 5) (bits w 16 5) (bits w 0 16))
  | 0x14 => some (.ldBZ (bits w 21 5) (bits w 16 5) (bits w 0 16))
  | 0x15 => some (.ldHZ (bits w 21 5) (bits w 16 5) (bits w 0 16))
  | 0x16 => some (.ldWZ (bits w 21 5) (bits w 16 5) (bits w 0 16))
  | 0x18 => some (.stB (bits w 21 5) (bits w 16 5) (bits w 0 16))
  | 0x19 => some (.stH (bits w 21 5) (bits w 16 5) (bits w 0 16))
  | 0x1A => some (.stW (bits w 21 5) (bits w 16 5) (bits w 0 16))
  | 0x1B => some (.stD (bits w 21 5) (bits w 16 5) (bits w 0 16))
  | 0x1C => pickIndexed w
  | 0x1D => pickFullEmpty w
  | 0x1E => pickAtomic w
  | 0x20 => some (.beq (bits w 21 5) (bits w 16 5) (bits w 0 16))
  | 0x21 => some (.bne (bits w 21 5) (bits w 16 5) (bits w 0 16))
  | 0x22 => some (.blt (bits w 21 5) (bits w 16 5) (bits w 0 16))
  | 0x23 => some (.bge (bits w 21 5) (bits w 16 5) (bits w 0 16))
  | 0x24 => some (.bltu (bits w 21 5) (bits w 16 5) (bits w 0 16))
  | 0x25 => some (.bgeu (bits w 21 5) (bits w 16 5) (bits w 0 16))
  | 0x26 => some (.bz (bits w 21 5) (bits w 0 16))
  | 0x27 => some (.bnz (bits w 21 5) (bits w 0 16))
  | 0x28 => some (.jmp (bits w 0 26))
  | 0x29 => some (.jal (bits w 0 26))
  | 0x2A => pickJump w
  | 0x2B => some (.loop (bits w 25 1) (bits w 20 5) (bits w 10 10))
  | 0x2C => some (.loopi (bits w 25 1) (bits w 20 5 * 1024 + bits w 0 10) (bits w 10 10))
  | 0x30 => pickVector w
  | 0x31 => pickVectorMemory w
  | 0x32 => pickSparse w
  | 0x34 => some (.send (bits w 21 5) (bits w 16 5) (bits w 12 2) (bits w 0 12))
  | 0x35 => some (.sendi (bits w 21 5) (bits w 16 5) (bits w 12 2) (bits w 0 12))
  | 0x36 => some (.sendm (bits w 21 5) (bits w 16 5) (bits w 14 2) (bits w 12 2) (bits w 0 12))
  | 0x37 => some (.spawn (bits w 21 5) (bits w 16 5) (bits w 12 2) (bits w 0 12))
  | 0x38 => some (.xdsp (bits w 21 5) (bits w 16 5) (bits w 12 2) (bits w 0 12))
  | 0x39 => pickSync w
  | 0x3A => pickEngine w
  | 0x3B => pickSystem w
  | 0x3C => some (.crd (bits w 21 5) (bits w 0 12))
  | 0x3D => some (.cwr (bits w 16 5) (bits w 0 12))
  | 0x3E => some (.safept (bits w 0 16))
  | _ => none

/-- The decoder: total, and none for every word that raises the illegal-instruction trap (R152-R154). -/
def decodeWord (w : Nat) : Option Instr :=
  match pick w with
  | some i => if wellFormed i && encode i == w then some i else none
  | none => none

/-- The four bytes of an instruction word, lowest address first (R4, R148). -/
def wordBytes (w : Nat) : List Nat := [bits w 0 8, bits w 8 8, bits w 16 8, bits w 24 8]

/-- A little-endian list of bytes as a number (R4). -/
def bytesWord : List Nat → Nat
  | [] => 0
  | b :: bs => b + 256 * bytesWord bs

/-- The decoder over the bytes of one instruction. -/
def decodeBytes (bs : List Nat) : Option Instr := decodeWord (bytesWord bs)

/-- What the decoder reads from the instruction whose bits are `w` as the opcode table numbers them. Every core word has 32 bits; a row
with no encoding has no word, and nothing decodes to it. -/
def decodeTableWord (nbits w : Nat) : Option Instr :=
  if nbits ≤ 32 then decodeBytes (wordBytes (bits w 0 nbits)) else none

end Sys2Proof
end

