-- ==== Sys2Proof/Word.lean ====
section
/-! DEFINITION. Word types and the sparse map that register files and unit tables are held in. -/

namespace Sys2Proof

/-- A register or a dword (00 R4). -/
abbrev Word := BitVec 64

/-- One byte (00 R4). -/
abbrev Byte := BitVec 8

/-- A sparse table: numbered entries, each number once, in rising order. -/
abbrev KMap (α : Type) := List (Nat × α)

/-- The entry of number k, if there is one. -/
def kfind {α : Type} : KMap α → Nat → Option α
  | [], _ => none
  | (j, v) :: m, k => if k = j then some v else kfind m k

/-- The entry of number k, or d. -/
def kget {α : Type} (m : KMap α) (d : α) (k : Nat) : α := (kfind m k).getD d

/-- Writes entry k. -/
def kset {α : Type} : KMap α → Nat → α → KMap α
  | [], k, v => [(k, v)]
  | (j, u) :: m, k, v => if k = j then (k, v) :: m else if k < j then (k, v) :: (j, u) :: m else (j, u) :: kset m k v

/-- Removes entry k. -/
def kdel {α : Type} : KMap α → Nat → KMap α
  | [], _ => []
  | (j, u) :: m, k => if k = j then kdel m k else (j, u) :: kdel m k

/-- A natural number as a register value. -/
abbrev word (n : Nat) : Word := BitVec.ofNat 64 n

end Sys2Proof
end

