-- ==== Sys2Proof/Config.lean ====
section
/-! DEFINITION. What an implementation fixes and what the spec leaves open. None of these constants has a body, so no proof can rest on
a value of one. -/

namespace Sys2Proof.Config

/-- A free value, selected by the model's own counter `State.free` (log 4). -/
opaque freeWord : Nat → BitVec 64

/-- Whether the host completes an access to a host address with an error, by the cycle of the access (13 R348; log 77). -/
opaque hostError : Nat → Nat → Bool

/-- Whether the signature over a firmware image verifies under a fused key hash, numbered 0 to 3 (16 R373; log 20). -/
opaque imageSigned : Nat → Nat → Bool

/-- The security version that a firmware image carries (16 R373; log 20). -/
opaque imageVersion : Nat → Nat

/-- The image of the runtime firmware that a first-stage image starts (16 R373; log 20). -/
opaque runtimeImage : Nat → Nat

/-- Whether a debug token is signed, under a fused key hash, for a debug level (16 R376; log 20). -/
opaque tokenSigned : Nat → Nat → Nat → Bool

/-- The measurement digests of R374: of the ROM, of a firmware image, of a lifecycle state and debug level (16 R374; log 20). -/
opaque romDigest : Nat
opaque imageDigest : Nat → Nat
opaque stateDigest : Nat → Nat → Nat

/-- The certificate chain of a slot, the digest of it, and the signature over a challenge (16 R374; log 20). -/
opaque certificate : Nat → Nat
opaque certDigest : Nat → Nat
opaque challengeSignature : Nat → Nat → Nat

/-- The process-monitor code of a package's die, fixed at manufacture (16 R371; log 20). -/
opaque processCode : Nat → Nat → BitVec 8

/-- The rate code to which a Pelrek lane is fused where `Pkg.fusedRate` lists none (16 R372; log 80). -/
opaque laneRate : Nat

/-- Room, in messages, of a core's injector (09 R236: a sender waits while the injector has no room; log 9). -/
opaque injectorRoom : Nat

/-- Room of a queue pair, in posted entries of one direction (11 R306: the instruction waits while the queue is full; log 9). -/
opaque queuePairRoom : Nat

end Sys2Proof.Config
end

