-- ==== Sys2Proof/Machine/State.lean ====
section
/-! DEFINITION. The state of the machine as plain data: every register, memory, queue, table and unit that the spec names.
Keys: a core is `pkg * 8192 + core id` (00 R7, R8), a context is `core key * 8 + index`, a grove is `pkg * 256 + die * 64 + grove`. -/

namespace Sys2Proof.Machine

open Sys2Proof

/-- A step that stops the machine with a fault. No meaning of this model raises one: every exception of the spec is a next state. -/
inductive Fault where
  /-- Raised by nothing (safe): the type needs a member. -/
  | never
deriving DecidableEq, Repr

/-- A step without a meaning. -/
inductive Refusal where
  /-- Raised by an arm of Dispatch whose row has no meaning yet (safe). -/
  | notModelled (mnemonic : String)
deriving DecidableEq, Repr

/-! ## Threads -/

/-- A vector register: bits, format tag and plane count field (05 R140). -/
structure VReg where
  bits : BitVec 1024
  tag : Nat
  planes : Nat
deriving DecidableEq, Repr

/-- One hardware loop level (02 R62-R64). `org` and `cur` are the first and the last instruction of the current iteration's body. -/
structure LoopLevel where
  cnt : Word
  sta : Word
  fin : Word
  org : Word
  cur : Word
  act : Bool
deriving DecidableEq, Repr

/-- The report of a fault that is still to be delivered (17 R381, R384). `pc` is the record's PC; `frame` marks the failure of a register that could not
be written to a frame which was given back since: FADDR is then that of the frame that the delivery writes (18 R409). -/
structure FaultInfo where
  cause : Nat
  fpc : Word
  faddr : Word
  finfo : Word
  pc : Word
  frame : Bool := false
deriving DecidableEq, Repr

/-- What makes a thread a fault-handler thread: its fault-ring entry, and the fence that a notice names, as core + 2^25 × which of the core's fences (17
R383, R385, R390; log 28). -/
structure Handler where
  entry : Word
  notice : Option Nat
deriving DecidableEq, Repr

/-- What a thread waits on (02 R32 and the waits of 07 R198, 09 R236, R239, R253, 10 R265, 11 R293, R312, 13 R354, R359, 03 R93). -/
inductive Obj where
  | dword (key : Nat) (full : Bool)
  | counter (key : Nat)
  | fence (key : Nat)
  | barrier (key : Nat)
  | ring (key consumer : Nat)
  | group (pkg job num phase : Nat)
  | groupLoad (pkg job num : Nat)
  | injector (core : Nat)
  | spawner (core : Nat)
  | sawmill (grove : Nat)
  | sawRead (grove : Nat)
  | cruise (grove : Nat)
  | engineRoom (core unit : Nat)
  | queuePair (pkg qp : Nat)
  | event (core : Nat)
  | landing (pkg : Nat)
  | migration (pkg job page : Nat)
  | aperture (pkg slot : Nat)
  | pool (grove : Nat)
  | away (va : Nat)
  | acks (core : Nat)
deriving DecidableEq, Repr

/-- What a hardware context does. -/
inductive Status where
  | dormant
  | running
  | waiting (on : Obj) (since seq : Nat)
  | faulting (f : FaultInfo) (since : Nat)
  | stopped
deriving DecidableEq, Repr

/-- A continuation record (02 R27). `w1` is bytes 8-15, `args` are A1 to A6. -/
structure Rec where
  pc : Word
  job : Nat
  prio : Nat
  ff : Bool
  fc : Bool
  st : Bool
  rs : Bool
  w1 : Word
  args : List Word
deriving DecidableEq, Repr

/-- A group load that waits on members (09 R252): the offset that it reads, whether it is a GLDF, the members still to be read as (core, rank), the
values read as (rank, value), and whether a rank did not contribute. -/
structure GroupLoad where
  ofs : Nat
  full : Bool
  left : List (Nat × Nat)
  got : List (Nat × Nat)
  short : Bool
deriving DecidableEq, Repr

/-- A hardware context with its registers (06 R145). `insn` is the word of the instruction that a waiting context holds: it was fetched and its operands
read when it issued (log 18). -/
structure Ctx where
  status : Status
  pc : Word
  job : Nat
  prio : Nat
  st : Bool
  a : KMap Word
  v : KMap VReg
  m : KMap (BitVec 128)
  b : KMap (BitVec 256)
  l0 : LoopLevel
  l1 : LoopLevel
  stat : Word
  seed : Word
  cause : Word
  fpc : Word
  faddr : Word
  finfo : Word
  hold : Word
  hb : Nat
  hbMark : Nat
  event : Bool
  handler : Option Handler
  spMark : Nat
  badRegs : List Nat
  gload : Option GroupLoad
  lost : Bool
  insn : Option Nat
deriving DecidableEq, Repr

/-- A record in a landing queue, a deque or a ready pool; `age` is the cycle it entered (02 R49). `lost` marks a GBAR whose group record failed
while the thread waited (18 R413). -/
structure QRec where
  r : Rec
  age : Nat
  handler : Option Handler
  lost : Bool := false
deriving DecidableEq, Repr

/-- A record parked on an object (02 R32). -/
structure Parked where
  obj : Obj
  qrec : QRec
  seen : Word := 0
deriving DecidableEq, Repr

/-! ## Messages -/

/-- A message held by its injector until its last packet is accepted (02 R19). `origin` is the source core id that A4 shows; `trig` marks a
trigger message, a local push of 02 R48. -/
structure Msg where
  num : Nat
  dst : Nat
  job : Nat
  handler : Nat
  prio : Nat
  arg0 : Word
  arg1 : Word
  payload : List Byte
  link : Word
  origin : Nat
  left : Nat
  sent : Nat
  trig : Bool
deriving DecidableEq, Repr

/-- A packet in flight: the injector and number of its message, its offset and size (02 R19). -/
structure Packet where
  src : Nat
  num : Nat
  ofs : Nat
  size : Nat
deriving DecidableEq, Repr

/-- A packet that was refused, and the cycle of its resend (02 R22). -/
structure Refused where
  pkt : Packet
  due : Nat
deriving DecidableEq, Repr

/-- A partly received message, its header (without payload), the slot it claimed and the HADDR of the entry that the NI checked at its first
packet (02 R20, R21; 17 R396). -/
structure Claim where
  msg : Msg
  len : Nat
  src : Nat
  num : Nat
  slot : Nat
  pc : Nat
  received : Nat
  last : Nat
deriving DecidableEq, Repr

/-- What a trigger does when it fires (02 R55, 09 R239, R246). -/
inductive TrigAct where
  | empty
  | send (core handler prio : Nat) (arg0 arg1 : Word)
  | post (ctl pa pb : Word)
deriving DecidableEq, Repr

/-- An armed trigger on the counter at `key` (02 R56). -/
structure Trig where
  key : Nat
  target : Word
  job : Nat
  act : TrigAct
deriving DecidableEq, Repr

/-- The spawn sequencer's range (02 R37, 09 R239, 17 R397). -/
structure SpawnSeq where
  n0 : Nat
  n1 : Nat
  n2 : Nat
  c0 : Nat
  count : Nat
  handler : Nat
  prio : Nat
  job : Nat
  arg0 : Word
  ctr : Word
  next : Nat
deriving DecidableEq, Repr

/-! ## Engines -/

inductive OpPhase where
  | waiting
  | running
  | finished
deriving DecidableEq, Repr

/-- An issued engine operation (11 R293): its word, register operands and copied sets. `code`, `detail`, `where_` are its status (R294). -/
structure EngOp where
  id : Nat
  unit : Nat
  word : Nat
  job : Nat
  a : Word
  b : Word
  sets : List Word
  opt : Nat
  phase : OpPhase
  code : Nat
  detail : Nat
  where_ : Word
deriving DecidableEq, Repr

/-- A first- or second-level translation (03 R82, R83): virtual base, size and the leaf (R73). -/
structure TlbEntry where
  job : Nat
  va : Nat
  size : Nat
  pa : Nat
  leaf : Nat
  leafAt : Nat
deriving DecidableEq, Repr

/-- A first-level miss at its home slice (03 R84). `due` is the resend cycle of a refused one. -/
structure Miss where
  core : Nat
  job : Nat
  va : Nat
  due : Nat
deriving DecidableEq, Repr

/-! ## Sawmill, Cruise -/

/-- An accumulator tile (10 R264). -/
structure Tile where
  z : KMap (BitVec 32)
  tag : Nat
  pa : Nat
  pb : Nat
  ovf : Bool
  err : Nat
  owner : Option Nat
  ops : Nat
deriving DecidableEq, Repr

/-- The A or B latch (10 R276). -/
structure Latch where
  core : Option Nat
  k : Nat
  tag : Nat
  planes : Nat
  sc : Bool
  panel : List Byte
  scales : List Byte
deriving DecidableEq, Repr

/-- What a Sawmill or Cruise operation does; the register operands are those of 10 R274. -/
inductive SawKind where
  | zero (t mode : Nat)
  | load (isB : Bool) (panel ctl : Word)
  | run (pa pb ctl : Word)
  | masked (pa pb ctl sa sb : Word) (row : Nat) (tadv : Bool) (mask : BitVec 256) (desc : Nat)
  | store (dst stride : Word) (t : Nat) (cvt : Bool)
  | scale (t : Nat) (rows cols : List Word) (pl : Bool)
  | read (ctx t : Nat)
  | cruise (q k : Word) (geo : Word) (scores : Word)
deriving DecidableEq, Repr

/-- An operation of a grove's Sawmill or Cruise queue (10 R265). Counter keys are memory keys; `after` waits outside the queue. `born` orders a fired post
among the waits of its core. -/
structure SawOp where
  kind : SawKind
  word : Nat
  job : Nat
  core : Nat
  after : Option Nat
  target : Word
  done : Option Nat
  ctx : Option Nat
  born : Nat := 0
deriving DecidableEq, Repr

/-- One staged outer-product run: its tile, its control word, the bytes of both panels and of their scales, or the error found
(10 R272). -/
structure Staged where
  t : Nat
  ctl : Word
  a : List Byte
  b : List Byte
  sa : List Byte
  sb : List Byte
  err : Nat
deriving DecidableEq, Repr

/-- A started operation with what its reads gave (10 R272). -/
structure SawRun where
  op : SawOp
  runs : List Staged
deriving DecidableEq, Repr

/-- A member of a group (02 R38); `arr` counts its arrivals from the current phase on (09 R253). -/
structure Member where
  core : Nat
  rank : Nat
  joins : Nat
  arr : Nat
deriving DecidableEq, Repr

/-- A membership record (09 R249, R253). `dones` holds the completion cycles of phases whose stagger may still run. -/
structure Group where
  members : List Member
  phase : Nat
  dones : KMap Nat
  noted : List Nat
deriving DecidableEq, Repr

/-- A partial result of update-only atomics at a grove slice (04 R114). -/
structure Partial where
  grove : Nat
  key : Nat
  width : Nat
  op : Nat
  uns : Bool
  value : Word
  bad : Bool
deriving DecidableEq, Repr

/-- A core's own units. `fences` counts the fences of its logical id (17 R390). -/
structure Core where
  q : KMap (List QRec)
  deque : List QRec
  park : List Parked
  trigs : List Trig
  ptr : Nat
  e : KMap Word
  owner : KMap Nat
  stagr : Word
  dspec : Word
  crst : Word
  lmapb : Word
  lmapn : Word
  spm : Bool
  nextNum : Nat
  held : List Msg
  sendQ : List Msg
  claims : List Claim
  slots : List Nat
  frames : List (Nat × Nat)
  deckOrder : KMap (List Nat)
  spawn : Option SpawnSeq
  ops : List EngOp
  l1 : KMap Byte
  icache : KMap Nat
  tlb : List TlbEntry
  fenced : Option Nat
  phys : Nat
  unrepaired : List Nat
  lost : KMap Nat
  offMark : Bool
  fences : Nat := 0
deriving DecidableEq, Repr

/-- A grove's shared units. `pool` is the on-chip ready pool; `ring` lists the records of its overflow ring as (slot, identity), their 64 bytes
stand in HBM at `ringAt` + 64 × slot; `behind` holds what waits to enter (02 R33, 03 R95; log 30, log 75). -/
structure Grove where
  tiles : KMap Tile
  la : Latch
  lb : Latch
  sawWait : List SawOp
  saw : List SawOp
  sawRun : Option SawRun
  cruWait : List SawOp
  cru : List SawOp
  cruRun : Option SawOp
  notBefore : Nat
  pool : List QRec
  ring : List (Nat × QRec)
  ringAt : Nat
  ringTail : Nat
  behind : List QRec
  groups : KMap Group
  tlb2 : List TlbEntry
  walks : List Miss
  walkQ : List Miss
  walkRef : List Miss
  deadPhys : List Nat
deriving DecidableEq, Repr

/-! ## Package units -/

/-- An installed job descriptor (02 R34). `cores` is the 6,144-bit map. -/
structure Job where
  cap : Nat
  swt : Nat
  wth : Nat
  htab : Word
  hcnt : Nat
  ctro : Nat
  ctrs : Nat
  deck : Word
  spo : Nat
  sps : Nat
  ovfl : Word
  fhaddr : Word
  fcore : Nat
  hbi : Nat
  cores : Nat
deriving DecidableEq, Repr

/-- Deck counts (02 R45, 17 R397), and the records that went into the deck, oldest first, which a failing read reports (17 R393; log 48). -/
structure Deck where
  head : Nat
  tail : Nat
  kept : List Rec := []
deriving DecidableEq, Repr

/-- A page request (13 R354, R355). -/
structure PageReq where
  job : Nat
  va : Word
  wr : Bool
  fx : Bool
  src : Nat
  eng : Bool
  parked : List (Nat × QRec × Nat)
  waiters : KMap Word
  written : Bool
deriving DecidableEq, Repr

/-- A slot of the fault landing (13 R354). -/
structure LandSlot where
  gen : Nat
  req : Option PageReq
deriving DecidableEq, Repr

/-- A hotness entry (03 R89). -/
structure Hot where
  win : Nat
  dlv : Nat
  stv : Nat
deriving DecidableEq, Repr

/-- A token on a Skidder channel (12 R319). -/
structure Token where
  data : BitVec 32
  level : Nat
deriving DecidableEq, Repr

/-- A running KLGEN (12 R330): its instruction slot and the open loops, innermost first, as (level, trip count, next index). -/
structure GenState where
  slot : Nat
  frames : List (Nat × Nat × Nat)
  mode : Nat
  c : Nat
  depth : Nat
deriving DecidableEq, Repr

/-- An armed Skidder element (12 R318, R336). -/
structure Elem where
  slots : List Nat
  preds : Nat
  l : List (BitVec 32)
  ins : KMap (List Token)
  ifmt : List Nat
  ofmt : List Nat
  wofs : Word
  gen : Option GenState
  wave : Nat
deriving DecidableEq, Repr

/-- An edge of a configuration (12 R320, R336). -/
structure Edge where
  pe : Nat
  po : Nat
  ce : Nat
  ci : Nat
  fmt : Nat
deriving DecidableEq, Repr

/-- A ring subscribed to a stream (11 R299, R300). -/
structure RingSub where
  core : Nat
  ofs : Nat
  consumer : Nat
deriving DecidableEq, Repr

/-- A bound stream (11 R298, R300; 12 R329). `snap` is its elements as the last Skidder cycle left them, `acted` the turns taken since (12 R322);
`ending` the status with which it ends at the end of the cycle (12 R346). -/
structure Stream where
  job : Nat
  core : Nat
  op : Nat
  dir : Bool
  base : Word
  len : Nat
  tile : Nat
  started : Bool
  elems : KMap Elem
  edges : List Edge
  passThrough : Bool
  sport : Nat
  rings : List RingSub
  pos : Nat
  part : List Byte
  wrote : Nat
  taking : Option (Nat × Nat)
  passing : List (Nat × Nat) := []
  deqDone : Bool
  complete : Bool
  snap : KMap Elem := []
  acted : List Nat := []
  ending : Option (Nat × Nat × Word) := none
deriving DecidableEq, Repr

/-- A migration in progress (03 R93) from physical address `src` to `dst`. -/
structure Migration where
  job : Nat
  va : Nat
  size : Nat
  src : Nat
  dst : Nat
  op : Nat
  core : Nat
  parked : List (Nat × QRec)
deriving DecidableEq, Repr

/-- A chunk of a plan (11 R303). -/
structure Chunk where
  kind : Nat
  op : Nat
  fmt : Nat
  srcb : Nat
  dstb : Nat
  waitc : Nat
  sigc : Nat
  bytes : Nat
  sofs : Word
  dofs : Word
  waitn : Nat
deriving DecidableEq, Repr

/-- A plan (11 R303): members as (package, primary parent, alternate parent). -/
structure Plan where
  job : Nat
  members : List (Nat × Nat × Nat)
  nctr : Nat
  chunks : List Chunk
deriving DecidableEq, Repr

/-- A member's part in a play: its package, core, operation and bases; whether its QPLAY has started, whether a later QPLAY of the slot has
started there, and whether its QPLAY has ended (11 R295, R305; 13 R359). -/
structure Joined where
  pkg : Nat
  core : Nat
  op : Nat
  bases : List Word
  began : Bool
  gone : Bool
  done : Bool
deriving DecidableEq, Repr

/-- Progress of one chunk of a play (11 R305; 19 R432, R433): `edges` holds the hops of its tree's edges, none once an edge has failed; `held` the
bytes by source member once the result exists. -/
structure ChunkState where
  started : Bool
  startedAt : Nat
  finished : Bool
  alt : Bool
  edges : Option (List (Nat × Nat × Bool))
  held : Option (List (Nat × List Byte))
deriving DecidableEq, Repr

/-- A play of a plan slot (11 R305). `pushed` holds aperture bytes by package and offset, `result` those of results delivered there; `wrote` the
(chunk, member) pairs delivered; `cut` the members that are unreachable, with the cycle since when; `torn` the packages whose job was
removed during the play (19 R434). -/
structure Play where
  slot : Nat
  job : Nat
  plan : Plan
  joined : List Joined
  ctrs : KMap Nat
  chunks : KMap ChunkState
  pushed : KMap Byte
  result : KMap Byte
  wrote : List (Nat × Nat)
  cut : KMap Nat
  cause : Nat
  ended : Bool
  torn : List Nat
deriving DecidableEq, Repr

/-- A registered Ethernet region (13 R353). -/
structure Region where
  job : Nat
  pd : Nat
  rd : Bool
  wr : Bool
  base : Nat
  len : Nat
deriving DecidableEq, Repr

/-- A posted work entry (11 R306). -/
structure WorkEntry where
  key : Nat
  addr : Word
  len : Nat
  wrid : Word
  cnt : Word
  imm : Nat
  iv : Bool
  core : Nat
  reached : Bool
deriving DecidableEq, Repr

/-- A queue pair (13 R362). -/
structure QueuePair where
  job : Nat
  pd : Nat
  cq : Nat
  mtu : Nat
  port : Nat
  rqpn : Nat
  ip : Nat
  mac : Nat
  sndPsn : Nat
  rcvPsn : Nat
  err : Bool
  sends : List WorkEntry
  recvs : List WorkEntry
  rnr : Nat
  rnrAt : Nat
deriving DecidableEq, Repr

/-- A completion entry (11 R307). -/
structure CqEntry where
  wrid : Word
  bytes : Nat
  st : Nat
  iv : Bool
  opc : Nat
  qpn : Nat
  imm : Nat
deriving DecidableEq, Repr

/-- A link record (19 R426) with the lanes that are down and, by lane, how many of its flits have failed in a row (R427; log 52); `rates`
holds the lane rates that firmware has lowered (16 R372; log 80). -/
structure Link where
  up : Bool
  degr : Bool
  fail : Bool
  retry : Nat
  down : List Nat
  run : KMap Nat
  rates : KMap Nat := []
deriving DecidableEq, Repr

/-- A CXL port status record (18 R422). -/
structure CxlPort where
  up : Bool
  fail : Bool
  tmo : Nat
deriving DecidableEq, Repr

/-- A fault-ring entry that could not be written (17 R382), or a notice or launch that waits (R384). -/
structure Notice where
  job : Nat
  r : Rec
  cause : Nat
  fpc : Word
  faddr : Word
  finfo : Word
  hold : Word
  coreId : Nat
  about : Option Nat
  kept : Option Handler
deriving DecidableEq, Repr

/-- A host active message held for a full deck (13 R351), or an answer to a page request that came after one (20 R441). -/
structure HostHeld where
  core : Nat
  qrec : QRec
  answer : Option Nat := none
deriving DecidableEq, Repr

/-- A shootdown in progress (03 R86): scope 0 page, 1 job, 2 everything. -/
structure Shoot where
  scope : Nat
  job : Nat
  va : Nat
deriving DecidableEq, Repr

inductive Lifecycle where
  | manufacture
  | deployed
  | returned
deriving DecidableEq, Repr

inductive Power where
  | off
  | standby
  | run
deriving DecidableEq, Repr

/-- A core's part of the image of jobs pre-empted together (17 R396, R397). `area` is, by job, its section of that job's context area: the bytes at offsets,
every other byte zero; the ages of its landing records are cycles spent there. -/
structure SavedCore where
  area : KMap (KMap (List Byte))
  core : Nat
  scratch : List Host.Cell
  full : List Nat
  ctxs : KMap Ctx
  unit : Core
deriving DecidableEq, Repr

/-- A pre-empted job's image (17 R395-R398). `entries` is its job section's bytes; `jobs` are those pre-empted together with it; the shared cores are in the first one's image. The
operations of the Sawmill and the Cruise are listed by grove. -/
structure SavedJob where
  entries : List Byte
  jobs : List Nat
  cores : List SavedCore
  pool : List (Nat × QRec)
  tiles : List (Nat × Nat × Tile)
  groups : List (Nat × Nat × Group)
  saw : List (Nat × SawOp)
  sawWait : List (Nat × SawOp)
  cru : List (Nat × SawOp)
  cruWait : List (Nat × SawOp)
  streams : KMap Stream
  plans : KMap Plan
  qps : KMap QueuePair
deriving DecidableEq, Repr

/-- A thread stopped at a safe point or by its time-out, held for the management processor (17 R401). -/
structure SafeRec where
  job : Nat
  core : Nat
  sp : Bool
  ctx : Ctx
deriving DecidableEq, Repr

/-- A package's own units. `launches` are fault launches that wait, as (core, core id of the thread reported, record); `msi` counts the signals of MSI-X
vector 0 (13 R355), `mgmt` those to the management processor (18 R423, 19 R426); `pooled` is what the devices on the CXL ports hold at port addresses that
no decoder entry maps (13 R349). `fusedOff` and `fusedRate` are the transmit enables and lane rates fused for lane l of port p, by 2 p + l (16 R372; log
80), `firmware` the images of the first stage and the runtime firmware that run (16 R373, R374), `readValue` what the last register or debug read gave, `hdmRead`
the bytes that the host's last read of the HDM range got, as a little-endian number, or that it got none (13 R347). `area` is the context area's
frames and extras of the threads stopped by safe-point mode, by core × 2^18 + offset, and `releasing` the released threads that still wait for a frame slot
(17 R401), and `preempting` the lists of jobs that are quiet and whose started work has not ended (17 R395). `pushes` are frames on their way back to an overflow list whose head lies in a page in migration, as (core, job, address) (03 R93), and
`routerDown` tells that the Pelrek router took every port down (19 R428). -/
structure Pkg where
  ast : KMap Word
  jobs : KMap Job
  binds : KMap Nat
  acc : KMap Nat
  disc : KMap Nat
  op : Nat
  jta0 : Word
  jta1 : Word
  jta2 : Word
  busy : Bool
  result : Nat
  ringBase : Word
  ringCount : Word
  ringHead : Nat
  ringTail : Word
  stale : Nat
  landing : KMap LandSlot
  landOrder : List Nat
  refusedOps : KMap Word
  decks : KMap Deck
  claims : KMap (List Nat)
  carried : KMap Handler
  launches : List (Nat × Nat × QRec)
  notices : List Notice
  stranded : List Notice
  strandedCount : Nat
  hostHeld : List HostHeld
  decoder : KMap Word
  pooled : KMap Byte
  msi : Nat
  mgmt : Nat
  hdm : Nat
  extents : List Nat
  govn : Nat
  govc : Nat
  govAt : Nat
  sawStarts : Nat
  cruStarts : Nat
  sawLine : List Nat
  cruLine : List Nat
  limit : Bool
  monitors : KMap Word
  ports : KMap CxlPort
  links : KMap Link
  corr : KMap Nat
  unc : KMap Nat
  hot : KMap Hot
  streams : KMap Stream
  migs : List Migration
  grants : KMap (List (Nat × Nat))
  plans : KMap Plan
  regions : KMap Region
  qps : KMap QueuePair
  cqs : KMap (List CqEntry)
  shoots : List Shoot
  isolated : List Nat
  unreachable : List Nat
  power : Power
  life : Lifecycle
  nextLife : Lifecycle
  debug : Nat
  booted : Bool
  recovery : Bool
  revoked : List Nat
  rollback : Nat
  fusedOff : List Nat
  fusedRate : KMap Nat
  firmware : List Nat
  readValue : Word
  spdm : KMap Nat
  preempted : KMap SavedJob
  quiet : List Nat
  spmJobs : List Nat
  safe : List SafeRec
  releasing : List SafeRec
  area : KMap (List Byte)
  pushes : List (Nat × Nat × Word)
  routerDown : Bool
  preempting : List (List Nat) := []
  hdmRead : Option Nat := none
deriving DecidableEq, Repr

/-- A store that is performed for its own core and not yet registered at its home slice, or acknowledged by its target NI (04 R105, R106),
the cycle of its issue (19 R429), and the fenced core that its thread was notified of (17 R390). -/
structure PendingStore where
  ctx : Nat
  job : Nat
  since : Nat
  key : Nat
  bytes : List Byte
  remote : Bool
  notice : Option Nat := none
deriving DecidableEq, Repr

/-- Who goes next: a thread before anything else (a placed instruction), a thread, or hardware (log 3). -/
inductive Turn where
  | first
  | thread
  | hardware
deriving DecidableEq, Repr

/-- The machine. The fields `agenda`, `turn`, `cur`, `free`, `seq` are the model's own (log 3, log 4). -/
structure State where
  cycle : Nat
  agenda : List Instr
  turn : Turn
  cur : Nat
  free : Nat
  seq : Nat
  nextOp : Nat
  mem : List Host.Cell
  full : List Nat
  bad : List Nat
  owner : KMap Nat
  stores : List PendingStore
  nacked : List PendingStore
  partials : List Partial
  ctxs : KMap Ctx
  cores : KMap Core
  groves : KMap Grove
  pkgs : KMap Pkg
  net : List Packet
  refused : List Refused
  plays : List Play
deriving DecidableEq, Repr

/-! ## Reset -/

/-- A loop level that is not active (11 R316). -/
def LoopLevel.reset : LoopLevel := { cnt := 0, sta := 0, fin := 0, org := 0, cur := 0, act := false }

/-- A dormant context. The general registers have no stated reset value and hold zero (DESIGN CHOICE, log 1). -/
def Ctx.reset : Ctx :=
  { status := .dormant, pc := 0, job := 0, prio := 0, st := false, a := [], v := [], m := [], b := [], l0 := .reset, l1 := .reset,
    stat := 0, seed := 0, cause := 0, fpc := 0, faddr := 0, finfo := 0, hold := 0, hb := 0, hbMark := 0, event := false,
    handler := none, spMark := 0, badRegs := [], gload := none, lost := false, insn := none }

/-- A core after device reset; `phys` 32 stands for the core's own number (01 R11). -/
def Core.reset : Core :=
  { q := [], deque := [], park := [], trigs := [], ptr := 0, e := [], owner := [], stagr := 0, dspec := 0, crst := 0, lmapb := 0,
    lmapn := 0, spm := false, nextNum := 0, held := [], sendQ := [], claims := [], slots := [], frames := [], deckOrder := [], spawn := none,
    ops := [], l1 := [], icache := [], tlb := [], fenced := none, phys := 32, unrepaired := [], lost := [], offMark := false }

def Latch.reset : Latch := { core := none, k := 0, tag := 0, planes := 0, sc := false, panel := [], scales := [] }

/-- A tile after device reset (06 R146, 10 R264). -/
def Tile.reset : Tile := { z := [], tag := 0, pa := 0, pb := 0, ovf := false, err := 0, owner := none, ops := 0 }

def Grove.reset : Grove :=
  { tiles := [], la := .reset, lb := .reset, sawWait := [], saw := [], sawRun := none, cruWait := [], cru := [], cruRun := none,
    notBefore := 0, pool := [], ring := [], ringAt := 0, ringTail := 0, behind := [], groups := [], tlb2 := [], walks := [], walkQ := [], walkRef := [], deadPhys := [] }

/-- A package after device reset. Values that the spec does not state are named in log 1. -/
def Pkg.reset : Pkg :=
  { ast := [], jobs := [], binds := [], acc := [], disc := [], op := 0, jta0 := 0, jta1 := 0, jta2 := 0, busy := false, result := 0,
    ringBase := 0, ringCount := 0, ringHead := 0, ringTail := 0, stale := 0, landing := [], landOrder := [], refusedOps := [], decks := [], claims := [], carried := [],
    launches := [], notices := [], stranded := [], strandedCount := 0, hostHeld := [], decoder := [], pooled := [], msi := 0, mgmt := 0, hdm := 2 ^ 39,
    extents := [1, 1, 1, 1], govn := 64, govc := 64, govAt := 0, sawStarts := 0, cruStarts := 0, sawLine := [], cruLine := [], limit := false, monitors := [],
    ports := [], links := [], corr := [], unc := [], hot := [], streams := [], migs := [], grants := [], plans := [], regions := [],
    qps := [], cqs := [], shoots := [], isolated := [], unreachable := [], power := .run, life := .deployed, nextLife := .deployed,
    debug := 0, booted := true, recovery := false, revoked := [], rollback := 0, fusedOff := [], fusedRate := [], firmware := [], readValue := 0, spdm := [], preempted := [], quiet := [], spmJobs := [], safe := [], releasing := [], area := [], pushes := [], routerDown := false }

/-- The machine right after device reset: nothing runs, nothing is installed, nothing is listed in memory. -/
def State.reset : State :=
  { cycle := 0, agenda := [], turn := .thread, cur := 0, free := 0, seq := 0, nextOp := 0, mem := [], full := [], bad := [], owner := [],
    stores := [], nacked := [], partials := [], ctxs := [], cores := [], groves := [], pkgs := [], net := [], refused := [], plays := [] }

end Sys2Proof.Machine
end

