-- ==== Sys2Proof/Machine/Memory.lean ====
section
/-! DEFINITION. Memory cells in canonical form, keys of the address map, unit tables, the coherence of global memory (04 R103-R107, R114)
and the order of a thread's stores. -/

namespace Sys2Proof.Machine

open Sys2Proof

/-! ## Bytes -/

/-- The low n bytes of v, lowest first (00 R4). -/
def leBytes : Nat → Nat → List Byte
  | 0, _ => []
  | n + 1, v => BitVec.ofNat 8 v :: leBytes n (v / 256)

/-- A little-endian list of bytes as a number (00 R4). -/
def leNat : List Byte → Nat
  | [] => 0
  | b :: bs => b.toNat + 256 * leNat bs

/-- Bits [lo + n - 1 : lo] of a register value (00 R3). -/
def fld (x : Word) (lo n : Nat) : Nat := x.toNat / 2 ^ lo % 2 ^ n

/-- sign_extend of 00 R6: bit n - 1 of v is the sign. -/
def signExt (v n : Nat) : Word :=
  let u := v % 2 ^ n
  if 2 ^ (n - 1) ≤ u then word (u + (2 ^ 64 - 2 ^ n)) else word u

/-! ## Cells -/

/-- The byte at key k; a key that is not listed reads 0 (DESIGN CHOICE, log 2). -/
def cellRead : List Host.Cell → Nat → Byte
  | [], _ => 0
  | (j, b) :: m, k => if k = j then b else cellRead m k

/-- The nonzero bytes of bs as cells from key k on. -/
def cellsOf : Nat → List Byte → List Host.Cell
  | _, [] => []
  | k, b :: bs => if b = 0 then cellsOf (k + 1) bs else (k, b) :: cellsOf (k + 1) bs

/-- Writes the bytes bs from key k on. -/
def cellsWrite (m : List Host.Cell) (k : Nat) (bs : List Byte) : List Host.Cell :=
  m.filter (fun c => decide (c.1 < k)) ++ cellsOf k bs ++ m.filter (fun c => decide (k + bs.length ≤ c.1))

/-- The n bytes from key k on. -/
def cellsRead (m : List Host.Cell) : Nat → Nat → List Byte
  | _, 0 => []
  | k, n + 1 => cellRead m k :: cellsRead m (k + 1) n

/-- The canonical form: keys strictly rising, and no cell that holds what an unlisted key reads as. -/
def cellsWf : List Host.Cell → Bool
  | [] => true
  | [c] => c.2 != 0
  | c :: d :: m => c.2 != 0 && decide (c.1 < d.1) && cellsWf (d :: m)

/-- The canonical form of the machine's memory. -/
abbrev Memory.wf (m : List Host.Cell) : Prop := cellsWf m = true

/-- Adds a key to a sorted list without repeats. -/
def keyAdd : List Nat → Nat → List Nat
  | [], k => [k]
  | j :: l, k => if k = j then j :: l else if k < j then k :: j :: l else j :: keyAdd l k

/-- Removes a key. -/
def keyDel (l : List Nat) (k : Nat) : List Nat := l.filter (fun j => j != k)

/-! ## Names of cores, groves and keys -/

def ctxCore (c : Nat) : Nat := c / 8
def corePkg (c : Nat) : Nat := c / 8192
def coreId (c : Nat) : Nat := c % 8192

/-- The grove of a core: package, die and grove number (00 R7). -/
def coreGrove (c : Nat) : Nat := corePkg c * 256 + coreId c / 32

def grovePkg (g : Nat) : Nat := g / 256

/-- The grove number on its die, 0 to 63 (01 R10). -/
def groveNum (g : Nat) : Nat := g % 64

/-- The core of a grove with core number i. -/
def groveCore (g i : Nat) : Nat := grovePkg g * 8192 + g % 256 * 32 + i

/-- The dense index of a core (02 R34). -/
def denseIndex (id : Nat) : Nat := 1536 * (id / 2048) + 24 * (id / 32 % 64) + id % 32

/-- The core id of a dense index. -/
def denseCore (i : Nat) : Nat := i / 1536 * 2048 + i % 1536 / 24 * 32 + i % 24

/-- The key of a physical byte of a package (03 R78; log 19). -/
def physKey (pkg pa : Nat) : Nat := pkg * 2 ^ 53 + pa

/-- The key of a scratchpad byte of a core (03 R66). -/
def scratchKey (core ofs : Nat) : Nat := corePkg core * 2 ^ 53 + 2 ^ 52 + coreId core * 2 ^ 17 + ofs

def keyIsScratch (k : Nat) : Bool := k / 2 ^ 52 % 2 == 1
def keyPkg (k : Nat) : Nat := k / 2 ^ 53
def keyPa (k : Nat) : Nat := k % 2 ^ 52

/-- The core whose scratchpad holds a scratchpad key. -/
def keyCore (k : Nat) : Nat := keyPkg k * 8192 + k / 2 ^ 17 % 8192
def keyOfs (k : Nat) : Nat := k % 2 ^ 17

/-- The scratch-window address of a scratchpad byte (03 R66). -/
def windowAddr (core ofs : Nat) : Word :=
  word (0x1E0 * 2 ^ 48 + corePkg core * 2 ^ 32 + coreId core * 2 ^ 17 + ofs)

/-- The protection unit of a byte (18 R408): a scratchpad dword, an HBM block of 32 bytes, or a line of CXL memory. -/
def unitSize (k : Nat) : Nat := if keyIsScratch k then 8 else if keyPa k < 2 ^ 39 then 32 else 64
def unitOf (k : Nat) : Nat := k / unitSize k * unitSize k

/-- H6 of 03 R80: the exclusive or of the 6-bit chunks of x; ten chunks cover 60 bits. -/
def hash6 : Nat → Nat → Nat
  | 0, _ => 0
  | n + 1, x => (x % 64) ^^^ hash6 n (x / 64)

/-- H12 of 03 R91. -/
def hash12 : Nat → Nat → Nat
  | 0, _ => 0
  | n + 1, x => (x % 4096) ^^^ hash12 n (x / 4096)

/-- The data home grove of a global key (03 R80). -/
def homeGrove (k : Nat) : Nat :=
  let pa := keyPa k
  if pa < 2 ^ 39 then keyPkg k * 256 + pa / 2 ^ 36 / 2 * 64 + hash6 10 (pa % 2 ^ 39 / 64)
  else keyPkg k * 256 + pa / 4096 % 4 * 64 + hash6 10 (pa / 2 ^ 14)

/-! ## Units of the state -/

def getCtx (s : State) (c : Nat) : Ctx := kget s.ctxs .reset c
def setCtx (s : State) (c : Nat) (x : Ctx) : State := { s with ctxs := kset s.ctxs c x }
def modCtx (s : State) (c : Nat) (f : Ctx → Ctx) : State := setCtx s c (f (getCtx s c))
def getCore (s : State) (c : Nat) : Core := kget s.cores .reset c
def modCore (s : State) (c : Nat) (f : Core → Core) : State := { s with cores := kset s.cores c (f (getCore s c)) }
def getGrove (s : State) (g : Nat) : Grove := kget s.groves .reset g
def modGrove (s : State) (g : Nat) (f : Grove → Grove) : State := { s with groves := kset s.groves g (f (getGrove s g)) }
def getPkg (s : State) (p : Nat) : Pkg := kget s.pkgs .reset p
def modPkg (s : State) (p : Nat) (f : Pkg → Pkg) : State := { s with pkgs := kset s.pkgs p (f (getPkg s p)) }

/-- The current context (the one that issues). -/
def cx (s : State) : Ctx := getCtx s s.cur
def cxCore (s : State) : Nat := ctxCore s.cur
def cxPkg (s : State) : Nat := corePkg (cxCore s)

/-- The descriptor of a job on a package, if installed. -/
def jobOn (s : State) (p j : Nat) : Option Job := kfind (getPkg s p).jobs j

/-- A descriptor with every field zero: what a job that is not installed reads as. -/
def Job.none : Job :=
  { cap := 0, swt := 0, wth := 0, htab := 0, hcnt := 0, ctro := 0, ctrs := 0, deck := 0, spo := 0, sps := 0, ovfl := 0, fhaddr := 0,
    fcore := 0, hbi := 0, cores := 0 }

def jobD (s : State) (p j : Nat) : Job := (jobOn s p j).getD .none

/-- Whether a core is in CORES of a job on the core's package. -/
def inCores (s : State) (core job : Nat) : Bool :=
  decide (coreId core % 32 < 24) && (jobD s (corePkg core) job).cores.testBit (denseIndex (coreId core))

/-- Whether a job is being pre-empted, or is pre-empted (17 R395). -/
def quietJob (s : State) (p job : Nat) : Bool := (getPkg s p).quiet.contains job

/-- The number of cores in CORES below dense index i. -/
def popBelow (cores : Nat) : Nat → Nat
  | 0 => 0
  | i + 1 => popBelow cores i + if cores.testBit i then 1 else 0

/-- Whether a package id lies in the torus that firmware configured (13 R357). -/
def inTorus (s : State) (here p : Nat) : Bool :=
  let e := (getPkg s here).extents
  decide (p % 8 < e.getD 0 1) && decide (p / 8 % 8 < e.getD 1 1) && decide (p / 64 % 8 < e.getD 2 1) && decide (p / 512 % 8 < e.getD 3 1)

/-- A fresh free value (log 4): the counter moves on. -/
def freeNow (s : State) : Word := Config.freeWord s.free
def freeStep (s : State) : State := { s with free := s.free + 1 }
/-- A choice that the spec leaves open (log 4). -/
def freeBit (s : State) : Bool := (freeNow s).getLsbD 0

/-! ## Scratchpads -/

def scratchRead (s : State) (core ofs n : Nat) : Nat := leNat (cellsRead s.mem (scratchKey core ofs) n)
def memWrite (s : State) (k : Nat) (bs : List Byte) : State := { s with mem := cellsWrite s.mem k bs }
def scratchWrite (s : State) (core ofs n v : Nat) : State := memWrite s (scratchKey core ofs) (leBytes n v)

/-! ## Coherence of global memory -/

/-- The value of a byte in coherence order: the owner's word, else the home copy (04 R103, R105; log 8). -/
def coherentByte (s : State) (k : Nat) : Byte :=
  match kfind s.owner k with
  | some c => kget (getCore s c).l1 (cellRead s.mem k) k
  | none => cellRead s.mem k

def coherentBytes (s : State) : Nat → Nat → List Byte
  | _, 0 => []
  | k, n + 1 => coherentByte s k :: coherentBytes s (k + 1) n

/-- The newest store of core c to byte k that is not yet registered. -/
def pendingByte : List PendingStore → Nat → Nat → Option Byte
  | [], _, _ => none
  | p :: ps, c, k =>
    match pendingByte ps c k with
    | some b => some b
    | none => if ctxCore p.ctx = c && decide (p.key ≤ k) && decide (k < p.key + p.bytes.length) then p.bytes[k - p.key]? else none

/-- Whether an L1 holds the whole aligned dword of a byte. -/
def dwordHeld (l1 : KMap Byte) (k : Nat) : Bool := (List.range 8).all (fun i => (kfind l1 (k / 8 * 8 + i)).isSome)

/-- Whether an L1 holds every byte of [a, a + n) that lies in the aligned dword of byte k. An access that finds only a part of them there refetches
them all (04 R97). -/
def viewHit (l1 : KMap Byte) (a n k : Nat) : Bool :=
  let lo := max a (k / 8 * 8)
  (List.range (min (a + n) (k / 8 * 8 + 8) - lo)).all (fun i => (kfind l1 (lo + i)).isSome)

/-- What an access of core c to [a, a + n) reads at its byte k: the core's own latest store, its L1's copy, which stays after another core has taken the
byte over, or the coherent value (04 R97, R104, R105). -/
def viewByte (s : State) (c a n k : Nat) : Byte :=
  match pendingByte s.stores c k with
  | some b => b
  | none => if viewHit (getCore s c).l1 a n k then kget (getCore s c).l1 (coherentByte s k) k else coherentByte s k

/-- What core c reads at [a, a + n). -/
def viewBytes (s : State) (c a n : Nat) : List Byte := (List.range n).map (fun i => viewByte s c a n (a + i))

/-- What core c reads at a key: its own view of global memory, or the scratchpad itself (04 R107). A racing read of a location that another
package writes may return an older store by 04 R115; the model returns what its own view holds (DESIGN CHOICE, log 67). -/
def readKeys (s : State) (c k n : Nat) : List Byte :=
  if keyIsScratch k then cellsRead s.mem k n else viewBytes s c k n

/-- The aligned dword of byte k as core c's L1 holds it from now on: whole, so that later reads of it are single-copy atomic (04 R97). -/
def fillDword (s : State) (c k : Nat) : State :=
  let d := k / 8 * 8
  modCore s c (fun u => { u with l1 := (List.range 8).foldl (fun m i => kset m (d + i) (coherentByte s (d + i))) u.l1 })

/-- Registers one byte of core c at its home slice: c owns it (04 R105). -/
def registerByte (s : State) (c k : Nat) (b : Byte) : State :=
  { modCore s c (fun u => { u with l1 := kset u.l1 k b }) with owner := kset s.owner k c }

/-- Core c's L1 gives up the bytes of an aligned dword that it holds in part and does not own: none of them comes back with a later store, or after a
read of newer ones (04 R103). -/
def trimDword (s : State) (c k : Nat) : State :=
  modCore s c (fun u => { u with l1 := u.l1.filter (fun e => e.1 / 8 != k / 8 || kfind s.owner e.1 == some c) })

/-- Registers bytes. A registration brings no other byte of a dword into the L1: a later load reads those at their home (04 R104, R114). -/
def registerBytes (s : State) (c : Nat) : Nat → List Byte → State
  | _, [] => s
  | k, b :: bs => registerBytes (registerByte (if dwordHeld (getCore s c).l1 k then s else trimDword s c k) c k b) c (k + 1) bs

/-- What an access of core c to [a, a + n) leaves in its L1: of a dword that it had to refetch, no older byte stays (04 R103). -/
def viewMiss (s : State) (c a n : Nat) : State :=
  if (getCore s c).l1.isEmpty then s
  else (List.range ((a + n + 7) / 8 - a / 8)).foldl (fun s i =>
    let k := (a / 8 + i) * 8
    if viewHit (getCore s c).l1 a n k then s else trimDword s c k) s

/-- The agent of an access: the core it works for, its job, and the fenced core that its thread was notified of (17 R390). A Skidder stands on the
die that its stack attaches to (01 R12). `hw` marks an access of the hardware itself, which a migration does not hold up in this model (log 11). -/
structure Who where
  core : Nat
  job : Nat
  notice : Option Nat
  die : Option Nat := none
  hw : Bool := false
  thread : Bool := false
deriving DecidableEq, Repr

/-! ## Fences (17 R387-R391) -/

/-- The I/O die, where the host, the Ethernet engine and Quadrille stand (01 R13). -/
def ioDie : Nat := 4

/-- The die of a core. -/
def coreDie (core : Nat) : Nat := coreId core / 2048

/-- Whether the isolation of a die lies between two dies of a package (19 R431; log 53). -/
def dieCut (p : Pkg) (a b : Nat) : Bool := a != b && (p.isolated.contains a || p.isolated.contains b)

/-- Whether the isolation of a die lies between an agent on a die and a core, or between two cores. -/
def isolatedAt (s : State) (pkg die b : Nat) : Bool :=
  if pkg = corePkg b then dieCut (getPkg s pkg) die (coreDie b)
  else (getPkg s pkg).isolated.contains die || (getPkg s (corePkg b)).isolated.contains (coreDie b)

def isolatedFor (s : State) (a b : Nat) : Bool := isolatedAt s (corePkg a) (coreDie a) b

/-- The die on which an agent stands. -/
def Who.dieOf (w : Who) : Nat := w.die.getD (coreDie w.core)

/-- The number of the present fence of a core's logical id, by which its notices name it (17 R390). -/
def fenceTag (s : State) (core : Nat) : Nat := core + 2 ^ 25 * (getCore s core).fences

/-- Whether a core's logical id is fenced for an agent of a job. -/
def fencedFor (s : State) (w : Who) (core : Nat) : Bool :=
  let u := getCore s core
  isolatedAt s (corePkg w.core) w.dieOf core || u.fenced.isSome || (u.unrepaired.contains w.job && w.notice != some (fenceTag s core))

/-- Whether a request of an agent to a core's logical id goes unperformed: the id is fenced for it, or no route reaches the package (17 R387, R390;
19 R429). -/
def cutFor (s : State) (w : Who) (core : Nat) : Bool := fencedFor s w core || (getPkg s (corePkg w.core)).unreachable.contains (corePkg core)

/-- A store reaches its home: a remote scratchpad store is performed (04 R106), a global store is registered (R105; log 31). A store that
reaches a fenced id is not performed: its answer brings the failure back (17 R387, R390; log 79). A store to a counter's dword is no counter update: it
tests no trigger (DESIGN CHOICE, log 87); `wakeWritten` releases what is parked there. -/
def performStore (s : State) (p : PendingStore) : State :=
  if !p.remote then registerBytes s (ctxCore p.ctx) p.key p.bytes
  else if fencedFor s { core := ctxCore p.ctx, job := p.job, notice := p.notice } (keyCore p.key) then { s with nacked := s.nacked ++ [p] }
  else memWrite s p.key p.bytes

/-- A store to a package that no route reaches (19 R429): it stands until UNREACHABLE_TIMEOUT ends it. -/
def awayStore (s : State) (p : PendingStore) : Bool :=
  p.remote && (getPkg s (corePkg (ctxCore p.ctx))).unreachable.contains (keyPkg p.key)

/-- The stores of one instruction: a step issues those of one context and one cycle. -/
def sameInsn (p q : PendingStore) : Bool := p.ctx == q.ctx && p.since == q.since

/-- Splits the pending stores into those that go when f asks for some of them, and those that stay. With a store go the rest of its
instruction and every earlier store of its core, so that the stores of a core are performed in the order of their issue (04 R97, R103). For stores to
different homes or cores 04 R107 leaves the order open (DESIGN CHOICE, log 94). What `stay` holds back stays. -/
def goSplit (f stay : PendingStore → Bool) : List PendingStore → List PendingStore × List PendingStore
  | [] => ([], [])
  | p :: l =>
    match goSplit f stay l with
    | (go, rest) => if !stay p && (f p || go.any (fun q => ctxCore q.ctx == ctxCore p.ctx)) then (p :: go, rest) else (go, p :: rest)

/-- Performs the stores that f asks for. -/
def drainWith (f : PendingStore → Bool) (s : State) : State :=
  if s.stores.isEmpty then s
  else match goSplit (fun p => s.stores.any (fun q => f q && sameInsn p q)) (awayStore s) s.stores with
    | (go, rest) => go.foldl performStore { s with stores := rest }

/-- The waits of 04 R106 for a context: all of its earlier stores are registered or acknowledged. -/
def releaseWaits (s : State) (c : Nat) : State := drainWith (fun p => p.ctx == c) s

/-- A store of a context that a release still waits for: its target does not answer (04 R106, 19 R429). -/
def unacked (s : State) (c : Nat) : Option PendingStore := s.stores.find? (fun p => p.ctx == c && awayStore s p)

/-- A thread's accesses to one core's scratchpad keep program order (04 R107). -/
def drainTo (s : State) (c core : Nat) : State := drainWith (fun p => p.ctx == c && p.remote && keyCore p.key == core) s

/-- An acquire of core c discards every L1 word that c does not own (04 R106). -/
def acquire (s : State) (c : Nat) : State :=
  modCore s c (fun u => { u with l1 := u.l1.filter (fun e => kfind s.owner e.1 == some c) })

/-- Takes the bytes [k, k + n) back to their home copy; whoever owned them loses them. -/
def unownByte (s : State) (k : Nat) : State :=
  match kfind s.owner k with
  | some c =>
    let b := coherentByte s k
    { modCore (memWrite s k [b]) c (fun u => { u with l1 := kdel u.l1 k }) with owner := kdel s.owner k }
  | none => s

def unownBytes : Nat → State → Nat → State
  | 0, s, _ => s
  | n + 1, s, k => unownBytes n (unownByte s k) (k + 1)

/-- Performs a write at the home itself (atomics, engines, the host): any ownership ends. -/
def homeWrite (s : State) (k : Nat) (bs : List Byte) : State :=
  if keyIsScratch k || s.owner.isEmpty then memWrite s k bs else memWrite (unownBytes bs.length s k) k bs

/-- The bytes that an agent without an L1 reads. -/
def homeRead (s : State) (k n : Nat) : List Byte :=
  if keyIsScratch k then cellsRead s.mem k n else coherentBytes s k n

/-! ## Hotness tables (03 R89-R91) -/

/-- One count of a window at its entry: an empty entry or one of the same window gains it, another window decays. -/
def hotStep (h : Option Hot) (win dlv stv : Nat) : Hot :=
  let cap (n : Nat) : Nat := min n (2 ^ 32 - 1)
  match h with
  | none => { win := win, dlv := cap dlv, stv := cap stv }
  | some x =>
    if x.win = win then { x with dlv := cap (x.dlv + dlv), stv := cap (x.stv + stv) }
    else if x.dlv - 1 = 0 && x.stv - 1 = 0 then { win := win, dlv := cap dlv, stv := cap stv }
    else { x with dlv := x.dlv - 1, stv := x.stv - 1 }

/-- A count at a port of a package: stacks 0 to 7 are ports 0 to 7, CXL port n is 8 + n. -/
def hotCount (s : State) (pkg port pa dlv stv : Nat) : State :=
  let win := pa / 2 ^ 21
  let i := port * 4096 + hash12 4 win
  modPkg s pkg (fun p => { p with hot := kset p.hot i (hotStep (kfind p.hot i) win dlv stv) })

/-! ## Corrupt units (18 R408). `bad` holds the first key of a failed memory unit, and marks for failed L1 words and group records. -/

/-- The mark of a failed L1 word of a core that owns it. -/
def l1Mark (c k : Nat) : Nat := (c + 1) * 2 ^ 70 + k / 8 * 8

/-- The mark of a failed membership record, by slice and group key (18 R413). -/
def groupMark (g k : Nat) : Nat := 2 ^ 120 + g * 2 ^ 30 + k

/-- The mark of a failed dword of a shared-cache slice (18 R408). -/
def sliceMark (k : Nat) : Nat := 2 ^ 66 + k / 8 * 8

/-- The bytes of a failed unit that a mark of memory, of a shared-cache slice or of an L1 word stands for. -/
def markUnit (s : State) (u : Nat) : Option (Nat × Nat) :=
  if u < 2 ^ 66 then some (u, unitSize u)
  else if u < 2 ^ 70 then some (u - 2 ^ 66, 8)
  else if 2 ^ 120 ≤ u then none
  else
    let k := u % 2 ^ 70
    if (List.range 8).any (fun i => kfind s.owner (k + i) == some (u / 2 ^ 70 - 1)) then some (k, 8) else none

/-- Whether the value of a byte fails its check: the owner's word, else the home unit and its dword in the slice. -/
def badAt (s : State) (k : Nat) : Bool :=
  match kfind s.owner k with
  | some c => s.bad.contains (l1Mark c k)
  | none => s.bad.contains (unitOf k) || (!keyIsScratch k && s.bad.contains (sliceMark k))

/-- The lowest byte of [k, k + n) that fails its check. -/
def badByte (s : State) : Nat → Nat → Option Nat
  | _, 0 => none
  | k, n + 1 => if badAt s k then some k else badByte s (k + 1) n

def firstBad (s : State) (k n : Nat) : Option Nat := if s.bad.isEmpty then none else badByte s k n

/-- The first byte at which [k, k + n) covers only a part of a unit. -/
def partly (k n : Nat) : Option (Nat × Nat) → Option Nat
  | none => none
  | some (u, z) => if u < k + n && k < u + z && !(decide (k ≤ u) && decide (u + z ≤ k + n)) then some (max u k) else none

/-- A store to part of a failed unit fails; one that covers the unit makes it good (18 R409). -/
def storeBad (s : State) (k n : Nat) : Option Nat :=
  if s.bad.isEmpty then none else (s.bad.filterMap (fun u => partly k n (markUnit s u))).head?

/-- Every unit wholly inside [k, k + n) is good again. -/
def mend (s : State) (k n : Nat) : State :=
  if s.bad.isEmpty then s
  else { s with bad := s.bad.filter (fun u =>
    let z := if u < 2 ^ 66 then unitSize u else 8
    let b := if u < 2 ^ 70 then u % 2 ^ 66 else u % 2 ^ 70
    2 ^ 120 ≤ u || !(decide (k ≤ b) && decide (b + z ≤ k + n))) }

/-- An uncorrectable error met by a reader, in a class of 19 R436: 0 registers, 1 scratchpads, 2 caches and tables, 3 HBM, 5 Skidder,
6 Pelrek and Quadrille. -/
def uncBump (s : State) (pkg cls : Nat) : State :=
  modPkg s pkg (fun p => { p with unc := kset p.unc cls ((kget p.unc 0 cls + 1) % 2 ^ 32) })

end Sys2Proof.Machine
end

