-- ==== Sys2Proof/Machine/Float.lean ====
section
/-! DEFINITION. Number formats: exact values, rounding, saturation, flags and the fixed approximations (05 R116-R137, 08 R208-R214). -/

namespace Sys2Proof.Machine

open Sys2Proof

/-! ## Flags of 05 R132, as bits of STAT -/

def flNV : Nat := 1
def flDZ : Nat := 2
def flOF : Nat := 4
def flUF : Nat := 8
def flNX : Nat := 16
def flSAT : Nat := 32

/-! ## Formats -/

/-- A binary floating-point format: exponent and fraction widths (the table of 05). -/
structure Fmt where
  eb : Nat
  mb : Nat
deriving DecidableEq, Repr

def fp32 : Fmt := ⟨8, 23⟩
def bf16 : Fmt := ⟨8, 7⟩
def fp16 : Fmt := ⟨5, 10⟩

/-- Total width, bias and largest exponent field of a format. -/
def Fmt.width (f : Fmt) : Nat := 1 + f.eb + f.mb
def Fmt.bias (f : Fmt) : Nat := 2 ^ (f.eb - 1) - 1
def Fmt.top (f : Fmt) : Nat := 2 ^ f.eb - 1

/-- The format of a floating-point tag (05 R140). -/
def fmtOf (tag : Nat) : Fmt := if tag = 6 then bf16 else if tag = 7 then fp16 else fp32

def isFloatTag (t : Nat) : Bool := t == 5 || t == 6 || t == 7

/-- Element width of a tag; tag 0 is dwords (05 R140, 08 R205). -/
def tagWidth (t : Nat) : Nat :=
  if t = 1 || t = 8 then 8 else if t = 2 || t = 6 || t = 7 then 16 else if t = 0 || t = 4 then 64 else 32

/-- Elements of a vector register (05 R140). -/
def tagCount (t : Nat) : Nat := 1024 / tagWidth t

/-- Tags 1 to 4 and 9 are signed (08 R207), and BPI bytes are (05 R124). -/
def tagSigned (t : Nat) : Bool := decide (1 ≤ t && t ≤ 4) || t == 8 || t == 9

/-- An exact value: m × 2^e with a sign, an infinity, or a NaN (05 R116). -/
inductive FVal where
  | nan (signalling : Bool)
  | inf (neg : Bool)
  | fin (neg : Bool) (m : Nat) (e : Int)
deriving DecidableEq, Repr

/-- The value of a bit pattern (05 R116). -/
def unpack (f : Fmt) (x : Nat) : FVal :=
  let neg := x / 2 ^ (f.eb + f.mb) % 2 == 1
  let ex := x / 2 ^ f.mb % 2 ^ f.eb
  let fr := x % 2 ^ f.mb
  if ex = f.top then (if fr = 0 then .inf neg else .nan (decide (fr < 2 ^ (f.mb - 1))))
  else if ex = 0 then .fin neg fr (1 - (f.bias : Int) - f.mb)
  else .fin neg (fr + 2 ^ f.mb) ((ex : Int) - f.bias - f.mb)

def signBit (f : Fmt) (neg : Bool) : Nat := if neg then 2 ^ (f.eb + f.mb) else 0
def infBits (f : Fmt) (neg : Bool) : Nat := signBit f neg + f.top * 2 ^ f.mb
def maxBits (f : Fmt) (neg : Bool) : Nat := signBit f neg + (f.top * 2 ^ f.mb - 1)

/-- The default NaN (05 R117). -/
def nanBits (f : Fmt) : Nat := f.top * 2 ^ f.mb + 2 ^ (f.mb - 1)

/-- Bits needed to write m. -/
def bitLen (m : Nat) : Nat := if m = 0 then 0 else Nat.log2 m + 1

/-- Whether the kept part t is raised, for a remainder rem of 2^sh (05 R128, R130); `rnd` is r of R130. -/
def roundsUp (mode : Nat) (neg : Bool) (t rem sh rnd : Nat) : Bool :=
  if rem = 0 then false
  else if mode = 1 then false
  else if mode = 2 then neg
  else if mode = 3 then !neg
  else if mode = 4 then decide (65536 ≤ rem * 65536 / 2 ^ sh + rnd)
  else decide (2 ^ sh < rem * 2) || (decide (rem * 2 = 2 ^ sh) && t % 2 == 1)

/-- m × 2^e at a unit of 2^q: the rounded count and whether it is inexact and was raised. -/
def roundAt (mode : Nat) (neg : Bool) (rnd m : Nat) (e q : Int) : Nat × Bool × Bool :=
  if q ≤ e then (m * 2 ^ (e - q).toNat, false, false)
  else
    let sh := (q - e).toNat
    let t := m / 2 ^ sh
    let rem := m % 2 ^ sh
    let up := roundsUp mode neg t rem sh rnd
    (if up then t + 1 else t, decide (rem ≠ 0), up)

/-- Rounds m × 2^e to format f: the bit pattern and the flags OF, UF and NX (05 R118, R128, R129). -/
def roundFin (f : Fmt) (mode rnd : Nat) (neg : Bool) (m : Nat) (e : Int) : Nat × Nat :=
  if m = 0 then (signBit f neg, 0)
  else
    let top : Int := e + bitLen m - 1
    let emin : Int := 1 - (f.bias : Int)
    let qmin : Int := emin - f.mb
    let q : Int := (if top < emin then emin else top) - f.mb
    let (t, inexact, up) := roundAt mode neg rnd m e q
    let mag := t + (q - qmin).toNat * 2 ^ f.mb
    if f.top * 2 ^ f.mb ≤ mag then
      let toInf := if mode = 1 then false else if mode = 2 then neg else if mode = 3 then !neg else if mode = 4 then up else true
      (if toInf then infBits f neg else maxBits f neg, flOF + flNX)
    else
      let (u, _, _) := roundAt mode neg rnd m e (top - f.mb)
      let tiny := decide (top < emin) && !(decide (top = emin - 1) && decide (u = 2 ^ (f.mb + 1)))
      (signBit f neg + mag, (if inexact then flNX else 0) + (if tiny && inexact then flUF else 0))

/-- Rounds an exact value to format f (05 R117, R128). -/
def roundVal (f : Fmt) (mode rnd : Nat) : FVal → Nat × Nat
  | .nan sig => (nanBits f, if sig then flNV else 0)
  | .inf neg => (infBits f neg, 0)
  | .fin neg m e => roundFin f mode rnd neg m e

/-! ## Exact arithmetic -/

def FVal.isNan : FVal → Bool
  | .nan _ => true
  | _ => false

def FVal.isSig : FVal → Bool
  | .nan s => s
  | _ => false

def FVal.neg : FVal → FVal
  | .nan s => .nan s
  | .inf n => .inf (!n)
  | .fin n m e => .fin (!n) m e

/-- The exact product; the flag says 0 × ∞. -/
def fmulX : FVal → FVal → FVal × Bool
  | .nan _, _ => (.nan false, false)
  | _, .nan _ => (.nan false, false)
  | .inf a, .inf b => (.inf (a != b), false)
  | .inf a, .fin b m _ => if m = 0 then (.nan false, true) else (.inf (a != b), false)
  | .fin a m _, .inf b => if m = 0 then (.nan false, true) else (.inf (a != b), false)
  | .fin a m e, .fin b n d => (.fin (a != b) (m * n) (e + d), false)

/-- m × 2^e as a signed count of 2^d, for d ≤ e. -/
def alignTo (neg : Bool) (m : Nat) (e d : Int) : Int := (if neg then -1 else 1) * ((m * 2 ^ (e - d).toNat : Nat) : Int)

/-- The exact sum; the flag says ∞ − ∞. An exact zero from unlike signs is +0. -/
def faddX : FVal → FVal → FVal × Bool
  | .nan _, _ => (.nan false, false)
  | _, .nan _ => (.nan false, false)
  | .inf a, .inf b => if a = b then (.inf a, false) else (.nan false, true)
  | .inf a, .fin _ _ _ => (.inf a, false)
  | .fin _ _ _, .inf b => (.inf b, false)
  | .fin a m e, .fin b n d =>
    let q := if e ≤ d then e else d
    let s := alignTo a m e q + alignTo b n d q
    if s = 0 then (.fin (a && b) 0 0, false) else (.fin (decide (s < 0)) s.natAbs q, false)

def flagIf (b : Bool) (f : Nat) : Nat := if b then f else 0

/-- z + x × y, rounded once to nearest even (05 R119, 08 R209). 0 × ∞ sets NV whatever z is (R132; log 65). -/
def fmaBits (f : Fmt) (x y z : FVal) : Nat × Nat :=
  let (p, bad1) := fmulX x y
  let (s, bad2) := faddX p z
  let (r, fl) := roundVal f 0 0 s
  (r, fl ||| flagIf (bad1 || bad2 || x.isSig || y.isSig || z.isSig) flNV)

def faddBits (f : Fmt) (x y : FVal) : Nat × Nat :=
  let (s, bad) := faddX x y
  let (r, fl) := roundVal f 0 0 s
  (r, fl ||| flagIf (bad || x.isSig || y.isSig) flNV)

def fmulBits (f : Fmt) (x y : FVal) : Nat × Nat :=
  let (s, bad) := fmulX x y
  let (r, fl) := roundVal f 0 0 s
  (r, fl ||| flagIf (bad || x.isSig || y.isSig) flNV)

/-- An exact value as a comparable pair: the sign class and the magnitude are compared through the difference. -/
def fcmp : FVal → FVal → Option Ordering
  | .nan _, _ => none
  | _, .nan _ => none
  | .inf a, .inf b => some (if a = b then .eq else if a then .lt else .gt)
  | .inf a, .fin _ _ _ => some (if a then .lt else .gt)
  | .fin _ _ _, .inf b => some (if b then .gt else .lt)
  | .fin a m e, .fin b n d =>
    let q := if e ≤ d then e else d
    some (compare (alignTo a m e q) (alignTo b n d q))

/-- Minimum and maximum: a NaN gives the default NaN, and −0.0 is below +0.0 (05 R117, R120). -/
def fminmax (f : Fmt) (max : Bool) (x y : Nat) : Nat × Nat :=
  let a := unpack f x
  let b := unpack f y
  let fl := flagIf (a.isSig || b.isSig) flNV
  match fcmp a b with
  | none => (nanBits f, fl)
  | some .lt => (if max then y else x, fl)
  | some .gt => (if max then x else y, fl)
  | some .eq => (if max then (if x < y then x else y) else (if x < y then y else x), fl)

/-! ## Integers -/

/-- The low w bits of v as a signed number (05 R121). -/
def toSigned (w v : Nat) : Int := if v % 2 ^ w < 2 ^ (w - 1) then (v % 2 ^ w : Nat) else (v % 2 ^ w : Nat) - 2 ^ w

/-- The w-bit pattern of an integer (05 R121: arithmetic wraps). -/
def ofSigned (w : Nat) (i : Int) : Nat := (i % 2 ^ w).toNat

/-- An element as an integer, by its tag. -/
def elemInt (tag v : Nat) : Int := if tagSigned tag then toSigned (tagWidth tag) v else (v % 2 ^ tagWidth tag : Nat)

/-- Clamps to a signed width; the flag says that it clamped (05 R131). -/
def clampInt (w : Nat) (i : Int) : Int × Bool :=
  if 2 ^ (w - 1) - 1 < i then (2 ^ (w - 1) - 1, true) else if i < -2 ^ (w - 1) then (-2 ^ (w - 1), true) else (i, false)

/-- An integer as an exact value. -/
def intVal (i : Int) : FVal := .fin (decide (i < 0)) i.natAbs 0

/-- Converts an exact value to a signed integer of width w under R128 and R131. -/
def toIntBits (w mode rnd : Nat) : FVal → Nat × Nat
  | .nan _ => (0, flNV ||| flSAT)
  | .inf neg => (ofSigned w (if neg then -2 ^ (w - 1) else 2 ^ (w - 1) - 1), flSAT ||| flNX)
  | .fin neg m e =>
    let (t, inexact, _) := roundAt mode neg rnd m e 0
    let (i, cl) := clampInt w (if neg then -(t : Int) else t)
    (ofSigned w i, flagIf (inexact || cl) flNX ||| flagIf cl flSAT)

/-! ## Fixed approximations (08 R213, R214) -/

/-- Rounds m × 2^e to a significand of 12 bits with unbounded exponent; the flag says that it changed. -/
def round12 (m : Nat) (e : Int) : Nat × Int × Bool :=
  let l := bitLen m
  if l ≤ 12 then (m, e, false)
  else
    let q : Int := e + l - 12
    let (t, inexact, _) := roundAt 0 false 0 m e q
    (t, q, inexact)

/-- The final rounding of R213 of a positive or negative y given as m × 2^e, where an odd lowest bit may stand for a remainder. -/
def approxFin (f : Fmt) (neg : Bool) (m : Nat) (e : Int) : Nat × Nat :=
  let (t, q, ch) := round12 m e
  let (r, fl) := roundFin f 0 0 neg t q
  (r, fl ||| flagIf ch flNX)

/-- 1/m × 2^(−e). -/
def recipFin (f : Fmt) (neg : Bool) (m : Nat) (e : Int) : Nat × Nat :=
  let s := bitLen m + 40
  let q := 2 ^ s / m
  approxFin f neg (2 * q + if 2 ^ s % m = 0 then 0 else 1) (-(s : Int) - 1 - e)

/-- 1/√(m × 2^e). -/
def rsqrtFin (f : Fmt) (m : Nat) (e : Int) : Nat × Nat :=
  let (m, e) := if e % 2 = 0 then (m, e) else (m * 2, e - 1)
  let s := bitLen m + 40
  let n := 2 ^ (2 * s) / m
  let q := Nat.sqrt n
  let exact := decide (q * q = n) && decide (2 ^ (2 * s) % m = 0)
  approxFin f false (2 * q + if exact then 0 else 1) (-(s : Int) - 1 - e / 2)

/-- ln 2 × 2^192, rounded down. -/
def ln2Fix : Nat := 4350955369971217654477563090224794165364344896676135745069

/-- Σ t^k / k! from term k on, at 192 fraction bits. -/
def expSeries (t : Nat) : Nat → Nat → Nat → Nat
  | 0, _, _ => 0
  | fuel + 1, k, term => term + expSeries t fuel (k + 1) (term * t / 2 ^ 192 / (k + 1))

/-- Σ t^(2k+1)/(2k+1), at 192 fraction bits. -/
def atanhSeries (t2 : Nat) : Nat → Nat → Nat → Nat
  | 0, _, _ => 0
  | fuel + 1, k, pow => pow / (2 * k + 1) + atanhSeries t2 fuel (k + 1) (pow * t2 / 2 ^ 192)

/-- 2^x for x = ± m × 2^e. Outside ±20,000 every format has overflowed or underflowed. -/
def exp2Fin (f : Fmt) (neg : Bool) (m : Nat) (e : Int) : Nat × Nat :=
  if m = 0 then roundFin f 0 0 false 1 0
  else if 15 < (e + bitLen m : Int) then approxFin f false 3 (if neg then -20000 else 20000)
  else if (e + bitLen m : Int) < -60 then approxFin f false (if neg then 2 ^ 70 - 1 else 2 ^ 70 + 1) (-70)
  else
    let fx : Int := (if neg then -1 else 1) * ((if 0 ≤ e then m * 2 ^ (e.toNat + 192) else m * 2 ^ 192 / 2 ^ (-e).toNat : Nat) : Int)
    let n := fx / 2 ^ 192
    let fr := (fx % 2 ^ 192).toNat
    if fr = 0 then roundFin f 0 0 false 1 n
    else approxFin f false (2 * expSeries (fr * ln2Fix / 2 ^ 192) 60 0 (2 ^ 192) + 1) (n - 193)

/-- log2 of m × 2^e, m ≠ 0. -/
def log2Fin (f : Fmt) (m : Nat) (e : Int) : Nat × Nat :=
  let l := bitLen m - 1
  let n : Int := e + l
  if m = 2 ^ l then (if n = 0 then roundFin f 0 0 false 0 0 else approxFin f (decide (n < 0)) n.natAbs 0)
  else
    let t := (m - 2 ^ l) * 2 ^ 192 / (m + 2 ^ l)
    let lnG := 2 * atanhSeries (t * t / 2 ^ 192) 70 0 t
    let y : Int := n * 2 ^ 192 + (lnG * 2 ^ 192 / ln2Fix : Nat)
    approxFin f (decide (y < 0)) (2 * y.natAbs + 1) (-193)

/-- VRCP of one element (R214). -/
def vrcpElem (f : Fmt) (x : Nat) : Nat × Nat :=
  match unpack f x with
  | .nan s => (nanBits f, flagIf s flNV)
  | .inf neg => (signBit f neg, 0)
  | .fin neg m e => if m = 0 then (infBits f neg, flDZ) else recipFin f neg m e

/-- VRSQ of one element (R214). -/
def vrsqElem (f : Fmt) (x : Nat) : Nat × Nat :=
  match unpack f x with
  | .nan s => (nanBits f, flagIf s flNV)
  | .inf neg => if neg then (nanBits f, flNV) else (0, 0)
  | .fin neg m e => if m = 0 then (infBits f neg, flDZ) else if neg then (nanBits f, flNV) else rsqrtFin f m e

/-- VEXP2 of one element (R214). -/
def vexp2Elem (f : Fmt) (x : Nat) : Nat × Nat :=
  match unpack f x with
  | .nan s => (nanBits f, flagIf s flNV)
  | .inf neg => (if neg then 0 else infBits f false, 0)
  | .fin neg m e => exp2Fin f neg m e

/-- VLOG2 of one element (R214). -/
def vlog2Elem (f : Fmt) (x : Nat) : Nat × Nat :=
  match unpack f x with
  | .nan s => (nanBits f, flagIf s flNV)
  | .inf neg => if neg then (nanBits f, flNV) else (infBits f false, 0)
  | .fin neg m e => if m = 0 then (infBits f true, flDZ) else if neg then (nanBits f, flNV) else log2Fin f m e

/-! ## Elements by tag -/

/-- The exact value of an element; BPI by its plain reconstruction with plane count field p (05 R123, 08 R215). -/
def elemVal (tag p v : Nat) : FVal :=
  if isFloatTag tag then unpack (fmtOf tag) (v % 2 ^ tagWidth tag)
  else if tag = 8 then intVal (toSigned 8 v * 2 ^ (7 - p))
  else intVal (elemInt tag v)

/-- One element of a conversion to tag t (05 R128-R131). -/
def convertElem (src p t mode rnd v : Nat) : Nat × Nat :=
  if isFloatTag t then
    if src = t then
      match unpack (fmtOf t) (v % 2 ^ tagWidth t) with
      | .nan s => (nanBits (fmtOf t), flagIf s flNV)
      | _ => (v % 2 ^ tagWidth t, 0)
    else roundVal (fmtOf t) mode rnd (elemVal src p v)
  else toIntBits (tagWidth t) mode rnd (elemVal src p v)

/-- One step of the seed (05 R130). -/
def seedStep (s : Word) : Word :=
  let s := if s = 0 then 0x9E3779B97F4A7C15#64 else s
  let s := s ^^^ (s <<< 13)
  let s := s ^^^ (s >>> 7)
  s ^^^ (s <<< 17)

/-- r of 05 R130. -/
def seedRnd (s : Word) : Nat := s.toNat / 2 ^ 48

/-- The identity of an operator in a format (05 R137); operators 0 add, 1 min, 2 max, 3 and, 4 or, 5 xor. -/
def identityBits (op tag : Nat) : Nat :=
  let w := tagWidth tag
  if isFloatTag tag then
    (if op = 1 then infBits (fmtOf tag) false else if op = 2 then infBits (fmtOf tag) true else signBit (fmtOf tag) true)
  else if op = 1 then (if tagSigned tag then 2 ^ (w - 1) - 1 else 2 ^ w - 1)
  else if op = 2 then (if tagSigned tag then 2 ^ (w - 1) else 0)
  else if op = 3 then 2 ^ w - 1
  else 0

/-- One node of a reduction in a format: the left operand is x (05 R135). -/
def opBits (op tag x y : Nat) : Nat × Nat :=
  let w := tagWidth tag
  if isFloatTag tag then
    let f := fmtOf tag
    if op = 1 then fminmax f false x y
    else if op = 2 then fminmax f true x y
    else faddBits f (unpack f x) (unpack f y)
  else if op = 0 then ((x + y) % 2 ^ w, 0)
  else if op = 1 then (if elemInt tag x ≤ elemInt tag y then x else y, 0)
  else if op = 2 then (if elemInt tag x ≤ elemInt tag y then y else x, 0)
  else if op = 3 then (x &&& y, 0)
  else if op = 4 then (x ||| y, 0)
  else (x ^^^ y, 0)

/-- One level of the tree: neighbours are combined, the lower index on the left (05 R135). -/
def treeLevel (op tag : Nat) : List Nat → List Nat × Nat
  | x :: y :: rest =>
    let (r, f1) := opBits op tag x y
    let (rs, f2) := treeLevel op tag rest
    (r :: rs, f1 ||| f2)
  | l => (l, 0)

/-- The pairwise tree over 2^n leaves (05 R135). -/
def treeReduce (op tag : Nat) : Nat → List Nat → Nat × Nat
  | 0, l => (l.headD (identityBits op tag), 0)
  | n + 1, l =>
    let (l', f1) := treeLevel op tag l
    let (r, f2) := treeReduce op tag n l'
    (r, f1 ||| f2)

/-- The tree over 2^n positions of which only those in the sorted list hold a value: positions are halved level by level, and a missing
neighbour supplies the identity (05 R136). -/
def sparseLevel (op tag : Nat) : List (Nat × Nat) → List (Nat × Nat)
  | (p, x) :: (q, y) :: rest =>
    if p / 2 = q / 2 then (p / 2, (opBits op tag x y).1) :: sparseLevel op tag rest
    else (p / 2, (if p % 2 = 0 then opBits op tag x (identityBits op tag) else opBits op tag (identityBits op tag) x).1)
      :: sparseLevel op tag ((q, y) :: rest)
  | [(p, x)] => [(p / 2, (if p % 2 = 0 then opBits op tag x (identityBits op tag) else opBits op tag (identityBits op tag) x).1)]
  | [] => []

def sparseReduce (op tag : Nat) : Nat → List (Nat × Nat) → Nat
  | 0, l => (l.headD (0, identityBits op tag)).2
  | n + 1, l => sparseReduce op tag n (sparseLevel op tag l)

/-! ## Block scales (05 R125) -/

/-- A scale container as an exact value; none when invalid. -/
def scaleVal (c : Nat) : Option FVal :=
  let e := c / 2 % 256
  if 512 ≤ c || e = 255 then none
  else if e = 0 then some (.fin false 0 0)
  else some (.fin false (2 + c % 2) ((e : Int) - 128))

end Sys2Proof.Machine
end

