-- ==== Sys2Proof/Machine/Translate.lean ====
section
/-! DEFINITION. Address decode, windows, page walks, TLBs and the checks of one access (03 R65-R88, 13 R349, R358, 17 R390). -/

namespace Sys2Proof.Machine

open Sys2Proof

/-! ## Cause codes of 17 R378 -/

def cIllegal : Nat := 0x01
def cInsnAddr : Nat := 0x02
def cNonCanonical : Nat := 0x03
def cWindow : Nat := 0x04
def cWindowType : Nat := 0x05
def cScratchProt : Nat := 0x06
def cFenced : Nat := 0x07
def cNotPresent : Nat := 0x08
def cBadEntry : Nat := 0x09
def cDenied : Nat := 0x0A
def cNoTarget : Nat := 0x0B
def cRefused : Nat := 0x0C
def cUncorrectable : Nat := 0x0D
def cFullEmpty : Nat := 0x0E
def cCounter : Nat := 0x0F
def cAtomicAlign : Nat := 0x10
def cBpiAddr : Nat := 0x11
def cTag : Nat := 0x12
def cBlockScale : Nat := 0x13
def cMatrix : Nat := 0x14
def cTileOwner : Nat := 0x15
def cSetOwner : Nat := 0x16
def cEngine : Nat := 0x17
def cStream : Nat := 0x18
def cQueuePair : Nat := 0x19
def cMsgDest : Nat := 0x1A
def cSpawn : Nat := 0x1B
def cTrigger : Nat := 0x1C
def cRecord : Nat := 0x1D
def cBarrier : Nat := 0x1E
def cGroupTable : Nat := 0x1F
def cGroupNumber : Nat := 0x20
def cRing : Nat := 0x21
def cJoin : Nat := 0x22
def cSpill : Nat := 0x23
def cSoftTrap : Nat := 0x24
def cBreak : Nat := 0x25
def cLiveMap : Nat := 0x26
def cHandlerIndex : Nat := 0x27
def cHandlerInvalid : Nat := 0x28
def cTooLong : Nat := 0x29
def cHeartbeat : Nat := 0x2A

/-! ## Who accesses, and how -/

/-- An access type (03 R76). -/
inductive Acc where
  | read
  | write
  | both
  | fetch
deriving DecidableEq, Repr

def Acc.writes : Acc → Bool
  | .write => true
  | .both => true
  | _ => false

/-- What the checks of an access give: the bytes it answers as (key, length), an aperture place, a failure, an absent page, or a wait: for a
page in migration, or for a reply from an unreachable package (19 R429); the last three with the failing address. -/
inductive Chk where
  | ok (spans : List (Nat × Nat))
  | aperture (slot ofs : Nat)
  | bad (cause : Nat) (addr : Word)
  | absent (addr : Word)
  | held (addr : Word)
deriving DecidableEq, Repr

/-! ## Address classes (03 R65) -/

inductive AddrClass where
  | nonCanonical
  | translated
  | aperture
  | group
  | scratch
  | localWin
deriving DecidableEq, Repr

def addrClass (va : Word) : AddrClass :=
  let h := va.toNat / 2 ^ 52
  if 32 ≤ h then .nonCanonical
  else if h < 28 then .translated
  else if h = 28 then .aperture
  else if h = 29 then .group
  else if h = 30 then .scratch
  else .localWin

/-! ## Physical targets (03 R78, R81; 18 R423; 19 R431) -/

/-- The set bits of a mask below n, ascending. -/
def setBits (n m : Nat) : List Nat := (List.range n).filter (fun i => m.testBit i)

/-- The decoder entry's port and port address of an offset in its window (13 R349). -/
def portPlace (e : Word) (x : Nat) : Option (Nat × Nat) :=
  let ports := setBits 4 (fld e 1 4)
  let w := ports.length
  if e.getLsbD 0 && (w == 1 || w == 2 || w == 4) then
    (ports[x / 4096 % w]?).map (fun n => (n, fld e 40 24 * 2 ^ 40 + x / 4096 / w * 4096 + x % 4096))
  else none

/-- The offset in an entry's window that arrives at a port address. -/
def windowPlace (e : Word) (port addr : Nat) : Option Nat :=
  let ports := setBits 4 (fld e 1 4)
  let w := ports.length
  let base := fld e 40 24 * 2 ^ 40
  if e.getLsbD 0 && (w == 1 || w == 2 || w == 4) && base ≤ addr && addr < base + 2 ^ 40 / w then
    (ports.findIdx? (fun n => n == port)).map (fun r => ((addr - base) / 4096 * w + r) * 4096 + addr % 4096)
  else none

/-- The port and the port address of a pooled address (13 R349). -/
def portOf (p : Pkg) (pa : Nat) : Option (Nat × Nat) :=
  let x := pa - 0x0100000000000
  portPlace (kget p.decoder 0 (x / 2 ^ 40)) (x % 2 ^ 40)

/-- The decoder table's port of a pooled address. -/
def poolPort (p : Pkg) (pa : Nat) : Option Nat := (portOf p pa).map (fun e => e.1)

/-- The physical address under which the bytes of a port address stand: that of the lowest window that maps it, so that windows that map one port address
share its bytes (log 19). -/
def portHome (p : Pkg) (n a : Nat) : Option Nat :=
  p.decoder.findSome? (fun e => (windowPlace e.2 n a).map (fun x => 0x0100000000000 + e.1 * 2 ^ 40 + x))

def portUp (p : Pkg) (n : Nat) : Bool := (kget p.ports { up := false, fail := false, tmo := 0 } n).up

/-- The range of a physical address: 0 HBM, 1 pooled, 2 host, 3 none (03 R78). -/
def paRange (pa : Nat) : Nat :=
  if pa < 2 ^ 39 then 0 else if pa < 2 ^ 44 then 3 else if pa < 2 ^ 45 then 1 else if pa < 2 ^ 51 then 3 else 2

/-- The key of the byte at a physical address of a package. -/
def paKey (s : State) (pkg pa : Nat) : Nat :=
  if paRange pa ≠ 1 then physKey pkg pa
  else
    let p := getPkg s pkg
    physKey pkg (((portOf p pa).bind (fun e => portHome p e.1 e.2)).getD pa)

/-- The CXL port that serves a physical address. -/
def cxlPort (p : Pkg) (pa : Nat) : Option Nat :=
  match paRange pa with
  | 1 => poolPort p pa
  | 2 => some 0
  | _ => none

/-- Counts the lines of n bytes, of a physical address and its key, that their CXL port delivers; f tells which lines the reader holds (03 R90; log 14).
How many starved cycles the outstanding time of a read adds, for which a requester waits, is timing: a free value (log 76). The line and its starved
cycles are one count: another resident window decays by 1 for each line, whatever that value (DESIGN CHOICE, log 101). -/
def cxlLines (s : State) (waits : Bool) (f : Nat → Bool) (pa k n : Nat) : State :=
  if keyIsScratch k || paRange (keyPa k) = 0 then s
  else (List.range ((k + n - 1) / 64 + 1 - k / 64)).foldl (fun s i =>
    let line := (pa / 64 + i) * 64
    if f (max ((k / 64 + i) * 64) k) then s
    else match cxlPort (getPkg s (keyPkg k)) line with
      | some port =>
        if waits then hotCount (freeStep s) (keyPkg k) (8 + port) line 1 ((freeNow s).toNat % 2 ^ 32)
        else hotCount s (keyPkg k) (8 + port) line 1 0
      | none => s) s

/-- The same for spans of physical addresses, from pa on. -/
def paDeliver (s : State) (pa : Nat) : List (Nat × Nat) → State
  | [] => s
  | (k, n) :: rest => paDeliver (cxlLines s true (fun _ => false) pa k n) (pa + n) rest

/-- Whether a physical address has a target that answers an agent of a die; die 4 is the I/O die, at which the CXL ports stand: an isolated die reaches
neither pooled nor host memory (19 R431; log 53). -/
def hasTarget (p : Pkg) (die pa : Nat) : Bool :=
  match paRange pa with
  | 0 => !dieCut p die (pa / 2 ^ 37)
  | 1 => !dieCut p die ioDie && (match poolPort p pa with
    | some n => portUp p n
    | none => false)
  | 2 => !dieCut p die ioDie && portUp p 0
  | _ => false

/-- Whether an access of an agent of a die gets an answer from its target. Which accesses the host completes with an error is the host's own: a free
choice (13 R348; log 77). -/
def answers (s : State) (pkg die pa : Nat) : Bool :=
  hasTarget (getPkg s pkg) die pa && !(paRange pa == 2 && Config.hostError s.cycle (pa - 2 ^ 51))

/-! ## The walk (03 R72-R77) -/

/-- What a walk gives. -/
inductive Walk where
  | leaf (e : TlbEntry)
  | bad (cause : Nat)
  | absent
deriving DecidableEq, Repr

/-- A table entry read through its data home slice (03 R85). -/
def tableRead (s : State) (key : Nat) : Word := word (leNat (coherentBytes s key 8))

/-- The physical address that a table entry holds. -/
def entryPa (x : Word) : Nat := fld x 12 40 * 4096

/-- R74, for an entry with V = 1 at a level. CT is a field of level 0 only (log 33). -/
def badEntry (level va : Nat) (x : Word) : Bool :=
  let pa := entryPa x
  let tier := x.getLsbD 9
  if fld x 52 7 ≠ 0 then true
  else if !x.getLsbD 7 then level == 0 || paRange pa != 0
  else decide (3 ≤ level)
    || (!x.getLsbD 1 && x.getLsbD 2)
    || (level == 1 && pa % 2 ^ 21 != 0)
    || (level == 2 && pa % 2 ^ 30 != 0)
    || !(if tier then paRange pa == 1 || paRange pa == 2 else paRange pa == 0)
    || (x.getLsbD 11 && (!x.getLsbD 10 || level != 1 || tier))
    || (level == 0 && x.getLsbD 8 && pa / 4096 % 16 != va / 4096 % 16)

/-- The translation that a leaf gives (03 R72, R75). -/
def leafEntry (job level va key : Nat) (x : Word) : TlbEntry :=
  let run := level == 0 && x.getLsbD 8
  let size := if run then 65536 else 4096 * 512 ^ level
  { job := job, va := va / size * size, size := size, pa := entryPa x / size * size, leaf := x.toNat, leafAt := key }

/-- One walk from a level's table down. A level-4 table whose address in the address-space table lies outside HBM, where 03 R72 puts the tables, is
read where it has a target, and else has "no physical target" (DESIGN CHOICE, log 73). -/
def walkFrom (s : State) (pkg die job va : Nat) : Nat → Nat → Walk
  | lv, table =>
    let key := physKey pkg (table + 8 * (va / 2 ^ (12 + 9 * lv) % 512))
    let x := tableRead s key
    if (firstBad s key 8).isSome then .bad cUncorrectable
    else if !answers s pkg die (keyPa key) then .bad cNoTarget
    else if !x.getLsbD 0 then .absent
    else if badEntry lv va x then .bad cBadEntry
    else if x.getLsbD 7 then .leaf (leafEntry job lv va key x)
    else match lv with
      | 0 => .bad cBadEntry
      | l + 1 => walkFrom s pkg die job va l (entryPa x)

def astEntry (s : State) (pkg job : Nat) : Word := kget (getPkg s pkg).ast 0 job

def walk (s : State) (pkg die job va : Nat) : Walk := walkFrom s pkg die job va 4 (entryPa (astEntry s pkg job))

/-! ## TLBs (03 R82-R85) -/

/-- The translation home slice of an address on a die (03 R83). -/
def transHomeAt (pkg die job va : Nat) : Nat := pkg * 256 + die * 64 + ((hash6 6 (va / 2 ^ 21)) ^^^ (hash6 2 job))
def transHome (core job va : Nat) : Nat := transHomeAt (corePkg core) (coreId core / 2048) job va
/-- The slice to which an agent's misses go. The I/O die has no slices: an agent there uses those of the die of the core that its operation is for
(DESIGN CHOICE, log 92). -/
def Who.home (w : Who) (va : Nat) : Nat := transHomeAt (corePkg w.core) (if w.dieOf = ioDie then coreDie w.core else w.dieOf) w.job va

def TlbEntry.covers (e : TlbEntry) (job va : Nat) : Bool := e.job == job && decide (e.va ≤ va) && decide (va < e.va + e.size)

def tlbFind (l : List TlbEntry) (job va : Nat) : Option TlbEntry := l.find? (fun e => e.covers job va)

/-- Newest first; a translation of the same page replaces the older one, and a full TLB loses its oldest: 03 R82 states no replacement policy
(DESIGN CHOICE, log 72). -/
def tlbAdd (cap : Nat) (l : List TlbEntry) (e : TlbEntry) : List TlbEntry :=
  (e :: l.filter (fun x => !(x.job == e.job && x.va == e.va && x.size == e.size))).take cap

def leafBit (e : TlbEntry) (n : Nat) : Bool := e.leaf.testBit n

/-- R76. -/
def permits (acc : Acc) (e : TlbEntry) : Bool :=
  leafBit e 4 && (match acc with
    | .read => leafBit e 1
    | .write => leafBit e 2
    | .both => leafBit e 1 && leafBit e 2
    | .fetch => leafBit e 3)

/-- Sets A, and D for a write, in the leaf by an atomic OR at its data home slice (03 R77). -/
def setAD (s : State) (e : TlbEntry) (wr : Bool) : State × TlbEntry :=
  let add := (if e.leaf.testBit 5 then 0 else 0x20) + (if wr && !e.leaf.testBit 6 then 0x40 else 0)
  if add = 0 then (s, e)
  else
    let b := coherentByte s e.leafAt
    (homeWrite s e.leafAt [b ||| BitVec.ofNat 8 add], { e with leaf := e.leaf + add })

/-- Installs a translation in a first-level TLB, and in the second-level TLB of the slice to which the miss went. -/
def installAt (s : State) (core home : Nat) (e : TlbEntry) : State :=
  let s := modCore s core (fun u => { u with tlb := tlbAdd 512 u.tlb e })
  modGrove s home (fun g => { g with tlb2 := tlbAdd 8192 g.tlb2 e })

def installTlb (s : State) (w : Who) (va : Nat) (e : TlbEntry) : State := installAt s w.core (w.home va) e

/-- What one page's translation gives. -/
inductive Trans where
  | pa (n : Nat)
  | bad (cause : Nat)
  | absent
  | held
deriving DecidableEq, Repr

/-- Whether a page of a job is being migrated (03 R93). -/
def migrating (s : State) (pkg job va : Nat) : Bool :=
  (getPkg s pkg).migs.any (fun m => m.job == job && decide (m.va ≤ va) && decide (va < m.va + m.size))

/-- A translation in force: a first-level hit, else a second-level hit. The first level is that of the core that the agent works for, for engines,
Skidder, Ethernet and Quadrille too (DESIGN CHOICE, log 92). A write needs D (03 R77); an entry that was installed without A is walked again (log
56). -/
def tlbHit (s : State) (w : Who) (acc : Acc) (va : Nat) : Option TlbEntry :=
  let e := match tlbFind (getCore s w.core).tlb w.job va with
    | some e => some e
    | none => tlbFind (getGrove s (w.home va)).tlb2 w.job va
  match e with
  | some e => if permits acc e && ((acc.writes && !leafBit e 6) || !leafBit e 5) then none else some e
  | none => none

/-- Whether the tables still give a translation as a TLB holds it, A and D aside. -/
def stillMapped (s : State) (w : Who) (va : Nat) (e : TlbEntry) : Bool :=
  match walk s (corePkg w.core) w.dieOf w.job va with
  | .leaf f => f.va == e.va && f.size == e.size && f.pa == e.pa && (f.leaf ||| 0x60) % 2 ^ 12 == (e.leaf ||| 0x60) % 2 ^ 12
  | _ => false

/-- The hit that an access uses. After a change of the tables and before the shootdown, the old or the new entry: a free choice (03 R85, R88; log 4). -/
def usedHit (s : State) (w : Who) (acc : Acc) (va : Nat) : State × Option TlbEntry :=
  match tlbHit s w acc va with
  | none => (s, none)
  | some e => if stillMapped s w va e then (s, some e) else (freeStep s, if freeBit s then some e else none)

/-- Translates one address of an access: hit, or walk, install, A and D (03 R71-R78, R82-R85; log 32). The TLBs hold leaves and no pointer entries,
which 03 R85 lets them hold; a change of an address-space table entry's enable bit acts at once, though 03 R88 lets the old entry be used until
the shootdown (DESIGN CHOICE, log 74). -/
def translate (s : State) (w : Who) (acc : Acc) (va : Nat) : State × Trans :=
  let p := corePkg w.core
  let finish (s : State) (e : TlbEntry) : State × Trans :=
    let pa := e.pa + (va - e.va)
    if !permits acc e then (s, .bad cDenied)
    else if answers s p w.dieOf pa then (s, .pa pa) else (s, .bad cNoTarget)
  let walked (s : State) (keep : Bool) : State × Trans := match walk s p w.dieOf w.job va with
    | .absent => (s, .absent)
    | .bad c => (s, .bad c)
    | .leaf e =>
      if permits acc e then
        let (s, e) := setAD s e acc.writes
        finish (if keep then installTlb s w va e else s) e
      else (s, .bad cDenied)
  if !(astEntry s p w.job).getLsbD 0 then (s, .bad cNotPresent)
  else if migrating s p w.job va then (if w.hw then walked s false else (s, .held))
  else match usedHit s w acc va with
    | (s, some e) => finish (if (tlbFind (getCore s w.core).tlb w.job va).isSome then s else installTlb s w va e) e
    | (s, none) => walked s true

/-- A translation without any effect, for speculative accesses (03 R77, 18 R407). A page in migration gives none (DESIGN CHOICE, log 71). Between a change
of the tables and the shootdown it uses the entry that the TLB holds, and never by choice the new one (DESIGN CHOICE, log 102). -/
def peek (s : State) (w : Who) (va : Nat) : Option Nat :=
  let p := corePkg w.core
  if !(astEntry s p w.job).getLsbD 0 || migrating s p w.job va then none
  else
    let e := match tlbHit s w .read va with
      | some e => some e
      | none => match walk s p w.dieOf w.job va with
        | .leaf e => some e
        | _ => none
    match e with
    | some e => if permits .read e && answers s p w.dieOf (e.pa + (va - e.va)) then some (e.pa + (va - e.va)) else none
    | none => none

/-- The physical address of a byte of an access that has just been translated. -/
def usedPa (s : State) (w : Who) (va : Nat) : Nat :=
  match tlbFind (getCore s w.core).tlb w.job va with
  | some e => e.pa + (va - e.va)
  | none => match walk s (corePkg w.core) w.dieOf w.job va with
    | .leaf e => e.pa + (va - e.va)
    | _ => 0

/-- The lines that an agent's read of n bytes at a key delivers, va being the address under which it reads them: the window counted is that of the
access's own physical address, two windows of the decoder table may name one key (log 19). -/
def cxlDelivers (s : State) (w : Who) (va : Nat) (f : Nat → Bool) (k n : Nat) : State :=
  if keyIsScratch k || paRange (keyPa k) = 0 then s else cxlLines s true f (usedPa s w va) k n

def spansDeliver (s : State) (w : Who) (f : Nat → Bool) : Nat → List (Nat × Nat) → State
  | _, [] => s
  | va, (k, n) :: rest => spansDeliver (cxlDelivers s w va f k n) w f (va + n) rest

/-- The class of the failed unit at a key of global memory (19 R436): 3 for an HBM block; an L1 word, a dword of a shared-cache slice and a lost partial,
after whose recall the block itself is good, are of class 2. -/
def keyClass (s : State) (k : Nat) : Nat := if (kfind s.owner k).isNone && s.bad.contains (unitOf k) then 3 else 2

/-- The class of the failed unit at a physical key (19 R436). An error of CXL memory itself, which its device reports, has none; the L1 words, slice
dwords and partials of such memory are of class 2 like any. -/
def unitClass (s : State) (k : Nat) : Option Nat := if paRange (keyPa k) ≠ 0 && keyClass s k == 3 then none else some (keyClass s k)

/-- The class of the failed unit at an address. -/
def uncClass (s : State) (w : Who) (va : Word) : Option Nat :=
  match addrClass va with
  | .scratch => some 1
  | .localWin => some 1
  | .group => some 2
  | .translated => match peek s w va.toNat with
    | some pa => unitClass s (paKey s (corePkg w.core) pa)
    | none => some 3
  | _ => none

/-- Counts an uncorrectable error met at an address (19 R436). -/
def uncMet (s : State) (w : Who) (va : Word) : State :=
  match uncClass s w va with
  | some c => uncBump s (corePkg w.core) c
  | none => s

/-- Whether the memory at virtual address 0 fails its check for an agent. -/
def zeroFails (s : State) (w : Who) : Bool := (peek s w 0).any (fun pa => (firstBad s (paKey s (corePkg w.core) pa) 1).isSome)

/-- Counts the uncorrectable error of an operation that names an address, or 0 for its own state, of the class given. -/
def uncAt (s : State) (w : Who) (va : Word) (cls : Nat) : State :=
  if va = 0 && !zeroFails s w then uncBump s (corePkg w.core) cls else uncMet s w va

/-! ## Accesses -/

/-- The pieces of a translated access, one for each 4 KiB page: (address, length). -/
def pieces : Nat → Nat → Nat → List (Nat × Nat)
  | 0, _, _ => []
  | f + 1, va, n =>
    if n = 0 then []
    else
      let k := min n (4096 - va % 4096)
      (va, k) :: pieces f (va + k) (n - k)

/-- The bytes [pa, pa + n) of a package, as keys: in pooled memory page by page. -/
def paSpans (s : State) (pkg pa n : Nat) : List (Nat × Nat) :=
  if paRange pa ≠ 1 then [(physKey pkg pa, n)] else (pieces (n / 4096 + 2) pa n).map (fun e => (paKey s pkg e.1, e.2))

/-- The checks of a translated access, page by page in ascending order (07 R190). -/
def checkPages (s : State) (w : Who) (acc : Acc) : List (Nat × Nat) → List (Nat × Nat) → State × Chk
  | [], done => (s, .ok done)
  | (va, n) :: rest, done =>
    if 28 ≤ va / 2 ^ 52 then (s, .bad cWindow (word va))
    else match translate s w acc va with
      | (s, .pa pa) => checkPages s w acc rest (done ++ [(paKey s (corePkg w.core) pa, n)])
      | (s, .bad c) => (s, .bad c (word va))
      | (s, .absent) => (s, .absent (word va))
      | (s, .held) => (s, .held (word va))

/-- The check of a scratchpad access once its core is known (03 R70): access type, protection, the fence (scratch window only, 17 R390),
then the overrun. -/
def checkScratch (s : State) (w : Who) (acc : Acc) (window : Bool) (core ofs n : Nat) (va : Word) : Chk :=
  if acc = .fetch then .bad cWindowType va
  else if !inCores s core w.job then .bad cScratchProt va
  else if window && fencedFor s w core then .bad cFenced va
  else if 2 ^ 17 < ofs + n then .bad cWindow (va + word (2 ^ 17 - ofs))
  else .ok [(scratchKey core ofs, n)]

/-- The core that a scratch-window address names, or the cause of its failure (03 R66, R70). -/
def windowCore (s : State) (w : Who) (va : Word) : Option Nat :=
  if fld va 44 8 ≠ 0 || fld va 30 2 ≠ 0 then none
  else if 23 < fld va 17 5 then none
  else if !inTorus s (corePkg w.core) (fld va 32 12) then none
  else some (fld va 32 12 * 8192 + fld va 17 13)

/-- Whether a play has been issued on a plan slot of a package (13 R358). -/
def playOn (s : State) (pkg slot : Nat) : Bool := s.plays.any (fun y => y.slot == slot && y.joined.any (fun j => j.pkg == pkg))

/-- The checks of an access of n bytes at va (03 R65-R78; 07 R190). `ap` says that the aperture accepts
the access, its alignment included (13 R358). -/
def check (s : State) (w : Who) (acc : Acc) (ap : Bool) (va : Word) (n : Nat) : State × Chk :=
  if n = 0 then (s, .ok [])
  else match addrClass va with
    | .nonCanonical => (s, .bad cNonCanonical va)
    | .translated => checkPages s w acc (pieces (n / 4096 + 2) va.toNat n) []
    | .aperture =>
      if fld va 40 6 ≠ 0 then (s, .bad cWindow va)
      else if !(ap && playOn s (corePkg w.core) (fld va 46 6)) then (s, .bad cWindowType va)
      else if 2 ^ 40 < fld va 0 40 + n then (s, .bad cWindow (va + word (2 ^ 40 - fld va 0 40)))
      else (s, .aperture (fld va 46 6) (fld va 0 40))
    | .group => if fld va 33 19 ≠ 0 then (s, .bad cWindow va) else (s, .bad cWindowType va)
    | .scratch =>
      match windowCore s w va with
      | none => (s, .bad cWindow va)
      | some core =>
        if (acc == .read || acc == .both || !w.thread) && (getPkg s (corePkg w.core)).unreachable.contains (corePkg core) then (s, .held va)
        else (s, checkScratch s w acc true core (fld va 0 17) n va)
    | .localWin => if fld va 17 35 ≠ 0 then (s, .bad cWindow va) else (s, checkScratch s w acc false w.core (fld va 0 17) n va)

/-- The virtual address of the byte number i of an access's spans that lies in a failed unit. -/
def firstBadIn (s : State) : List (Nat × Nat) → Nat → Option Nat
  | [], _ => none
  | (k, n) :: rest, done =>
    match firstBad s k n with
    | some b => some (done + (b - k))
    | none => firstBadIn s rest (done + n)

def storeBadIn (s : State) : List (Nat × Nat) → Nat → Option Nat
  | [], _ => none
  | (k, n) :: rest, done =>
    match storeBad s k n with
    | some b => some (done + (b - k))
    | none => storeBadIn s rest (done + n)

end Sys2Proof.Machine
end

