-- ==== Sys2Proof/Machine/Access.lean ====
section
/-! DEFINITION. Checked accesses of threads, engines and hardware (07 R188-R191, 11 R295, 13 R359), update-only recalls (04 R114, 18 R416),
atomic arithmetic (09 R260), and the outcome of an instruction's own effect. -/

namespace Sys2Proof.Machine

open Sys2Proof

/-! ## Atomic arithmetic (09 R260) -/

/-- The new value of an atomic on w bits: operations 0 add, 1 min, 2 max, 3 and, 4 or, 5 xor, 6 swap, 7 compare and swap, 8 FP32 add. -/
def atomicNew (op : Nat) (uns : Bool) (w old v cmp : Nat) : Nat :=
  let le : Bool := if uns then decide (old ≤ v) else decide (toSigned w old ≤ toSigned w v)
  match op with
  | 0 => (old + v) % 2 ^ w
  | 1 => if le then old else v
  | 2 => if le then v else old
  | 3 => old &&& v
  | 4 => old ||| v
  | 5 => old ^^^ v
  | 6 => v
  | 7 => if old = cmp then v else old
  | _ => (faddBits fp32 (unpack fp32 old) (unpack fp32 v)).1

/-! ## Update-only lines (04 R114) -/

def insertPartial (p : Partial) : List Partial → List Partial
  | [] => [p]
  | q :: l => if p.grove < q.grove then p :: q :: l else q :: insertPartial p l

/-- Partials in ascending grove order; those of one grove keep their order. -/
def sortPartials : List Partial → List Partial → List Partial
  | [], acc => acc
  | p :: l, acc => sortPartials l (insertPartial p acc)

/-- Combines one partial into the home copy; a corrupt one is lost (18 R416). No core keeps an older copy of the line that it does not own: every AUPD that
happens before a read is read (04 R104, R114). -/
def combine (s : State) (p : Partial) : State :=
  if p.bad then s
  else
    let old := leNat (coherentBytes s p.key p.width)
    let s := homeWrite s p.key (leBytes p.width (atomicNew p.op p.uns (8 * p.width) old p.value.toNat 0))
    { s with cores := s.cores.map (fun e => (e.1, { e.2 with l1 := e.2.l1.filter (fun b => b.1 / 64 != p.key / 64 || kfind s.owner b.1 == some e.1) })) }

def Partial.inSpan (p : Partial) (k n : Nat) : Bool := decide (k / 64 ≤ p.key / 64) && decide (p.key / 64 ≤ (k + n - 1) / 64)

/-- The recall that a reader of [k, k + n) causes: the home copies are brought up to date, and the first line whose partial was corrupt
is named. -/
def recallLines (s : State) (k n : Nat) : State × Option Nat :=
  if s.partials.isEmpty || n = 0 then (s, none)
  else
    let hit := s.partials.filter (fun p => p.inSpan k n)
    let s := { s with partials := s.partials.filter (fun p => !p.inSpan k n) }
    ((sortPartials hit []).foldl combine s, (hit.find? (fun p => p.bad)).map (fun p => p.key / 64 * 64))

/-- Recalls for a list of spans; the answer counts bytes from the access's first byte, as the failing line's first byte does. -/
def recallSpans (s : State) : List (Nat × Nat) → Nat → State × Option Int
  | [], _ => (s, none)
  | (k, n) :: rest, done =>
    match recallLines s k n with
    | (s, none) => recallSpans s rest (done + n)
    | (s, some line) => (s, some ((done : Int) + ((line : Int) - k)))

/-! ## Bytes of spans -/

/-- Drops core c's own L1 copies of n bytes from k: what the home has performed is newer (04 R103). -/
def dropL1 (s : State) (c k n : Nat) : State :=
  if (getCore s c).l1.isEmpty then s
  else modCore s c (fun u => { u with l1 := u.l1.filter (fun e => !(decide (k ≤ e.1) && decide (e.1 < k + n) && kfind s.owner e.1 != some c)) })

/-- What core c reads at its spans. -/
def spansView (s : State) (c : Nat) : List (Nat × Nat) → List Byte
  | [] => []
  | (k, n) :: rest => readKeys s c k n ++ spansView s c rest

/-- What core c's reads at its spans leave in its L1. -/
def spansMiss (s : State) (c : Nat) : List (Nat × Nat) → State
  | [] => s
  | (k, n) :: rest => spansMiss (if keyIsScratch k then s else viewMiss s c k n) c rest

/-- What an agent without an L1 reads. -/
def spansHome (s : State) : List (Nat × Nat) → List Byte
  | [] => []
  | (k, n) :: rest => homeRead s k n ++ spansHome s rest

/-- Performs a write at the homes of its spans. -/
def spansWrite (s : State) : List (Nat × Nat) → List Byte → State
  | [], _ => s
  | (k, n) :: rest, bs => spansWrite (mend (homeWrite s k (bs.take n)) k n) rest (bs.drop n)

/-- A thread's earlier stores to other cores' scratchpads are performed before its access there (04 R107). -/
def spansDrain (s : State) (ctx : Nat) : List (Nat × Nat) → State
  | [] => s
  | (k, _) :: rest => spansDrain (if keyIsScratch k then drainTo s ctx (keyCore k) else s) ctx rest

/-- The stores of a core's other contexts to the bytes of some spans are registered before a thread reads them: what it reads it does not lose when it
goes on elsewhere (04 R99, R103). -/
def spansSettle (s : State) (ctx : Nat) (l : List (Nat × Nat)) : State :=
  drainWith (fun p => p.ctx != ctx && ctxCore p.ctx == ctxCore ctx && l.any (fun e => decide (p.key < e.1 + e.2) && decide (e.1 < p.key + p.bytes.length))) s

/-- The running thread as an agent. -/
def thr (s : State) : Who :=
  let c := cx s
  { core := cxCore s, job := c.job, thread := true, notice := match c.handler with
      | some h => h.notice
      | none => none }

/-- A thread's store: its own scratchpad at once, anything else as a pending store (04 R105-R107). -/
def spansStore (s : State) (ctx : Nat) : List (Nat × Nat) → List Byte → State
  | [], _ => s
  | (k, n) :: rest, bs =>
    let own := keyIsScratch k && keyCore k == ctxCore ctx
    let s := mend s k n
    let s := if own then memWrite s k (bs.take n)
      else { s with stores := s.stores ++ [{ ctx := ctx, job := (getCtx s ctx).job, since := s.cycle, key := k, bytes := bs.take n, remote := keyIsScratch k, notice := (thr s).notice }] }
    spansStore s ctx rest (bs.drop n)

/-! ## The collective aperture (13 R359) -/

/-- The place of an aperture byte of a package. -/
def apertureKey (pkg ofs : Nat) : Nat := pkg * 2 ^ 40 + ofs

/-- The index of the play whose aperture bytes a package sees: the newest one that has started there, else the first one issued. -/
def playIndex (s : State) (pkg slot : Nat) : Option Nat :=
  let mine (f : Joined → Bool) (i : Nat) : Bool := match s.plays[i]? with
    | some y => y.slot == slot && y.joined.any (fun j => j.pkg == pkg && f j)
    | none => false
  let all := List.range s.plays.length
  match (all.filter (mine (fun j => j.began))).getLast? with
  | some i => some i
  | none => all.find? (mine (fun _ => true))

def findPlay (s : State) (pkg slot : Nat) : Option Play := (playIndex s pkg slot).bind (fun i => s.plays[i]?)

/-- The result bytes of an aperture range, if all of them are there. -/
def apertureResult (y : Play) (pkg : Nat) : Nat → Nat → Option (List Byte)
  | _, 0 => some []
  | ofs, n + 1 =>
    match kfind y.result (apertureKey pkg ofs), apertureResult y pkg (ofs + 1) n with
    | some b, some bs => some (b :: bs)
    | _, _ => none

def pushBytes (m : KMap Byte) : Nat → List Byte → KMap Byte
  | _, [] => m
  | k, b :: bs => pushBytes (kset m k b) (k + 1) bs

def aperturePush (s : State) (pkg slot ofs : Nat) (bs : List Byte) : State :=
  match playIndex s pkg slot with
  | none => s
  | some i => { s with plays := s.plays.modify i (fun y => { y with pushed := pushBytes y.pushed (apertureKey pkg ofs) bs }) }

/-! ## Accesses of engines and of the hardware (11 R295; 02 R20, R29; 17 R381, R393) -/

/-- The outcome of an access of an engine or of the hardware. -/
inductive Acs where
  | done (bytes : List Byte)
  | fail (cause : Nat) (addr : Word)
  | absent (addr : Word)
  | held (addr : Word)
deriving DecidableEq, Repr

def addOfs (va : Word) (i : Int) : Word := va + BitVec.ofInt 64 i

def agentRead (s : State) (w : Who) (va : Word) (n : Nat) : State × Acs :=
  match check s w .read false va n with
  | (s, .ok spans) =>
    match recallSpans s spans 0 with
    | (s, some i) => (s, .fail cUncorrectable (addOfs va i))
    | (s, none) =>
      match firstBadIn s spans 0 with
      | some i => (s, .fail cUncorrectable (va + word i))
      | none => (spansDeliver s w (fun _ => false) va.toNat spans, .done (spansHome s spans))
  | (s, .bad c a) => (s, .fail c a)
  | (s, .absent a) => (s, .absent a)
  | (s, .held a) => (s, if addrClass a = .scratch then .fail cFenced a else .held a)
  | (s, .aperture _ _) => (s, .fail cWindowType va)

def agentWrite (s : State) (w : Who) (va : Word) (bs : List Byte) : State × Acs :=
  match check s w .write false va bs.length with
  | (s, .ok spans) =>
    match recallSpans s spans 0 with
    | (s, some i) => (s, .fail cUncorrectable (addOfs va i))
    | (s, none) =>
      match storeBadIn s spans 0 with
      | some i => (s, .fail cUncorrectable (va + word i))
      | none => (spansWrite s spans bs, .done [])
  | (s, .bad c a) => (s, .fail c a)
  | (s, .absent a) => (s, .absent a)
  | (s, .held a) => (s, if addrClass a = .scratch then .fail cFenced a else .held a)
  | (s, .aperture _ _) => (s, .fail cWindowType va)

/-- Hardware accesses make no page request: an absent page fails with "page not present" (log 11). -/
def hwOf : State × Acs → State × Except (Nat × Word) (List Byte)
  | (s, .done bs) => (s, .ok bs)
  | (s, .fail c a) => (s, .error (c, a))
  | (s, .absent a) => (s, .error (cNotPresent, a))
  | (s, .held a) => (s, .error (cNotPresent, a))

/-- The hardware that meets uncorrectable data counts it (19 R436). -/
def hwCount (w : Who) : State × Except (Nat × Word) (List Byte) → State × Except (Nat × Word) (List Byte)
  | (s, .error e) => (if e.1 = cUncorrectable then uncMet s w e.2 else s, .error e)
  | r => r

def hwRead (s : State) (w : Who) (va : Word) (n : Nat) : State × Except (Nat × Word) (List Byte) :=
  hwCount w (hwOf (agentRead s { w with hw := true } va n))
def hwWrite (s : State) (w : Who) (va : Word) (bs : List Byte) : State × Except (Nat × Word) (List Byte) :=
  hwCount w (hwOf (agentWrite s { w with hw := true } va bs))

/-! ## The outcome of an instruction's own effect -/

/-- What an instruction's effect ends in, before the PC moves. -/
inductive Res where
  /-- Done; the next instruction follows. -/
  | ok (s : State)
  /-- Done; execution continues at t without a taken branch (LOOP with count 0). -/
  | skip (s : State) (t : Word)
  /-- A taken branch or jump to t; `reg` for JR and JALR. -/
  | taken (s : State) (t : Word) (reg : Bool)
  /-- The thread has left its context or the PC is already set. -/
  | left (s : State)
  /-- A precise trap: cause, FADDR and FINFO [63:32]. -/
  | trap (s : State) (cause : Nat) (faddr : Word) (hi : Nat)
  /-- The precise trap of a source register that cannot be read (18 R409). -/
  | badReg (s : State)
  /-- A page that is not valid. -/
  | absent (s : State) (va : Word) (wr fx : Bool)
  /-- A page in migration. -/
  | held (s : State) (va : Word)
  /-- A wait on an object. -/
  | wait (s : State) (o : Obj)
deriving DecidableEq, Repr

/-- The checks of a list of accesses, in order (07 R190). -/
def checkMany (s : State) (w : Who) (acc : Acc) (ap : Bool) : List (Word × Nat) → List Chk → State × List Chk
  | [], done => (s, done)
  | (va, n) :: rest, done =>
    match check s w acc ap va n with
    | (s, .ok sp) => checkMany s w acc ap rest (done ++ [.ok sp])
    | (s, .aperture a b) => checkMany s w acc ap rest (done ++ [.aperture a b])
    | (s, other) => (s, done ++ [other])

/-- The failure that a list of checks ended in. -/
def chkRes (s : State) (wr : Bool) : List Chk → Option Res
  | [] => none
  | .bad c a :: _ => some (.trap s c a 0)
  | .absent a :: _ => some (.absent s a wr false)
  | .held a :: _ => some (.held s a)
  | _ :: rest => chkRes s wr rest

/-- Recalls for all accesses of an instruction. -/
def recallMany (s : State) : List (Word × Nat) → List Chk → State × Option Word
  | (va, _) :: rest, .ok sp :: cs =>
    match recallSpans s sp 0 with
    | (s, some i) => (s, some (addOfs va i))
    | (s, none) => recallMany s rest cs
  | _ :: rest, _ :: cs => recallMany s rest cs
  | _, _ => (s, none)

def badMany (s : State) (wr : Bool) : List (Word × Nat) → List Chk → Option Word
  | (va, _) :: rest, .ok sp :: cs =>
    match (if wr then storeBadIn s sp 0 else firstBadIn s sp 0) with
    | some i => some (va + word i)
    | none => badMany s wr rest cs
  | _ :: rest, _ :: cs => badMany s wr rest cs
  | _, _ => none

/-- The bytes of each access; an aperture range that has no result yet gives its slot. -/
def readMany (s : State) (w : Who) (ctx : Nat) : List (Word × Nat) → List Chk → State × Except Nat (List (List Byte))
  | (va, n) :: rest, c :: cs =>
    match c with
    | .aperture slot ofs =>
      match findPlay s (corePkg w.core) slot with
      | none => (s, .error slot)
      | some y =>
        match apertureResult y (corePkg w.core) ofs n with
        | none => (s, .error slot)
        | some bs =>
          match readMany (acquire s w.core) w ctx rest cs with
          | (s, .ok l) => (s, .ok (bs :: l))
          | e => e
    | .ok sp =>
      let s := spansSettle (spansDrain s ctx sp) ctx sp
      let bs := spansView s w.core sp
      let l1 := (getCore s w.core).l1
      match readMany (spansDeliver (spansMiss s w.core sp) w (fun k => (kfind l1 k).isSome) va.toNat sp) w ctx rest cs with
      | (s, .ok l) => (s, .ok (bs :: l))
      | e => e
    | _ => (s, .ok [])
  | _, _ => (s, .ok [])

def writeMany (s : State) (w : Who) (ctx : Nat) : List (List Byte) → List Chk → State
  | bs :: rest, c :: cs =>
    match c with
    | .aperture slot ofs => writeMany (aperturePush s (corePkg w.core) slot ofs bs) w ctx rest cs
    | .ok sp => writeMany (spansStore s ctx sp bs) w ctx rest cs
    | _ => s
  | _, _ => s

/-- The loads of one thread instruction: every byte is checked before any is read (07 R190, 08 R221). When elements fail differently, the failed address
check of the first one comes first, then a corrupt update-only line, then other uncorrectable data, whichever element is lower (DESIGN CHOICE, log 103). -/
def loads (s : State) (ap : Bool) (l : List (Word × Nat)) (k : State → List (List Byte) → Res) : Res :=
  let w := thr s
  match checkMany s w .read ap l [] with
  | (s, cs) =>
    match chkRes s false cs with
    | some r => r
    | none =>
      match recallMany s l cs with
      | (s, some a) => .trap s cUncorrectable a 0
      | (s, none) =>
        match badMany s false l cs with
        | some a => .trap s cUncorrectable a 0
        | none =>
          match readMany s w s.cur l cs with
          | (s, .ok bs) => k s bs
          | (s, .error slot) => .wait s (.aperture (corePkg w.core) slot)

/-- The stores of one thread instruction, with failures in the same order (DESIGN CHOICE, log 103). -/
def stores (s : State) (ap : Bool) (l : List (Word × List Byte)) (k : State → Res) : Res :=
  let w := thr s
  let ns := l.map (fun e => (e.1, e.2.length))
  match checkMany s w .write ap ns [] with
  | (s, cs) =>
    match chkRes s true cs with
    | some r => r
    | none =>
      match recallMany s ns cs with
      | (s, some a) => .trap s cUncorrectable a 0
      | (s, none) =>
        match badMany s true ns cs with
        | some a => .trap s cUncorrectable a 0
        | none => k (writeMany s w s.cur (l.map (fun e => e.2)) cs)

/-- Checks accesses without performing them (09 R236, R243, R244). -/
def checked (s : State) (acc : Acc) (l : List (Word × Nat)) (k : State → Res) : Res :=
  match checkMany s (thr s) acc false l [] with
  | (s, cs) =>
    match chkRes s acc.writes cs with
    | some r => r
    | none => k s

def load1 (s : State) (ap : Bool) (va : Word) (n : Nat) (k : State → List Byte → Res) : Res :=
  loads s ap [(va, n)] (fun s l => k s (l.headD []))

def store1 (s : State) (ap : Bool) (va : Word) (bs : List Byte) (k : State → Res) : Res := stores s ap [(va, bs)] k

end Sys2Proof.Machine
end

