-- ==== Sys2Proof/Machine/Queues.lean ====
section
/-! DEFINITION. Records, frames, ready pools, landing queues and decks, messages, counters and triggers, and the fault ring (02 R19-R56,
09 R240, R246, 17 R381-R386, R393, 18 R404). -/

namespace Sys2Proof.Machine

open Sys2Proof

/-- The first number below n, from i up, that f does not hold. -/
def lowestFree (f : Nat → Bool) : Nat → Nat → Option Nat
  | 0, _ => none
  | n + 1, i => if f i then lowestFree f n (i + 1) else some i

/-- Bytes [o, o + n) of a byte list as a number. -/
def bfld (bs : List Byte) (o n : Nat) : Nat := leNat ((bs.drop o).take n)

def qword (v : Word) : List Byte := leBytes 8 v.toNat

/-! ## Continuation records (02 R27) -/

def recHeader (r : Rec) : Nat :=
  r.pc.toNat / 4 % 2 ^ 46 + r.job % 2 ^ 12 * 2 ^ 46 + r.prio % 4 * 2 ^ 58 + r.ff.toNat * 2 ^ 60 + r.fc.toNat * 2 ^ 61 + r.st.toNat * 2 ^ 62
    + r.rs.toNat * 2 ^ 63

/-- Registers A1 to A6 as a record carries them. -/
def recArgs (r : Rec) : List Word := (List.range 6).map (fun i => r.args.getD i 0)

def recBytes (r : Rec) : List Byte := leBytes 8 (recHeader r) ++ qword r.w1 ++ (recArgs r).flatMap qword

def recOf (bs : List Byte) : Rec :=
  let h := bfld bs 0 8
  { pc := word (h % 2 ^ 46 * 4), job := h / 2 ^ 46 % 2 ^ 12, prio := h / 2 ^ 58 % 4, ff := h.testBit 60, fc := h.testBit 61, st := h.testBit 62,
    rs := h.testBit 63, w1 := word (bfld bs 8 8), args := (List.range 6).map (fun i => word (bfld bs (16 + 8 * i) 8)) }

/-! ## Frames (02 R28-R30) -/

def VReg.zero : VReg := { bits := 0, tag := 0, planes := 0 }

/-- The protection units of a context's registers (18 R408): A registers 0 to 31, M 64 to 71, B 72 to 75, the loop registers LCNT0, LSTA0, LEND0,
LCNT1, LSTA1, LEND1 76 to 81, and dword j of V register i at 128 + 16 i + j. As operands the V registers are 32 to 63. -/
def rA (i : Nat) : Nat := i
def rV (i : Nat) : Nat := 32 + i
def rM (i : Nat) : Nat := 64 + i
def rB (i : Nat) : Nat := 72 + i
def rL (n : Nat) : Nat := 76 + n
def vMark (i j : Nat) : Nat := 128 + 16 * i + j

def aBad (c : Ctx) (i : Nat) : Bool := c.badRegs.contains i

/-- Whether the operand register r fails its check: for a V register, any of its dwords. -/
def regBad (c : Ctx) (r : Nat) : Bool :=
  if 32 ≤ r && r < 64 then c.badRegs.any (fun m => decide (vMark (r - 32) 0 ≤ m) && decide (m < vMark (r - 31) 0)) else aBad c r

/-- The frame bytes of V register i: a dword that cannot be read is zero. -/
def frameV (c : Ctx) (i : Nat) : List Byte :=
  let v := (kget c.v .zero i).bits.toNat
  if regBad c (rV i) then (List.range 16).flatMap (fun j => if aBad c (vMark i j) then leBytes 8 0 else leBytes 8 (v / 2 ^ (64 * j)))
  else leBytes 128 v

/-- The frame (02 R28). A register that cannot be read is written as zero (18 R409). -/
def frameBytes (c : Ctx) (mask : Nat) : List Byte :=
  let lr (n : Nat) (v : Word) : List Byte := if aBad c (rL n) then leBytes 8 0 else qword v
  (List.range 32).flatMap (fun i => if aBad c (rA i) then leBytes 8 0 else qword (kget c.a 0 i))
    ++ (List.range 32).flatMap (frameV c)
    ++ (List.range 32).flatMap (fun i => leBytes 1 ((kget c.v .zero i).tag + 16 * (kget c.v .zero i).planes))
    ++ (List.range 8).flatMap (fun i => if i = 0 || aBad c (rM i) then leBytes 16 0 else leBytes 16 (kget c.m 0 i).toNat)
    ++ (List.range 4).flatMap (fun i => if aBad c (rB i) then leBytes 32 0 else leBytes 32 (kget c.b 0 i).toNat)
    ++ lr 0 c.l0.cnt ++ lr 1 c.l0.sta ++ lr 2 c.l0.fin ++ lr 3 c.l1.cnt ++ lr 4 c.l1.sta ++ lr 5 c.l1.fin
    ++ qword c.stat ++ qword c.seed ++ leBytes 8 (c.l0.act.toNat + 2 * c.l1.act.toNat) ++ qword c.hold ++ leBytes 8 mask ++ leBytes 136 0

/-- The frame offset of a register's unit. -/
def markOfs (m : Nat) : Nat :=
  if m < 32 then 8 * m else if m < 72 then 0x1120 + 16 * (m - 64) else if m < 76 then 0x11A0 + 32 * (m - 72)
  else if m < 128 then 0x1220 + 8 * (m - 76) else 0x100 + 8 * (m - 128)

/-- The frame offset of the first register that cannot be read. -/
def frameBadOfs (c : Ctx) : Option Nat :=
  (c.badRegs.map markOfs).foldl (fun m o => match m with
      | none => some o
      | some n => some (min n o)) none

/-- LSTA and LEND hold 48 bits (06 R145). -/
def low48 (v : Word) : Word := word (v.toNat % 2 ^ 48)

/-- STAT without its reserved bits [31:21], which read as zero (00 R5, 11 R316). -/
def statBits (v : Word) : Word := v &&& 0xFFFFFFFF001FFFFF

def levelOf (bs : List Byte) (o : Nat) (act : Bool) : LoopLevel :=
  let fin := word (bfld bs (o + 16) 8 % 2 ^ 48)
  { cnt := word (bfld bs o 8), sta := word (bfld bs (o + 8) 8 % 2 ^ 48), fin := fin, org := word (bfld bs (o + 8) 8 % 2 ^ 48), cur := fin, act := act }

/-- A V register read back from its 128 bytes and its tag byte; a tag byte that no instruction writes loads tag 0 (05 R143). -/
def vregOf (bits t : Nat) : VReg :=
  let tag := t % 16
  let p := t / 16 % 8
  let bad := decide (10 < tag) || decide (128 ≤ t) || (tag == 8 && p == 0) || (tag != 8 && p != 0)
  { bits := BitVec.ofNat 1024 bits, tag := if bad then 0 else tag, planes := if bad then 0 else p }

/-- The registers of a frame. The body in force is that of LSTA and LEND, which is all that the frame holds (log 12). -/
def frameLoad (c : Ctx) (bs : List Byte) : Ctx :=
  { c with
    a := (List.range 31).map (fun i => (i + 1, word (bfld bs (8 * (i + 1)) 8))),
    v := (List.range 32).map (fun i => (i, vregOf (bfld bs (0x100 + 128 * i) 128) (bfld bs (0x1100 + i) 1))),
    m := (List.range 7).map (fun i => (i + 1, BitVec.ofNat 128 (bfld bs (0x1120 + 16 * (i + 1)) 16))),
    b := (List.range 4).map (fun i => (i, BitVec.ofNat 256 (bfld bs (0x11A0 + 32 * i) 32))),
    l0 := levelOf bs 0x1220 ((bfld bs 0x1260 1).testBit 0), l1 := levelOf bs 0x1238 ((bfld bs 0x1260 1).testBit 1),
    stat := statBits (word (bfld bs 0x1250 8)), seed := word (bfld bs 0x1258 8), hold := word (bfld bs 0x1268 8) }

/-- Slots of a job's carve-out (03 R94). -/
def carveSlots (d : Job) : Nat := min 26 (min (d.sps / 4864) ((131072 - d.spo) / 4864))

/-- What an allocation of a frame slot gives (02 R29). -/
inductive Slot where
  | at (addr : Word)
  | none
  | failed (cause : Nat) (addr : Word)
  | held
deriving DecidableEq, Repr

def hwWho (core job : Nat) : Who := { core := core, job := job, notice := none }

/-- Whether the hardware's access of n bytes at an address of a job is held by a migration: it waits (03 R93). -/
def hwHeld (s : State) (w : Who) (va : Word) (n : Nat) : Bool :=
  addrClass va == .translated && (migrating s (corePkg w.core) w.job va.toNat || migrating s (corePkg w.core) w.job (va.toNat + n - 1))

/-- Pops the overflow list. -/
def popOverflow (s : State) (w : Who) (d : Job) : State × Slot :=
  if hwHeld s w d.ovfl 8 then (s, .held)
  else match hwRead s w d.ovfl 8 with
  | (s, .error (c, a)) => (s, .failed c a)
  | (s, .ok h) =>
    let head := word (leNat h)
    if head = 0 then (s, .none)
    else match hwRead s w head 8 with
      | (s, .error (c, a)) => (s, .failed c a)
      | (s, .ok n) => match hwWrite s w d.ovfl n with
        | (s, .error (c, a)) => (s, .failed c a)
        | (s, .ok _) => (s, .at head)

def allocFrame (s : State) (core job : Nat) : State × Slot :=
  let d := jobD s (corePkg core) job
  let used := (getCore s core).frames
  match lowestFree (fun i => used.contains (job, i)) (carveSlots d) 0 with
  | some i => (modCore s core (fun u => { u with frames := (job, i) :: u.frames }), .at (windowAddr core (d.spo + 4864 * i)))
  | none => popOverflow s (hwWho core job) d

/-! ## Ready pools (02 R33) and events (11 R312) -/

def eventsWhere (s : State) (f : Nat → Bool) : State :=
  { s with ctxs := s.ctxs.map (fun e => if f (ctxCore e.1) then (e.1, { e.2 with event := true }) else e) }

/-- The key of a slot of a grove's overflow ring, at a physical HBM address (03 R95). -/
def ringKey (s : State) (g slot : Nat) : Nat := physKey (grovePkg g) ((getGrove s g).ringAt + 64 * slot)

/-- A record enters the overflow ring at its tail; its bytes are written to HBM. -/
def ringPush (s : State) (g : Nat) (q : QRec) : State :=
  let u := getGrove s g
  match lowestFree (fun i => u.ring.any (fun e => e.1 == (u.ringTail + i) % 4096)) 4096 0 with
  | none => s
  | some i =>
    let slot := (u.ringTail + i) % 4096
    let k := ringKey s g slot
    let s := mend (homeWrite s k (recBytes q.r)) k 64
    modGrove s g (fun u => { u with ring := u.ring ++ [(slot, q)], ringTail := (slot + 1) % 4096 })

/-- A record enters the ready pool of a grove, its ring when the 512 places on chip are taken, or waits behind both; the grove's cores receive an event
(02 R33; log 30). -/
def poolPush (s : State) (g : Nat) (q : QRec) : State :=
  let u := getGrove s g
  eventsWhere (if u.ring.isEmpty && decide (u.pool.length < 512) then modGrove s g (fun u => { u with pool := u.pool ++ [q] })
    else if u.behind.isEmpty && decide (u.ring.length < 4096) then ringPush s g q
    else modGrove s g (fun u => { u with behind := u.behind ++ [q] })) (fun c => coreGrove c == g)

/-- The pool and its ring are full: what pushes waits (02 R33). -/
def poolFull (s : State) (g : Nat) : Bool := decide (512 ≤ (getGrove s g).pool.length) && decide (4096 ≤ (getGrove s g).ring.length)

def plainRec (r : Rec) : QRec := { r := r, age := 0, handler := none }

/-- Releases the records parked on objects of a core (02 R32). -/
def wake (s : State) (core : Nat) (f : Obj → Bool) : State :=
  let hit := (getCore s core).park.filter (fun p => f p.obj)
  if hit.isEmpty then s
  else
    let s := modCore s core (fun u => { u with park := u.park.filter (fun p => !f p.obj) })
    hit.foldl (fun s p => poolPush s (coreGrove core) p.qrec) s

/-! ## Landing queues without decks (02 R45; 17 R381, R384) -/

def queueOf (u : Core) (p : Nat) : List QRec := kget u.q [] p

def enqueue (s : State) (core : Nat) (q : QRec) : State :=
  eventsWhere (modCore s core (fun u => { u with q := kset u.q q.r.prio (queueOf u q.r.prio ++ [{ q with age := s.cycle }]) })) (fun c => c == core)

/-- The die of a core id as an agent; 0x1FFF, a shared unit, stands on the I/O die. -/
def idDie (id : Nat) : Nat := if id = 0x1FFF then 4 else id / 2048

/-- A fault launch record waits behind those of its job that are earlier in the ring (17 R384). -/
def insertLaunch (x : Nat × Nat × QRec) : List (Nat × Nat × QRec) → List (Nat × Nat × QRec)
  | [] => [x]
  | y :: l =>
    let entry (q : QRec) : Nat := match q.handler with
      | some h => h.entry.toNat
      | none => 0
    if y.1 == x.1 && y.2.2.r.job == x.2.2.r.job && decide (entry x.2.2 < entry y.2.2) then x :: y :: l else y :: insertLaunch x l

/-- Whether a core's queue has an entry for a fault launch, which no deck record has reserved (02 R47; log 29). -/
def launchRoom (s : State) (core prio : Nat) : Bool :=
  (kget (getCore s core).deckOrder [] prio).isEmpty && decide ((queueOf (getCore s core) prio).length < 32)

/-- Whether a waiting fault launch is one of the core's, and nothing but room keeps it from there (17 R384, 19 R431). -/
def launchGoes (s : State) (core : Nat) (l : Nat × Nat × QRec) : Bool :=
  l.1 == core && (getCore s core).fenced.isNone && !isolatedAt s (corePkg core) (idDie l.2.1) core

/-- A fault launch record about a thread of core id `src`: it never goes to a deck, and waits for its core, for a free entry, or behind those of its
priority that wait already (17 R381, R384; 19 R431; log 29). -/
def launchPush (s : State) (core src : Nat) (q : QRec) : State :=
  let wait (n : Nat) : State := modPkg s (corePkg core) (fun p => { p with
    launches := insertLaunch (core, src, q) p.launches, strandedCount := p.strandedCount + n })
  if (getCore s core).fenced.isSome || isolatedAt s (corePkg core) (idDie src) core then wait 1
  else if launchRoom s core q.r.prio && !(getPkg s (corePkg core)).launches.any (fun l => launchGoes s core l && l.2.2.r.prio == q.r.prio) then enqueue s core q
  else wait 0

/-- The fault launches that wait for a core take its free entries in order (log 29). -/
def flushLaunches (s : State) (core : Nat) : State :=
  ((getPkg s (corePkg core)).launches.filter (launchGoes s core)).foldl (fun s l =>
    if launchRoom s core l.2.2.r.prio then enqueue (modPkg s (corePkg core) (fun p => { p with launches := p.launches.erase l })) core l.2.2 else s) s

/-! ## The fault ring (17 R382-R385) -/

def coreCount (d : Job) : Nat := popBelow d.cores 6144

def ringBase (d : Job) : Word := d.deck + word (4 * coreCount d * 65536)

def zeroRec (job prio : Nat) : Rec :=
  { pc := 0, job := job, prio := prio, ff := false, fc := true, st := false, rs := false, w1 := 0, args := [] }

/-- The launch record of a fault-handler thread (17 R381, R383). 02 R35 does not refuse an FHADDR of 2^48 or more: the thread starts at all 64
bits of it, and its first fetch faults (DESIGN CHOICE, log 68). -/
def faultLaunch (pkg : Nat) (d : Job) (n : Notice) (entry : Word) : QRec :=
  { r := { pc := d.fhaddr, job := n.job, prio := d.cap, ff := false, fc := false, st := false, rs := false, w1 := 0,
           args := [entry, word n.cause, 0, word (n.coreId * 2 ^ 16 + pkg * 2 ^ 32), 0, 0] },
    age := 0, handler := some { entry := entry, notice := n.about } }

/-- Claims and writes a fault-ring entry and queues the handler's launch record. False: no entry is free. A job that is no longer installed
has no ring, and its report is dropped. -/
def deliver (s : State) (pkg : Nat) (n : Notice) : State × Bool :=
  match jobOn s pkg n.job with
  | none => (s, true)
  | some d =>
    let used := kget (getPkg s pkg).claims [] n.job
    match lowestFree (fun i => used.contains i) 512 0 with
    | none => (s, false)
    | some i =>
      let entry := ringBase d + word (128 * i)
      let core := pkg * 8192 + d.fcore
      let bytes := recBytes n.r ++ qword (word n.cause) ++ qword n.fpc ++ qword n.faddr ++ qword n.finfo ++ qword n.hold ++ leBytes 24 0
      match hwWrite s (hwWho core n.job) entry bytes with
      | (s, .error _) => (modPkg s pkg (fun p => { p with stranded := p.stranded ++ [n], strandedCount := p.strandedCount + 1 }), true)
      | (s, .ok _) =>
        let s := modPkg s pkg (fun p => { p with
          claims := kset p.claims n.job (i :: used),
          carried := match n.kept with
            | some h => kset p.carried (n.job * 512 + i) h
            | none => kdel p.carried (n.job * 512 + i) })
        (launchPush s core n.coreId (faultLaunch pkg d n entry), true)

/-- Raises a report that belongs to no context; without a free entry its agent holds it (18 R404, 17 R384). -/
def report (s : State) (pkg : Nat) (n : Notice) : State :=
  match deliver s pkg n with
  | (s, true) => s
  | (s, false) => modPkg s pkg (fun p => { p with notices := p.notices ++ [n] })

/-- Delivers the held reports for which an entry is free, in order. -/
def retryNotices (s : State) (pkg : Nat) : State :=
  let l := (getPkg s pkg).notices
  if l.isEmpty then s else l.foldl (fun s n => report s pkg n) (modPkg s pkg (fun p => { p with notices := [] }))

/-- A memory notice (18 R404). `coreId` 0x1FFF names a shared unit (17 R383). -/
def memNotice (s : State) (pkg job coreId cause : Nat) (faddr : Word) (finfo : Nat) : State :=
  report s pkg { job := job, r := zeroRec job (jobD s pkg job).cap, cause := cause, fpc := 0, faddr := faddr, finfo := word finfo, hold := 0,
                 coreId := coreId, about := none, kept := none }

/-- The notice of data that was lost to an uncorrectable error of a class, which is counted (18 R409; 19 R436). -/
def lostNotice (s : State) (pkg job coreId cls : Nat) (faddr : Word) : State := memNotice (uncBump s pkg cls) pkg job coreId cUncorrectable faddr 0

/-- A record of the overflow ring read back from HBM; none when its bytes fail their check (18 R409). -/
def ringRead (s : State) (g : Nat) (e : Nat × QRec) : Option QRec :=
  let k := ringKey s g e.1
  if (firstBad s k 64).isSome then none else some { e.2 with r := recOf (homeRead s k 64) }

/-- What the ring and the agents behind it move up, n records at most: a ring record that fails its check is lost (18 R409). -/
def poolMove : Nat → State → Nat → State
  | 0, s, _ => s
  | n + 1, s, g =>
    let u := getGrove s g
    match u.ring, u.behind with
    | e :: rest, _ =>
      if u.pool.length < 512 then
        let t := modGrove s g (fun u => { u with ring := rest })
        poolMove n (match ringRead s g e with
          | some q => modGrove t g (fun u => { u with pool := u.pool ++ [q] })
          | none => lostNotice t (grovePkg g) e.2.r.job 0x1FFF 3 0) g
      else match u.behind with
        | q :: more => if u.ring.length < 4096 then poolMove n (ringPush (modGrove s g (fun u => { u with behind := more })) g q) g else s
        | [] => s
    | [], q :: more => poolMove n (poolPush (modGrove s g (fun u => { u with behind := more })) g q) g
    | [], [] => s

/-- The places that have become free are filled. -/
def poolSettle (s : State) (g : Nat) : State :=
  let u := getGrove s g
  poolMove (u.ring.length + 2 * u.behind.length) s g

/-- The records of a pool and its ring, oldest first. -/
def poolAll (u : Grove) : List QRec := u.pool ++ u.ring.map (fun e => e.2)

/-- Takes record number i of `poolAll`. A ring record that cannot be read is lost. -/
def poolTake (s : State) (g i : Nat) : State × Option QRec :=
  let u := getGrove s g
  if i < u.pool.length then (poolSettle (modGrove s g (fun u => { u with pool := u.pool.eraseIdx i })) g, u.pool[i]?)
  else match u.ring[i - u.pool.length]? with
    | none => (s, none)
    | some e =>
      let t := modGrove s g (fun u => { u with ring := u.ring.eraseIdx (i - u.pool.length) })
      match ringRead s g e with
      | some q => (poolSettle t g, some q)
      | none => (poolSettle (lostNotice t (grovePkg g) e.2.r.job 0x1FFF 3 0) g, none)

/-- Takes every record that f holds for out of a pool: those taken, as the ring and the pool kept them. -/
def poolDrop (s : State) (g : Nat) (f : QRec → Bool) : State × List QRec :=
  let u := getGrove s g
  let out := u.pool.filter f ++ (u.ring.filter (fun e => f e.2)).filterMap (ringRead s g) ++ u.behind.filter f
  (poolSettle (modGrove s g (fun u => { u with
    pool := u.pool.filter (fun q => !f q), ring := u.ring.filter (fun e => !f e.2), behind := u.behind.filter (fun q => !f q) })) g, out)

/-- The fault-ring entry number of an address on a package. -/
def entryIndex (d : Job) (a : Word) : Option Nat :=
  let o := (a - ringBase d).toNat
  if o < 65536 && o % 128 == 0 then some (o / 128) else none

/-- Frees the fault-ring entry at an address, when it is one (17 R382). -/
def freeEntry (s : State) (pkg job : Nat) (a : Word) : State :=
  match entryIndex (jobD s pkg job) a with
  | none => s
  | some i =>
    let used := kget (getPkg s pkg).claims [] job
    if used.contains i then retryNotices (modPkg s pkg (fun p => { p with claims := kset p.claims job (keyDel used i) })) pkg else s

/-! ## Freeing a frame (02 R29) -/

def pushOverflow (s : State) (w : Who) (d : Job) (addr : Word) : State :=
  let fail (s : State) (e : Nat × Word) : State := memNotice s (corePkg w.core) w.job (coreId w.core) e.1 e.2 0
  match hwRead s w d.ovfl 8 with
  | (s, .error e) => fail s e
  | (s, .ok h) => match hwWrite s w addr h with
    | (s, .error e) => fail s e
    | (s, .ok _) => match hwWrite s w d.ovfl (qword addr) with
      | (s, .error e) => fail s e
      | (s, .ok _) => s

/-- Frees a frame. One of an overflow list whose head lies in a page in migration waits for the migration's end (03 R93). -/
def freeFrame (s : State) (core job : Nat) (addr : Word) : State :=
  let w := hwWho core job
  if addrClass addr = .scratch then
    match windowCore s w addr with
    | none => s
    | some c =>
      let d := jobD s (corePkg c) job
      modCore s c (fun u => { u with frames := u.frames.filter (fun e => !(e.1 == job && d.spo + 4864 * e.2 == fld addr 0 17)) })
  else if hwHeld s w (jobD s (corePkg core) job).ovfl 8 then modPkg s (corePkg core) (fun p => { p with pushes := p.pushes ++ [(core, job, addr)] })
  else pushOverflow s w (jobD s (corePkg core) job) addr

/-- The frames that a migration held on their way to an overflow list. -/
def flushPushes (s : State) (pkg : Nat) : State :=
  (getPkg s pkg).pushes.foldl (fun s e => freeFrame s e.1 e.2.1 e.2.2) (modPkg s pkg (fun p => { p with pushes := [] }))

/-! ## Decks (02 R45-R48; 17 R393) -/

def deckKey (job core p : Nat) : Nat := (job * 8192 + coreId core) * 4 + p

def deckOf (s : State) (core job p : Nat) : Deck := kget (getPkg s (corePkg core)).decks { head := 0, tail := 0 } (deckKey job core p)

def setDeck (s : State) (core job p : Nat) (k : Deck) : State :=
  modPkg s (corePkg core) (fun u => { u with decks := kset u.decks (deckKey job core p) k })

/-- The address of deck record number i. -/
def deckAddr (d : Job) (core p i : Nat) : Word :=
  d.deck + word ((4 * popBelow d.cores (denseIndex (coreId core)) + p) * 65536 + 64 * (i % 1024))

/-- Frees the landing slot that a hold field names (02 R25). -/
def freeSlot (s : State) (hold : Word) : State :=
  modCore s (fld hold 32 12 * 8192 + fld hold 17 13) (fun u => { u with slots := keyDel u.slots (fld hold 0 17) })

/-- The report of a discarded record (17 R386). -/
def discardRec (s : State) (core : Nat) (r : Rec) (cause : Nat) (faddr : Word) (finfo : Nat) (hold : Word) : State :=
  report s (corePkg core) { job := r.job, r := { r with ff := false, fc := true, st := false, rs := false, w1 := 0,
                                                        args := [r.args.getD 0 0, r.args.getD 1 0, 0, r.args.getD 3 0, 0, 0] },
                            cause := cause, fpc := 0, faddr := faddr, finfo := word finfo, hold := hold, coreId := coreId core, about := none, kept := none }

/-- A record lost to a deck access (17 R393): its landing slot is freed, its spawn link stays with the report (log 48). -/
def deckLoss (s : State) (core : Nat) (r : Rec) (e : Nat × Word) : State :=
  let link := r.w1.getLsbD 0
  let s := if r.w1 = 0 || link then s else freeSlot s r.w1
  discardRec s core r e.1 e.2 (2 ^ 45) (if link then r.w1 else 0)

/-- A launch record arrives at a core (02 R45, R46, R48). False: its deck is full. -/
def arrive (s : State) (core : Nat) (r : Rec) : State × Bool :=
  let d := jobD s (corePkg core) r.job
  let r := { r with prio := max r.prio d.cap }
  let u := getCore s core
  if (kget u.deckOrder [] r.prio).isEmpty && decide ((queueOf u r.prio).length < 32) then (enqueue s core (plainRec r), true)
  else
    let k := deckOf s core r.job r.prio
    if 1024 ≤ k.tail - k.head then (s, false)
    else match hwWrite s (hwWho core r.job) (deckAddr d core r.prio k.tail) (recBytes r) with
      | (s, .error e) => (deckLoss s core r e, true)
      | (s, .ok _) =>
        let s := setDeck s core r.job r.prio { k with tail := k.tail + 1, kept := k.kept ++ [r] }
        (modCore s core (fun u => { u with deckOrder := kset u.deckOrder r.prio (kget u.deckOrder [] r.prio ++ [r.job]) }), true)

/-! ## Messages (02 R19) -/

/-- A launch record's A4 (02 R24). -/
def sourceWord (len origin pkg : Nat) : Word := word (len + origin * 2 ^ 16 + pkg * 2 ^ 32)

/-- Packets of a message: their number. -/
def packetCount (len : Nat) : Nat := max 1 ((len + 255) / 256)

/-- Whether the injector of a core takes a new message: it has room, and its next number is free (02 R19, 09 R236). -/
def hasRoom (s : State) (core : Nat) : Bool :=
  let u := getCore s core
  u.sendQ.isEmpty && (u.held.isEmpty || (decide (u.held.length < Config.injectorRoom) && !u.held.any (fun m => m.num == u.nextNum)))

/-- The injector numbers a message, holds it and sends its packets. -/
def inject (s : State) (core : Nat) (m : Msg) : State :=
  let u := getCore s core
  let len := m.payload.length
  let n := packetCount len
  let m := { m with num := u.nextNum, origin := coreId core, left := n, sent := s.cycle }
  let s := modCore s core (fun u => { u with held := u.held ++ [m], nextNum := (u.nextNum + 1) % 65536 })
  { s with net := s.net ++ (List.range n).map (fun i => { src := core, num := m.num, ofs := 256 * i, size := min 256 (len - 256 * i) }) }

/-- A message that no instruction waits for: it stands behind the injector until there is room. -/
def injectLater (s : State) (core : Nat) (m : Msg) : State :=
  if hasRoom s core then inject s core m else modCore s core (fun u => { u with sendQ := u.sendQ ++ [m] })

/-- Messages behind the injector move in while there is room. -/
def flushSends : Nat → State → Nat → State
  | 0, s, _ => s
  | n + 1, s, core =>
    match (getCore s core).sendQ with
    | [] => s
    | m :: rest =>
      let t := modCore s core (fun u => { u with sendQ := [] })
      if hasRoom t core then flushSends n (modCore (inject t core m) core (fun u => { u with sendQ := rest })) core else s

def newMsg (dst job handler prio : Nat) (arg0 arg1 : Word) (payload : List Byte) (link : Word) : Msg :=
  { num := 0, dst := dst, job := job, handler := handler, prio := prio, arg0 := arg0, arg1 := arg1, payload := payload, link := link, origin := 0,
    left := 0, sent := 0, trig := false }

/-! ## Counters and triggers (02 R54-R56) -/

def counterRead (s : State) (key : Nat) : Word := word (leNat (cellsRead s.mem key 8))

/-- The operation that a post of a control word performs at its posting core (10 R277). It waits outside the queue only for room. -/
def postOp (core job : Nat) (ctl pa pb : Word) : SawOp :=
  { kind := .run pa pb ctl, word := 0, job := job, core := core, after := none, target := 0,
    done := if ctl.getLsbD 49 then some (scratchKey core (fld ctl 32 17)) else none, ctx := none }

/-- Whether an operation of a core, waiting on an object since the time n of the line, stands behind another of that core: a fired post, or a waiting
instruction that has not entered (10 R265). -/
def behindOther (s : State) (o : Obj) (wait queue : List SawOp) (core n : Nat) : Bool :=
  wait.any (fun p => p.core == core && p.after.isNone && decide (p.born ≤ n))
    || s.ctxs.any (fun e => ctxCore e.1 == core && !queue.any (fun p => p.ctx == some e.1) && (match e.2.status with
      | .waiting x _ m => x == o && decide (m < n)
      | _ => false))

/-- A fired post enters its grove's queue, or waits for room (10 R265). -/
def sawEnter (s : State) (op : SawOp) : State :=
  let g := coreGrove op.core
  let u := getGrove s g
  let op := { op with born := s.seq }
  if u.saw.length < 32 && !behindOther s (.sawmill g) u.sawWait u.saw op.core s.seq then modGrove s g (fun u => { u with saw := u.saw ++ [op] })
  else modGrove s g (fun u => { u with sawWait := u.sawWait ++ [op] })

def fire (s : State) (core : Nat) (t : Trig) : State :=
  match t.act with
  | .empty => s
  | .send dst handler prio a0 a1 => injectLater s core { newMsg (corePkg core * 8192 + dst) t.job handler prio a0 a1 [] 0 with trig := true }
  | .post ctl pa pb => sawEnter s (postOp core t.job ctl pa pb)

/-- The firing test after an update or an arming (02 R55): the trigger is disarmed, then acts. -/
def trigTest (s : State) (key : Nat) : State :=
  let core := keyCore key
  match (getCore s core).trigs.find? (fun t => t.key == key) with
  | none => s
  | some t =>
    if t.target ≤ counterRead s key then
      fire (modCore s core (fun u => { u with trigs := u.trigs.filter (fun x => x.key != key) })) core t
    else s

/-- One update of a counter (02 R54): the value, the events, the parked records, the trigger. -/
def counterSet (s : State) (key : Nat) (v : Word) : State :=
  let core := keyCore key
  let s := mend (memWrite s key (leBytes 8 v.toNat)) key 8
  let s := eventsWhere s (fun c => c == core)
  trigTest (wake s core (fun o => o == .counter key)) key

def counterAdd (s : State) (key : Nat) (d : Word) : State := counterSet s key (counterRead s key + d)

/-- Whether a scratchpad key lies in the counter region of a job on its core, for n bytes (03 R94). -/
def inCounters (s : State) (job key n : Nat) : Bool :=
  let d := jobD s (keyPkg key) job
  decide (d.ctro ≤ keyOfs key) && decide (keyOfs key + n ≤ min (d.ctro + d.ctrs) 131072)

/-- The core that a scratch-window address names. -/
def holdCore (hold : Word) : Nat := fld hold 32 12 * 8192 + fld hold 17 13

/-- A thread's hold field ends: its slot is freed, or its spawn link counted (02 R25, 09 R240). A counter behind a fence or on an unreachable package
is not incremented (17 R387, R390; 19 R429). -/
def endHold (s : State) (w : Who) (hold : Word) : State :=
  if hold = 0 then s
  else if !hold.getLsbD 0 then freeSlot s hold
  else if cutFor s w (holdCore hold) then s
  else counterAdd s (scratchKey (holdCore hold) (fld hold 0 17 - 1)) 1

end Sys2Proof.Machine
end

