-- ==== Sys2Proof/Machine/Ops.lean ====
section
/-! DEFINITION. Registers, starting and leaving a context, taking an exception, the return from one, page requests, the loop check and
the end of every instruction (02 R24-R32, R62-R64; 07 R202; 11 R311; 13 R354; 17 R380-R385; 18 R405). -/

namespace Sys2Proof.Machine

open Sys2Proof

/-! ## Registers (06 R145). A0 reads zero and M0 all ones; writes to them are discarded. -/

def getA (c : Ctx) (i : Nat) : Word := if i = 0 then 0 else kget c.a 0 i
def getV (c : Ctx) (i : Nat) : VReg := kget c.v .zero i
def getM (c : Ctx) (i : Nat) : BitVec 128 := if i = 0 then BitVec.allOnes 128 else kget c.m 0 i
def getB (c : Ctx) (i : Nat) : BitVec 256 := kget c.b 0 i

def regA (s : State) (i : Nat) : Word := getA (cx s) i
def regV (s : State) (i : Nat) : VReg := getV (cx s) i
def regM (s : State) (i : Nat) : BitVec 128 := getM (cx s) i
def regB (s : State) (i : Nat) : BitVec 256 := getB (cx s) i

/-- Changes the running context. -/
def modCx (s : State) (f : Ctx → Ctx) : State := modCtx s s.cur f

/-- A write to a register makes it good again (18 R409). -/
def setA (s : State) (i : Nat) (v : Word) : State :=
  if i = 0 then s else modCx s (fun c => { c with a := kset c.a i v, badRegs := keyDel c.badRegs (rA i) })
/-- Writes the dwords of a V register that f names; the others keep their bits and their failures. -/
def setVPart (s : State) (i : Nat) (v : VReg) (f : Nat → Bool) : State :=
  modCx s (fun c => { c with v := kset c.v i v, badRegs := c.badRegs.filter (fun m => !(decide (vMark i 0 ≤ m) && decide (m < vMark (i + 1) 0) && f (m - vMark i 0))) })
def setV (s : State) (i : Nat) (v : VReg) : State := setVPart s i v (fun _ => true)
def setM (s : State) (i : Nat) (v : BitVec 128) : State :=
  if i = 0 then s else modCx s (fun c => { c with m := kset c.m i v, badRegs := keyDel c.badRegs (rM i) })
def setB (s : State) (i : Nat) (v : BitVec 256) : State := modCx s (fun c => { c with b := kset c.b i v, badRegs := keyDel c.badRegs (rB i) })
def setStat (s : State) (v : Word) : State := modCx s (fun c => { c with stat := v })

/-! ## Starting a context (02 R24, R27, R31; 17 R383) -/

/-- The context of a launch record: the record's fields, the rest at its start values (02 R24; log 27). -/
def freshCtx (s : State) (r : Rec) : Ctx :=
  { Ctx.reset with status := .running, pc := r.pc, job := r.job, prio := r.prio, st := r.st, hbMark := s.cycle, spMark := s.cycle,
                   a := (List.range 6).map (fun i => (i + 1, r.args.getD i 0)) }

/-- An instruction cache is emptied (04 R108). -/
def dropICache (s : State) (core : Nat) : State := modCore s core (fun u => { u with icache := [] })

/-- Starts a launch record in a context: an acquire. A fault handler's CAUSE to FINFO come from its entry. -/
def startLaunch (s : State) (ctx : Nat) (q : QRec) : State :=
  let s := acquire s (ctxCore ctx)
  let c := { freshCtx s q.r with hold := q.r.w1, handler := q.handler }
  match q.handler with
  | none => setCtx s ctx c
  | some h =>
    match hwRead s (hwWho (ctxCore ctx) q.r.job) (h.entry + 0x40) 32 with
    | (s, .ok bs) => setCtx s ctx { c with cause := word (bfld bs 0 8 % 256), fpc := word (bfld bs 8 8), faddr := word (bfld bs 16 8),
                                           finfo := word (bfld bs 24 8) }
    | (s, .error _) => setCtx s ctx c

/-- The recorded thread as a running context, its frame read; or the failed read. Of a record with FF = 0 and RS = 1 the mask is read first, then
the live V registers' data and then their tag bytes in ascending order, because the mask names them: 02 R31 does not say whether a failing mask
byte comes before a failing byte below it (DESIGN CHOICE, log 69). -/
def restored (s : State) (core : Nat) (r : Rec) : State × Except (Nat × Word) Ctx :=
  let w := hwWho core r.job
  let c := freshCtx s r
  if r.ff then
    match hwRead s w r.w1 4864 with
    | (s, .error e) => (s, .error e)
    | (s, .ok bs) =>
      let c := frameLoad c bs
      (s, .ok { c with a := (List.range 6).foldl (fun a i => kset a (i + 1) (r.args.getD i 0)) c.a })
  else
    let c := { c with a := kset c.a 30 r.w1 }
    if !r.rs then (s, .ok c)
    else match hwRead s w (r.w1 + 0x1270) 8 with
      | (s, .error e) => (s, .error e)
      | (s, .ok mb) =>
        let live := (List.range 32).filter (fun i => (leNat mb).testBit i)
        let part (addr : Nat → Word) (n : Nat) (f : Ctx → Nat → Nat → Ctx) (acc : State × Except (Nat × Word) Ctx) (i : Nat) :
            State × Except (Nat × Word) Ctx :=
          match acc with
          | (s, .error e) => (s, .error e)
          | (s, .ok c) => match hwRead s w (addr i) n with
            | (s, .error e) => (s, .error e)
            | (s, .ok bs) => (s, .ok (f c i (leNat bs)))
        let acc := live.foldl (part (fun i => r.w1 + word (0x100 + 128 * i)) 128 (fun c i v => { c with v := kset c.v i (vregOf v 0) })) (s, .ok c)
        live.foldl (part (fun i => r.w1 + word (0x1100 + i)) 1 (fun c i t => { c with v := kset c.v i (vregOf (getV c i).bits.toNat t) })) acc

/-- A thread whose frame cannot be read goes to the fault handler; its slot stays allocated (02 R31, 18 R409; log 35). -/
def frameLost (s : State) (core : Nat) (q : QRec) (e : Nat × Word) : State :=
  let (s, hold) := match (if q.r.ff then hwOf (agentRead s { hwWho core q.r.job with hw := true } (q.r.w1 + 0x1268) 8) else (s, .error e)) with
    | (s, .ok bs) => (s, word (leNat bs))
    | (s, .error _) => (s, 0)
  report s (corePkg core) { job := q.r.job, r := { q.r with fc := true, rs := false }, cause := e.1, fpc := q.r.pc, faddr := e.2, finfo := 0,
                            hold := hold, coreId := coreId core, about := none, kept := q.handler }

/-- Resumes a record in a context (02 R31): an acquire. Its frame slot is freed. What the thread's SYNCI made visible elsewhere it fetches here too: the
instruction cache is emptied (04 R99, R108). -/
def startResume (s : State) (ctx : Nat) (q : QRec) : State :=
  let core := ctxCore ctx
  let s := dropICache (acquire s core) core
  match restored s core q.r with
  | (s, .error e) => frameLost s core q e
  | (s, .ok c) =>
    let s := setCtx s ctx { c with handler := q.handler, lost := q.lost }
    if q.r.ff then freeFrame s core q.r.job q.r.w1 else s

/-! ## Leaving a context -/

def dormant (s : State) (ctx : Nat) : State := modCtx s ctx (fun c => { c with status := .dormant, handler := none, hb := 0, gload := none, lost := false, insn := none })

/-- Registers A1 to A6 as a record carries them; one that cannot be read is zero, as in the frame (18 R409). -/
def ctxArgs (c : Ctx) : List Word := (List.range 6).map (fun i => if aBad c (rA (i + 1)) then 0 else getA c (i + 1))

def suspRec (c : Ctx) (pc addr : Word) : Rec :=
  { pc := pc, job := c.job, prio := c.prio, ff := true, fc := false, st := c.st, rs := true, w1 := addr, args := ctxArgs c }

/-- What writing a thread's full frame gives (02 R29, R30; 18 R409). -/
inductive Spill where
  | at (addr : Word)
  | none
  | held
  | failed (cause : Nat) (faddr : Word)
  | corrupt (addr faddr : Word)
deriving DecidableEq, Repr

/-- Allocates a frame slot and writes a thread's frame. -/
def spill (s : State) (core : Nat) (c : Ctx) : State × Spill :=
  match allocFrame s core c.job with
  | (s, .none) => (s, .none)
  | (s, .held) => (s, .held)
  | (s, .failed e a) => (s, .failed e a)
  | (s, .at addr) =>
    match hwWrite s (hwWho core c.job) addr (frameBytes c 0) with
    | (s, .error e) => (s, .failed e.1 e.2)
    | (s, .ok _) => match frameBadOfs c with
      | some o => (uncBump s (corePkg core) 0, .corrupt addr (addr + word o))
      | none => (s, .at addr)

/-! ## Hardware loops (02 R62-R64) -/

/-- The end-of-body check of one level: what the level becomes, and the loop-back target. An LSTA that CWR gave bits [1:0] is the target with those bits
(DESIGN CHOICE, log 93). -/
def levelEnd (l : LoopLevel) (pc : Word) : LoopLevel × Option Word :=
  if l.act && l.cur == pc then
    if 1 < l.cnt.toNat then ({ l with cnt := l.cnt - 1, org := l.sta, cur := l.fin }, some l.sta)
    else ({ l with cnt := 0, act := false }, none)
  else (l, none)

/-- The checks after an instruction that is no taken branch, level 1 first. -/
def loopEnd (c : Ctx) (pc t : Word) : Ctx × Word :=
  match levelEnd c.l1 pc with
  | (l1, some t) => ({ c with l1 := l1 }, t)
  | (l1, none) => match levelEnd c.l0 pc with
    | (l0, some t) => ({ c with l0 := l0, l1 := l1 }, t)
    | (l0, none) => ({ c with l0 := l0, l1 := l1 }, t)

/-- Whether an address lies in the body of a level's current iteration (02 R63, R64; log 34). -/
def inBody (l : LoopLevel) (t : Word) : Bool := decide (l.org ≤ t) && decide (t ≤ l.cur)

/-- A taken branch from pc to t: it ends a level whose last instruction it is, or the body of whose current iteration it leaves (02 R63). -/
def levelBranch (l : LoopLevel) (pc t : Word) : LoopLevel :=
  if l.act && (l.cur == pc || (inBody l pc && !inBody l t)) then { l with cnt := 0, act := false } else l

/-- An instruction address that no fetch can use (07 R202). -/
def badTarget (t : Word) : Bool := decide (2 ^ 48 ≤ t.toNat)

/-! ## Taking an exception (17 R380, R381) -/

/-- Another cause in the place of a trap's own: FINFO keeps the instruction word alone (02 R30; 17 R379). -/
def FaultInfo.instead (f : FaultInfo) (cause : Nat) (faddr : Word) : FaultInfo :=
  { f with cause := cause, faddr := faddr, finfo := word (fld f.finfo 0 32) }

/-- The fault record of a thread. -/
def faultRec (c : Ctx) (f : FaultInfo) (ff : Bool) (addr : Word) : Rec :=
  { pc := f.pc, job := c.job, prio := c.prio, ff := ff, fc := true, st := c.st, rs := false, w1 := addr, args := ctxArgs c }

def faultNotice (ctx : Nat) (c : Ctx) (f : FaultInfo) (r : Rec) : Notice :=
  { job := c.job, r := r, cause := f.cause, fpc := f.fpc, faddr := f.faddr, finfo := f.finfo, hold := c.hold, coreId := coreId (ctxCore ctx),
    about := none, kept := c.handler }

/-- Whether a job's fault ring has a free entry (17 R384). -/
def ringFree (s : State) (pkg job : Nat) : Bool :=
  let used := kget (getPkg s pkg).claims [] job
  (lowestFree (fun i => used.contains i) 512 0).isSome

/-- TAKING AN EXCEPTION: the thread of a context is delivered to its job's fault handler. The waits of a release, the full frame, a
fault-ring entry with the record and CAUSE, FPC, FADDR, FINFO and HOLD, a launch record at FCORE with PC = FHADDR; the context becomes
dormant. A cause that takes the place of the trap's own has zeros in FINFO [63:32] (17 R379); a trap that is itself "uncorrectable data" keeps its FADDR
when its frame meets a register that cannot be read, but for one that such a register caused (18 R409). Without a free entry, while a store of it is not acknowledged (04 R106), or while a migration holds the overflow list (03 R93), the thread keeps
its context. -/
def deliverTrap (s : State) (ctx : Nat) (f : FaultInfo) : State :=
  let core := ctxCore ctx
  let c := getCtx s ctx
  let keep := modCtx s ctx (fun c => { c with status := .faulting f s.cycle })
  if !ringFree s (corePkg core) c.job || (unacked s ctx).isSome then keep
  else
    let s := releaseWaits s ctx
    match spill s core c with
    | (_, .held) => keep
    | r =>
    let (s, n) := match r with
      | (s, .held) => (s, faultNotice ctx c f (faultRec c f false 0))
      | (s, .at addr) => (s, faultNotice ctx c f (faultRec c f true addr))
      | (s, .none) => (s, faultNotice ctx c (f.instead cSpill 0) (faultRec c f false 0))
      | (s, .failed e a) => (s, faultNotice ctx c (f.instead e a) (faultRec c f false 0))
      | (s, .corrupt addr a) =>
        (s, faultNotice ctx c (if f.cause = cUncorrectable && !f.frame then f else f.instead cUncorrectable a) (faultRec c f true addr))
    report (dormant s ctx) (corePkg core) n

/-- A precise trap of the running instruction i. The record's PC is the instruction's own; for a software trap it is the next one's, after
the loop check (11 R310). -/
def trapAs (s : State) (i : Instr) (cause : Nat) (faddr : Word) (hi : Nat) : State :=
  let c := cx s
  let report (s : State) (cause : Nat) (faddr pc : Word) : State :=
    deliverTrap s s.cur { cause := cause, fpc := c.pc, faddr := faddr, finfo := word (encode i + hi * 2 ^ 32), pc := pc }
  if cause = cSoftTrap then
    let (n, next) := loopEnd c c.pc (c.pc + 4)
    if badTarget next then report s cInsnAddr next c.pc else report (setCtx s s.cur n) cause faddr next
  else report s cause faddr c.pc

/-- A precise trap, whose uncorrectable data counts in its class (19 R436). -/
def takeTrap (s : State) (i : Instr) (cause : Nat) (faddr : Word) (hi : Nat) : State :=
  trapAs (if cause = cUncorrectable then uncMet s (thr s) faddr else s) i cause faddr hi

/-- The trap of a source register that cannot be read, FADDR = 0 (18 R409); it counts in class 0. -/
def regTrap (s : State) (i : Instr) : State := trapAs (uncBump s (cxPkg s) 0) i cUncorrectable 0 0

/-! ## Leaving at a page request or a migration (03 R93, 13 R354, 18 R405) -/

/-- The request of a job's page, or a free slot of the landing. -/
def landingSlot (p : Pkg) (job : Nat) (va : Word) : Option Nat :=
  p.landOrder.find? (fun i => match kfind p.landing i with
    | some l => match l.req with
      | some q => q.job == job && q.va.toNat / 4096 == va.toNat / 4096
      | none => false
    | none => false)

def freeLanding (p : Pkg) : Option Nat := lowestFree (fun i => p.landOrder.contains i) 4096 0

def landGen (p : Pkg) (i : Nat) : Nat := (kget p.landing { gen := 0, req := none } i).gen

/-- Makes or joins the request for a page; none when the landing is full (13 R354). -/
def pageRequest (s : State) (core job : Nat) (va : Word) (wr fx eng : Bool) : State × Option Nat :=
  let pk := corePkg core
  let p := getPkg s pk
  match landingSlot p job va with
  | some i => (s, some i)
  | none => match freeLanding p with
    | none => (s, none)
    | some i =>
      let q : PageReq := { job := job, va := va, wr := wr, fx := fx, src := coreId core, eng := eng, parked := [], waiters := [], written := false }
      (modPkg s pk (fun p => { p with landing := kset p.landing i { gen := landGen p i, req := some q }, landOrder := p.landOrder ++ [i] }), some i)

def parkOnPage (s : State) (pk i core : Nat) (q : QRec) (va : Word) (w : Nat) : State :=
  modPkg s pk (fun p => match kfind p.landing i with
    | some l => match l.req with
      | some r => { p with landing := kset p.landing i { l with req := some { r with parked := r.parked ++ [(core, q, va.toNat * 2 ^ 32 + w)] } } }
      | none => p
    | none => p)

/-- The running thread waits on an object. -/
def waitOn (s : State) (o : Obj) : State :=
  match (cx s).status with
  | .waiting o' _ _ =>
    if o' = o then s
    else { modCx s (fun c => { c with status := .waiting o s.cycle s.seq }) with seq := s.seq + 1 }
  | _ => { modCx s (fun c => { c with status := .waiting o s.cycle s.seq, hb := c.hb + (s.cycle - c.hbMark) }) with seq := s.seq + 1 }

/-- The running thread's failed spill ends in the fault handler (02 R29, R30). Without a free fault-ring entry the thread keeps its context and
delivery is tried again (17 R384), with the frame slot that it gets then. -/
def spillFault (s : State) (w : Nat) (cause : Nat) (faddr : Word) (ff : Bool) (addr : Word) : State :=
  let c := cx s
  let f : FaultInfo := { cause := cause, fpc := c.pc, faddr := faddr, finfo := word w, pc := c.pc }
  if !ringFree s (cxPkg s) c.job then
    modCx (if ff then freeFrame s (cxCore s) c.job addr else s) (fun c => { c with status := .faulting { f with frame := ff } s.cycle })
  else report (dormant s s.cur) (cxPkg s) (faultNotice s.cur c f (faultRec c f ff addr))

/-- An access of the running thread meets V = 0: request, frame, park (18 R405). `w` is the instruction word. -/
def pageAbsent (s : State) (w : Nat) (va : Word) (wr fx : Bool) : State :=
  let core := cxCore s
  if (unacked s s.cur).isSome then waitOn s (.acks core)
  else match pageRequest s core (cx s).job va wr fx false with
  | (s, none) => waitOn s (.landing (corePkg core))
  | (s, some i) =>
    let s := releaseWaits s s.cur
    let c := cx s
    match spill s core c with
    | (s, .at addr) =>
      dormant (parkOnPage s (corePkg core) i core { r := suspRec c c.pc addr, age := 0, handler := c.handler, lost := c.lost } va w) s.cur
    | (s, .none) => spillFault s w cSpill 0 false 0
    | (s, .held) => waitOn s (.migration (corePkg core) c.job (jobD s (corePkg core) c.job).ovfl.toNat)
    | (s, .failed e a) => spillFault s w e a false 0
    | (s, .corrupt addr a) => spillFault s w cUncorrectable a true addr

/-- An access of the running thread meets a page in migration: it parks at the slice, or keeps its context (03 R93, 02 R30). Without a reply
from an unreachable package it waits (19 R429). -/
def pageHeld (s : State) (w : Nat) (va : Word) : State :=
  let core := cxCore s
  let pk := corePkg core
  let c := cx s
  match (getPkg s pk).migs.find? (fun m => m.job == c.job && decide (m.va ≤ va.toNat) && decide (va.toNat < m.va + m.size)) with
  | none => if addrClass va = .scratch then waitOn s (.away va.toNat) else s
  | some m =>
    let o : Obj := .migration pk c.job m.va
    if (unacked s s.cur).isSome then waitOn s (.acks core)
    else if 256 ≤ m.parked.length then waitOn s o
    else match spill (releaseWaits s s.cur) core c with
      | (s, .at addr) =>
        let q : QRec := { r := suspRec c c.pc addr, age := 0, handler := c.handler, lost := c.lost }
        dormant (modPkg s pk (fun p => { p with migs := p.migs.map (fun x =>
          if x.job == m.job && x.va == m.va then { x with parked := x.parked ++ [(core, q)] } else x) })) s.cur
      | (s, .none) => waitOn s o
      | (s, .held) => waitOn s o
      | (s, .failed e a) => spillFault s w e a false 0
      | (s, .corrupt addr a) => spillFault s w cUncorrectable a true addr

/-! ## The end of a thread (02 R31; 09 R242; 17 R385, R390) -/

/-- Reads the header and HOLD of a fault-ring entry and takes it: the header becomes 0 and the entry is freed. -/
def takeEntry (s : State) (core job : Nat) (entry : Word) : State × Option (Rec × Word) :=
  match hwRead s (hwWho core job) entry 128 with
  | (s, .error _) => (s, none)
  | (s, .ok bs) =>
    if bfld bs 0 8 = 0 then (s, none)
    else match hwWrite s (hwWho core job) entry (leBytes 8 0) with
      | (s, .error _) => (s, none)
      | (s, .ok _) => (freeEntry s (corePkg core) job entry, some (recOf bs, word (bfld bs 0x60 8)))

/-- A handler that ends while its entry's header is nonzero discards the recorded thread (17 R385). -/
def abandon (s : State) (core job : Nat) (entry : Word) : State :=
  match takeEntry s core job entry with
  | (s, none) => s
  | (s, some (r, hold)) => endHold (if r.ff then freeFrame s core job r.w1 else s) (hwWho core job) hold

/-- The thread of a context as an agent. -/
def ctxWho (c : Ctx) (core : Nat) : Who := { hwWho core c.job with notice := c.handler.bind (fun h => h.notice) }

/-- The thread of a context ends: a release; its entry is abandoned, its notice's repair is complete, its slot or spawn link ends. -/
def retireThread (s : State) (ctx : Nat) : State :=
  let core := ctxCore ctx
  let s := releaseWaits s ctx
  let c := getCtx s ctx
  let s := match c.handler with
    | none => s
    | some h =>
      let s := abandon s core c.job h.entry
      match h.notice with
      | none => s
      | some k => if fenceTag s (k % 2 ^ 25) = k then modCore s (k % 2 ^ 25) (fun u => { u with unrepaired := keyDel u.unrepaired c.job }) else s
  dormant (endHold s (ctxWho c core) c.hold) ctx

/-- The identity that a fault-ring entry carries for its recorded thread. -/
def carriedOf (s : State) (pkg job : Nat) (entry : Word) : Option Handler :=
  match entryIndex (jobD s pkg job) entry with
  | some i => kfind (getPkg s pkg).carried (job * 512 + i)
  | none => none

/-! ## The end of an instruction (07 R202) -/

/-- The next instruction's context and address, loop check included; a bad one traps (07 R202). -/
def withNext (s : State) (k : Ctx → Word → Res) : Res :=
  let c := cx s
  let (n, t) := loopEnd c c.pc (c.pc + 4)
  if badTarget t then .trap s cInsnAddr t 0 else k n t

/-- The cycle from which a context that runs counts its heartbeat: this one when a wait ends (02 R53). -/
def goOnMark (s : State) (c : Ctx) : Nat :=
  match c.status with
  | .waiting _ _ _ => s.cycle
  | _ => c.hbMark

/-- The context goes on at t. -/
def goOn (s : State) (c : Ctx) (t : Word) : State := setCtx s s.cur { c with pc := t, status := .running, hbMark := goOnMark s c }

/-- Whether an instruction that waits falls through when its wait is over: END and ERET do not, and JOIN only when it is the last arrival. -/
def fallsThrough : Instr → Bool
  | .endThread => false
  | .eret => false
  | .join _ => false
  | _ => true

/-- The bad next PC of an instruction that is about to wait, park or ask for a page: its trap comes first (07 R202; 17 R380). -/
def waitTrap (i : Instr) (s : State) : Option Word :=
  let t := (loopEnd (cx s) (cx s).pc ((cx s).pc + 4)).2
  if fallsThrough i && badTarget t then some t else none

/-- Goes on with t, unless the next PC is bad. -/
def unlessBad (i : Instr) (s t : State) : State :=
  match waitTrap i s with
  | some n => takeTrap s i cInsnAddr n 0
  | none => t

/-- Ends the instruction i, begun in state s, with the outcome r of its own effect (log 10). The jumps JMP, JAL, JR and JALR count as taken branches for the
hardware loops (DESIGN CHOICE, log 34). -/
def settle (i : Instr) (s : State) : Res → State
  | .ok t =>
    let (c, next) := loopEnd (cx t) (cx s).pc ((cx s).pc + 4)
    if badTarget next then takeTrap s i cInsnAddr next 0 else goOn t c next
  | .skip t n =>
    let (c, next) := loopEnd (cx t) (cx s).pc n
    if badTarget next then takeTrap s i cInsnAddr next 0 else goOn t c next
  | .taken t n reg =>
    if badTarget n || (reg && n.toNat % 4 != 0) then takeTrap s i cInsnAddr n 0
    else
      let c := cx t
      goOn t { c with l0 := levelBranch c.l0 (cx s).pc n, l1 := levelBranch c.l1 (cx s).pc n } n
  | .left t => t
  | .trap t cause faddr hi => takeTrap t i cause faddr hi
  | .badReg t => regTrap t i
  | .absent t va wr fx => unlessBad i s (pageAbsent t (encode i) va wr fx)
  | .held t va => unlessBad i s (pageHeld t (encode i) va)
  | .wait t o => unlessBad i s (waitOn t o)

/-- The instructions that perform the waits of a release before they take effect (04 R100, R106; 02 R29; 09 R243; 11 R307, R317). GBAR is one only when it
arrives, and makes its own test (09 R253). -/
def isRelease : Instr → Bool
  | .rel => true
  | .endThread => true
  | .yield => true
  | .suspend _ _ => true
  | .send _ _ _ _ => true
  | .sendi _ _ _ _ => true
  | .sendm _ _ _ _ _ => true
  | .spawn _ _ _ _ => true
  | .xdsp _ _ _ _ => true
  | .cntaRel _ _ _ => true
  | .cntt _ _ _ => true
  | .ste _ _ => true
  | .bararv _ _ => true
  | .rput _ _ => true
  | .fork _ _ => true
  | .join _ => true
  | .gleave _ _ => true
  | .eret => true
  | .nsend _ _ => true
  | .mlda _ _ => true
  | .mldb _ _ => true
  | .mpost _ _ => true
  | .tlbinvPage _ => true
  | .tlbinvJob => true
  | _ => false

/-- A release whose checks pass and that finds everything else ready still waits for its thread's stores (04 R106, 19 R429). -/
def releaseHeld (i : Instr) (s : State) : Res → Res
  | .wait t o => .wait t o
  | .trap t c a h => .trap t c a h
  | .badReg t => .badReg t
  | .absent t va wr fx => .absent t va wr fx
  | .held t va => .held t va
  | r => if isRelease i && (unacked s s.cur).isSome then .wait s (.acks (cxCore s)) else r

/-- Whether the running context already waits in the instruction that it runs: its operands were read when it issued. -/
def underWay (s : State) : Bool :=
  match (cx s).status with
  | .waiting _ _ _ => true
  | _ => false

/-- The effect of the instruction i on the running context: a source register that cannot be read traps (18 R409), else its own effect. -/
def finish (i : Instr) (srcs : List Nat) (body : State → Res) (s : State) : Host.Outcome State Fault Refusal :=
  .next (settle i s (if !underWay s && srcs.any (regBad (cx s)) then .badReg s else releaseHeld i s (body s)))

/-- An effect of hardware, host or management: it never stops the machine. -/
def event (s : State) : Host.Outcome State Fault Refusal := .next s

/-- Whether a package has power: one in the Off state has no state, and nothing reaches it (16 R376). -/
def hasPower (s : State) (pkg : Nat) : Bool := (getPkg s pkg).power != .off

/-- Whether a package's cores and engines work: only in Run (16 R376). -/
def powered (s : State) (pkg : Nat) : Bool := (getPkg s pkg).power == .run

/-- What an event does to a package that has power. -/
def pkgEvent (s : State) (pkg : Nat) (t : State) : Host.Outcome State Fault Refusal := event (if hasPower s pkg then t else s)

end Sys2Proof.Machine
end

