-- ==== Sys2Proof/Machine/Operands.lean ====
section
/-! DEFINITION. Operand forms: immediates (06 R150, R151), scalar addresses (07 R188, R189), destination words (09 R235), and the operand
checks that several instructions share (09 R234). -/

namespace Sys2Proof.Machine

open Sys2Proof

/-! ## Immediates and addresses -/

/-- A sign-extended imm16 (06 R150). -/
def sx16 (i : Nat) : Word := signExt i 16

/-- A branch or jump distance: 4 × the sign-extended field (06 R151). -/
def dist (n i : Nat) : Word := signExt i n * 4

/-- Aa + sign_extend(imm16) (07 R188). -/
def baseAddr (s : State) (a i : Nat) : Word := regA s a + sx16 i

/-- Aa + Ab, with Ab scaled by the access width when x = 1 (07 R189). -/
def indexAddr (s : State) (a b x w : Nat) : Word := regA s a + (if x = 1 then regA s b * word (2 ^ w) else regA s b)

/-- Writes a register's value of an n-byte load: sign-extended, or zero-extended (07 R188). -/
def loadValue (bs : List Byte) (n : Nat) (z : Bool) : Word := if z then word (leNat bs) else signExt (leNat bs) (8 * n)

/-! ## Scratchpad objects (07 R193; 09 R234) -/

/-- What an address check of a scratchpad object gives. -/
inductive Place where
  | key (k : Nat)
  | bad (cause : Nat) (addr : Word)
  | away (addr : Word)
deriving DecidableEq, Repr

/-- An aligned object of n bytes in a scratchpad, through the local alias or the scratch window. The window checks of 03 R70
come first, as 07 R193 and the counter bullet of 09 R234 say, and for a ring too, where R234 does not say it; so does the check of 03 R65, of which
neither rule speaks: an address with bits [63:57] nonzero has the cause "non-canonical address" (DESIGN CHOICE, log 38). Any other address has the given
cause. -/
def scratchObj (s : State) (w : Who) (va : Word) (n cause : Nat) : Place :=
  if addrClass va = .translated then .bad cause va
  else match (check s w .both false va n).2 with
    | .ok [(k, _)] => if va.toNat % n = 0 then .key k else .bad cause va
    | .bad c a => .bad c a
    | .held a => .away a
    | _ => .bad cause va

/-- An object in a counter region of the job (09 R234). -/
def counterObj (s : State) (w : Who) (va : Word) (n : Nat) : Place :=
  match scratchObj s w va n cCounter with
  | .key k => if inCounters s w.job k n then .key k else .bad cCounter va
  | p => p

/-- Continues with the key of an object, or traps. -/
def Place.get (p : Place) (s : State) (k : Nat → Res) : Res :=
  match p with
  | .key n => k n
  | .bad c a => .trap s c a 0
  | .away a => .held s a

/-- A full/empty address, a counter address and a barrier address of the running thread. -/
def dwordAt (s : State) (va : Word) (k : Nat → Res) : Res := (scratchObj s (thr s) va 8 cFullEmpty).get s k
def counterAt (s : State) (va : Word) (k : Nat → Res) : Res := (counterObj s (thr s) va 8).get s k
def barrierAt (s : State) (va : Word) (k : Nat → Res) : Res := (counterObj s (thr s) va 16).get s k

/-- A unit that cannot be read or partly written traps (18 R409). -/
def readable (s : State) (key n : Nat) (va : Word) (r : Res) : Res :=
  match firstBad s key n with
  | some b => .trap s cUncorrectable (va + word (b - key)) 0
  | none => r

/-! ## Destination words (09 R235) -/

/-- The target core of a destination word, if it passes the checks. `len` says whether LEN may be other than zero. -/
def destCore (s : State) (w : Who) (x : Word) (len : Bool) : Option Nat :=
  let core := fld x 16 12 * 8192 + fld x 0 13
  if fld x 13 3 ≠ 0 || fld x 28 4 ≠ 0 || fld x 45 19 ≠ 0 then none
  else if 23 < fld x 0 5 then none
  else if (if len then 4096 < fld x 32 13 else fld x 32 13 ≠ 0) then none
  else if !inTorus s (corePkg w.core) (fld x 16 12) then none
  else if fld x 16 12 = corePkg w.core && !inCores s core w.job then none
  else some core

/-- Whether a context's GLDF waits for the full dword k (04 R113; 09 R252). -/
def waitsFull (c : Ctx) (k : Nat) : Bool :=
  match c.status, c.gload with
  | .waiting (.groupLoad _ _ _) _ _, some g => g.full && g.left.any (fun m => scratchKey m.1 g.ofs / 8 * 8 == k)
  | _, _ => false

/-- The number in line of a context's request on o: a group load waits on the dword of each member that it still has to read. -/
def inLine (c : Ctx) (o : Obj) : Option Nat :=
  match c.status with
  | .waiting x _ q =>
    if x = o || (match o with
      | .dword k true => waitsFull c k
      | _ => false) then some q else none
  | _ => none

/-- Whether the running context waits on o behind no earlier waiter on it (07 R195, 09 R261). -/
def firstInLine (s : State) (o : Obj) : Bool :=
  !s.ctxs.any (fun e => e.1 != s.cur && (match inLine e.2 o with
    | some q => (match inLine (cx s) o with
      | some m => decide (q < m)
      | none => true)
    | none => false))

end Sys2Proof.Machine
end

