-- ==== Sys2Proof/Machine/Branch.lean ====
section
/-! DEFINITION. Branches, jumps and hardware loops (02 R62-R64; 07 R200-R204). -/

namespace Sys2Proof.Machine

open Sys2Proof

/-- A conditional branch of imm16 i. -/
def branch (n : Instr) (a b i : Nat) (f : Word → Word → Bool) (s : State) : Host.Outcome State Fault Refusal :=
  finish n [rA a, rA b] (fun s => if f (regA s a) (regA s b) then .taken s ((cx s).pc + dist 16 i) false else .ok s) s

def execBeq (a b i : Nat) := branch (.beq a b i) a b i (fun x y => x == y)
def execBne (a b i : Nat) := branch (.bne a b i) a b i (fun x y => x != y)
def execBlt (a b i : Nat) := branch (.blt a b i) a b i (fun x y => decide (x.toInt < y.toInt))
def execBge (a b i : Nat) := branch (.bge a b i) a b i (fun x y => decide (y.toInt ≤ x.toInt))
def execBltu (a b i : Nat) := branch (.bltu a b i) a b i (fun x y => decide (x < y))
def execBgeu (a b i : Nat) := branch (.bgeu a b i) a b i (fun x y => decide (y ≤ x))
def execBz (a i : Nat) := branch (.bz a i) a 0 i (fun x _ => x == 0)
def execBnz (a i : Nat) := branch (.bnz a i) a 0 i (fun x _ => x != 0)

def execJmp (j : Nat) (s : State) : Host.Outcome State Fault Refusal :=
  finish (.jmp j) [] (fun s => .taken s ((cx s).pc + dist 26 j) false) s
def execJal (j : Nat) (s : State) : Host.Outcome State Fault Refusal :=
  finish (.jal j) [] (fun s => .taken (setA s 31 ((cx s).pc + 4)) ((cx s).pc + dist 26 j) false) s
def execJr (a : Nat) (s : State) : Host.Outcome State Fault Refusal := finish (.jr a) [rA a] (fun s => .taken s (regA s a) true) s
def execJalr (d a : Nat) (s : State) : Host.Outcome State Fault Refusal :=
  finish (.jalr d a) [rA a] (fun s => .taken (setA s d ((cx s).pc + 4)) (regA s a) true) s

/-- The three registers of a loop level are good again once they are written (18 R409). -/
def loopGood (l : List Nat) (n : Nat) : List Nat := l.filter (fun m => !(decide (rL n ≤ m) && decide (m < rL (n + 3))))

/-- Sets up loop level l with a count and a body of n instructions (02 R62, 07 R204). The registers hold 48 bits, so of a body that reaches 2^48 they keep
the low bits (DESIGN CHOICE, log 84); the skip target past it is the whole sum, which no fetch can use. -/
def loopSet (l n : Nat) (count : Word) (s : State) : Res :=
  let c := cx s
  let sta := low48 (c.pc + 4)
  let fin := low48 (sta + word (4 * (n - 1)))
  let dead (x : LoopLevel) : LoopLevel := if x.act then { x with cnt := 0, act := false } else x
  let level : LoopLevel := { cnt := count, sta := sta, fin := fin, org := sta, cur := fin, act := count != 0 }
  let t := if l = 0 then modCx s (fun c => { c with l0 := level, l1 := dead c.l1, badRegs := loopGood c.badRegs 0 })
    else modCx s (fun c => { c with l1 := level, badRegs := loopGood c.badRegs 3 })
  if count = 0 then .skip t (c.pc + 4 + word (4 * n)) else .ok t

def execLoop (l c n : Nat) (s : State) : Host.Outcome State Fault Refusal :=
  finish (.loop l c n) [rA c] (fun s => loopSet l n (regA s c) s) s
def execLoopi (l k n : Nat) (s : State) : Host.Outcome State Fault Refusal := finish (.loopi l k n) [] (fun s => loopSet l n (word k) s) s

end Sys2Proof.Machine
end

