-- ==== Sys2Proof/Machine/Flags.lean ====
section
/-! DEFINITION. Every write of STAT: the floating-point flags (05 R132), BST, GSH and GCNT (09 R254), and the mask descriptors (10 R286). -/

namespace Sys2Proof.Machine

open Sys2Proof

/-- Sets sticky flags of STAT [5:0] (05 R132). -/
def orFlags (s : State) (f : Nat) : State := if f = 0 then s else setStat s ((cx s).stat ||| word f)

/-- BST, STAT bit 6: set by a stale BARWAIT or GBAR (02 R59, 09 R254). -/
def setStale (s : State) : State := orFlags s 64

/-- GSH and GCNT, STAT bits 7 and [20:8] (09 R251). -/
def setGroupFlags (s : State) (gsh : Bool) (gcnt : Nat) : State :=
  setStat s (((cx s).stat &&& ~~~(0x1FFF80 : Word)) ||| word (gsh.toNat * 128 + gcnt % 8192 * 256))

/-- The mask descriptor of Bi, STAT [63:32] by bytes (10 R286). -/
def maskDesc (s : State) (i : Nat) : Nat := fld (cx s).stat (32 + 8 * i) 8

def setMaskDesc (s : State) (i v : Nat) : State :=
  setStat s (((cx s).stat &&& ~~~(word (255 * 2 ^ (32 + 8 * i)))) ||| word (v % 256 * 2 ^ (32 + 8 * i)))

end Sys2Proof.Machine
end

