-- ==== Sys2Proof/Machine/MatrixOps.lean ====
section
/-! DEFINITION. Issue-time checks that the Sawmill instructions and CNTT share: the control word and the panels (10 R267-R270, R277). -/

namespace Sys2Proof.Machine

open Sys2Proof

/-! ## The matrix control word (10 R270) -/

def ctlK (x : Word) : Nat := fld x 0 7
def ctlTA (x : Word) : Nat := fld x 7 4
def ctlPA (x : Word) : Nat := fld x 11 3
def ctlTB (x : Word) : Nat := fld x 14 4
def ctlPB (x : Word) : Nat := fld x 18 3
def ctlTile (x : Word) : Nat := fld x 21 3
def ctlCLR (x : Word) : Bool := x.getLsbD 24
def ctlSC (x : Word) : Bool := x.getLsbD 25
def ctlLA (x : Word) : Bool := x.getLsbD 26
def ctlLB (x : Word) : Bool := x.getLsbD 27
def ctlKind (x : Word) : Bool := x.getLsbD 31
def ctlCEN (x : Word) : Bool := x.getLsbD 49

/-- A format tag of a panel and its plane count field. -/
def panelTag (t p : Nat) : Bool := ((t == 6 || t == 7) && p == 0) || (t == 8 && decide (1 ≤ p))

/-- What a control-word check gives: nothing, "matrix operand", or "format tag mismatch" on TB. -/
inductive CtlCheck where
  | ok
  | operand
  | tags
deriving DecidableEq, Repr

/-- The limits of R270; BPI steps come in sixteens (R268). `post` is the KIND that the use requires. -/
def ctlCheck (x : Word) (post : Bool) : CtlCheck :=
  if ctlK x = 0 || 64 < ctlK x || fld x 28 3 ≠ 0 || fld x 50 14 ≠ 0 || ctlKind x != post then .operand
  else if fld x 32 3 ≠ 0 || (!post && (fld x 32 17 ≠ 0 || ctlCEN x)) then .operand
  else if post && (ctlLA x || ctlLB x) then .operand
  else if !panelTag (ctlTA x) (ctlPA x) || !panelTag (ctlTB x) (ctlPB x) then .operand
  else if (ctlTA x == 8) != (ctlTB x == 8) then .tags
  else if ctlTA x = 8 && ctlK x % 16 ≠ 0 then .operand
  else .ok

/-! ## Panels (10 R268, R269) -/

/-- Bytes of one step of a panel. -/
def stepBytes (t : Nat) : Nat := if t = 8 then 64 else 128

def panelBytes (t k : Nat) : Nat := stepBytes t * k

/-- Bytes of a panel's scales. -/
def scaleBytes (k : Nat) : Nat := 128 * ((k + 31) / 32)

/-- The place of n panel bytes at an offset of a core: a core of the grove and of the job, no byte past the scratchpad. -/
def panelIn (s : State) (w : Who) (n core ofs : Nat) : Option Nat :=
  if inCores s core w.job && decide (ofs + n ≤ 2 ^ 17) && coreGrove core == coreGrove w.core then some (scratchKey core ofs) else none

/-- The place of a panel of n bytes: aligned, in the scratchpad of a core of the grove, every byte within R70 (10 R268). A fence is no
matter here: a panel on a fenced logical id fails when it is read (18 R419). -/
def panelKey (s : State) (w : Who) (t n : Nat) (va : Word) : Option Nat :=
  if va.toNat % (if t = 8 then 1024 else 64) ≠ 0 then none
  else match addrClass va with
    | .localWin => if fld va 17 35 ≠ 0 then none else panelIn s w n w.core (fld va 0 17)
    | .scratch => (windowCore s w va).bind (fun core => panelIn s w n core (fld va 0 17))
    | _ => none

/-- Whether both panels of a run stand where R268 allows; a side taken from a latch is not looked at. -/
def panelsOk (s : State) (w : Who) (x pa pb : Word) : Bool :=
  let n (t : Nat) : Nat := panelBytes t (ctlK x) + (if ctlSC x then scaleBytes (ctlK x) else 0)
  (ctlLA x || (panelKey s w (ctlTA x) (n (ctlTA x)) pa).isSome) && (ctlLB x || (panelKey s w (ctlTB x) (n (ctlTB x)) pb).isSome)

/-- The panel address that fails R268 in a run whose panels are not both allowed (log 37). -/
def badPanel (s : State) (w : Who) (x pa pb : Word) : Word :=
  if ctlLA x || (panelKey s w (ctlTA x) (panelBytes (ctlTA x) (ctlK x) + (if ctlSC x then scaleBytes (ctlK x) else 0)) pa).isSome then pb
  else pa

/-- CCO lies in the posting core's counter region (10 R277). -/
def ccoOk (s : State) (w : Who) (x : Word) : Bool := inCounters s w.job (scratchKey w.core (fld x 32 17)) 8

end Sys2Proof.Machine
end

