-- ==== Sys2Proof/Machine/ScalarMemory.lean ====
section
/-! DEFINITION. Scalar loads and stores, full/empty accesses, fences, prefetch, and atomics (07 R188-R199; 09 R259, R260; 04 R114). -/

namespace Sys2Proof.Machine

open Sys2Proof

/-! ## Loads and stores (07 R188-R190) -/

/-- A load of n bytes. `ap`: the aperture accepts LD.d and ST.d only (13 R358). -/
def loadTo (i : Instr) (srcs : List Nat) (d n : Nat) (z ap : Bool) (addr : State → Word) (s : State) : Host.Outcome State Fault Refusal :=
  finish i srcs (fun s => load1 s (ap && (addr s).toNat % 8 == 0) (addr s) n (fun s bs => .ok (setA s d (loadValue bs n z)))) s

def storeFrom (i : Instr) (srcs : List Nat) (r n : Nat) (ap : Bool) (addr : State → Word) (s : State) : Host.Outcome State Fault Refusal :=
  finish i srcs (fun s => store1 s (ap && (addr s).toNat % 8 == 0) (addr s) (leBytes n (regA s r).toNat) (fun s => .ok s)) s

def execLdB (d a i : Nat) := loadTo (.ldB d a i) [rA a] d 1 false false (fun s => baseAddr s a i)
def execLdH (d a i : Nat) := loadTo (.ldH d a i) [rA a] d 2 false false (fun s => baseAddr s a i)
def execLdW (d a i : Nat) := loadTo (.ldW d a i) [rA a] d 4 false false (fun s => baseAddr s a i)
def execLdD (d a i : Nat) := loadTo (.ldD d a i) [rA a] d 8 true true (fun s => baseAddr s a i)
def execLdBZ (d a i : Nat) := loadTo (.ldBZ d a i) [rA a] d 1 true false (fun s => baseAddr s a i)
def execLdHZ (d a i : Nat) := loadTo (.ldHZ d a i) [rA a] d 2 true false (fun s => baseAddr s a i)
def execLdWZ (d a i : Nat) := loadTo (.ldWZ d a i) [rA a] d 4 true false (fun s => baseAddr s a i)
def execStB (a b i : Nat) := storeFrom (.stB a b i) [rA a, rA b] b 1 false (fun s => baseAddr s a i)
def execStH (a b i : Nat) := storeFrom (.stH a b i) [rA a, rA b] b 2 false (fun s => baseAddr s a i)
def execStW (a b i : Nat) := storeFrom (.stW a b i) [rA a, rA b] b 4 false (fun s => baseAddr s a i)
def execStD (a b i : Nat) := storeFrom (.stD a b i) [rA a, rA b] b 8 true (fun s => baseAddr s a i)
/-- LDX and STX are not accesses that the aperture lists (13 R358), whatever their width. -/
def execLdx (d a b x z w : Nat) := loadTo (.ldx d a b x z w) [rA a, rA b] d (2 ^ w) (z == 1) false (fun s => indexAddr s a b x w)
def execStx (d a b x w : Nat) := storeFrom (.stx d a b x w) [rA d, rA a, rA b] d (2 ^ w) false (fun s => indexAddr s a b x w)

/-! ## Full/empty accesses (07 R192-R196) -/

/-- A change of a dword's full/empty bit releases the records parked on the dword (02 R32). -/
def setFull (s : State) (key : Nat) (f : Bool) : State :=
  if s.full.contains key = f then s
  else
    let s := { s with full := if f then keyAdd s.full key else keyDel s.full key }
    wake s (keyCore key) (fun o => match o with
      | .dword k _ => k == key
      | _ => false)

/-- Earlier stores of the thread to the dword's core come first (04 R107). -/
def atDword (s : State) (va : Word) (k : State → Nat → Res) : Res :=
  dwordAt s va (fun key => readable s key 8 va (k (drainTo s s.cur (keyCore key)) key))

def ldfBody (d a : Nat) (take : Bool) (s : State) : Res :=
  atDword s (regA s a) (fun s key =>
    if s.full.contains key && firstInLine s (.dword key true) then
      let v := counterRead s key
      let s := if take then setFull s key false else s
      .ok (setA (acquire s (cxCore s)) d v)
    else .wait s (.dword key true))

def execLdfTake (d a : Nat) := finish (.ldfTake d a) [rA a] (ldfBody d a true)
def execLdfPeek (d a : Nat) := finish (.ldfPeek d a) [rA a] (ldfBody d a false)
/-- A full/empty access to a dword that fails its check traps, a STE too (18 R409). A store that is not acknowledged keeps the request of a STE in the core:
it joins the dword's line after that (04 R106). -/
def execSte (a b : Nat) := finish (.ste a b) [rA a, rA b] (fun s =>
  dwordAt s (regA s a) (fun key => readable s key 8 (regA s a) (
    if (unacked s s.cur).isSome then .wait s (.acks (cxCore s))
    else
      let s := releaseWaits s s.cur
      if !s.full.contains key && firstInLine s (.dword key false) then
        .ok (setFull (memWrite s key (leBytes 8 (regA s b).toNat)) key true)
      else .wait s (.dword key false))))
def execTagset (a b : Nat) := finish (.tagset a b) [rA a, rA b] (fun s =>
  atDword s (regA s a) (fun s key => .ok (setFull s key ((regA s b).getLsbD 0))))
def execTagget (d a : Nat) := finish (.tagget d a) [rA a] (fun s =>
  atDword s (regA s a) (fun s key => .ok (setA s d (if s.full.contains key then 1 else 0))))

/-! ## Fences and prefetch (07 R197-R199) -/

def execAcq (s : State) : Host.Outcome State Fault Refusal := finish .acq [] (fun s => .ok (acquire s (cxCore s))) s
def execRel (s : State) : Host.Outcome State Fault Refusal := finish .rel [] (fun s => .ok (releaseWaits s s.cur)) s
def execFenceE (a b : Nat) := finish (.fenceE a b) [rA a, rA b] (fun s =>
  counterAt s (regA s a) (fun key => readable s key 8 (regA s a)
    (let s := drainTo s s.cur (keyCore key)
     if regA s b ≤ counterRead s key then .ok (acquire s (cxCore s)) else .wait s (.fence key))))

/-- The dwords of [k, k + 8 n) that core c's L1 does not hold whole come into it. -/
def fillLine (s : State) (c : Nat) : Nat → Nat → State
  | _, 0 => s
  | k, n + 1 => fillLine (if dwordHeld (getCore s c).l1 k then s else fillDword s c k) c (k + 8) n

/-- Whether an L1 holds every dword of the line at k. -/
def lineHeld (l1 : KMap Byte) (k : Nat) : Bool := (List.range 8).all (fun i => dwordHeld l1 (k + 8 * i))

/-- A speculative access that is dropped counts in the core's DSPEC (03 R77, 18 R407). -/
def dropSpec (s : State) (core : Nat) : State := modCore s core (fun u => { u with dspec := u.dspec + 1 })

/-- A speculative access to the line at va: dropped and counted when it would fault, meets uncorrectable data or gets no answer; else a prefetch fills the
line and a look-ahead leaves nothing. A page in migration holds a translation back and does not make it fault; a prefetch, which never waits, is dropped
there and counted (DESIGN CHOICE, log 71). A prefetch appears at the home slice as a reader, so update-only partials of the line are combined first (04
R114). -/
def speculateAt (s : State) (w : Who) (fill : Bool) (va : Word) : State :=
  match addrClass va with
  | .translated => match peek s w (va.toNat / 64 * 64) with
    | some pa =>
      let k := paKey s (corePkg w.core) pa
      match recallLines s k 64 with
      | (s, some _) => dropSpec s w.core
      | (s, none) =>
        if (firstBad s k 64).isSome then dropSpec s w.core
        else if fill then fillLine (cxlLines s false (fun _ => lineHeld (getCore s w.core).l1 k) pa k 64) w.core k 8
        else s
    | none => dropSpec s w.core
  | .nonCanonical => dropSpec s w.core
  | _ => s

def execPref (a : Nat) := finish (.pref a) [rA a] (fun s => .ok (speculateAt s (thr s) true (regA s a)))

/-! ## Atomics (09 R259, R260) -/

/-- The bytes that an atomic updates: aligned, translated with RD and WR, or a scratchpad. An update-only atomic on global memory does not read them: only
its address and translation are checked (18 R414). -/
def atomicAt (s : State) (va : Word) (n : Nat) (upd : Bool) (k : State → Nat → Res) : Res :=
  if va.toNat % n ≠ 0 then .trap s cAtomicAlign va 0
  else match check s (thr s) .both false va n with
    | (s, .ok [(key, _)]) => if upd && !keyIsScratch key then k s key else readable s key n va (k s key)
    | (s, .bad c a) => .trap s c a 0
    | (s, .absent a) => .absent s a true false
    | (s, .held a) => .held s a
    | (s, _) => .trap s cWindowType va 0

/-- Earlier stores of the core to the same bytes are performed first: they precede the atomic in coherence order (04 R103). -/
def settleBytes (s : State) (key n : Nat) : State :=
  drainWith (fun p => ctxCore p.ctx == cxCore s && decide (p.key < key + n) && decide (key < p.key + p.bytes.length)) s

/-- Performs one returning atomic at its home: the old value and the state after it. One on a counter's dword is no counter update (DESIGN CHOICE, log 87). -/
def atomicDo (s : State) (va : Word) (key n op : Nat) (uns : Bool) (v cmp : Word) (k : State → Nat → Res) : Res :=
  let s := settleBytes (drainTo s s.cur (keyCore key)) key n
  match recallLines s key n with
  | (s, some line) => .trap s cUncorrectable (va - word (key - line)) 0
  | (s, none) =>
    let s := cxlDelivers s (thr s) va.toNat (fun _ => false) key n
    let old := leNat (homeRead s key n)
    let new := atomicNew op uns (8 * n) old (v.toNat % 2 ^ (8 * n)) (cmp.toNat % 2 ^ (8 * n))
    k (dropL1 (mend (homeWrite s key (leBytes n new)) key n) (cxCore s) key n) old

/-- A returning atomic on width code w (2 word, 3 dword); a word's old value is sign-extended, an FP32 one zero-extended. -/
def atomicOp (i : Instr) (d a b w op : Nat) (uns : Bool) (s : State) : Host.Outcome State Fault Refusal :=
  finish i (if op = 7 then [rA d, rA a, rA b] else [rA a, rA b]) (fun s =>
    atomicAt s (regA s a) (2 ^ w) false (fun s key =>
      atomicDo s (regA s a) key (2 ^ w) op uns (regA s b) (regA s d) (fun s old =>
        .ok (setA s d (if op = 8 then word old else signExt old (8 * 2 ^ w)))))) s

def execAadd (d a b w : Nat) := atomicOp (.aadd d a b w) d a b w 0 false
def execAmin (d a b u w : Nat) := atomicOp (.amin d a b u w) d a b w 1 (u == 1)
def execAmax (d a b u w : Nat) := atomicOp (.amax d a b u w) d a b w 2 (u == 1)
def execAand (d a b w : Nat) := atomicOp (.aand d a b w) d a b w 3 false
def execAor (d a b w : Nat) := atomicOp (.aor d a b w) d a b w 4 false
def execAxor (d a b w : Nat) := atomicOp (.axor d a b w) d a b w 5 false
def execAswp (d a b w : Nat) := atomicOp (.aswp d a b w) d a b w 6 false
def execAcas (d a b w : Nat) := atomicOp (.acas d a b w) d a b w 7 false
def execAfadd (d a b : Nat) := atomicOp (.afadd d a b) d a b 2 8 false

/-- The atomic operation of an AUPD operator (06 R160). -/
def updOp (o : Nat) : Nat := if o = 6 then 8 else o

/-- An update joins the partial of its grove, or starts one (04 R114). -/
def addPartial (g key n op : Nat) (uns : Bool) (v : Nat) : List Partial → List Partial
  | [] => [{ grove := g, key := key, width := n, op := op, uns := uns, value := word v, bad := false }]
  | p :: l =>
    if p.grove = g && p.key = key && p.width = n && p.op = op && p.uns = uns && !l.any (fun q => q.grove == g && q.key / 64 == key / 64) then
      { p with value := word (atomicNew op uns (8 * n) p.value.toNat v 0) } :: l
    else p :: addPartial g key n op uns v l

/-- AUPD: at a scratchpad the returning atomic with its result discarded; in global memory a partial at the core's grove slice. -/
def execAupd (a b o u w : Nat) := finish (.aupd a b o u w) [rA a, rA b] (fun s =>
  atomicAt s (regA s a) (2 ^ w) true (fun s key =>
    if keyIsScratch key then atomicDo s (regA s a) key (2 ^ w) (updOp o) (u == 1) (regA s b) 0 (fun s _ => .ok s)
    else
      let s := settleBytes s key (2 ^ w)
      .ok { s with partials := addPartial (coreGrove (cxCore s)) key (2 ^ w) (updOp o) (u == 1) ((regA s b).toNat % 2 ^ (8 * 2 ^ w)) s.partials }))

end Sys2Proof.Machine
end

