-- ==== Sys2Proof/Machine/Messages.lean ====
section
/-! DEFINITION. Sending: SEND, SENDI, SPAWN, XDSP (02 R37, 09 R235-R237, R239-R241, R263). -/

namespace Sys2Proof.Machine

open Sys2Proof

/-- The priority of a message: the larger of N and the job's cap (02 R46). -/
def capped (s : State) (p : Nat) : Nat := max p (jobD s (cxPkg s) (cx s).job).cap

/-- The checks before a message is sent are done: room, the waits of a release, the payload copied into the injector. -/
def sendTo (s : State) (payload : Word) (len : Nat) (k : State → List Byte → Res) : Res :=
  checked s .read [(payload, len)] (fun s =>
    if !hasRoom s (cxCore s) then .wait s (.injector (cxCore s))
    else load1 (releaseWaits s s.cur) false payload len k)

def sendBody (a b p h : Nat) (s : State) : Res :=
  let x := regA s a
  match destCore s (thr s) x true with
  | none => .trap s cMsgDest 0 0
  | some dst => sendTo s (regA s b) (fld x 32 13) (fun s bs =>
      .ok (inject s (cxCore s) (newMsg dst (cx s).job h (capped s p) (regA s (b + 1)) (regA s (b + 2)) bs 0)))

def execSend (a b p h : Nat) := finish (.send a b p h) [rA a, rA b, rA (b + 1), rA (b + 2)] (sendBody a b p h)

def execSendi (a b p h : Nat) := finish (.sendi a b p h) [rA a, rA b, rA (b + 1)] (fun s =>
  match destCore s (thr s) (regA s a) false with
  | none => .trap s cMsgDest 0 0
  | some dst =>
    if !hasRoom s (cxCore s) then .wait s (.injector (cxCore s))
    else
      let s := releaseWaits s s.cur
      .ok (inject s (cxCore s) (newMsg dst (cx s).job h (capped s p) (regA s b) (regA s (b + 1)) [] 0)))

/-- The slice that holds a group's membership record (09 R249). -/
def groupSlice (pkg job n : Nat) : Nat := pkg * 256 + n % 4 * 64 + hash6 3 (n ^^^ job)
def groupKey (job n : Nat) : Nat := job * 65536 + n
def getGroup (s : State) (pkg job n : Nat) : Option Group := kfind (getGrove s (groupSlice pkg job n)).groups (groupKey job n)

/-! ## SPAWN (02 R37, 09 R239) -/

/-- Arms a trigger, replacing one on the same counter, and runs the test of the arming (02 R55, R56). -/
def armTrig (s : State) (t : Trig) : State :=
  trigTest (modCore s (keyCore t.key) (fun u => { u with trigs := u.trigs.filter (fun x => x.key != t.key) ++ [t] })) t.key

def trigFull (s : State) (key : Nat) : Bool :=
  let l := (getCore s (keyCore key)).trigs
  decide (64 ≤ l.length) && !l.any (fun t => t.key == key)

def spawnRangeOk (s : State) (pkg job : Nat) (x y : Word) : Bool :=
  !x.getLsbD 63 && decide (fld y 13 3 = 0) && decide (fld y 29 35 = 0) && decide (1 ≤ fld y 16 13) && decide (fld y 0 13 + fld y 16 13 ≤ 6144)
    && (List.range (fld y 16 13)).all (fun i => (jobD s pkg job).cores.testBit (fld y 0 13 + i))

def execSpawn (a b p h : Nat) := finish (.spawn a b p h) [rA a, rA (a + 1), rA b, rA (b + 1)] (fun s =>
  let x := regA s a
  let y := regA s (a + 1)
  let core := cxCore s
  if (getCore s core).spawn.isSome then .wait s (.spawner core)
  else if !spawnRangeOk s (cxPkg s) (cx s).job x y then .trap s cSpawn 0 0
  else counterAt s (regA s (b + 1)) (fun key =>
    if keyPkg key ≠ cxPkg s then .trap s cCounter (regA s (b + 1)) 0
    else if trigFull s key then .trap s cTrigger 0 0
    else
      let s := releaseWaits s s.cur
      let n := fld x 0 21 * fld x 21 21 * fld x 42 21
      let s := armTrig (counterSet s key 0) { key := key, target := word n, job := (cx s).job, act := .empty }
      let q : SpawnSeq :=
        { n0 := fld x 0 21, n1 := fld x 21 21, n2 := fld x 42 21, c0 := fld y 0 13, count := fld y 16 13, handler := h, prio := capped s p,
          job := (cx s).job, arg0 := regA s b, ctr := windowAddr (keyCore key) (keyOfs key), next := 0 }
      if n = 0 then .ok s else .ok (modCore s core (fun u => { u with spawn := some q }))))

/-- SPAWN_SEQUENCER_SEND: the sequencer sends the next point's message; after the last one it is idle. -/
def execSpawnSequencerSend (core : Nat) (s : State) : Host.Outcome State Fault Refusal :=
  event (match (getCore s core).spawn with
    | none => s
    | some q =>
      if !hasRoom s core || quietJob s (corePkg core) q.job then s
      else
        let p := q.next
        let i := p % q.n0
        let j := p / q.n0 % q.n1
        let k := p / (q.n0 * q.n1)
        let dst := corePkg core * 8192 + denseCore (q.c0 + p % q.count)
        let s := inject s core (newMsg dst q.job q.handler q.prio q.arg0 (word (i + j * 2 ^ 21 + k * 2 ^ 42)) [] (q.ctr + 1))
        modCore s core (fun u => { u with spawn := if p + 1 < q.n0 * q.n1 * q.n2 then some { q with next := p + 1 } else none }))

/-! ## XDSP (09 R241) -/

/-- A destination word whose LEN is ignored. -/
def noLen (x : Word) : Word := x &&& ~~~(word (0x1FFF * 2 ^ 32))

/-- XDSP. Its increment of COUNT is no counter update: it sets no event bit and tests no trigger (DESIGN CHOICE, log 87); `wakeWritten` releases what is
parked there. -/
def execXdsp (a b p h : Nat) := finish (.xdsp a b p h) [rA a, rA (a + 1), rA b, rA (b + 1), rA (b + 2)] (fun s =>
  let e := regA s a
  let len := regA s (a + 1)
  (counterObj s (thr s) e 32).get s (fun key =>
    if keyPkg key ≠ cxPkg s then .trap s cCounter e 0
    else if 4096 < len.toNat then .trap s cMsgDest 0 0
    else sendTo s (regA s b) len.toNat (fun s bs =>
      let s := drainTo s s.cur (keyCore key)
      readable s key 32 e (
        let count := counterRead s key
        let accept := decide (count < counterRead s (key + 8))
        let x := noLen (counterRead s (if accept then key + 16 else key + 24))
        match destCore s (thr s) x false with
        | none => .trap s cMsgDest 0 0
        | some dst =>
          let s := if accept then memWrite s key (qword (count + 1)) else s
          let arg1 := (regA s (b + 2) &&& ~~~(word (2 ^ 63))) ||| (if accept then 0 else word (2 ^ 63))
          .ok (inject s (cxCore s) (newMsg dst (cx s).job h (capped s p) (regA s (b + 1)) arg1 bs 0))))))

end Sys2Proof.Machine
end

