-- ==== Sys2Proof/Machine/Sync.lean ====
section
/-! DEFINITION. Counters, triggers, barriers and rings (02 R54-R61; 09 R245-R248, R257, R258). -/

namespace Sys2Proof.Machine

open Sys2Proof

/-! ## Counters (09 R245) -/

/-- The counter of an instruction; the thread's earlier stores to that core come first (04 R107). -/
def atCounter (s : State) (va : Word) (k : State → Nat → Res) : Res := counterAt s va (fun key => k (drainTo s s.cur (keyCore key)) key)

def execCnti (a b : Nat) := finish (.cnti a b) [rA a, rA b] (fun s =>
  atCounter s (regA s a) (fun s key => .ok (counterSet s key (regA s b))))

def addCounter (d a b : Nat) (s : State) : Res :=
  atCounter s (regA s a) (fun s key => readable s key 8 (regA s a) (
    let old := counterRead s key
    .ok (setA (counterSet s key (old + regA s b)) d old)))

def execCnta (d a b : Nat) := finish (.cnta d a b) [rA a, rA b] (addCounter d a b)
def execCntaRel (d a b : Nat) := finish (.cntaRel d a b) [rA a, rA b] (fun s => addCounter d a b (releaseWaits s s.cur))
def execCntw (d a b : Nat) := finish (.cntw d a b) [rA a, rA b] (fun s =>
  atCounter s (regA s a) (fun s key => readable s key 8 (regA s a) (
    let v := counterRead s key
    if regA s b ≤ v then .ok (setA (acquire s (cxCore s)) d v) else .wait s (.counter key))))

/-- The action of an action block, if it passes the checks of arming (09 R246). -/
def trigAction (s : State) (key : Nat) (x y z : Word) : Option TrigAct :=
  let w := thr s
  let home := keyCore key
  if x.getLsbD 31 then
    let w' : Who := { w with core := home }
    if ctlCheck x true = .ok && panelsOk s w' x y z && ccoOk s w' x then some (.post x y z) else none
  else if fld x 13 3 ≠ 0 || x.getLsbD 30 || fld x 32 32 ≠ 0 || 23 < fld x 0 5 then none
  else if !inCores s (keyPkg key * 8192 + fld x 0 13) w.job then none
  else some (.send (fld x 0 13) (fld x 16 12) (max (fld x 28 2) (jobD s (keyPkg key) w.job).cap) y z)

def execCntt (d a b : Nat) := finish (.cntt d a b) [rA a, rA b, rA d, rA (d + 1), rA (d + 2)] (fun s =>
  counterAt s (regA s a) (fun key =>
    match trigAction s key (regA s d) (regA s (d + 1)) (regA s (d + 2)) with
    | none => .trap s cMsgDest 0 0
    | some act =>
      if trigFull s key then .trap s cTrigger 0 0
      else readable s key 8 (regA s a) (
        .ok (armTrig (releaseWaits s s.cur) { key := key, target := regA s b, job := (cx s).job, act := act }))))

/-! ## Barriers (02 R57-R61, 09 R247, R248) -/

/-- A barrier's fields (09 R247). -/
structure Barrier where
  c : Nat
  a : Nat
  e : Nat
  t : Nat
deriving DecidableEq, Repr

/-- The barrier of 16 bytes; none when a reserved field is nonzero. -/
def readBarrier (s : State) (key : Nat) : Option Barrier :=
  let x := counterRead s key
  let y := counterRead s (key + 8)
  if fld x 48 16 ≠ 0 || fld y 40 24 ≠ 0 then none
  else some { c := fld x 0 16, a := fld x 16 16, e := fld x 32 16, t := fld y 0 40 }

/-- Writes a barrier after the completion test of 02 R57: a completed phase releases the parked records. -/
def writeBarrier (s : State) (key : Nat) (b : Barrier) : State :=
  let done := decide (b.e ≤ b.a) && b.e != 0 && b.t == 0
  let n : Barrier := if done then { b with c := (b.c + 1) % 65536, a := 0 } else b
  let s := memWrite s key (qword (word (n.c + n.a * 2 ^ 16 + n.e * 2 ^ 32)) ++ qword (word n.t))
  if done then wake s (keyCore key) (fun o => o == .barrier key) else s

/-- An engine delivery of n bytes (02 R58). -/
def barrierDeliver (s : State) (key n : Nat) : State :=
  match readBarrier s key with
  | none => s
  | some b => writeBarrier s key { b with t := (b.t + 2 ^ 40 - n % 2 ^ 40) % 2 ^ 40 }

/-- A barrier instruction: its operand's reserved bits, the address, then the object. -/
def atBarrier (s : State) (va : Word) (operandOk : Bool) (k : State → Nat → Barrier → Res) : Res :=
  barrierAt s va (fun key =>
    if !operandOk then .trap s cBarrier 0 0
    else
      let s := drainTo s s.cur (keyCore key)
      readable s key 16 va (match readBarrier s key with
        | none => .trap s cBarrier 0 0
        | some b => k s key b))

def execBarinit (a b : Nat) := finish (.barinit a b) [rA a, rA b] (fun s =>
  atBarrier s (regA s a) (fld (regA s b) 16 48 == 0) (fun s key o =>
    .ok (writeBarrier s key { o with e := fld (regA s b) 0 16, a := 0, t := 0 })))
def execBararv (d a : Nat) := finish (.bararv d a) [rA a] (fun s =>
  atBarrier s (regA s a) true (fun s key o =>
    if 65535 ≤ o.a then .trap s cBarrier 0 0
    else .ok (setA (writeBarrier (releaseWaits s s.cur) key { o with a := o.a + 1 }) d (word o.c))))
def execBardrop (a : Nat) := finish (.bardrop a) [rA a] (fun s =>
  atBarrier s (regA s a) true (fun s key o => if o.e = 0 then .ok s else .ok (writeBarrier s key { o with e := o.e - 1 })))

/-- k of 02 R59. -/
def phaseLag (c t : Nat) : Nat := (c + 131071 - t) % 65536

/-- Whether the running thread has waited on the barrier: the phase that it waits for completes while it waits. -/
def barWaited (s : State) (key : Nat) : Bool :=
  match (cx s).status with
  | .waiting o _ _ => o == .barrier key
  | _ => false

def execBarwait (a b : Nat) := finish (.barwait a b) [rA a, rA b] (fun s =>
  atBarrier s (regA s a) (fld (regA s b) 16 48 == 0) (fun s key o =>
    let k := phaseLag o.c (fld (regA s b) 0 16)
    if 32768 ≤ k then .wait s (.barrier key)
    else
      let s := acquire s (cxCore s)
      .ok (if k = 0 || barWaited s key then s else setStale s)))
def execBartx (a b : Nat) := finish (.bartx a b) [rA a, rA b] (fun s =>
  atBarrier s (regA s a) (fld (regA s b) 40 24 == 0) (fun s key o =>
    .ok (writeBarrier s key { o with t := (o.t + (regA s b).toNat) % 2 ^ 40 })))

/-! ## Rings (09 R257, R258) -/

/-- A ring at a key: slots, slot size in bytes, consumers. -/
structure Ring where
  key : Nat
  ns : Nat
  size : Nat
  cmask : Nat
deriving DecidableEq, Repr

def Ring.slots (r : Ring) : Nat := r.ns + 1
/-- The offset of slot i from the ring's address. -/
def Ring.slotOfs (r : Ring) (i : Nat) : Nat := 0x80 + 64 * ((r.slots + 31) / 32) + r.size * i
def Ring.stateKey (r : Ring) (i : Nat) : Nat := r.key + 0x80 + 2 * i
def Ring.posKey (r : Ring) (c : Nat) : Nat := r.key + 0x40 + 8 * c

/-- The ring at a key; none when its first dword is invalid or its slots run past the scratchpad (log 13). -/
def readRing (s : State) (key : Nat) : Option Ring :=
  let x := counterRead s key
  let r : Ring := { key := key, ns := fld x 0 8, size := 64 * fld x 8 7, cmask := fld x 16 8 }
  if fld x 8 7 = 0 || 64 < fld x 8 7 || x.getLsbD 15 || fld x 24 40 ≠ 0 || 2 ^ 17 < keyOfs key + r.slotOfs r.slots then none else some r

def ringRsv (s : State) (r : Ring) : Word := counterRead s (r.key + 8)
def ringFill (s : State) (r : Ring) : Word := counterRead s (r.key + 16)
def ringFreed (s : State) (r : Ring) : Word := counterRead s (r.key + 24)
def setDword (s : State) (key : Nat) (v : Word) : State := memWrite s key (leBytes 8 v.toNat)
def slotState (s : State) (r : Ring) (i : Nat) : Nat := leNat (cellsRead s.mem (r.stateKey i) 2)
def setSlotState (s : State) (r : Ring) (i v : Nat) : State := memWrite s (r.stateKey i) (leBytes 2 v)
def slotOf (r : Ring) (n : Word) : Nat := n.toNat % r.slots

/-- A change of FILL or FREE releases the records parked on the ring (09 R258). -/
def ringWake (s : State) (r : Ring) : State :=
  wake s (keyCore r.key) (fun o => match o with
    | .ring k _ => k == r.key
    | _ => false)

/-- The ring of an instruction: a 64-byte-aligned scratchpad address (09 R234). -/
def atRing (s : State) (va : Word) (k : State → Ring → Res) : Res :=
  (scratchObj s (thr s) va 64 cRing).get s (fun key =>
    let s := drainTo s s.cur (keyCore key)
    readable s key 64 va (match readRing s key with
      | none => .trap s cRing 0 0
      | some r => k s r))

/-- The slot number that a slot address names. -/
def slotIndex (s : State) (r : Ring) (va : Word) : Option Nat :=
  match scratchObj s (thr s) va 64 cRing with
  | .key k =>
    let o := k - r.key
    if k < r.key + r.slotOfs 0 then none
    else
      let i := (o - r.slotOfs 0) / r.size
      if r.key + r.slotOfs i = k && i < r.slots then some i else none
  | _ => none

/-- Counts published slots in order: PEND = CMASK, PUT = 0, FILL + 1. -/
def countPut (r : Ring) : Nat → State → State
  | 0, s => s
  | n + 1, s =>
    let f := ringFill s r
    if (slotState s r (slotOf r f)).testBit 8 then
      countPut r n (setDword (setSlotState s r (slotOf r f) r.cmask) (r.key + 16) (f + 1))
    else s

/-- Counts freed slots in order. -/
def countFree (r : Ring) : Nat → State → State
  | 0, s => s
  | n + 1, s =>
    let f := ringFreed s r
    if f < ringFill s r && slotState s r (slotOf r f) % 256 = 0 then countFree r n (setDword s (r.key + 24) (f + 1)) else s

/-- A slot that is reserved and not yet published. -/
def slotReserved (s : State) (r : Ring) (i : Nat) : Bool :=
  let fill := ringFill s r
  let ahead := (i + r.slots - slotOf r fill) % r.slots
  decide (ahead < (ringRsv s r - fill).toNat) && !(slotState s r i).testBit 8

/-- The slots whose state a count of published or freed slots reads: those that p lets it pass, from f on, and the one that stops it. -/
def countReads (r : Ring) (p : Nat → Bool) : Nat → Word → List Nat
  | 0, _ => []
  | n + 1, f => slotOf r f :: (if p (slotOf r f) then countReads r p n (f + 1) else [])

/-- The slots whose state RPUT of slot i reads, and those that RFREE of slot i by consumer c reads. -/
def putReads (s : State) (r : Ring) (i : Nat) : List Nat :=
  i :: countReads r (fun j => j == i || (slotState s r j).testBit 8) r.slots (ringFill s r)
def freeReads (s : State) (r : Ring) (i c : Nat) : List Nat :=
  let after (j : Nat) : Nat := if j = i && (slotState s r j).testBit c then slotState s r j - 2 ^ c else slotState s r j
  i :: countReads r (fun j => after j % 256 == 0) (min r.slots (ringFill s r - ringFreed s r).toNat) (ringFreed s r)

/-- The slot states that an instruction on the ring at va reads must be good (18 R409). -/
def statesGood (s : State) (r : Ring) (va : Word) (l : List Nat) (res : Res) : Res :=
  match l.findSome? (fun j => firstBad s (r.stateKey j) 2) with
  | some b => .trap s cUncorrectable (va + word (b - r.key)) 0
  | none => res

/-- Publishes slot i (RPUT; 11 R300). -/
def ringPut (s : State) (r : Ring) (i : Nat) : State :=
  let f := ringFill s r
  let s := countPut r r.slots (setSlotState s r i (slotState s r i % 256 + 256))
  if ringFill s r = f then s else ringWake s r

/-- Reserves the next slot, if there is one (RGET; 11 R300). -/
def ringGet (s : State) (r : Ring) : Option (State × Nat) :=
  let rsv := ringRsv s r
  if (rsv - ringFreed s r).toNat ≤ r.ns then some (setDword s (r.key + 8) (rsv + 1), slotOf r rsv) else none

/-- Frees slot i for consumer c (RFREE; 11 R300). -/
def ringFree' (s : State) (r : Ring) (i c : Nat) : State :=
  let f := ringFreed s r
  let v := slotState s r i
  let s := countFree r r.slots (setSlotState s r i (if v.testBit c then v - 2 ^ c else v))
  if ringFreed s r = f then s else ringWake s r

def execRget (d a : Nat) := finish (.rget d a) [rA a] (fun s =>
  atRing s (regA s a) (fun s r =>
    match ringGet s r with
    | some (t, i) => .ok (setA t d (regA s a + word (r.slotOfs i)))
    | none => .ok (setA s d 0)))
def execRput (a b : Nat) := finish (.rput a b) [rA a, rA b] (fun s =>
  atRing s (regA s a) (fun s r =>
    match slotIndex s r (regA s b) with
    | none => .trap s cRing (regA s b) 0
    | some i => statesGood s r (regA s a) [i] (if slotReserved s r i then statesGood s r (regA s a) (putReads s r i) (.ok (ringPut (releaseWaits s s.cur) r i))
        else .trap s cRing 0 0)))

def consumerOk (r : Ring) (c : Word) : Bool := decide (c.toNat < 8) && r.cmask.testBit c.toNat

def execRtake (d a b : Nat) := finish (.rtake d a b) [rA a, rA b] (fun s =>
  atRing s (regA s a) (fun s r =>
    let c := (regA s b).toNat
    if !consumerOk r (regA s b) then .trap s cRing 0 0
    else readable s (r.posKey c) 8 (regA s a + word (0x40 + 8 * c)) (
      let pos := counterRead s (r.posKey c)
      if pos < ringFill s r && firstInLine s (.ring r.key c) then
        .ok (setA (acquire (setDword s (r.posKey c) (pos + 1)) (cxCore s)) d (regA s a + word (r.slotOfs (slotOf r pos))))
      else .wait s (.ring r.key c))))
def execRfree (d a b : Nat) := finish (.rfree d a b) [rA a, rA b, rA d] (fun s =>
  atRing s (regA s a) (fun s r =>
    if !consumerOk r (regA s d) then .trap s cRing 0 0
    else match slotIndex s r (regA s b) with
      | none => .trap s cRing (regA s b) 0
      | some i =>
        let c := (regA s d).toNat
        statesGood s r (regA s a) [i] (if !(slotState s r i).testBit c then .trap s cRing 0 0
          else statesGood s r (regA s a) (freeReads s r i c) (.ok (ringFree' s r i c)))))

end Sys2Proof.Machine
end

