-- ==== Sys2Proof/Machine/EngineOps.lean ====
section
/-! DEFINITION. What the engines and the Sawmill share: engine registers (06 R171, R172), counters of an operation (11 R291), accesses that
make page requests (11 R295), and lists of accesses that are all checked before any is performed. -/

namespace Sys2Proof.Machine

open Sys2Proof

/-! ## Engine registers (06 R171, R172) -/

def engReg (s : State) (core n : Nat) : Word := kget (getCore s core).e 0 n

/-- The registers of k sets from set s on, if the thread's job owns them all. -/
def engSets (s : State) (set k : Nat) : Option (List Word) :=
  let core := cxCore s
  if (List.range k).all (fun i => kfind (getCore s core).owner (set + i) == some (cx s).job) then
    some ((List.range (8 * k)).map (fun i => engReg s core (8 * set + i)))
  else none

/-- Continues with the registers of a set, or traps (06 R171). -/
def withSets (s : State) (set k : Nat) (f : List Word → Res) : Res :=
  match engSets s set k with
  | none => .trap s cSetOwner 0 0
  | some l => f l

/-- An optional counter address: 0 for none (11 R291). -/
def optCounter (s : State) (va : Word) (k : Option Nat → Res) : Res :=
  if va = 0 then k none else counterAt s va (fun key => k (some key))

/-- Whether an "after" counter has reached its target (04 R109). -/
def afterMet (s : State) (after : Option Nat) (target : Word) : Bool :=
  match after with
  | none => true
  | some k => decide (target ≤ counterRead s k)

/-- A completion increment by an operation: a core behind a fence, or on an unreachable package, does not take it (17 R387, R390; 19 R429, R431). -/
def bumpDone (s : State) (w : Who) (done : Option Nat) : State :=
  match done with
  | none => s
  | some k => if cutFor s w (keyCore k) then s else counterAdd s k 1

/-! ## Page requests of engines (11 R295, 13 R354) -/

/-- What an engine's accesses give: done, a failure (code, detail, address), or a wait for a page or a migration. -/
inductive EngRes where
  | done (bytes : List (List Byte))
  | fail (code detail : Nat) (addr : Word)
  | wait
deriving DecidableEq, Repr

/-- An engine operation waits on a page's request, which keeps its own failing address; a full landing makes it try again. -/
def enginePage (s : State) (w : Who) (id : Nat) (va : Word) (wr : Bool) : State :=
  let pk := corePkg w.core
  match pageRequest s w.core w.job va wr false true with
  | (s, none) => s
  | (s, some i) =>
    modPkg s pk (fun p => match kfind p.landing i with
      | some l => match l.req with
        | some r => { p with landing := kset p.landing i { l with req := some { r with waiters := kset r.waiters id va } } }
        | none => p
      | none => p)

/-- The status code of a failed access (11 R294). -/
def failCode (cause : Nat) : Nat := if cause = cUncorrectable then 2 else 1
def failRes (cause : Nat) (a : Word) : EngRes := .fail (failCode cause) (if cause = cUncorrectable then 0 else cause) a

/-- Whether an operation waits for the answer to a page request (11 R295, 18 R406). -/
def pageWaits (p : Pkg) (id : Nat) : Bool :=
  p.landing.any (fun e => match e.2.req with
    | some q => (kfind q.waiters id).isSome
    | none => false)

/-- A slot of the landing after an operation has left it: nobody left frees it without an answer, and its generation rises (13 R356; 18 R406). -/
def LandSlot.without (l : LandSlot) (id : Nat) : LandSlot :=
  match l.req with
  | none => l
  | some q =>
    let w := kdel q.waiters id
    if (kfind q.waiters id).isNone then l
    else if w.isEmpty && q.parked.isEmpty then { gen := (l.gen + 1) % 2 ^ 32, req := none }
    else { l with req := some { q with waiters := w } }

/-- An operation that ends, or is taken back, waits for no page any more, and no refusal meets it. -/
def leaveLanding (s : State) (pkg id : Nat) : State :=
  if !pageWaits (getPkg s pkg) id && (kfind (getPkg s pkg).refusedOps id).isNone then s
  else modPkg s pkg (fun p =>
    let slots := p.landing.map (fun e => (e.1, e.2.without id))
    { p with landing := slots, landOrder := p.landOrder.filter (fun i => ((kfind slots i).bind (fun l => l.req)).isSome), refusedOps := kdel p.refusedOps id })

/-- Checks a list of accesses of an engine operation: the places, or how it ends. A refused page ends it; until its request is answered it waits (11
R295). -/
def engineCheck (s : State) (w : Who) (id : Nat) (acc : Acc) (l : List (Word × Nat)) : State × Except EngRes (List Chk) :=
  let pk := corePkg w.core
  match kfind (getPkg s pk).refusedOps id with
  | some va => (modPkg s pk (fun p => { p with refusedOps := kdel p.refusedOps id }), .error (.fail 1 cRefused va))
  | none =>
    if pageWaits (getPkg s pk) id then (s, .error .wait)
    else match checkMany s w acc false l [] with
    | (s, cs) =>
      match chkRes s acc.writes cs with
      | some (.absent _ va wr _) => (enginePage s w id va wr, .error .wait)
      | some (.held _ va) => (s, .error (if addrClass va = .scratch then .fail 1 cFenced va else .wait))
      | some (.trap _ c a _) => (s, .error (failRes c a))
      | some _ => (s, .error .wait)
      | none =>
        match recallMany s l cs with
        | (s, some a) => (s, .error (failRes cUncorrectable a))
        | (s, none) =>
          match badMany s acc.writes l cs with
          | some a => (s, .error (failRes cUncorrectable a))
          | none => (s, .ok cs)

/-- The bytes at checked places. -/
def placesRead (s : State) : List Chk → List (List Byte)
  | [] => []
  | .ok sp :: cs => spansHome s sp :: placesRead s cs
  | _ :: cs => placesRead s cs

/-- Writes bytes at checked places. -/
def placesWrite (s : State) : List Chk → List (List Byte) → State
  | .ok sp :: cs, bs :: l => placesWrite (spansWrite s sp bs) cs l
  | _, _ => s

/-- The lines of checked places that their ports deliver; f tells which the reader holds. -/
def placesDeliver (s : State) (w : Who) (f : Nat → Bool) : List (Word × Nat) → List Chk → State
  | (va, _) :: l, .ok sp :: cs => placesDeliver (spansDeliver s w f va.toNat sp) w f l cs
  | _ :: l, _ :: cs => placesDeliver s w f l cs
  | _, _ => s

/-- Reads of an engine operation that holds the lines at the keys that f names (03 R90). -/
def engineReadOn (s : State) (w : Who) (id : Nat) (f : Nat → Bool) (l : List (Word × Nat)) : State × EngRes :=
  match engineCheck s w id .read l with
  | (s, .error r) => (s, r)
  | (s, .ok cs) => (placesDeliver s w f l cs, .done (placesRead s cs))

/-- Reads of an engine operation. -/
def engineRead (s : State) (w : Who) (id : Nat) (l : List (Word × Nat)) : State × EngRes := engineReadOn s w id (fun _ => false) l

/-! ## What a failed operation leaves (11 R295) -/

/-- One access tried on its own: its places; how it fails, as cause and address; or none where it would wait. -/
def accessTry (s : State) (w : Who) (acc : Acc) (a : Word) (n : Nat) : State × Except (Option (Nat × Word)) (List Chk) :=
  match checkMany s w acc false [(a, n)] [] with
  | (s, cs) => match chkRes s acc.writes cs with
    | some (.trap _ c x _) => (s, .error (some (c, x)))
    | some (.held _ va) => (s, .error (if addrClass va = .scratch then some (cFenced, va) else none))
    | some _ => (s, .error none)
    | none => match recallMany s [(a, n)] cs with
      | (s, some x) => (s, .error (some (cUncorrectable, x)))
      | (s, none) => match badMany s acc.writes [(a, n)] cs with
        | some x => (s, .error (some (cUncorrectable, x)))
        | none => (s, .ok cs)

/-- n bytes at a cut at aligned dwords: offset and length of each piece. -/
def dwordCut (a : Word) : Nat → Nat → List (Nat × Nat)
  | _, 0 => []
  | o, n + 1 =>
    let room := 8 - (a.toNat + o) % 8
    match dwordCut a (o + 1) n with
    | (p, m) :: rest => if room = 1 then (o, 1) :: (p, m) :: rest else (o, m + 1) :: rest
    | [] => [(o, 1)]

/-- The number of an aligned dword. -/
def dwordNum (a : Word) : Nat := a.toNat / 8

/-- Writes some of the pieces, each inside one dword: each destination dword holds what the operation would have written or keeps its value, a free
choice (log 4, log 5). The number counts the bytes written. -/
def writeSome (s : State) (w : Who) (l : List (Word × List Byte)) : State × Nat :=
  let ds := (l.map (fun e => dwordNum e.1)).foldl keyAdd []
  let kept := ds.zipIdx.filterMap (fun e => if freeBit { s with free := s.free + e.2 } then some e.1 else none)
  l.foldl (fun r e => if kept.contains (dwordNum e.1) then
    match accessTry r.1 w .write e.1 e.2.length with
    | (t, .ok cs) => (placesWrite t cs [e.2], r.2 + e.2.length)
    | _ => r
    else r) ({ s with free := s.free + ds.length }, 0)

/-- The pieces of a list of writes. -/
def writePieces (l : List (Word × List Byte)) : List (Word × List Byte) :=
  l.flatMap (fun e => (dwordCut e.1 0 e.2.length).map (fun p => (e.1 + word p.1, (e.2.drop p.1).take p.2)))

/-- What writes that ended with r leave, and how many bytes they wrote. -/
def writeFailed (s : State) (w : Who) (l : List (Word × List Byte)) : EngRes → State × Nat
  | .fail _ _ _ => writeSome s w (writePieces l)
  | _ => (s, 0)

/-- The pieces of copies (source, destination, length) whose bytes can be read, with the state that the reads leave: a read ends the update-only state of
its lines (04 R114). The source lines that a failed copy had moved add nothing to DLV and STV (DESIGN CHOICE, log 106). -/
def copyPieces (s : State) (w : Who) (l : List (Word × Word × Nat)) : State × List (Word × List Byte) :=
  (l.flatMap (fun e => (dwordCut e.2.1 0 e.2.2).map (fun p => (e.1 + word p.1, e.2.1 + word p.1, p.2)))).foldl (fun r e =>
    match accessTry r.1 w .read e.1 e.2.2 with
    | (t, .ok cs) => (t, r.2 ++ [(e.2.1, (placesRead t cs).headD [])])
    | (t, .error _) => (t, r.2)) (s, [])

/-- How the single accesses of copies fail. -/
def copyFailures (s : State) (w : Who) (l : List (Word × Word × Nat)) : List (Nat × Word) :=
  let fails (acc : Acc) (a : Word) (n : Nat) : Option (Nat × Word) := match accessTry s w acc a n with
    | (_, .error e) => e
    | _ => none
  l.filterMap (fun e => fails .read e.1 e.2.2) ++ l.filterMap (fun e => fails .write e.2.1 e.2.2)

/-- A failed copy: some of its dwords, and when several accesses fail, the status of one of them, a free choice (18 R418; log 5). -/
def copyFailed (s : State) (w : Who) (l : List (Word × Word × Nat)) (r : EngRes) : State × EngRes × Nat :=
  let (u, ps) := copyPieces s w l
  let (t, n) := writeSome u w ps
  match r with
  | .fail _ d _ =>
    let f := copyFailures t w l
    if d = cRefused || f.length ≤ 1 then (t, r, n)
    else match f[(freeNow t).toNat % f.length]? with
      | some e => (freeStep t, failRes e.1 e.2, n)
      | none => (t, r, n)
  | _ => (s, r, 0)

/-- Writes of an engine operation: every byte is checked before any is written. -/
def engineWrite (s : State) (w : Who) (id : Nat) (l : List (Word × List Byte)) : State × EngRes :=
  match engineCheck s w id .write (l.map (fun e => (e.1, e.2.length))) with
  | (s, .error r) => (s, r)
  | (s, .ok cs) => (placesWrite s cs (l.map (fun e => e.2)), .done [])

/-- An operation of a core ends with a status (11 R294). -/
def finishEng (s : State) (core id code detail : Nat) (at_ : Word) : State :=
  let s := if code = 2 then match (getCore s core).ops.find? (fun o => o.id == id) with
      | some o => uncAt s (hwWho core o.job) at_ 5
      | none => s
    else s
  modCore (leaveLanding s (corePkg core) id) core (fun u => { u with ops := u.ops.map (fun o =>
    if o.id = id then { o with phase := .finished, code := code, detail := detail, where_ := at_ } else o) })

end Sys2Proof.Machine
end

