-- ==== Sys2Proof/Machine/NearBank.lean ====
section
/-! DEFINITION. Near-bank commands (11 R301; 12 R342-R344; 18 R421; 20 R439). -/

namespace Sys2Proof.Machine

open Sys2Proof

/-- The element tag of a near-bank FMT: INT32, FP32, BF16. -/
def nbTag (f : Nat) : Nat := if f = 0 then 3 else if f = 1 then 5 else 6
def nbSize (f : Nat) : Nat := if f = 2 then 2 else 4

/-- What the checks of an operand give: its physical address, or CODE, DETAIL and WHERE. -/
abbrev NbAt := Except (Nat × Nat × Word) Nat

/-- The page test of R343 for the n bytes at va: a level-1 leaf with NBC and PIN that permits the access holds all of them. A table entry that fails its
check ends the command with CODE 2 (18 R409). -/
def nbOperand (s : State) (w : Who) (acc : Acc) (va : Word) (n : Nat) : State × NbAt :=
  if addrClass va ≠ .translated then (s, .error (3, 2, va))
  else match translate s w acc va.toNat with
    | (s, .pa pa) =>
      match tlbFind (getCore s w.core).tlb w.job va.toNat with
      | none => (s, .error (3, 2, va))
      | some e =>
        if !(leafBit e 11 && leafBit e 10) then (s, .error (3, 2, va))
        else
          let room := 2 ^ 21 - va.toNat % 2 ^ 21
          if room < n then (s, .error (3, 2, va + word room)) else (s, .ok pa)
    | (s, .bad c) => (s, .error (if c = cUncorrectable then (2, 0, va) else (3, 2, va)))
    | (s, _) => (s, .error (3, 2, va))

/-- The checks of one pass in the order of R439: operations 0 add, 1 scale, 2 sum. -/
def nbCheck (s : State) (w : Who) (op f : Nat) (dst src : Word) (n : Nat) : State × Except (Nat × Nat × Word) (Nat × Nat) :=
  match nbOperand s w .both dst (if op = 2 then nbSize f else n) with
  | (s, .error e) => (s, .error e)
  | (s, .ok d) =>
    if op = 1 then (s, .ok (d, d))
    else match nbOperand s w .read src n with
      | (s, .error e) => (s, .error e)
      | (s, .ok c) =>
        if op = 0 && fld dst 8 10 ≠ fld src 8 10 then (s, .error (3, 4, src))
        else if d / 2 ^ 36 ≠ c / 2 ^ 36 then (s, .error (3, 5, src))
        else (s, .ok (d, c))

/-- The passes of a command as (destination, source). -/
def nbPasses (dst src dstep sstep : Word) (rep : Nat) : List (Word × Word) :=
  (List.range (rep + 1)).map (fun r => (dst + word r * dstep, src + word r * sstep))

/-- Every pass is checked before any bank is touched: physical places, or the first failure. -/
def nbCheckAll (s : State) (w : Who) (op f n : Nat) : List (Word × Word) → State × Except (Nat × Nat × Word) (List (Nat × Nat))
  | [] => (s, .ok [])
  | (d, c) :: rest =>
    match nbCheck s w op f d c n with
    | (s, .error e) => (s, .error e)
    | (s, .ok x) => match nbCheckAll s w op f n rest with
      | (s, .ok l) => (s, .ok (x :: l))
      | e => e

/-- Reads n bytes of a bank: the failing byte, counted from the first one, when there is one. A failed partial counts for its line (18 R416). -/
def nbRead (s : State) (pkg pa n : Nat) : State × Except Int (List Byte) :=
  let k := physKey pkg pa
  match recallLines s k n with
  | (s, some line) => (s, .error ((line : Int) - k))
  | (s, none) => match firstBad s k n with
    | some b => (s, .error ((b : Int) - k))
    | none => (s, .ok (homeRead s k n))

def nbWrite (s : State) (pkg pa : Nat) (bs : List Byte) : State :=
  mend (homeWrite s (physKey pkg pa) bs) (physKey pkg pa) bs.length

/-- The elements of a block. -/
def nbElems (f : Nat) (bs : List Byte) : List Nat := (List.range (bs.length / nbSize f)).map (fun i => bfld bs (nbSize f * i) (nbSize f))

def nbAdd (f x y : Nat) : Nat := (opBits 0 (nbTag f) x y).1
def nbMul (f x y : Nat) : Nat :=
  if f = 0 then x * y % 2 ^ 32 else (fmulBits (fmtOf (nbTag f)) (unpack (fmtOf (nbTag f)) x) (unpack (fmtOf (nbTag f)) y)).1

/-- A source element in the working format of a sum: a BF16 is the upper half of an FP32. -/
def nbWork (f x : Nat) : Nat := if f = 2 then x * 2 ^ 16 else x
def nbWorkTag (f : Nat) : Nat := if f = 0 then 3 else 5

/-- The tree of R135 over one block. -/
def nbBlockSum (f : Nat) (bs : List Byte) : Nat := (treeReduce 0 (nbWorkTag f) 7 ((nbElems f bs).map (nbWork f))).1

/-- D + total, rounded once to FMT. -/
def nbFinal (f d total : Nat) : Nat :=
  if f = 0 then (d + total) % 2 ^ 32
  else (roundVal (fmtOf (nbTag f)) 0 0 (faddX (unpack (fmtOf (nbTag f)) d) (unpack fp32 total)).1).1

/-- One block of an add or a scale; the failing address of uncorrectable data. -/
def nbBlock (s : State) (pkg op f scal : Nat) (dst src : Word) (d c : Nat) (o : Nat) : State × Option Word :=
  match nbRead s pkg (d + o) 256 with
  | (s, .error i) => (s, some (addOfs (dst + word o) i))
  | (s, .ok x) =>
    if op = 1 then
      (nbWrite s pkg (d + o) ((nbElems f x).flatMap (fun v => leBytes (nbSize f) (nbMul f v scal))), none)
    else match nbRead s pkg (c + o) 256 with
      | (s, .error i) => (s, some (addOfs (src + word o) i))
      | (s, .ok y) =>
        (nbWrite s pkg (d + o) (((nbElems f x).zip (nbElems f y)).flatMap (fun v => leBytes (nbSize f) (nbAdd f v.1 v.2))), none)

/-- Blocks of a pass in ascending order, with the bytes written; an error ends the command. -/
def nbBlocks (s : State) (pkg op f scal : Nat) (dst src : Word) (d c : Nat) : List Nat → Nat → State × Nat × Option Word
  | [], n => (s, n, none)
  | o :: rest, n =>
    match nbBlock s pkg op f scal dst src d c o with
    | (s, none) => nbBlocks s pkg op f scal dst src d c rest (n + 256)
    | (s, some a) => (s, n, some a)

/-- The running total of a sum's source blocks. -/
def nbTotal (s : State) (pkg f : Nat) (src : Word) (c : Nat) : List Nat → Nat → State × Except Word Nat
  | [], t => (s, .ok t)
  | o :: rest, t =>
    match nbRead s pkg (c + o) 256 with
    | (s, .error i) => (s, .error (addOfs (src + word o) i))
    | (s, .ok bs) => nbTotal s pkg f src c rest (opBits 0 (nbWorkTag f) t (nbBlockSum f bs)).1

/-- One checked pass: the bytes that it wrote, and the address of uncorrectable data. The running total of a sum starts at the identity of R137, -0 for
floating point (DESIGN CHOICE, log 99). -/
def nbPass (s : State) (pkg op f scal : Nat) (dst src : Word) (d c n : Nat) : State × Nat × Option Word :=
  let blocks := (List.range (n / 256)).map (fun b => 256 * b)
  if op = 2 then
    match nbTotal s pkg f src c blocks (identityBits 0 (nbWorkTag f)) with
    | (s, .error a) => (s, 0, some a)
    | (s, .ok total) => match nbRead s pkg d (nbSize f) with
      | (s, .error i) => (s, 0, some (addOfs dst i))
      | (s, .ok bs) => (nbWrite s pkg d (leBytes (nbSize f) (nbFinal f (leNat bs) total)), nbSize f, none)
  else nbBlocks s pkg op f scal dst src d c blocks 0

/-- Checked passes in order; the answer counts the bytes written. -/
def nbRunAll (s : State) (pkg op f scal n : Nat) : List (Word × Word) → List (Nat × Nat) → Nat → State × Nat × Option Word
  | (dst, src) :: ps, (d, c) :: cs, done =>
    match nbPass s pkg op f scal dst src d c n with
    | (s, k, none) => nbRunAll s pkg op f scal n ps cs (done + k)
    | (s, k, some a) => (s, done + k, some a)
  | _, _, done => (s, done, none)

/-- A whole command: the bytes delivered, CODE, DETAIL and WHERE. -/
def nbCommand (s : State) (w : Who) (op f scal n : Nat) (passes : List (Word × Word)) : State × Nat × Nat × Nat × Word :=
  match nbCheckAll s w op f n passes with
  | (s, .error (c, d, a)) => (s, 0, c, d, a)
  | (s, .ok places) => match nbRunAll s (corePkg w.core) op f scal n passes places 0 with
    | (s, k, some a) => (s, k, 2, 0, a)
    | (s, k, none) => (s, k, 0, 0, 0)

end Sys2Proof.Machine
end

