-- ==== Sys2Proof/Machine/Image.lean ====
section
/-! DEFINITION. Element words, and the check and arming of a configuration image (12 R318-R337). -/

namespace Sys2Proof.Machine

open Sys2Proof

/-! ## The element word (12 R321) -/

def kf (w lo n : Nat) : Nat := w / 2 ^ lo % 2 ^ n
def kGM (w : Nat) : Nat := kf w 56 8
def kGV (w : Nat) : Nat := kf w 48 8
def kNEED (w : Nat) : Nat := kf w 44 4
def kTAGC (w : Nat) : Nat := kf w 40 4
def kOP (w : Nat) : Nat := kf w 32 8
def kSA (w : Nat) : Nat := kf w 29 3
def kSB (w : Nat) : Nat := kf w 26 3
def kOUT (w : Nat) : Nat := kf w 22 4
def kWL (w : Nat) : Bool := w.testBit 21
def kLD (w : Nat) : Nat := kf w 19 2
def kDEQ (w : Nat) : Nat := kf w 15 4
def kPI (w : Nat) : Nat := kf w 12 3
def kPU (w : Nat) : Nat := kf w 10 2
def kFMT (w : Nat) : Nat := kf w 0 4
def kAux4 (w : Nat) : Nat := kf w 4 3
def kAux7 (w : Nat) : Nat := kf w 7 3
/-- ORD and the order number of KMRD and KMWR (12 R332). -/
def kORD (w : Nat) : Bool := w.testBit 6 && (kOP w == 0x30 || kOP w == 0x31)

/-- Formats of channels (12 R319). -/
def chanFmt (t : Nat) : Bool := decide (t ≤ 3) || (decide (5 ≤ t) && decide (t ≤ 7)) || t == 9 || t == 10
def intFmt (t : Nat) : Bool := (decide (1 ≤ t) && decide (t ≤ 3)) || t == 9 || t == 10
def numFmt (t : Nat) : Bool := intFmt t || isFloatTag t

/-- The width of a token's element; 32 untyped bits for tag 0. -/
def kWidth (t : Nat) : Nat := if t = 0 then 32 else tagWidth t
def kBytes (t : Nat) : Nat := kWidth t / 8

/-- The destination tag of KCVT. -/
def cvtTag (n : Nat) : Nat := if n < 3 then n + 1 else n + 2

/-- Element kinds by row: 0 port, 1 loop generator, 2 arithmetic, 3 memory (12 R318). -/
def elemKind (n : Nat) : Nat := if n < 8 then 0 else if n < 16 then 1 else if n < 56 then 2 else 3

/-- The kinds that run an operation (12 R325). -/
def opKind (op el sport : Nat) : Bool :=
  let k := elemKind el
  if op = 0x10 || op = 0x12 || op = 0x13 || op = 0x14 then true
  else if (1 ≤ op && op ≤ 0x0F) || op = 0x11 then k == 2
  else if op = 0x20 || op = 0x21 then el == sport
  else if op = 0x28 then k == 1
  else if op = 0x30 || op = 0x31 || op = 0x38 || op = 0x39 || op = 0x3A then k == 3
  else false

/-- Which sources an operation reads. -/
def readsA (op : Nat) : Bool := !(op == 0x12 || op == 0x13 || op == 0x14 || op == 0x20)
def readsB (op : Nat) : Bool :=
  (decide (1 ≤ op) && decide (op ≤ 0x0D)) || op == 0x31 || op == 0x38 || op == 0x39 || op == 0x3A

/-- The AUX field of an operation (12 R326-R332, R343). KRED's add, min and max take the formats of numbers only, not FMT 0 (DESIGN CHOICE, log 91). -/
def auxOk (w : Nat) : Bool :=
  let op := kOP w
  let f := kFMT w
  let x := kAux4 w
  let y := kAux7 w
  if op = 1 || op = 2 || op = 3 || op = 4 || op = 0x0C || op = 0x0D then numFmt f && x == 0 && y == 0
  else if op = 5 || op = 6 || op = 7 || op = 0x0F || op = 0x10 then chanFmt f && x == 0 && y == 0
  else if op = 8 || op = 9 then intFmt f && x == 0 && y == 0
  else if op = 0x0A then numFmt f && decide (x ≤ 5) && y == 0
  else if op = 0x0B then chanFmt f && y == 0
  else if op = 0x0E then numFmt f && decide (x ≤ 4) && decide (y ≤ 5)
  else if op = 0x11 then (if x ≤ 2 then numFmt f else chanFmt f && decide (x ≤ 5) && !isFloatTag f) && decide (1 ≤ y) && decide (y ≤ 6)
  else if op = 0x12 then chanFmt f && x == 0 && decide (1 ≤ y)
  else if op = 0x13 || op = 0x14 then kf w 8 2 == 0
  else if op = 0x20 then chanFmt f && x == 0 && y == 0
  else if op = 0x21 then chanFmt f && y == 0
  else if op = 0x28 then decide (1 ≤ kf w 0 3) && decide (kf w 0 3 ≤ 4) && kf w 4 6 == 0
  else if op = 0x30 || op = 0x31 then chanFmt f && f != 0
  else decide (kf w 0 2 ≤ 2) && kf w 2 8 == 0

/-- Restrictions on OUT, WL, PU and the kind of a source. -/
def shapeOk (w : Nat) : Bool :=
  let op := kOP w
  if op = 4 then kWL w
  else if op = 0x11 then kWL w && decide (kSA w < 4)
  else if op = 0x13 || op = 0x14 then kOUT w == 0 && !kWL w && kPU w == 0
  else if op = 0x21 then decide (kSA w < 4) && kOUT w == 0 && !kWL w
  else if op = 0x28 || op = 0x30 then decide (kSA w < 4)
  else if op = 0x31 then decide (kSA w < 4) && decide (kSB w < 4) && kOUT w == 0 && !kWL w
  else if op = 0x39 then decide (4 ≤ kSB w)
  else true

/-- A nonempty slot is well formed in its element; `ins` and `outs` are the channels that have an edge (12 R321). -/
def slotOk (w el sport ins outs : Nat) : Bool :=
  let op := kOP w
  opKind op el sport && (kGV w &&& kGM w) == kGV w && auxOk w && shapeOk w
    && (readsA op || kSA w == 0) && (readsB op || kSB w == 0)
    && (!readsA op || decide (4 ≤ kSA w) || (kNEED w).testBit (kSA w))
    && (!readsB op || decide (4 ≤ kSB w) || (kNEED w).testBit (kSB w))
    && (kDEQ w &&& kNEED w) == kDEQ w && (kNEED w &&& ins) == kNEED w && (kOUT w &&& outs) == kOUT w
    && (!kORD w || (kGM w == 0 && kTAGC w == 8))

/-- The channels of an ordered slot. -/
def ordChans (w : Nat) : Nat := kNEED w

/-- Two ordered slots clash when they share an order number or a channel (12 R333). -/
def ordClash (w v : Nat) : Bool := kORD w && kORD v && (kAux7 w == kAux7 v || (ordChans w &&& ordChans v) != 0 || (kOUT w &&& kOUT v) != 0)

/-! ## The image (12 R335-R337) -/

/-- The element records of an image: element and record offset. -/
def imageElems (use : Nat) : List (Nat × Nat) := (setBits 64 use).zipIdx.map (fun e => (e.1, 64 + 128 * e.2))

def imageLen (use nedge : Nat) : Nat := (64 + 128 * (setBits 64 use).length + 4 * nedge + 63) / 64 * 64

/-- The offset of the first bad header field. -/
def headerBad (h : List Byte) : Option Nat :=
  let d0 := bfld h 0 8
  let use := bfld h 8 8
  let d2 := bfld h 16 8
  let nedge := d2 % 512
  if d0 % 2 ^ 16 ≠ 0x4B57 then some 0
  else if d0 / 2 ^ 16 % 2 ^ 16 ≠ 1 then some 2
  else if d0 / 2 ^ 32 ≠ imageLen use nedge then some 4
  else if 256 < nedge then some 16
  else if d2 / 2 ^ 9 % 4 ≠ 0 || !use.testBit (d2 / 2 ^ 11 % 8) then some 17
  else if d2 / 2 ^ 14 ≠ 0 then some 17
  else ((List.range 5).find? (fun i => bfld h (24 + 8 * i) 8 != 0)).map (fun i => 24 + 8 * i)

def edgeOf (v : Nat) : Edge := { pe := v % 64, po := v / 64 % 4, ce := v / 256 % 64, ci := v / 2 ^ 14 % 4, fmt := v / 2 ^ 16 % 16 }

/-- Offset of the edge table. -/
def edgeOfs (use : Nat) : Nat := 64 + 128 * (setBits 64 use).length

def imageEdges (bs : List Byte) : List Edge :=
  (List.range (bfld bs 16 2 % 512)).map (fun i => edgeOf (bfld bs (edgeOfs (bfld bs 8 8) + 4 * i) 4))

def chanMask (l : List Nat) : Nat := l.foldl (fun m c => m ||| 2 ^ c) 0

/-- The first bad field of one element record; offsets are within the record. Of an empty slot no other field is tested (DESIGN CHOICE, log 96). -/
def recordBad (bs : List Byte) (o el sport : Nat) (edges : List Edge) : Option Nat :=
  let ins := chanMask ((edges.filter (fun e => e.ce == el)).map (fun e => e.ci))
  let outs := chanMask ((edges.filter (fun e => e.pe == el)).map (fun e => e.po))
  let slot (i : Nat) : Nat := bfld bs (o + 8 * i) 8
  match (List.range 8).find? (fun i => kOP (slot i) != 0
      && (!slotOk (slot i) el sport ins outs || (List.range i).any (fun j => kOP (slot j) != 0 && ordClash (slot j) (slot i)))) with
  | some i => some (8 * i)
  | none =>
    match (List.range 8).find? (fun k =>
        let b := bfld bs (o + 0x40 + k) 1
        b / 16 % 8 != 0 || (decide (128 ≤ b) && !((if k < 4 then ins else outs).testBit (k % 4)))) with
    | some k => some (0x40 + k)
    | none =>
      if bfld bs (o + 0x49) 7 ≠ 0 then some 0x49
      else if elemKind el ≠ 3 && bfld bs (o + 0x60) 8 ≠ 0 then some 0x60
      else if bfld bs (o + 0x68) 24 ≠ 0 then some 0x68
      else none

/-- The first bad edge field: PE (byte 0) names an element outside USE or has a fifth edge on an output (12 R320), CE (byte 1) names an element outside
USE, a reserved bit (byte 2) is set. -/
def edgeBad (bs : List Byte) : Option Nat :=
  let use := bfld bs 8 8
  let edges := imageEdges bs
  ((List.range edges.length).filterMap (fun i =>
    let o := edgeOfs use + 4 * i
    let v := bfld bs o 4
    let e := edgeOf v
    if !use.testBit e.pe || decide (4 ≤ ((edges.take i).filter (fun x => x.pe == e.pe && x.po == e.po)).length) then some o
    else if !use.testBit e.ce then some (o + 1)
    else if v / 2 ^ 20 != 0 then some (o + 2)
    else none)).head?

/-- Step 1 of R337 for a whole image. -/
def malformed (bs : List Byte) : Option Nat :=
  match headerBad bs with
  | some o => some o
  | none =>
    let edges := imageEdges bs
    let sport := bfld bs 16 2 / 2 ^ 11 % 8
    let recs := (imageElems (bfld bs 8 8)).filterMap (fun e => (recordBad bs e.2 e.1 sport edges).map (fun x => e.2 + x))
    match recs with
    | o :: _ => some o
    | [] => edgeBad bs

/-- The declared format of a channel byte; none when the channel is not used. -/
def declared (b : Nat) : Option Nat := if 128 ≤ b then some (b % 16) else none

def recordOf (bs : List Byte) (el : Nat) : Option Nat := kfind (imageElems (bfld bs 8 8)) el

def chanOf (bs : List Byte) (el k : Nat) (out : Bool) : Option Nat :=
  match recordOf bs el with
  | some o => declared (bfld bs (o + 0x40 + (if out then 4 else 0) + k) 1)
  | none => none

/-- Step 2 of R337. -/
def edgeDisagrees (bs : List Byte) : Option Nat :=
  let edges := imageEdges bs
  (List.range edges.length).find? (fun i =>
    match edges[i]? with
    | none => false
    | some e => chanOf bs e.pe e.po true != some e.fmt || chanOf bs e.ce e.ci false != some e.fmt || !chanFmt e.fmt
        || (edges.take i).any (fun x => x.ce == e.ce && x.ci == e.ci))

/-- The formats of an operation's source A, source B and result channels (12 R326, R328-R332, R343). -/
def opFmts (w : Nat) : Nat × Nat × Nat :=
  let op := kOP w
  let f := kFMT w
  if op = 0x0A || op = 0x0F then (f, f, 3)
  else if op = 0x0E then (f, f, cvtTag (kAux7 w))
  else if op = 0x28 then (10, 10, 10)
  else if op = 0x30 || op = 0x31 then (10, f, f)
  else if op = 0x38 || op = 0x39 || op = 0x3A then (10, 10, 10)
  else (f, f, f)

/-- Whether a slot's channels have its formats: those that it names as SA, SB or OUT; one that stands in NEED or DEQ alone must have an edge (12 R321) and
may have any format (DESIGN CHOICE, log 96). -/
def slotFmtOk (bs : List Byte) (el w : Nat) : Bool :=
  let (fa, fb, fo) := opFmts w
  let op := kOP w
  let noOut := op == 0x38 || op == 0x39 || op == 0x3A
  (!readsA op || decide (4 ≤ kSA w) || chanOf bs el (kSA w) false == some fa)
    && (!readsB op || decide (4 ≤ kSB w) || chanOf bs el (kSB w) false == some fb)
    && (noOut || (setBits 4 (kOUT w)).all (fun k => chanOf bs el k true == some fo))

/-- Step 3 of R337. -/
def slotDisagrees (bs : List Byte) : Option Nat :=
  ((imageElems (bfld bs 8 8)).flatMap (fun e => (List.range 8).filterMap (fun i =>
    let w := bfld bs (e.2 + 8 * i) 8
    if kOP w ≠ 0 && !slotFmtOk bs e.1 w then some (8 * e.1 + i) else none))).head?

/-- The armed elements of a checked image. -/
def armElems (bs : List Byte) : KMap Elem :=
  (imageElems (bfld bs 8 8)).map (fun e => (e.1,
    { slots := (List.range 8).map (fun i => bfld bs (e.2 + 8 * i) 8), preds := bfld bs (e.2 + 0x48) 1,
      l := (List.range 4).map (fun i => BitVec.ofNat 32 (bfld bs (e.2 + 0x50 + 4 * i) 4)), ins := [],
      ifmt := (List.range 4).map (fun i => bfld bs (e.2 + 0x40 + i) 1), ofmt := (List.range 4).map (fun i => bfld bs (e.2 + 0x44 + i) 1),
      wofs := word (bfld bs (e.2 + 0x60) 8), gen := none, wave := 0 }))

/-- The words of the pass-through element: KDEQ.bits O0 and KENQ.bits I0 on any tag (12 R338). -/
def passDeq : Nat := 0x20 * 2 ^ 32 + 2 ^ 22
def passEnq : Nat := 2 ^ 44 + 8 * 2 ^ 40 + 0x21 * 2 ^ 32 + 2 ^ 15

def passElems : KMap Elem :=
  [(0, { slots := [passDeq, passEnq, 0, 0, 0, 0, 0, 0], preds := 0, l := [0, 0, 0, 0], ins := [], ifmt := [128, 0, 0, 0], ofmt := [128, 0, 0, 0],
         wofs := 0, gen := none, wave := 0 })]
def passEdges : List Edge := [{ pe := 0, po := 0, ce := 0, ci := 0, fmt := 0 }]

/-- The elements of USE that other streams of the stack have armed. -/
def busyElem (p : Pkg) (stk slot use : Nat) : Option Nat :=
  (setBits 64 use).find? (fun el => p.streams.any (fun e =>
    e.1 / 64 == stk && e.1 != stk * 64 + slot && !e.2.passThrough && (kfind e.2.elems el).isSome))

/-- Checks and arms an image on a stream: (DETAIL, WHERE) of the first failure, or the armed stream (12 R337; log 43). -/
def armImage (p : Pkg) (stk slot : Nat) (st : Stream) (bs : List Byte) : Except (Nat × Nat) Stream :=
  match malformed bs with
  | some o => .error (6, o)
  | none => match edgeDisagrees bs with
    | some e => .error (1, e)
    | none => match slotDisagrees bs with
      | some n => .error (7, n)
      | none => match busyElem p stk slot (bfld bs 8 8) with
        | some el => .error (9, el)
        | none => .ok { st with elems := armElems bs, edges := imageEdges bs, passThrough := false, sport := bfld bs 16 2 / 2 ^ 11 % 8, started := true }

end Sys2Proof.Machine
end

