-- ==== Sys2Proof/Machine/Vector.lean ====
section
/-! DEFINITION. Vector operations, sparse and mask operations (08 R205-R220, R227-R232). -/

namespace Sys2Proof.Machine

open Sys2Proof

/-! ## Elements -/

/-- Element e of width w (05 R140). -/
def elemAt (w x e : Nat) : Nat := x / 2 ^ (w * e) % 2 ^ w

/-- The register value whose elements of width w are the list's. -/
def packElems (w : Nat) : List Nat → Nat
  | [] => 0
  | x :: l => x % 2 ^ w + 2 ^ w * packElems w l

def vnat (v : VReg) : Nat := v.bits.toNat
def mkV (bits tag planes : Nat) : VReg := { bits := BitVec.ofNat 1024 bits, tag := tag, planes := planes }

/-- A tag mismatch (17 R379): operand 0 vd, 1 va, 2 vb. An instruction whose first source has a tag that it does not accept reports that one, whatever the
other's (DEDUCED, log 66). -/
def tagTrap (s : State) (operand : Nat) (v : VReg) : Res := .trap s cTag 0 (operand + v.tag * 16 + v.planes * 256)

/-- The dwords of a V register that active elements of width w lie in. -/
def laneDwords (w n : Nat) (mask : Nat → Bool) (j : Nat) : Bool := (List.range n).any (fun e => mask e && e * w / 64 == j)

/-- Writes elements: an active element takes f's value and adds its flags, an inactive one keeps its bits (08 R205, R206). -/
def lanes (s : State) (d w n : Nat) (mask : Nat → Bool) (tag planes : Nat) (f : Nat → Nat × Nat) : Res :=
  let old := vnat (regV s d)
  let l := (List.range n).map (fun e => if mask e then f e else (elemAt w old e, 0))
  .ok (orFlags (setVPart s d (mkV (packElems w (l.map Prod.fst)) tag planes) (laneDwords w n mask)) (l.foldl (fun a p => a ||| p.2) 0))

def maskBit (s : State) (m e : Nat) : Bool := (regM s m).getLsbD e

def arithTags (t : Nat) : Bool := (decide (1 ≤ t) && decide (t ≤ 7)) || t == 9 || t == 10
def mulTags (t : Nat) : Bool := decide (1 ≤ t) && decide (t ≤ 7)
def signTags (t : Nat) : Bool := mulTags t || t == 9
def shiftTags (t : Nat) : Bool := (decide (1 ≤ t) && decide (t ≤ 4)) || t == 9 || t == 10
def floatTags (t : Nat) : Bool := isFloatTag t
def fullTags (t : Nat) : Bool := decide (1 ≤ t) && decide (t ≤ 10)

/-- Same tag and, for BPI, the same plane count (08 R205). -/
def sameFormat (x y : VReg) : Bool := x.tag == y.tag && x.planes == y.planes

/-! ## Element functions (08 R207-R210) -/

/-- An integer result of width w. -/
def wrapI (w : Nat) (i : Int) : Nat × Nat := (ofSigned w i, 0)

def addElem (t x y : Nat) : Nat × Nat :=
  let f := fmtOf t
  if isFloatTag t then faddBits f (unpack f x) (unpack f y) else ((x + y) % 2 ^ tagWidth t, 0)

def subElem (t x y : Nat) : Nat × Nat :=
  let f := fmtOf t
  if isFloatTag t then faddBits f (unpack f x) (unpack f y).neg else wrapI (tagWidth t) ((x : Int) - y)

def mulElem (t x y : Nat) : Nat × Nat :=
  let f := fmtOf t
  if isFloatTag t then fmulBits f (unpack f x) (unpack f y) else (x * y % 2 ^ tagWidth t, 0)

def fmaElem (t x y z : Nat) : Nat × Nat :=
  let f := fmtOf t
  if isFloatTag t then fmaBits f (unpack f x) (unpack f y) (unpack f z) else ((x * y + z) % 2 ^ tagWidth t, 0)

def fmsElem (t x y z : Nat) : Nat × Nat :=
  let f := fmtOf t
  if isFloatTag t then fmaBits f (unpack f x).neg (unpack f y) (unpack f z) else wrapI (tagWidth t) ((z : Int) - x * y)

def minElem (t x y : Nat) : Nat × Nat := if isFloatTag t then fminmax (fmtOf t) false x y else opBits 1 t x y
def maxElem (t x y : Nat) : Nat × Nat := if isFloatTag t then fminmax (fmtOf t) true x y else opBits 2 t x y

/-- |x| or −x: a NaN gives the default NaN. -/
def signElem (neg : Bool) (t x : Nat) : Nat × Nat :=
  let w := tagWidth t
  if isFloatTag t then
    match unpack (fmtOf t) x with
    | .nan s => (nanBits (fmtOf t), flagIf s flNV)
    | _ => (if neg then (x + 2 ^ (w - 1)) % 2 ^ w else x % 2 ^ (w - 1), 0)
  else
    let i := elemInt t x
    wrapI w (if neg then -i else i.natAbs)

def shlElem (t x n : Nat) : Nat × Nat := if tagWidth t ≤ n then (0, 0) else (x * 2 ^ n % 2 ^ tagWidth t, 0)
/-- A signed tag fills with the sign: division by 2^n rounds down. -/
def shrElem (t x n : Nat) : Nat × Nat := wrapI (tagWidth t) (elemInt t x / 2 ^ (min n (tagWidth t)))

/-! ## Shapes of element-wise instructions -/

/-- Vd = f(Va, Vb) on the tags that `ok` accepts. -/
def vop2 (i : Instr) (d a b m : Nat) (ok : Nat → Bool) (f : Nat → Nat → Nat → Nat × Nat) (s : State) : Host.Outcome State Fault Refusal :=
  finish i [rV a, rV b, rM m] (fun s =>
    let x := regV s a
    let y := regV s b
    if !ok x.tag then tagTrap s 1 x
    else if !sameFormat x y then tagTrap s 2 y
    else
      let w := tagWidth x.tag
      lanes s d w (tagCount x.tag) (maskBit s m) x.tag 0 (fun e => f x.tag (elemAt w (vnat x) e) (elemAt w (vnat y) e))) s

/-- Vd = f(Va, Vb, Vd). -/
def vop3 (i : Instr) (d a b m : Nat) (f : Nat → Nat → Nat → Nat → Nat × Nat) (s : State) : Host.Outcome State Fault Refusal :=
  finish i [rV d, rV a, rV b, rM m] (fun s =>
    let x := regV s a
    let y := regV s b
    let z := regV s d
    if !mulTags x.tag then tagTrap s 1 x
    else if !sameFormat x y then tagTrap s 2 y
    else if !sameFormat x z then tagTrap s 0 z
    else
      let w := tagWidth x.tag
      lanes s d w (tagCount x.tag) (maskBit s m) x.tag 0
        (fun e => f x.tag (elemAt w (vnat x) e) (elemAt w (vnat y) e) (elemAt w (vnat z) e))) s

/-- Vd = f(Va). -/
def vop1 (i : Instr) (d a m : Nat) (ok : Nat → Bool) (f : Nat → Nat → Nat × Nat) (s : State) : Host.Outcome State Fault Refusal :=
  finish i [rV a, rM m] (fun s =>
    let x := regV s a
    if !ok x.tag then tagTrap s 1 x
    else
      let w := tagWidth x.tag
      lanes s d w (tagCount x.tag) (maskBit s m) x.tag 0 (fun e => f x.tag (elemAt w (vnat x) e))) s

/-- VAND, VOR and VXOR: tags that differ give dwords with tag 0 (08 R209). -/
def vlogic (i : Instr) (d a b m : Nat) (f : Nat → Nat → Nat) (s : State) : Host.Outcome State Fault Refusal :=
  finish i [rV a, rV b, rM m] (fun s =>
    let x := regV s a
    let y := regV s b
    let t := if sameFormat x y then x.tag else 0
    let w := tagWidth t
    lanes s d w (tagCount t) (maskBit s m) t (if sameFormat x y then x.planes else 0)
      (fun e => (f (elemAt w (vnat x) e) (elemAt w (vnat y) e), 0))) s

def execVadd (d a b m : Nat) := vop2 (.vadd d a b m) d a b m arithTags addElem
def execVsub (d a b m : Nat) := vop2 (.vsub d a b m) d a b m arithTags subElem
def execVmul (d a b m : Nat) := vop2 (.vmul d a b m) d a b m mulTags mulElem
def execVfma (d a b m : Nat) := vop3 (.vfma d a b m) d a b m fmaElem
def execVfms (d a b m : Nat) := vop3 (.vfms d a b m) d a b m fmsElem
def execVmin (d a b m : Nat) := vop2 (.vmin d a b m) d a b m arithTags minElem
def execVmax (d a b m : Nat) := vop2 (.vmax d a b m) d a b m arithTags maxElem
def execVabs (d a m : Nat) := vop1 (.vabs d a m) d a m signTags (signElem false)
def execVneg (d a m : Nat) := vop1 (.vneg d a m) d a m signTags (signElem true)
def execVand (d a b m : Nat) := vlogic (.vand d a b m) d a b m (fun x y => x &&& y)
def execVor (d a b m : Nat) := vlogic (.vor d a b m) d a b m (fun x y => x ||| y)
def execVxor (d a b m : Nat) := vlogic (.vxor d a b m) d a b m (fun x y => x ^^^ y)
def execVshl (d a b m : Nat) := vop2 (.vshl d a b m) d a b m shiftTags shlElem
def execVshr (d a b m : Nat) := vop2 (.vshr d a b m) d a b m shiftTags shrElem
def execVrcp (d a m : Nat) := vop1 (.vrcp d a m) d a m floatTags (fun t => vrcpElem (fmtOf t))
def execVrsq (d a m : Nat) := vop1 (.vrsq d a m) d a m floatTags (fun t => vrsqElem (fmtOf t))
def execVexp2 (d a m : Nat) := vop1 (.vexp2 d a m) d a m floatTags (fun t => vexp2Elem (fmtOf t))
def execVlog2 (d a m : Nat) := vop1 (.vlog2 d a m) d a m floatTags (fun t => vlog2Elem (fmtOf t))

/-! ## Comparison and selection (08 R211, R212) -/

def condHolds (c : Nat) (o : Ordering) : Bool :=
  match c with
  | 0 => o == .eq
  | 1 => o != .eq
  | 2 => o == .lt
  | 3 => o != .gt
  | 4 => o == .gt
  | _ => o != .lt

/-- One comparison and its flags: conditions 0 eq, 1 ne, 2 lt, 3 le, 4 gt, 5 ge. -/
def cmpElem (c t x y : Nat) : Bool × Nat :=
  if isFloatTag t then
    let a := unpack (fmtOf t) x
    let b := unpack (fmtOf t) y
    match fcmp a b with
    | some o => (condHolds c o, 0)
    | none => (c == 1, flagIf (a.isSig || b.isSig || decide (2 ≤ c)) flNV)
  else (condHolds c (compare (elemInt t x) (elemInt t y)), 0)

def execVcmp (d a b m c : Nat) := finish (.vcmp d a b m c) [rV a, rV b, rM m] (fun s =>
  let x := regV s a
  let y := regV s b
  if !arithTags x.tag then tagTrap s 1 x
  else if !sameFormat x y then tagTrap s 2 y
  else
    let w := tagWidth x.tag
    let l := (List.range (tagCount x.tag)).map (fun e =>
      if maskBit s m e then cmpElem c x.tag (elemAt w (vnat x) e) (elemAt w (vnat y) e) else (false, 0))
    .ok (orFlags (setM s d (BitVec.ofNat 128 (packElems 1 (l.map (fun p => p.1.toNat))))) (l.foldl (fun f p => f ||| p.2) 0)))

def execVsel (d a b m : Nat) := finish (.vsel d a b m) [rV a, rV b, rM m] (fun s =>
  let x := regV s a
  let y := regV s b
  if !sameFormat x y then tagTrap s 2 y
  else
    let w := tagWidth x.tag
    lanes s d w (tagCount x.tag) (fun _ => true) x.tag x.planes
      (fun e => (if maskBit s m e then elemAt w (vnat x) e else elemAt w (vnat y) e, 0)))

/-! ## Conversion and rearrangement (08 R215-R218) -/

/-- Converts the elements below n in ascending order; stochastic rounding advances the seed at each active one (05 R130). -/
def convertLanes (src p t mode : Nat) (x old : Nat) (mask : Nat → Bool) (n : Nat) : List Nat → Word → List Nat × Nat × Word
  | [], seed => ([], 0, seed)
  | e :: es, seed =>
    let act := decide (e < n) && mask e
    let seed := if act && mode == 4 then seedStep seed else seed
    let (v, fl) := if n ≤ e then (0, 0) else if act then convertElem src p t mode (seedRnd seed) (elemAt (tagWidth src) x e)
      else (elemAt (tagWidth t) old e, 0)
    let (vs, fs, sd) := convertLanes src p t mode x old mask n es seed
    (v :: vs, fl ||| fs, sd)

def execVcvt (d a r m t : Nat) := finish (.vcvt d a r m t) [rV a, rM m] (fun s =>
  let x := regV s a
  if !fullTags x.tag then tagTrap s 1 x
  else
    let (vs, fl, seed) := convertLanes x.tag x.planes t r (vnat x) (vnat (regV s d)) (maskBit s m) (min (tagCount x.tag) (tagCount t))
      (List.range (tagCount t)) (cx s).seed
    let s := setV s d (mkV (packElems (tagWidth t) vs) t (if t = 8 then 7 else 0))
    .ok (orFlags (modCx s (fun c => { c with seed := seed })) fl))

def execVpack (d a b : Nat) := finish (.vpack d a b) [rV a, rV b] (fun s =>
  let x := regV s a
  let y := regV s b
  if !fullTags x.tag then tagTrap s 1 x
  else if !sameFormat x y then tagTrap s 2 y
  else .ok (setV s d (mkV (vnat x % 2 ^ 512 + vnat y % 2 ^ 512 * 2 ^ 512) x.tag x.planes)))
def execVunpk (d a h : Nat) := finish (.vunpk d a h) [rV a] (fun s =>
  let x := regV s a
  .ok (setV s d (mkV (vnat x / 2 ^ (512 * h) % 2 ^ 512) x.tag x.planes)))
def execVsplat (d a t m : Nat) := finish (.vsplat d a t m) [rA a, rM m] (fun s =>
  lanes s d (tagWidth t) (tagCount t) (maskBit s m) t 0 (fun _ => ((regA s a).toNat % 2 ^ tagWidth t, 0)))
def execVext (d a b : Nat) := finish (.vext d a b) [rV a, rA b] (fun s =>
  let x := regV s a
  let w := tagWidth x.tag
  let i := (regA s b).toNat
  let v := elemAt w (vnat x) i
  .ok (setA s d (if tagCount x.tag ≤ i then 0 else if tagSigned x.tag then signExt v w else word v)))
def execVins (d a b : Nat) := finish (.vins d a b) [rV d, rA a, rA b] (fun s =>
  let z := regV s d
  let i := (regA s b).toNat
  if tagCount z.tag ≤ i then .ok s
  else lanes s d (tagWidth z.tag) (tagCount z.tag) (fun e => e == i) z.tag z.planes
    (fun _ => ((regA s a).toNat % 2 ^ tagWidth z.tag, 0)))
def execVperm (d a b m : Nat) := finish (.vperm d a b m) [rV a, rV b, rM m] (fun s =>
  let x := regV s a
  let y := regV s b
  let n := tagCount x.tag
  if !(y.tag == 1 || (y.tag == 10 && decide (n ≤ 32))) then tagTrap s 2 y
  else
    let w := tagWidth x.tag
    lanes s d w n (maskBit s m) x.tag x.planes (fun e =>
      let i := elemAt (tagWidth y.tag) (vnat y) e
      (if n ≤ i then 0 else elemAt w (vnat x) i, 0)))

/-! ## Reductions and scans (08 R219, R220) -/

def redAccepts (o t : Nat) : Bool :=
  if o ≤ 2 then arithTags t else (decide (1 ≤ t) && decide (t ≤ 4)) || t == 10

/-- The working format and result tag of a reduction. -/
def redTag (o t : Nat) : Nat := if o = 0 then (if t ≤ 2 then 3 else if isFloatTag t then 5 else t) else t

/-- An element converted exactly to the working format. -/
def redLeaf (t r v : Nat) : Nat × Nat :=
  if t = r then (v, 0)
  else if isFloatTag t then roundVal fp32 0 0 (unpack (fmtOf t) v)
  else (ofSigned 32 (elemInt t v), 0)

def execVred (d a m o : Nat) := finish (.vred d a m o) [rV a, rM m] (fun s =>
  let x := regV s a
  if !redAccepts o x.tag then tagTrap s 1 x
  else
    let r := redTag o x.tag
    let w := tagWidth x.tag
    let n := tagCount x.tag
    let l := (List.range n).map (fun e => if maskBit s m e then redLeaf x.tag r (elemAt w (vnat x) e) else (identityBits o r, 0))
    let (v, fl) := treeReduce o r (bitLen n - 1) (l.map Prod.fst)
    .ok (orFlags (setV s d (mkV v r 0)) (l.foldl (fun f p => f ||| p.2) fl)))

def scanLanes (o t w x : Nat) (mask : Nat → Bool) : List Nat → Nat → List Nat × Nat
  | [], _ => ([], 0)
  | e :: es, acc =>
    let (v, fl) := if mask e then opBits o t acc (elemAt w x e) else (acc, 0)
    let (vs, fs) := scanLanes o t w x mask es v
    (v :: vs, fl ||| fs)

def execVscan (d a m o : Nat) := finish (.vscan d a m o) [rV a, rM m] (fun s =>
  let x := regV s a
  if !(signTags x.tag || (x.tag == 10 && o != 0)) then tagTrap s 1 x
  else
    let w := tagWidth x.tag
    let (vs, fl) := scanLanes o x.tag w (vnat x) (maskBit s m) (List.range (tagCount x.tag)) (identityBits o x.tag)
    .ok (orFlags (setV s d (mkV (packElems w vs) x.tag 0)) fl))

/-! ## Bitmaps (08 R227-R231) -/

/-- Set bits of x below position p. -/
def rankBits (x p : Nat) : Nat := popBelow x p

def execVband (d a b m : Nat) := finish (.vband d a b m) [rV a, rV b, rM m] (fun s =>
  let x := regV s a
  let y := regV s b
  if x.tag ≠ 0 then tagTrap s 1 x
  else if y.tag ≠ 0 then tagTrap s 2 y
  else lanes s d 32 32 (maskBit s m) 0 0 (fun e => (elemAt 32 (vnat x) e &&& elemAt 32 (vnat y) e, 0)))
def execVpopp (d a m : Nat) := finish (.vpopp d a m) [rV a, rM m] (fun s =>
  let x := regV s a
  if x.tag ≠ 0 then tagTrap s 1 x
  else lanes s d 32 32 (maskBit s m) 10 0 (fun e => (rankBits (vnat x) (32 * e), 0)))

/-- The first 32 words of a list, the rest all ones. -/
def indexWords (l : List Nat) : Nat := packElems 32 ((List.range 32).map (fun k => l.getD k (2 ^ 32 - 1)))

def execVisect (d a b m : Nat) := finish (.visect d a b m) [rV a, rV b, rM m] (fun s =>
  let x := regV s a
  let y := regV s b
  if x.tag ≠ 0 then tagTrap s 1 x
  else if y.tag ≠ 0 then tagTrap s 2 y
  else
    let ps := (List.range 1024).filter (fun p => maskBit s m (p / 32) && (vnat x).testBit p && (vnat y).testBit p)
    .ok (setV s d (mkV (indexWords ((ps.take 32).map (fun p => rankBits (vnat x) p + rankBits (vnat y) p * 2 ^ 16))) 10 0)))

/-- Nonzero: not 0, and not ±0.0. -/
def nonzeroElem (t v : Nat) : Bool := if isFloatTag t then v % 2 ^ (tagWidth t - 1) != 0 else v != 0

def execVnzs (d a m : Nat) := finish (.vnzs d a m) [rV a, rM m] (fun s =>
  let x := regV s a
  if !fullTags x.tag then tagTrap s 1 x
  else
    let w := tagWidth x.tag
    let es := (List.range (tagCount x.tag)).filter (fun e => maskBit s m e && nonzeroElem x.tag (elemAt w (vnat x) e))
    .ok (setV s d (mkV (indexWords (es.take 32)) 10 0)))

/-! ## Masks (08 R232) -/

def execVmovmMaskToVector (d a : Nat) := finish (.vmovmMaskToVector d a) [rM a] (fun s => .ok (setV s d (mkV (regM s a).toNat 0 0)))
def execVmovmVectorToMask (d a : Nat) := finish (.vmovmVectorToMask d a) [rV a] (fun s =>
  .ok (setM s d (BitVec.ofNat 128 (vnat (regV s a)))))
def execMand (d a b : Nat) := finish (.mand d a b) [rM a, rM b] (fun s => .ok (setM s d (regM s a &&& regM s b)))
def execMor (d a b : Nat) := finish (.mor d a b) [rM a, rM b] (fun s => .ok (setM s d (regM s a ||| regM s b)))
def execMnot (d a : Nat) := finish (.mnot d a) [rM a] (fun s => .ok (setM s d (~~~(regM s a))))
def execMpop (d a : Nat) := finish (.mpop d a) [rM a] (fun s => .ok (setA s d (word (popBelow (regM s a).toNat 128))))

end Sys2Proof.Machine
end

