-- ==== Sys2Proof/Machine/Skidder.lean ====
section
/-! DEFINITION. Skidder elements at work: guards, operations, the stream port, loop generators, memory elements, waves
(12 R318-R334, R343, R345, R346; 11 R299, R300; 18 R420). One step fires one slot of one element; a stream keeps what the last cycle left until every element
that acts in this one has acted. -/

namespace Sys2Proof.Machine

open Sys2Proof

/-! ## Streams -/

def streamKey (stk slot : Nat) : Nat := stk * 64 + slot
def getStream (s : State) (pkg key : Nat) : Option Stream := kfind (getPkg s pkg).streams key
def setStream (s : State) (pkg key : Nat) (st : Stream) : State := modPkg s pkg (fun p => { p with streams := kset p.streams key st })
/-- A stream's agent: its Skidder stands on the die that its stack attaches to (01 R12). -/
def streamWho (stk : Nat) (st : Stream) : Who := { hwWho st.core st.job with die := some (stk / 2) }

/-- A stream that keeps some of its rings: one that loses any takes no slot of it any more, and frees none. -/
def Stream.keepRings (st : Stream) (f : RingSub → Bool) : Stream :=
  let l := st.rings.filter f
  if l.length = st.rings.length then st else { st with rings := l, taking := none, passing := [] }

/-- A stream without the rings that the isolation of a die cuts from its stack (19 R431). -/
def cutRings (s : State) (pkg key : Nat) (st : Stream) : Stream := st.keepRings (fun r => !isolatedAt s pkg (key / 64 / 2) r.core)

/-! ## Guards (12 R322, R323) -/

def headOf (e : Elem) (k : Nat) : Option Token := (kget e.ins [] k).head?

def queueRoom (st : Stream) (ce ci : Nat) : Bool :=
  match kfind st.elems ce with
  | some e => decide ((kget e.ins [] ci).length < 4)
  | none => false

/-- Every edge of every channel in a mask has a free place. -/
def outRoom (st : Stream) (el out : Nat) : Bool := st.edges.all (fun g => !(g.pe == el && out.testBit g.po) || queueRoom st g.ce g.ci)

def tagHolds (c : Nat) (l : Nat) : Bool := if c = 0 then l == 0 else if c < 8 then l == c else if c = 8 then true else decide (1 ≤ l) && decide (c - 8 ≤ l)

def guardHolds (st : Stream) (el : Nat) (e : Elem) (w : Nat) : Bool :=
  (e.preds &&& kGM w) == (kGV w &&& kGM w)
    && (setBits 4 (kNEED w)).all (fun k => match headOf e k with
      | some t => tagHolds (kTAGC w) t.level
      | none => false)
    && outRoom st el (kOUT w)

/-! ## Rings of a stream (11 R300) -/

def subRing (s : State) (r : RingSub) : Option Ring := readRing s (scratchKey r.core r.ofs)

/-- Every subscribed ring has a free slot, and there is one. -/
def ringsReady (s : State) (st : Stream) : Bool :=
  !st.rings.isEmpty && st.rings.all (fun r => match subRing s r with
    | some g => (ringGet s g).isSome
    | none => false)

/-- Reserves, writes and publishes a tile in every ring, in subscription order. -/
def deliverTile (s : State) (st : Stream) (tile : List Byte) : State :=
  let got := st.rings.foldl (fun (acc : State × List (Ring × Nat)) r =>
    match subRing acc.1 r with
    | none => acc
    | some g => match ringGet acc.1 g with
      | some (s, i) => (s, acc.2 ++ [(g, i)])
      | none => acc) (s, [])
  got.2.foldl (fun s x =>
    let k := x.1.key + x.1.slotOfs x.2
    ringPut (mend (memWrite s k tile) k tile.length) x.1 x.2) got.1

def padTile (st : Stream) : List Byte := st.part ++ List.replicate (st.tile - st.part.length) 0

/-- The address of the first failed unit of the header and the slot states of a stream's rings, which the Skidder reads (18 R409, R420). -/
def ringBad (s : State) (st : Stream) : Option Word :=
  st.rings.findSome? (fun sub => (subRing s sub).bind (fun r => (firstBad s r.key (r.slotOfs 0)).map (fun b => windowAddr (keyCore b) (keyOfs b))))

/-- The next filled slot of a write stream's ring. -/
def takeReady (s : State) (st : Stream) : Option (Ring × Nat × Nat) :=
  match st.rings.head? with
  | none => none
  | some sub => match subRing s sub with
    | none => none
    | some r =>
      let pos := counterRead s (r.posKey sub.consumer)
      if pos < ringFill s r then some (r, sub.consumer, slotOf r pos) else none

/-! ## Slots of a write stream that its bytes still pass through the graph (11 R300) -/

/-- How many of the slots whose bytes KDEQ has passed on have passed the graph: those whose place in the stream KENQ has written up to. -/
def passedCount (st : Stream) : Nat := (st.passing.takeWhile (fun x => decide (x.2 ≤ st.wrote))).length

/-- Frees the first n of those slots, in order; or the address of a failed dword of the ring, which RFREE reads (18 R409). -/
def freePassed (s : State) (st : Stream) (n : Nat) : Except Word (State × Stream) :=
  match n, st.rings.head? with
  | 0, _ => .ok (s, st)
  | _, none => .ok (s, st)
  | n, some sub => match subRing s sub, ringBad s st with
    | _, some a => .error a
    | none, _ => .ok (s, st)
    | some r, none => .ok ((st.passing.take n).foldl (fun s x => ringFree' s r x.1 sub.consumer) s, { st with passing := st.passing.drop n })

/-! ## Readiness of a slot -/

/-- KENQ on head t delivers a tile. -/
def enqDelivers (st : Stream) (w : Nat) (t : Token) : Bool :=
  !st.dir && (if t.level = 0 then decide (st.tile ≤ st.part.length + kBytes (kFMT w))
    else !st.part.isEmpty && (t.level == 7 || (kAux4 w != 0 && decide (kAux4 w ≤ t.level))))

/-- The waits of KDEQ and KENQ beyond the guard (12 R329). -/
def portReady (s : State) (st : Stream) (e : Elem) (w : Nat) : Bool :=
  if kOP w = 0x20 then !st.deqDone && (!st.dir || decide (st.len ≤ st.pos) || st.taking.isSome || (takeReady s st).isSome || (ringBad s st).isSome)
  else if kOP w = 0x21 then match headOf e (kSA w) with
    | some t => !enqDelivers st w t || ringsReady s st || (ringBad s st).isSome
    | none => false
  else true

def ordSlots (e : Elem) : List Nat := e.slots.filter (fun w => kOP w != 0 && kORD w)

/-- Whether the wave unit can run a wave (12 R333). -/
def waveReady (st : Stream) (el : Nat) (e : Elem) : Bool :=
  !(ordSlots e).isEmpty && (ordSlots e).all (fun w => (setBits 4 (kNEED w)).all (fun k => (headOf e k).isSome) && outRoom st el (kOUT w))

def slotReady (s : State) (st : Stream) (el : Nat) (e : Elem) (w : Nat) : Bool :=
  kOP w != 0 && !kORD w && guardHolds st el e w && portReady s st e w

/-- The slot that the priority encoder issues. -/
def issueSlot (s : State) (st : Stream) (el : Nat) (e : Elem) : Option Nat :=
  (List.range 8).find? (fun i => slotReady s st el e (e.slots.getD i 0))

/-! ## Skidder cycles (12 R322) -/

/-- Whether a running KLGEN can do its next step: room for its token, or a bound to take (12 R330). -/
def genCan (st : Stream) (el : Nat) (e : Elem) (g : GenState) : Bool :=
  let w := e.slots.getD g.slot 0
  match g.frames with
  | [] => true
  | (k, n, i) :: _ => if n ≤ i || k ≤ 1 then outRoom st el (kOUT w) else (headOf e (kSA w)).isSome

/-- Whether an element has a slot, or a running KLGEN, to issue in a cycle that begins with the elements of st. -/
def slotActs (s : State) (st : Stream) (el : Nat) (e : Elem) : Bool :=
  match e.gen with
  | some g => genCan st el e g
  | none => (issueSlot s st el e).isSome

/-- Whether an element acts in a cycle that begins with the elements of st. -/
def elemActs (s : State) (st : Stream) (el : Nat) (e : Elem) : Bool := waveReady st el e || slotActs s st el e

/-- The elements as the cycle found them. -/
def atStart (st : Stream) : Stream := { st with elems := st.snap }

/-- The number of the wave unit's turn of an element, beside the element's own; a wave that performs an access takes both (12 R333). -/
def waveTurn (el : Nat) : Nat := 64 + el

/-- Whether every element that acts in the cycle has acted. -/
def cycleOver (s : State) (st : Stream) : Bool :=
  st.snap.all (fun x => (st.acted.contains (waveTurn x.1) || !waveReady (atStart st) x.1 x.2)
    && (st.acted.contains x.1 || !slotActs s (atStart st) x.1 x.2))

/-- The cycle in force: a new one when the last one is over. -/
def nowCycle (s : State) (st : Stream) : Stream := if cycleOver s st then { st with snap := st.elems, acted := [] } else st

/-! ## How a stream ends (12 R329, R346) -/

/-- At the end of the cycle a stream that ends is disarmed, its queues are dropped, and its EBIND finishes. -/
def kClose (pkg key : Nat) (s : State) : State :=
  match getStream s pkg key with
  | none => s
  | some st => match st.ending with
    | none => s
    | some (code, detail, at_) =>
      if !st.complete && cycleOver s st then
        finishEng (setStream s pkg key { st with elems := [], part := [], snap := [], acted := [], ending := none, complete := true })
          st.core st.op code detail at_
      else s

/-- A stream ends with the cycle, in which the elements that act have their effect; the first status stays (12 R324, R346). -/
def endStream (s : State) (pkg key : Nat) (st : Stream) (code detail : Nat) (at_ : Word) : State :=
  kClose pkg key (setStream s pkg key { st with ending := some (st.ending.getD (code, detail, at_)) })

/-- A run-time error (12 R346). -/
def runError (s : State) (pkg key : Nat) (st : Stream) (el isl kind wave : Nat) : State :=
  endStream s pkg key st 3 8 (word (el + isl * 2 ^ 6 + kind * 2 ^ 12 + wave % 2 ^ 48 * 2 ^ 16))

/-- A graph in which no element can act holds back nothing more of the slots that KDEQ has read: they are freed. It may give fewer bytes than it takes,
and no rule says when their bytes have passed it (DESIGN CHOICE, log 86). -/
def passIdle (pkg key : Nat) (s : State) : State :=
  match getStream s pkg key with
  | none => s
  | some st =>
    if st.passing.isEmpty || st.complete || st.ending.isSome || !cycleOver s st || st.elems.any (fun x => elemActs s st x.1 x.2) then s
    else match freePassed s st st.passing.length with
      | .ok (s, st) => setStream s pkg key st
      | .error a => endStream s pkg key st 2 0 a

/-- The step of an element, which may be the last one of its cycle. -/
def kEvent (pkg key : Nat) (s : State) : Host.Outcome State Fault Refusal := event (kClose pkg key (passIdle pkg key s))

/-! ## Turns -/

/-- An element's turn, its own or its wave unit's: the stream runs, neither a current limit (16 R372) nor a power state (R376) holds it, and the turn has
not been taken in the cycle. A stream that ends, or whose job is stopped, begins no new cycle (12 R346; 17 R395). The stream with the turn marked, the
element, and the element as the cycle found it. -/
def kBegin (s : State) (pkg key el turn : Nat) : Option (Stream × Elem × Elem) :=
  match getStream s pkg key with
  | none => none
  | some st =>
    let p := getPkg s pkg
    if !st.started || st.complete || p.limit || p.power != .run || (cycleOver s st && (st.ending.isSome || quietJob s pkg st.job)) then none
    else
      let st := nowCycle s st
      match kfind st.elems el, kfind st.snap el with
      | some e, some e0 => if st.acted.contains turn then none else some ({ st with acted := keyAdd st.acted turn }, e, e0)
      | _, _ => none

/-- The element, the element as the cycle found it, and the word of a step of an operation, if it is that slot's turn: no KLGEN runs, the wave unit has had
its turn without an access, and the encoder issues this slot. -/
def kTurn (s : State) (pkg key el isl op : Nat) : Option (Stream × Elem × Elem × Nat) :=
  match kBegin s pkg key el el with
  | none => none
  | some (st, e, e0) =>
    let w := e.slots.getD isl 0
    if kOP w != op || e0.gen.isSome || (waveReady (atStart st) el e0 && !st.acted.contains (waveTurn el)) then none
    else if issueSlot s (atStart st) el e0 = some isl then some (st, e, e0, w) else none

/-! ## The effect of a slot (12 R324) -/

/-- A token as an edge of a format carries it: bits above the element are zero (12 R319). -/
def fitToken (fmt : Nat) (t : Token) : Token := { t with data := BitVec.ofNat 32 (t.data.toNat % 2 ^ kWidth fmt) }

def enqueueOn (st : Stream) (el out : Nat) (t : Token) : Stream :=
  st.edges.foldl (fun st g =>
    if g.pe = el && out.testBit g.po then
      match kfind st.elems g.ce with
      | some c => { st with elems := kset st.elems g.ce { c with ins := kset c.ins g.ci (kget c.ins [] g.ci ++ [fitToken g.fmt t]) } }
      | none => st
    else st) st

def dequeue (e : Elem) (mask : Nat) : Elem :=
  { e with ins := (setBits 4 mask).foldl (fun m k => kset m k ((kget m [] k).drop 1)) e.ins }

def setPred (p i : Nat) (b : Bool) : Nat := if b then p ||| 2 ^ i else p - (if p.testBit i then 2 ^ i else 0)

/-- PU on a result. -/
def predUpdate (w preds : Nat) (r : BitVec 32) : Nat :=
  match kPU w with
  | 0 => preds
  | 1 => setPred preds (kPI w) (r != 0)
  | 2 => setPred preds (kPI w) true
  | _ => setPred preds (kPI w) false

/-- The effect of a slot with result r; `out` is none when nothing is enqueued, `l` the value for L[LD]. -/
def kEffect (st : Stream) (el : Nat) (e : Elem) (w : Nat) (r : BitVec 32) (out : Option Token) (l : Option (BitVec 32)) : Stream :=
  let e := dequeue e (kDEQ w)
  let e := { e with preds := predUpdate w e.preds r, l := match l with
    | some v => e.l.set (kLD w) v
    | none => e.l }
  let st := { st with elems := kset st.elems el e }
  match out with
  | some t => enqueueOn st el (kOUT w) t
  | none => st

/-- A source: the head of a channel, or a local register. -/
def kSource (e : Elem) (x : Nat) : Token :=
  if x < 4 then (headOf e x).getD { data := 0, level := 0 } else { data := e.l.getD (x - 4) 0, level := 0 }

def datum (v : Nat) : Token := { data := BitVec.ofNat 32 v, level := 0 }
def marker (n : Nat) : Token := { data := 0, level := n }

/-- An operation whose result is a function of its sources: word, sources, the old L[LD], the predicates. -/
def kPure (op : Nat) (f : Nat → Token → Token → Nat → Nat → Token) (pkg stk slot el isl : Nat) (s : State) : Host.Outcome State Fault Refusal :=
  let key := streamKey stk slot
  kEvent pkg key (match kTurn s pkg key el isl op with
    | none => s
    | some (st, e, e0, w) =>
      let r := f w (kSource e0 (kSA w)) (kSource e0 (kSB w)) (e0.l.getD (kLD w) 0).toNat e0.preds
      setStream s pkg key (kEffect st el e w r.data (some r) (if kWL w then some r.data else none)))

/-- An operation on numbers in FMT. -/
def kNum (op : Nat) (f : Nat → Nat → Nat → Nat) := kPure op (fun w a b _ _ =>
  let m := 2 ^ kWidth (kFMT w)
  datum (f (kFMT w) (a.data.toNat % m) (b.data.toNat % m)))

def execKadd := kNum 0x01 (fun t x y => (addElem t x y).1)
def execKsub := kNum 0x02 (fun t x y => (subElem t x y).1)
def execKmul := kNum 0x03 (fun t x y => (mulElem t x y).1)
def execKmac := kPure 0x04 (fun w a b l _ =>
  let m := 2 ^ kWidth (kFMT w)
  datum (fmaElem (kFMT w) (a.data.toNat % m) (b.data.toNat % m) (l % m)).1)
def execKand := kPure 0x05 (fun _ a b _ _ => datum (a.data.toNat &&& b.data.toNat))
def execKor := kPure 0x06 (fun _ a b _ _ => datum (a.data.toNat ||| b.data.toNat))
def execKxor := kPure 0x07 (fun _ a b _ _ => datum (a.data.toNat ^^^ b.data.toNat))
def execKshl := kNum 0x08 (fun t x y => (shlElem t x y).1)
def execKshr := kNum 0x09 (fun t x y => (shrElem t x y).1)
def execKcmp := kPure 0x0A (fun w a b _ _ =>
  let m := 2 ^ kWidth (kFMT w)
  datum (cmpElem (kAux4 w) (kFMT w) (a.data.toNat % m) (b.data.toNat % m)).1.toNat)
def execKsel := kPure 0x0B (fun w a b _ p => { data := if p.testBit (kAux4 w) then a.data else b.data, level := 0 })
def execKmin := kNum 0x0C (fun t x y => (minElem t x y).1)
def execKmax := kNum 0x0D (fun t x y => (maxElem t x y).1)
def execKpopc := kPure 0x0F (fun _ a _ _ _ => datum (popBelow a.data.toNat 32))
def execKpass := kPure 0x10 (fun _ a _ _ _ => a)
def execKend := kPure 0x12 (fun w _ _ _ _ => marker (kAux7 w))

/-- KCVT: an element has no seed, so the number that stochastic rounding takes is free (log 15). -/
def execKcvt (pkg stk slot el isl : Nat) (s : State) : Host.Outcome State Fault Refusal :=
  let key := streamKey stk slot
  kEvent pkg key (match kTurn s pkg key el isl 0x0E with
    | none => s
    | some (st, e, e0, w) =>
        let r := datum (convertElem (kFMT w) 0 (cvtTag (kAux7 w)) (kAux4 w) (seedRnd (freeNow s))
          ((kSource e0 (kSA w)).data.toNat % 2 ^ kWidth (kFMT w))).1
        setStream (freeStep s) pkg key (kEffect st el e w r.data (some r) (if kWL w then some r.data else none)))

/-- KSETP and KCLRP (12 R327). -/
def kPreds (op : Nat) (f : Nat → Nat → Nat) (pkg stk slot el isl : Nat) (s : State) : Host.Outcome State Fault Refusal :=
  let key := streamKey stk slot
  kEvent pkg key (match kTurn s pkg key el isl op with
    | none => s
    | some (st, e, _, w) => setStream s pkg key (kEffect st el { e with preds := f e.preds (kf w 0 8) } w 0 none none))
def execKsetp := kPreds 0x13 (fun p m => p ||| m)
def execKclrp := kPreds 0x14 (fun p m => (List.range 8).foldl (fun p i => if m.testBit i then setPred p i false else p) p)

/-- The result of an operation for which the spec states none: a free value (log 15). -/
def freeResult (s : State) : BitVec 32 := (freeNow s).setWidth 32

/-- KRED (12 R328). -/
def execKred (pkg stk slot el isl : Nat) (s : State) : Host.Outcome State Fault Refusal :=
  let key := streamKey stk slot
  kEvent pkg key (match kTurn s pkg key el isl 0x11 with
    | none => s
    | some (st, e, e0, w) =>
      let f := kFMT w
      let m := 2 ^ kWidth f
      let t := kSource e0 (kSA w)
      let acc := (e0.l.getD (kLD w) 0).toNat % m
      let r := kAux7 w
      let quiet (l : Option (BitVec 32)) : State := setStream (freeStep s) pkg key (kEffect st el e w (freeResult s) none l)
      if t.level = 0 then quiet (some (BitVec.ofNat 32 (opBits (kAux4 w) f acc (t.data.toNat % m)).1))
      else if t.level = 7 then setStream s pkg key (kEffect st el e w t.data (some t) none)
      else if t.level < r then quiet none
      else if t.level = r then
        setStream s pkg key (kEffect st el e w (BitVec.ofNat 32 acc) (some (datum acc)) (some (BitVec.ofNat 32 (identityBits (kAux4 w) f))))
      else setStream s pkg key (kEffect st el e w 0 (some (marker (t.level - r))) none))

/-! ## The stream port (12 R329, R345) -/

/-- The physical address behind a stream address. -/
def skidPa (s : State) (stk : Nat) (st : Stream) (va : Word) : Option Nat := peek s (streamWho stk st) va.toNat

/-- Counts the lines that a stack's port moves for an access of n bytes of a bound stream; `goesOn` says that the byte before was the stream's last
one, whose line is counted already. -/
def skidLines (s : State) (pkg stk : Nat) (st : Stream) (va : Word) (n : Nat) (goesOn : Bool) : State :=
  let o := va.toNat % 64
  (List.range ((o + n + 63) / 64)).foldl (fun s i =>
    if i = 0 && goesOn && o != 0 then s
    else match skidPa s stk st (va + word (if i = 0 then 0 else 64 * i - o)) with
      | some pa => hotCount s pkg stk pa 1 0
      | none => s) s

/-- What a stream's access gives: the bytes, or the state after a wait or the end of the stream. An element that waits has had its turn in the cycle. The
line of the byte before, the stream's last one where `goesOn` says so, has been delivered already (03 R90). -/
def skidRead (s : State) (pkg key : Nat) (st : Stream) (va : Word) (n : Nat) (goesOn : Bool) : State × Option (List Byte) :=
  match engineReadOn s (streamWho (key / 64) st) st.op (fun k => goesOn && k % 64 != 0) [(va, n)] with
  | (s, .done l) => (s, some (l.headD []))
  | (s, .wait) => (setStream s pkg key st, none)
  | (s, .fail c d a) => (endStream s pkg key st c d a, none)

def skidWrite (s : State) (pkg key : Nat) (st : Stream) (va : Word) (bs : List Byte) : State × Bool :=
  match engineWrite s (streamWho (key / 64) st) st.op [(va, bs)] with
  | (s, .done _) => (s, true)
  | (s, .wait) => (setStream s pkg key st, false)
  | (s, .fail c d a) => (endStream (writeFailed s (streamWho (key / 64) st) [(va, bs)] (.fail c d a)).1 pkg key st c d a, false)

/-- The next n bytes of the slot that a write stream takes, or the address of uncorrectable data there (18 R420); a slot whose TILE bytes are read is
freed once they have passed the graph. Bytes past the slot's tile or past LEN are read like the others (DESIGN CHOICE, log 86). -/
def takeBytes (s : State) (st : Stream) (n : Nat) : Option (State × Stream × Except Word (List Byte)) :=
  match (if st.taking.isNone then ringBad s st else none) with
  | some a => some (s, st, .error a)
  | none =>
  let started : Option (State × Ring × Nat × Nat) := match st.taking with
    | some (i, u) => (match st.rings.head? with
      | some sub => (subRing s sub).map (fun r => (s, r, i, u))
      | none => none)
    | none => (takeReady s st).map (fun (x : Ring × Nat × Nat) => (setDword s (x.1.posKey x.2.1) (counterRead s (x.1.posKey x.2.1) + 1), x.1, x.2.2, 0))
  match started with
  | none => none
  | some (s, r, i, u) =>
    let k := r.key + r.slotOfs i + u
    match firstBad s k n with
    | some b => some (s, st, .error (windowAddr (keyCore b) (keyOfs b)))
    | none =>
      let st := if st.tile ≤ u + n then { st with taking := none, passing := st.passing ++ [(i, st.pos + n)] } else { st with taking := some (i, u + n) }
      some (s, st, .ok (cellsRead s.mem k n))

def execKdeq (pkg stk slot el isl : Nat) (s : State) : Host.Outcome State Fault Refusal :=
  let key := streamKey stk slot
  kEvent pkg key (match kTurn s pkg key el isl 0x20 with
    | none => s
    | some (st, e, _, w) =>
      let n := kBytes (kFMT w)
      let put (s : State) (st : Stream) (t : Token) : State :=
        setStream s pkg key (kEffect st el e w t.data (some t) (if kWL w then some t.data else none))
      if st.len ≤ st.pos then put s { st with deqDone := true } (marker 7)
      else if st.dir then
        match takeBytes s st n with
        | none => s
        | some (s, st, .error a) => endStream s pkg key st 2 0 a
        | some (s, st, .ok bs) => put s { st with pos := st.pos + n } (datum (leNat bs))
      else match skidRead s pkg key st (st.base + word st.pos) n (st.pos != 0) with
        | (s, none) => s
        | (s, some bs) =>
          let s := skidLines s pkg stk st (st.base + word st.pos) n (st.pos != 0)
          put s { st with pos := st.pos + n } (datum (leNat bs)))

/-- KENQ; its own result is not stated (log 15). Of bytes that cross TILE a tile takes TILE bytes, and the rest begins the next one (DESIGN CHOICE, log 86). -/
def execKenq (pkg stk slot el isl : Nat) (s : State) : Host.Outcome State Fault Refusal :=
  let key := streamKey stk slot
  kEvent pkg key (match kTurn s pkg key el isl 0x21 with
    | none => s
    | some (st, e, e0, w) =>
      let t := kSource e0 (kSA w)
      let n := kBytes (kFMT w)
      let done (s : State) (st : Stream) : State := setStream (freeStep s) pkg key (kEffect st el e w (freeResult s) none none)
      let finish (s : State) (st : Stream) : State := endStream (done s st) pkg key (kEffect st el e w 0 none none) 0 0 0
      let bytes := leBytes n t.data.toNat
      if st.dir then
        if t.level = 7 then match freePassed s st st.passing.length with
          | .ok (s, st) => finish s st
          | .error a => endStream s pkg key st 2 0 a
        else if t.level ≠ 0 then done s st
        else if st.len < st.wrote + n then runError s pkg key st el isl 3 0
        else match skidWrite s pkg key st (st.base + word st.wrote) bytes with
          | (s, false) => s
          | (s, true) =>
            let s := skidLines s pkg stk st (st.base + word st.wrote) n (st.wrote != 0)
            let st := { st with wrote := st.wrote + n }
            match freePassed s st (passedCount st) with
            | .ok (s, st) => done s st
            | .error a => endStream s pkg key st 2 0 a
      else
        let st := if t.level = 0 then { st with part := st.part ++ bytes } else st
        let deliver := if t.level = 0 then decide (st.tile ≤ st.part.length)
          else !st.part.isEmpty && (t.level == 7 || (kAux4 w != 0 && decide (kAux4 w ≤ t.level)))
        match (if deliver then ringBad s st else none) with
        | some a => endStream s pkg key st 2 0 a
        | none =>
        let (s, st) := if deliver then (deliverTile s st ((padTile st).take st.tile), { st with part := st.part.drop st.tile }) else (s, st)
        if t.level = 7 then finish s st else done s st)

/-! ## Loop generators (12 R330) -/

/-- The index token of a running KLGEN. -/
def genIndex (e : Elem) (g : GenState) (i : Nat) : Token :=
  if g.mode = 0 then datum ((e.l.getD 0 0).toNat + (e.l.getD 1 0).toNat * g.c) else datum i

/-- One token or one bound of a running KLGEN (log 45). -/
def genStep (s : State) (pkg key : Nat) (st : Stream) (el : Nat) (e : Elem) (g : GenState) : State :=
  let w := e.slots.getD g.slot 0
  let room := outRoom st el (kOUT w)
  let put (e : Elem) (t : Option Token) : State :=
    let st := { st with elems := kset st.elems el e }
    setStream s pkg key (match t with
      | some t => enqueueOn st el (kOUT w) t
      | none => st)
  let next (frames : List (Nat × Nat × Nat)) (c : Nat) : Elem :=
    { e with gen := if frames.isEmpty then none else some { g with frames := frames, c := c } }
  match g.frames with
  | [] => put { e with gen := none } none
  | (k, n, i) :: rest =>
    if n ≤ i then (if room then put (next rest g.c) (some (marker k)) else s)
    else if k ≤ 1 then (if room then put (next ((k, n, i + 1) :: rest) (g.c + 1)) (some (genIndex e g i)) else s)
    else match headOf e (kSA w) with
      | none => s
      | some t =>
        if t.level = 7 then runError s pkg key st el g.slot 2 0
        else
          let e' := dequeue e (2 ^ kSA w)
          if t.level ≠ 0 then put e' none
          else put { e' with gen := some { g with frames := (k - 1, t.data.toNat, 0) :: (k, n, i + 1) :: rest } } none

/-- PU and WL of a slot with result r (12 R324). -/
def ordEffect (e : Elem) (w : Nat) (r : BitVec 32) : Elem :=
  { e with preds := predUpdate w e.preds r, l := if kWL w then e.l.set (kLD w) r else e.l }

/-- Starts a KLGEN on its first bound, with the whole effect of a slot (12 R324). Its own result is not stated (log 15). -/
def genStart (s : State) (pkg key : Nat) (st : Stream) (el isl : Nat) (e e0 : Elem) (w : Nat) : State :=
  let t := kSource e0 (kSA w)
  let e := ordEffect (dequeue e (kDEQ w ||| 2 ^ kSA w)) w (freeResult s)
  let s := freeStep s
  if t.level = 7 then setStream s pkg key (enqueueOn { st with elems := kset st.elems el e } el (kOUT w) t)
  else if t.level ≠ 0 then setStream s pkg key { st with elems := kset st.elems el e }
  else
    let g : GenState := { slot := isl, frames := [(kf w 0 3, t.data.toNat, 0)], mode := kf w 3 1, c := 0, depth := kf w 0 3 }
    setStream s pkg key { st with elems := kset st.elems el { e with gen := some g } }

def execKlgen (pkg stk slot el isl : Nat) (s : State) : Host.Outcome State Fault Refusal :=
  let key := streamKey stk slot
  kEvent pkg key (match kBegin s pkg key el el with
    | none => s
    | some (st, e, e0) => match e.gen, kTurn s pkg key el isl 0x28 with
      | some g, _ => if g.slot = isl && genCan (atStart st) el e0 g then genStep s pkg key st el e g else s
      | none, some (st, e, e0, w) => genStart s pkg key st el isl e e0 w
      | none, none => s)

/-! ## Memory elements (12 R331, R332) -/

def window (st : Stream) (e : Elem) : Word := st.base + e.wofs

/-- The address of a datum address token. -/
def memAddr (st : Stream) (e : Elem) (w : Nat) (x : BitVec 32) : Word := window st e + word (x.toNat * 2 ^ kf w 4 2)

/-- One read of a memory element: the token it gives, or the state after a wait or a failure. -/
def memRead (s : State) (pkg key stk : Nat) (st : Stream) (e : Elem) (w : Nat) (t : Token) : State × Option Token :=
  if t.level ≠ 0 then (s, some t)
  else if t.data = BitVec.allOnes 32 then (s, some (datum 0))
  else match skidRead s pkg key st (memAddr st e w t.data) (kBytes (kFMT w)) false with
    | (s, none) => (s, none)
    | (s, some bs) => (skidLines s pkg stk st (memAddr st e w t.data) (kBytes (kFMT w)) false, some (datum (leNat bs)))

/-- One write of a memory element. -/
def memWriteElem (s : State) (pkg key stk : Nat) (st : Stream) (e : Elem) (w : Nat) (t d : Token) : State × Bool :=
  if t.level ≠ 0 || t.data = BitVec.allOnes 32 then (s, true)
  else match skidWrite s pkg key st (memAddr st e w t.data) (leBytes (kBytes (kFMT w)) d.data.toNat) with
    | (s, false) => (s, false)
    | (s, true) => (skidLines s pkg stk st (memAddr st e w t.data) (kBytes (kFMT w)) false, true)

def execKmrd (pkg stk slot el isl : Nat) (s : State) : Host.Outcome State Fault Refusal :=
  let key := streamKey stk slot
  kEvent pkg key (match kTurn s pkg key el isl 0x30 with
    | none => s
    | some (st, e, e0, w) =>
      match memRead s pkg key stk st e w (kSource e0 (kSA w)) with
      | (s, none) => s
      | (s, some t) => setStream s pkg key (kEffect st el e w t.data (some t) (if kWL w then some t.data else none)))

def execKmwr (pkg stk slot el isl : Nat) (s : State) : Host.Outcome State Fault Refusal :=
  let key := streamKey stk slot
  kEvent pkg key (match kTurn s pkg key el isl 0x31 with
    | none => s
    | some (st, e, e0, w) =>
      let t := kSource e0 (kSA w)
      let d := kSource e0 (kSB w)
      if t.level ≠ d.level then runError s pkg key st el isl 1 e.wave
      else match memWriteElem s pkg key stk st e w t d with
        | (s, false) => s
        | (s, true) => setStream (freeStep s) pkg key (kEffect st el e w (freeResult s) none none))

/-! ## Near-bank element forms (12 R343) -/

/-- One block of a near-bank operation: 0 add, 1 scale, 2 sum. Its result token is not stated (log 15). The offsets
need no alignment, and the scale of BF16 is the low half of its register (DESIGN CHOICE, log 98). -/
def kNear (op nb pkg stk slot el isl : Nat) (s : State) : Host.Outcome State Fault Refusal :=
  let key := streamKey stk slot
  kEvent pkg key (match kTurn s pkg key el isl op with
    | none => s
    | some (st, e, e0, w) =>
      let f := kf w 0 2
      let a := kSource e0 (kSA w)
      let b := kSource e0 (kSB w)
      let dst := window st e + word a.data.toNat
      let src := if nb = 1 then dst else window st e + word b.data.toNat
      match nbCommand s (streamWho (key / 64) st) nb f (b.data.toNat % 2 ^ (8 * nbSize f)) 256 [(dst, src)] with
      | (s, _, 0, _, _) =>
        let r := freeResult s
        setStream (freeStep s) pkg key (kEffect st el e w r (some { data := r, level := 0 }) (if kWL w then some r else none))
      | (s, _, c, d, at_) => endStream s pkg key st c d at_)

def execKnbadd := kNear 0x38 0
def execKnbscl := kNear 0x39 1
def execKnbsum := kNear 0x3A 2

/-! ## Waves (12 R333) -/

def insertOrd (w : Nat) : List Nat → List Nat
  | [] => [w]
  | v :: l => if kAux7 w < kAux7 v then w :: v :: l else v :: insertOrd w l
def sortOrd (l : List Nat) : List Nat := l.foldl (fun acc w => insertOrd w acc) []

/-- Checks the accesses of a wave without performing one: all can proceed, or one waits or fails (11 R295). -/
def waveCheck (s : State) (key : Nat) (st : Stream) (e : Elem) : List Nat → State × EngRes
  | [] => (s, .done [])
  | w :: ws =>
    let t := kSource e (kSA w)
    if t.data = BitVec.allOnes 32 then waveCheck s key st e ws
    else match engineCheck s (streamWho (key / 64) st) st.op (if kOP w = 0x30 then .read else .write) [(memAddr st e w t.data, kBytes (kFMT w))] with
      | (s, .ok _) => waveCheck s key st e ws
      | (s, .error .wait) => (s, .wait)
      | (_, .error _) => (s, .done [])

/-- Performs the accesses in ascending order: the results of the slots, or none when an access ended the stream. A KMWR's result is not stated (log 15). -/
def waveRun (s : State) (pkg key stk : Nat) (st : Stream) (el : Nat) (e : Elem) : List Nat → List (Nat × Token) → State × Option (List (Nat × Token))
  | [], out => (s, some out)
  | w :: ws, out =>
    let t := kSource e (kSA w)
    if kOP w = 0x30 then
      match memRead s pkg key stk st e w t with
      | (s, none) => (s, none)
      | (s, some r) => waveRun s pkg key stk st el e ws (out ++ [(w, r)])
    else match memWriteElem s pkg key stk st e w t (kSource e (kSB w)) with
      | (s, false) => (s, none)
      | (s, true) => waveRun (freeStep s) pkg key stk st el e ws (out ++ [(w, { data := freeResult s, level := 0 })])

/-- What the slots of a wave of end markers of one level give: a KMRD the marker; a KMWR's result is not stated (log 15). -/
def waveMarkers (l : Nat) (ws : List Nat) (s : State) : State × List (Nat × Token) :=
  ws.foldl (fun acc w =>
    if kOP w = 0x30 then (acc.1, acc.2 ++ [(w, marker l)])
    else (freeStep acc.1, acc.2 ++ [(w, { data := freeResult acc.1, level := l })])) (s, [])

/-- Whether a wave of data accesses memory. -/
def waveAccesses (e : Elem) (ws : List Nat) : Bool := ws.any (fun w => (kSource e (kSA w)).data != BitVec.allOnes 32)

/-- WAVE: one wave of an element's ordered slots. Only a wave that performs an access keeps the element's other slots from issuing in its cycle. When the
wave performs none, an unordered slot that shares a channel with it acts beside it: each dequeues and each enqueues (DESIGN CHOICE, log 97). -/
def execWave (pkg stk slot el : Nat) (s : State) : Host.Outcome State Fault Refusal :=
  let key := streamKey stk slot
  kEvent pkg key (match kBegin s pkg key el (waveTurn el) with
    | none => s
    | some (st, e, e0) =>
      if !waveReady (atStart st) el e0 then s
      else
        let ws := sortOrd (ordSlots e)
        let levels := ws.flatMap (fun w => (setBits 4 (kNEED w)).map (fun k => ((headOf e k).getD (marker 0)).level))
        let l := levels.headD 0
        let chans := ws.foldl (fun m w => m ||| kNEED w) 0
        let done (s : State) (st : Stream) (out : List (Nat × Token)) : State :=
          let e := out.foldl (fun e o => ordEffect e o.1 o.2.data) { dequeue e chans with wave := e.wave + 1 }
          let st := { st with elems := kset st.elems el e }
          setStream s pkg key (out.foldl (fun st o => enqueueOn st el (kOUT o.1) o.2) st)
        if levels.any (fun x => x != l) then runError s pkg key st el 0 1 e.wave
        else if l ≠ 0 then
          let (s, out) := waveMarkers l ws s
          done s st out
        else match waveCheck s key st e ws with
          | (s, .wait) => setStream s pkg key st
          | (s, _) =>
            let st := if waveAccesses e ws then { st with acted := keyAdd st.acted el } else st
            match waveRun s pkg key stk st el e ws [] with
            | (s, none) => s
            | (s, some out) => done s st out)

end Sys2Proof.Machine
end

