-- ==== Sys2Proof/Machine/Engines.lean ====
section
/-! DEFINITION. Issue of engine instructions: the copy, gather and scatter engines, Skidder streams, near-bank commands, queries, plans,
migrations (11 R291-R293, R296-R305, R309). -/

namespace Sys2Proof.Machine

open Sys2Proof

/-! ## Issue (11 R291-R293) -/

/-- The operations of an engine that wait at a core. -/
def waitingOps (s : State) (core unit : Nat) : Nat := ((getCore s core).ops.filter (fun o => o.unit == unit && o.phase == .waiting)).length

/-- Continues with the number of a new operation when the waiting room has a place. An instruction that waited for one copies and checks its sets as they are
when it gets it (DESIGN CHOICE, log 89). -/
def withPlace (s : State) (unit : Nat) (k : Nat → Res) : Res :=
  if 16 ≤ waitingOps s (cxCore s) unit then .wait s (.engineRoom (cxCore s) unit) else k s.nextOp

def addOp (s : State) (unit : Nat) (i : Instr) (a b : Word) (sets : List Word) (opt : Nat) : State :=
  { modCore s (cxCore s) (fun u => { u with ops := u.ops ++
      [{ id := s.nextOp, unit := unit, word := encode i, job := (cx s).job, a := a, b := b, sets := sets, opt := opt, phase := .waiting, code := 0,
         detail := 0, where_ := 0 }] }) with nextOp := s.nextOp + 1 }

/-- The header checks that every operation shares: counters, the status address, the barrier (11 R291). -/
def headerOk (s : State) (l : List Word) (k : Res) : Res :=
  if (l.getD 4 0).toNat % 16 ≠ 0 then .trap s cEngine 0 0
  else optCounter s (l.getD 1 0) (fun _ => optCounter s (l.getD 3 0) (fun _ =>
    if l.getD 5 0 = 0 then k else barrierAt s (l.getD 5 0) (fun _ => k)))

def allZero (l : List Word) : Bool := l.all (fun v => v == 0)

/-- Issues an operation of k sets from set n on: the checks `ok` of the operation's own registers, the header, the place. -/
def issueEngine (i : Instr) (unit n k a b opt : Nat) (ok : State → List Word → Bool) : State → Host.Outcome State Fault Refusal :=
  finish i [rA a, rA b] (fun s => withSets s n k (fun l =>
    if !ok s l then .trap s cEngine 0 0
    else headerOk s l (withPlace s unit (fun _ => .ok (addOp s unit i (regA s a) (regA s b) l opt)))))

/-! ## Copy, gather, scatter (11 R296, R297) -/

/-- The count of dimension d of ECOPY. -/
def copyCount (l : List Word) (d : Nat) : Nat := fld (l.getD (28 + d / 4) 0) (16 * (d % 4)) 16

def copyOk (l : List Word) : Bool :=
  let x := l.getD 0 0
  let nd := fld x 13 4
  decide (1 ≤ fld x 0 13) && decide (fld x 0 13 ≤ 4096) && decide (1 ≤ nd) && decide (nd ≤ 10) && fld x 17 47 == 0
    && l.getD 6 0 == 0 && l.getD 7 0 == 0 && fld (l.getD 30 0) 32 32 == 0 && l.getD 31 0 == 0
    && (List.range 10).all (fun d => decide (d < nd) || (l.getD (8 + 2 * d) 0 == 0 && l.getD (9 + 2 * d) 0 == 0 && copyCount l d == 0))

def execEcopy (a b n : Nat) := issueEngine (.ecopy a b n) 0 n 4 a b 0 (fun _ l => copyOk l)

def gatherOk (o : Nat) (scatter : Bool) (l : List Word) : Bool :=
  let x := l.getD 0 0
  decide (1 ≤ fld x 0 13) && decide (fld x 0 13 ≤ 4096) && fld x 13 3 == 0 && fld x 30 34 == 0 && l.getD 6 0 == 0 && l.getD 7 0 == 0
    && (l.getD 8 0).toNat % (if o.testBit 0 then 8 else 4) == 0 && allZero ((l.drop 10).take 6) && !(scatter && o.testBit 2)

def execEgath (a b n o : Nat) := issueEngine (.egath a b n o) 1 n 2 a b o (fun _ l => gatherOk o false l)
def execEscat (a b n o : Nat) := issueEngine (.escat a b n o) 1 n 2 a b o (fun _ l => gatherOk o true l)

/-! ## Streams (11 R298, R299) -/

def bindOk (a b : Word) (l : List Word) : Bool :=
  let x := l.getD 0 0
  let tile := (l.getD 7 0).toNat
  let len := (l.getD 6 0).toNat
  fld x 11 53 == 0 && l.getD 5 0 == 0 && decide (64 ≤ tile) && decide (tile ≤ 4096) && tile % 64 == 0 && len % tile == 0 && decide (1 ≤ len / tile)
    && decide (len / tile ≤ 2 ^ 40) && a.toNat % 64 == 0 && !(x.getLsbD 10 && a == 0) && addrClass b == .translated

def execEbind (a b n : Nat) := finish (.ebind a b n) [rA a, rA b] (fun s => withSets s n 1 (fun l =>
  let x := l.getD 0 0
  let key := fld x 0 9 / 8 + fld x 0 3 * 64
  let pkg := cxPkg s
  if !bindOk (regA s a) (regA s b) l then .trap s cEngine 0 0
  else headerOk s l (
    if (getStream s pkg key).isSome then .trap s cStream 0 0
    else withPlace s 2 (fun id =>
      let st : Stream :=
        { job := (cx s).job, core := cxCore s, op := id, dir := x.getLsbD 9, base := regA s b, len := (l.getD 6 0).toNat, tile := (l.getD 7 0).toNat,
          started := false, elems := [], edges := [], passThrough := true, sport := 0, rings := [], pos := 0, part := [], wrote := 0, taking := none,
          deqDone := false, complete := false }
      .ok (setStream (addOp s 2 (.ebind a b n) (regA s a) (regA s b) l 0) pkg key st)))))

/-- Adds bit c to a ring's CMASK (11 R300). -/
def addConsumer (s : State) (r : Ring) (c : Nat) : State := memWrite s (r.key + 2) (leBytes 1 (r.cmask ||| 2 ^ c))

def subAt (st : Stream) (key : Nat) : Bool := st.rings.any (fun x => scratchKey x.core x.ofs == key)

/-- ESUB. A ring that is already subscribed is subscribed once more, and UNS leaves bit C of CMASK as it is (DESIGN CHOICE, log 85). A ring that an
isolated die cuts from the stream's stack is unsubscribed at once (18 R420, 19 R431). -/
def execEsub (a b : Nat) := finish (.esub a b) [rA a, rA b] (fun s =>
  let y := regA s b
  let pkg := cxPkg s
  let key := fld y 3 6 + fld y 0 3 * 64
  let c := fld y 9 3
  if fld y 13 51 ≠ 0 then .trap s cEngine 0 0
  else atRing s (regA s a) (fun s r =>
    match getStream s pkg key with
    | none => .trap s cStream 0 0
    | some st =>
      if st.job ≠ (cx s).job || st.complete || decide (r.size < st.tile) || (!st.dir && c != 0) then .trap s cStream 0 0
      else if y.getLsbD 12 then
        if (st.taking.isSome || !st.passing.isEmpty) && subAt st r.key then .wait s (.engineRoom (cxCore s) 2)
        else .ok (setStream s pkg key { st with rings := st.rings.filter (fun x => scratchKey x.core x.ofs != r.key) })
      else if (if st.dir then 1 else 8) ≤ st.rings.length then .trap s cStream 0 0
      else
        let s := if st.dir then addConsumer s r c else s
        if isolatedAt s pkg (key / 128) (keyCore r.key) then .ok s
        else .ok (setStream s pkg key { st with rings := st.rings ++ [{ core := keyCore r.key, ofs := keyOfs r.key, consumer := c }] })))

/-! ## Near-bank commands and queries (11 R301, R302; 12 R343) -/

/-- The operands that ENEAR accepts (11 R301; log 44). -/
def nearOk (a b : Word) (l : List Word) : Bool :=
  let x := l.getD 0 0
  let op := fld x 0 2
  let f := fld x 2 2
  let n := (l.getD 6 0).toNat
  let rep := l.getD 8 0
  decide (op ≤ 2) && decide (f ≤ 2) && fld x 4 60 == 0 && n % 256 == 0 && decide (256 ≤ n) && decide (n ≤ 2 ^ 21)
    && (l.getD 7 0).toNat / 2 ^ (8 * nbSize f) == 0 && fld rep 16 48 == 0
    && (rep == 0 || ((l.getD 9 0).toNat % 256 == 0 && (l.getD 10 0).toNat % 256 == 0)) && allZero ((l.drop 11).take 5)
    && (if op = 2 then a.toNat % nbSize f == 0 else a.toNat % 256 == 0) && (op == 1 || b.toNat % 256 == 0)

def execEnear (a b n : Nat) := issueEngine (.enear a b n) 2 n 2 a b 0 (fun s l => nearOk (regA s a) (regA s b) l)

def queryOk (a : Word) (l : List Word) : Bool :=
  let x := l.getD 0 0
  let k := fld x 16 13
  decide (fld x 0 4 < 12) && decide (1 ≤ k) && decide (fld x 4 12 + k ≤ 4096) && fld x 29 2 == 0 && fld x 32 32 == 0 && allZero ((l.drop 5).take 3)
    && a.toNat % 16 == 0

def execEqry (a n : Nat) := issueEngine (.eqry a n) 3 n 1 a 0 0 (fun s l => queryOk (regA s a) l)

/-! ## Plans, plays, migrations (11 R304, R305, R309; 13 R358) -/

def execQload (a b n : Nat) := finish (.qload a b n) [rA a, rA b] (fun s => withSets s n 1 (fun l =>
  if l.getD 0 0 ≠ 0 || !allZero ((l.drop 5).take 3) || (regA s a).toNat % 64 ≠ 0 || 64 ≤ (regA s b).toNat then .trap s cEngine 0 0
  else headerOk s l (
    match kfind (getPkg s (cxPkg s)).plans (regA s b).toNat with
    | some p => if p.job = (cx s).job then withPlace s 4 (fun _ => .ok (addOp s 4 (.qload a b n) (regA s a) (regA s b) l 0)) else .trap s cStream 0 0
    | none => withPlace s 4 (fun _ => .ok (addOp s 4 (.qload a b n) (regA s a) (regA s b) l 0)))))

/-- The bytes of a play that pass through the aperture on one package. -/
def apertureBytes (p : Plan) (bases : List Word) : Nat :=
  p.chunks.foldl (fun n c =>
    n + (if addrClass (bases.getD c.srcb 0 + c.sofs) = .aperture then c.bytes else 0)
      + (if addrClass (bases.getD c.dstb 0 + c.dofs) = .aperture then c.bytes else 0)) 0

/-- Joins the first play of a slot among the same members that a package has not joined, or starts a new one (11 R305). -/
def joinPlay (s : State) (slot : Nat) (p : Plan) (j : Joined) : State :=
  match (List.range s.plays.length).find? (fun i => match s.plays[i]? with
    | some y => y.slot == slot && y.job == p.job && y.plan.members == p.members && !y.torn.contains j.pkg && !y.joined.any (fun x => x.pkg == j.pkg)
    | none => false) with
  | some i => { s with plays := s.plays.modify i (fun y => { y with joined := y.joined ++ [j] }) }
  | none =>
    let y : Play := { slot := slot, job := p.job, plan := p, joined := [j], ctrs := [], chunks := [], pushed := [], result := [], wrote := [],
                      cut := [], cause := 0, ended := false, torn := [] }
    { s with plays := s.plays ++ [y] }

/-- QPLAY of a slot that holds no plan of the job has no stated effect but the register check of R291 (log 16). -/
def execQplay (a n : Nat) := finish (.qplay a n) [rA a] (fun s => withSets s n 2 (fun l =>
  let pkg := cxPkg s
  if l.getD 0 0 ≠ 0 || !allZero ((l.drop 5).take 3) || 64 ≤ (regA s a).toNat then .trap s cEngine 0 0
  else match kfind (getPkg s pkg).plans (regA s a).toNat with
    | none => .trap s cEngine 0 0
    | some p =>
      let bases := (l.drop 8).take 8
      if p.job ≠ (cx s).job || 2 ^ 24 < apertureBytes p bases then .trap s cEngine 0 0
      else headerOk s l (withPlace s 4 (fun id =>
        .ok (joinPlay (addOp s 4 (.qplay a n) (regA s a) 0 l 0) (regA s a).toNat p
          { pkg := pkg, core := cxCore s, op := id, bases := bases, began := false, gone := false, done := false })))))

def execMigr (a b n : Nat) := issueEngine (.migr a b n) 6 n 1 a b 0 (fun _ l => l.getD 0 0 == 0 && allZero ((l.drop 5).take 3))

end Sys2Proof.Machine
end

