-- ==== Sys2Proof/Machine/Routes.lean ====
section
/-! DEFINITION. Neighbour links of the torus and the routes over them (13 R357; 19 R426, R428). -/

namespace Sys2Proof.Machine

open Sys2Proof

def Link.reset : Link := { up := false, degr := false, fail := false, retry := 0, down := [], run := [], rates := [] }
def getLink (s : State) (pkg k : Nat) : Link := kget (getPkg s pkg).links .reset k

/-! ## Routes (13 R357; 19 R428, R429) -/

/-- The package one hop along dimension d of a torus of the given extents. -/
def torusHop (ext : List Nat) (p d : Nat) (plus : Bool) : Nat :=
  let n := ext.getD d 1
  let c := p / 8 ^ d % 8
  p - c * 8 ^ d + (if plus then (c + 1) % n else (c + n - 1) % n) * 8 ^ d

/-- A neighbour link carries traffic while one of its 16 ports is up at both ends and neither end's die is isolated. -/
def hopUp (s : State) (ext : List Nat) (p d : Nat) (plus : Bool) : Bool :=
  let q := torusHop ext p d plus
  let h := if plus then 0 else 1
  q != p && !(getPkg s p).isolated.contains d && !(getPkg s q).isolated.contains d
    && (List.range 16).any (fun i => (getLink s p (32 * d + 16 * h + i)).up && (getLink s q (32 * d + 16 * (1 - h) + i)).up)

/-- The way along dimension d from a package to another: hops, and whether in the + direction; the short way, + on a tie, unless `flip`. -/
def wayAlong (ext : List Nat) (a b d : Nat) (flip : Bool) : Nat × Bool :=
  let n := ext.getD d 1
  let up := (b / 8 ^ d % 8 + n - a / 8 ^ d % 8) % n
  let plus := decide (up ≤ n - up)
  if up = 0 then (0, true) else if plus != flip then (up, true) else (n - up, false)

/-- Whether n hops from p along dimension d are up. -/
def ringUp (s : State) (ext : List Nat) (d : Nat) (plus : Bool) : Nat → Nat → Bool
  | 0, _ => true
  | n + 1, p => hopUp s ext p d plus && ringUp s ext d plus n (torusHop ext p d plus)

/-- Whether n hops of one dimension from p are carried: at a hop that is down the way goes on the other way round the dimension to the same coordinate
(the example of 19 R434). -/
def hopsAlong (s : State) (ext : List Nat) (d : Nat) (plus : Bool) : Nat → Nat → Bool
  | 0, _ => true
  | n + 1, p =>
    if hopUp s ext p d plus then hopsAlong s ext d plus n (torusHop ext p d plus) else ringUp s ext d (!plus) (ext.getD d 1 - (n + 1)) p

/-- The package n hops from p along dimension d. -/
def hopsOn (ext : List Nat) (d : Nat) (plus : Bool) (n p : Nat) : Nat := (List.range n).foldl (fun q _ => torusHop ext q d plus) p

/-- Whether a route of VN1, or of a tree edge, joins a package to another: dimensions 0 to 3, each the short way (13 R357, 19 R428). -/
def routeVn1 (s : State) (ext : List Nat) (a b : Nat) : Bool :=
  ((List.range 4).foldl (fun (r : Nat × Bool) d =>
    let w := wayAlong ext r.1 b d false
    (hopsOn ext d w.2 w.1 r.1, r.2 && hopsAlong s ext d w.2 w.1 r.1)) (a, true)).2

/-- The packages one hop nearer to b, each dimension in its direction, over links that are up. -/
def nearer (s : State) (ext : List Nat) (a b flips p : Nat) : List Nat :=
  (List.range 4).filterMap (fun d =>
    let plus := (wayAlong ext a b d (flips.testBit d)).2
    if p / 8 ^ d % 8 != b / 8 ^ d % 8 && hopUp s ext p d plus then some (torusHop ext p d plus) else none)

/-- Whether a minimal path for a choice of directions joins a to b. -/
def minimalPath (s : State) (ext : List Nat) (a b flips : Nat) : Bool :=
  ((List.range ((List.range 4).foldl (fun n d => n + (wayAlong ext a b d (flips.testBit d)).1) 0)).foldl (fun l _ =>
    (l.flatMap (nearer s ext a b flips)).foldl keyAdd []) [a]).contains b

/-- Whether a route of VN0 joins a package to another: within the minimal quadrant, else the other way round a dimension (19 R428). -/
def routeVn0 (s : State) (ext : List Nat) (a b : Nat) : Bool := (List.range 16).any (minimalPath s ext a b)

/-- A package reaches another when VN0 carries its requests there and VN1 the replies back (log 52). -/
def joins (s : State) (ext : List Nat) (a b : Nat) : Bool := a == b || (routeVn0 s ext a b && routeVn1 s ext b a)

/-- The packages of a torus. -/
def torusAll (ext : List Nat) : List Nat :=
  (List.range (ext.getD 3 1)).flatMap (fun d => (List.range (ext.getD 2 1)).flatMap (fun c => (List.range (ext.getD 1 1)).flatMap (fun b =>
    (List.range (ext.getD 0 1)).map (fun a => a + 8 * b + 64 * c + 512 * d))))

/-! ## The hops that a tree edge takes (13 R357; 19 R428, R432) -/

/-- A hop: its package, dimension, direction. -/
abbrev Hop := Nat × Nat × Bool

/-- n hops round a ring. -/
def ringHops (ext : List Nat) (d : Nat) (plus : Bool) : Nat → Nat → List Hop
  | 0, _ => []
  | n + 1, p => (p, d, plus) :: ringHops ext d plus n (torusHop ext p d plus)

/-- The links that `hopsAlong` takes. -/
def hopsTaken (s : State) (ext : List Nat) (d : Nat) (plus : Bool) : Nat → Nat → List Hop
  | 0, _ => []
  | n + 1, p =>
    if hopUp s ext p d plus then (p, d, plus) :: hopsTaken s ext d plus n (torusHop ext p d plus) else ringHops ext d (!plus) (ext.getD d 1 - (n + 1)) p

/-- The links of the route of a tree edge. -/
def edgeHops (s : State) (ext : List Nat) (a b : Nat) : List Hop :=
  ((List.range 4).foldl (fun (r : Nat × List Hop) d =>
    let w := wayAlong ext r.1 b d false
    (hopsOn ext d w.2 w.1 r.1, r.2 ++ hopsTaken s ext d w.2 w.1 r.1)) (a, [])).2

end Sys2Proof.Machine
end

