-- ==== Sys2Proof/Machine/Collectives.lean ====
section
/-! DEFINITION. Plan images, plays and their chunks (11 R303-R305; 13 R358-R360; 19 R432-R434). -/

namespace Sys2Proof.Machine

open Sys2Proof

/-! ## Plan images (11 R303) -/

def noParent : Nat := 0x1FFF

def planHeaderBad (h : List Byte) : Option Nat :=
  let x := bfld h 0 8
  let nops := x % 2 ^ 13
  let nm := x / 2 ^ 16 % 2 ^ 13
  if nops = 0 || 4096 < nops then some 0
  else if x / 2 ^ 13 % 8 ≠ 0 then some 1
  else if nm = 0 || 4096 < nm then some 2
  else if x / 2 ^ 29 % 8 ≠ 0 then some 3
  else if 254 < x / 2 ^ 32 % 256 then some 4
  else if x / 2 ^ 40 ≠ 0 then some 5
  else ((List.range 7).find? (fun i => bfld h (8 + 8 * i) 8 != 0)).map (fun i => 8 + 8 * i)

def planMembers (h : List Byte) : Nat := bfld h 0 8 / 2 ^ 16 % 2 ^ 13
def planChunks (h : List Byte) : Nat := bfld h 0 8 % 2 ^ 13
def planTable (nm : Nat) : Nat := (64 + 8 * nm + 31) / 32 * 32
def planBytes (h : List Byte) : Nat := planTable (planMembers h) + 32 * planChunks h

def memberAt (bs : List Byte) (m : Nat) : Nat × Nat × Nat :=
  let v := bfld bs (64 + 8 * m) 8
  (v % 2 ^ 12, v / 2 ^ 12 % 2 ^ 13, v / 2 ^ 25 % 2 ^ 13)

/-- Whether following parents from m meets a root, or a value that names no member, within so many steps. -/
def reaches (par : Nat → Nat) (nm : Nat) : Nat → Nat → Bool
  | 0, _ => false
  | n + 1, m => if nm ≤ par m then true else reaches par nm n (par m)

/-- Whether member m's parent is bad: a value that names none, a second root, or one of a cycle. -/
def parentBad (nm : Nat) (par : Nat → Nat) (m : Nat) : Bool :=
  (decide (nm ≤ par m) && par m != noParent) || (par m == noParent && (List.range m).any (fun k => par k == noParent)) || !reaches par nm (nm + 1) m

/-- The image offset of a member's first bad field, of its fields in their order in the image. -/
def memberBad (bs : List Byte) (nm m : Nat) : Option Nat :=
  if parentBad nm (fun k => (memberAt bs k).2.1) m then some (64 + 8 * m + 1)
  else if parentBad nm (fun k => (memberAt bs k).2.2) m then some (64 + 8 * m + 3)
  else if bfld bs (64 + 8 * m) 8 / 2 ^ 38 ≠ 0 then some (64 + 8 * m + 4)
  else none

def chunkAt (bs : List Byte) (o : Nat) : Chunk :=
  let x := bfld bs o 8
  { kind := x % 16, op := x / 16 % 16, fmt := x / 256 % 4, srcb := x / 2 ^ 10 % 8, dstb := x / 2 ^ 13 % 8, waitc := x / 2 ^ 16 % 256,
    sigc := x / 2 ^ 24 % 256, bytes := x / 2 ^ 32, sofs := word (bfld bs (o + 8) 8), dofs := word (bfld bs (o + 16) 8), waitn := bfld bs (o + 24) 2 }

/-- The offset of a chunk's first bad field; a counter number from NCTR to 0xFE counts as one (log 81), and of an OP and a FMT that do not agree FMT is the bad
one (DESIGN CHOICE, log 90). -/
def chunkBad (bs : List Byte) (o nctr : Nat) : Option Nat :=
  let c := chunkAt bs o
  let ctr (n : Nat) : Bool := n == 0xFF || decide (n < nctr)
  if 3 < c.kind || 5 < c.op then some 0
  else if c.fmt = 3 || (c.fmt == 2 && decide (3 ≤ c.op)) then some 1
  else if !ctr c.waitc then some 2
  else if !ctr c.sigc then some 3
  else if c.bytes < 8 || 2 ^ 24 < c.bytes || c.bytes % 8 ≠ 0 then some 4
  else if bfld bs (o + 26) 6 ≠ 0 then some 26
  else none

/-- The image offset of the first bad field of a plan, or the plan (11 R303, R304). -/
def parsePlan (bs : List Byte) (job pkg : Nat) : Except Nat Plan :=
  let nm := planMembers bs
  let nctr := bfld bs 4 1
  let tbl := planTable nm
  let members := (List.range nm).map (memberAt bs)
  match planHeaderBad bs with
  | some o => .error o
  | none => match (List.range nm).findSome? (memberBad bs nm) with
    | some o => .error o
    | none => match (List.range (planChunks bs)).findSome? (fun i => (chunkBad bs (tbl + 32 * i) nctr).map (fun o => tbl + 32 * i + o)) with
      | some o => .error o
      | none =>
        if !members.any (fun m => m.1 == pkg) then .error 64
        else .ok { job := job, members := members, nctr := nctr, chunks := (List.range (planChunks bs)).map (fun i => chunkAt bs (tbl + 32 * i)) }

/-! ## Plays (11 R305, 13 R359) -/

def joinedOf (y : Play) (pkg : Nat) : Option Joined := y.joined.find? (fun j => j.pkg == pkg)

/-- Every member has joined and its QPLAY has started. -/
def allBegan (y : Play) : Bool := y.plan.members.all (fun m => match joinedOf y m.1 with
  | some j => j.began
  | none => false)

/-- The play that an operation has joined. -/
def playOfOp (s : State) (core id : Nat) : Option Nat :=
  (List.range s.plays.length).find? (fun i => (s.plays[i]?).any (fun y => y.joined.any (fun j => j.core == core && j.op == id)))

def modJoined (y : Play) (pkg : Nat) (f : Joined → Joined) : Play := { y with joined := y.joined.map (fun j => if j.pkg = pkg then f j else j) }

/-- The bytes of an earlier play of a slot end on a package (13 R359). -/
def Play.leave (y : Play) (pkg : Nat) : Play :=
  { modJoined y pkg (fun j => { j with gone := true }) with
    pushed := y.pushed.filter (fun b => b.1 / 2 ^ 40 != pkg), result := y.result.filter (fun b => b.1 / 2 ^ 40 != pkg) }

/-- A play that has ended on every member whose job is still there, none of whose bytes is left, and whose status records are written. -/
def playOver (s : State) (y : Play) : Bool :=
  y.ended && y.plan.members.all (fun m => y.torn.contains m.1 || y.joined.any (fun j => j.pkg == m.1 && j.gone && j.done))
    && !y.joined.any (fun j => (getCore s j.core).ops.any (fun o => o.id == j.op))

/-- The QPLAY of an operation starts on a package: the bytes of earlier plays of its slot end there. -/
def beginPlay (s : State) (pkg core id : Nat) : State :=
  match playOfOp s core id with
  | none => s
  | some i =>
    let slot := ((s.plays[i]?).map (fun y => y.slot)).getD 0
    { s with plays := (s.plays.zipIdx.map (fun e =>
        if e.2 = i then modJoined e.1 pkg (fun j => { j with began := true })
        else if e.2 < i && e.1.slot == slot then e.1.leave pkg else e.1)).filter (fun y => !playOver s y) }

def modPlay (s : State) (i : Nat) (f : Play → Play) : State := { s with plays := s.plays.modify i f }

def chunkState (y : Play) (c : Nat) : ChunkState := kget y.chunks { started := false, startedAt := 0, finished := false, alt := false, edges := none, held := none } c
def setChunk (y : Play) (c : Nat) (x : ChunkState) : Play := { y with chunks := kset y.chunks c x }

def chunkSrc (j : Joined) (c : Chunk) : Word := j.bases.getD c.srcb 0 + c.sofs
def chunkDst (j : Joined) (c : Chunk) : Word := j.bases.getD c.dstb 0 + c.dofs

/-- The aperture bytes of a range, if all were pushed. -/
def pushedBytes (y : Play) (pkg : Nat) : Nat → Nat → Option (List Byte)
  | _, 0 => some []
  | ofs, n + 1 =>
    match kfind y.pushed (apertureKey pkg ofs), pushedBytes y pkg (ofs + 1) n with
    | some b, some bs => some (b :: bs)
    | _, _ => none

def rootOf (y : Play) (alt : Bool) : Nat :=
  (lowestFree (fun i => (y.plan.members[i]?).any (fun m => (if alt then m.2.2 else m.2.1) != noParent)) y.plan.members.length 0).getD 0

/-- The members that contribute to a chunk: all of them, or the root of a broadcast. -/
def contributors (y : Play) (c : Chunk) (alt : Bool) : List Nat := if c.kind = 2 then [rootOf y alt] else List.range y.plan.members.length

/-- The members to which a chunk delivers. -/
def receivers (y : Play) (c : Chunk) (alt : Bool) : List Nat := if c.kind = 0 then [rootOf y alt] else List.range y.plan.members.length

/-- The extents of the torus that a play runs on. -/
def playExt (s : State) (y : Play) : List Nat := (getPkg s (((y.plan.members[0]?).map (fun x => x.1)).getD 0)).extents

def memberPkg (y : Play) (m : Nat) : Nat := ((y.plan.members[m]?).map (fun x => x.1)).getD 0

/-- The hops of a tree's edges as routing stands, or none where an edge has no route (13 R357). -/
def treeHops (s : State) (y : Play) (alt : Bool) : Option (List Hop) :=
  let ext := playExt s y
  let edges := y.plan.members.filterMap (fun m =>
    let par := if alt then m.2.2 else m.2.1
    if par = noParent then none else some (m.1, memberPkg y par))
  if edges.all (fun e => routeVn1 s ext e.1 e.2) then some (edges.flatMap (fun e => edgeHops s ext e.1 e.2)) else none

/-- The edges that a chunk depends on; a local copy crosses none. -/
def chunkEdges (s : State) (y : Play) (c : Chunk) (alt : Bool) : Option (List Hop) := if c.kind = 3 then some [] else treeHops s y alt

/-- Whether every aperture contribution of a chunk has been pushed. -/
def contributed (y : Play) (c : Chunk) (alt : Bool) : Bool :=
  (contributors y c alt).all (fun m => match joinedOf y (memberPkg y m) with
    | none => false
    | some j => if addrClass (chunkSrc j c) = .aperture then (pushedBytes y j.pkg (fld (chunkSrc j c) 0 40) c.bytes).isSome else true)

def execChunkStart (play chunk : Nat) (s : State) : Host.Outcome State Fault Refusal :=
  event (match s.plays[play]? with
    | none => s
    | some y => match y.plan.chunks[chunk]? with
      | none => s
      | some c =>
        let x := chunkState y chunk
        if y.ended || x.started || !allBegan y || !contributed y c false then s
        else if c.waitc ≠ 0xFF && decide (kget y.ctrs 0 c.waitc < c.waitn) then s
        else modPlay s play (fun y => setChunk y chunk { x with started := true, startedAt := s.cycle, edges := chunkEdges s y c false }))

/-! ## Combination (13 R360; 05 R138) -/

def chunkTag (c : Chunk) : Nat := if c.fmt = 0 then 3 else if c.fmt = 1 then 4 else 5
def chunkElems (c : Chunk) (bs : List Byte) : List Nat :=
  let n := tagWidth (chunkTag c) / 8
  (List.range (bs.length / n)).map (fun i => bfld bs (n * i) n)

/-- The value of a node: its own contribution, then its children in ascending member index. -/
def nodeValue (c : Chunk) (par : Nat → Nat) (nm : Nat) (own : Nat → List Nat) : Nat → Nat → List Nat
  | 0, m => own m
  | d + 1, m =>
    (List.range nm).foldl (fun acc k =>
      if par k = m then List.zipWith (fun x y => (opBits c.op (chunkTag c) x y).1) acc (nodeValue c par nm own d k) else acc) (own m)

/-- How reading the contributions ended other than with their bytes: a wait, or a member's access that failed. -/
inductive Late where
  | wait
  | fail (core op code detail : Nat) (addr : Word)
deriving DecidableEq, Repr

/-- Quadrille's accesses for a member: from the I/O die (01 R13). -/
def memberWho (y : Play) (j : Joined) : Who := { hwWho j.core y.job with die := some ioDie }

/-- Reads the contributions in member order: (member, bytes). A member whose QPLAY has ended gives none. -/
def readContribs (s : State) (y : Play) (c : Chunk) : List Nat → State × Except Late (List (Nat × List Byte))
  | [] => (s, .ok [])
  | m :: ms =>
    match joinedOf y (memberPkg y m) with
    | none => (s, .error .wait)
    | some j =>
      let got : State × EngRes :=
        if j.done then (s, .wait)
        else if addrClass (chunkSrc j c) = .aperture then
          match pushedBytes y j.pkg (fld (chunkSrc j c) 0 40) c.bytes with
          | some bs => (s, .done [bs])
          | none => (s, .wait)
        else engineRead s (memberWho y j) j.op [(chunkSrc j c, c.bytes)]
      match got with
      | (s, .done l) => match readContribs s y c ms with
        | (s, .ok rest) => (s, .ok ((m, l.headD []) :: rest))
        | e => e
      | (s, .wait) => (s, .error .wait)
      | (s, .fail k d a) => (s, .error (.fail j.core j.op k d a))

/-- The bytes that member m receives. -/
def chunkResult (y : Play) (c : Chunk) (alt : Bool) (got : List (Nat × List Byte)) (m : Nat) : List Byte :=
  let own (k : Nat) : List Byte := (kfind got k).getD []
  if c.kind = 3 then own m
  else if c.kind = 2 then own (rootOf y alt)
  else
    let par (k : Nat) : Nat := ((y.plan.members[k]?).map (fun x => if alt then x.2.2 else x.2.1)).getD noParent
    let nm := y.plan.members.length
    (nodeValue c par nm (fun k => chunkElems c (own k)) nm (rootOf y alt)).flatMap (leBytes (tagWidth (chunkTag c) / 8))

/-! ## How a QPLAY ends (11 R295; 13 R360; 19 R434) -/

def hasCut (y : Play) (pkg : Nat) : Bool := (kfind y.cut pkg).isSome

/-- The limit of CAUSE 2 at a member. -/
def cutLimit (s : State) (y : Play) (pkg : Nat) : Bool := (kfind y.cut pkg).any (fun t => decide (t + 2 ^ 22 ≤ s.cycle))

/-- One member's QPLAY ends. -/
def endMember (s : State) (play : Nat) (j : Joined) (code detail : Nat) (at_ : Word) : State :=
  if j.done then s else finishEng (modPlay s play (fun y => modJoined y j.pkg (fun k => { k with done := true }))) j.core j.op code detail at_

/-- The members of an ended play whose QPLAY ends now: a started one that is reachable, or at its own limit. -/
def endMembers (s : State) (play : Nat) : State :=
  match s.plays[play]? with
  | none => s
  | some y => y.joined.foldl (fun s j => if j.began && (!hasCut y j.pkg || cutLimit s y j.pkg) then endMember s play j 0 0 0 else s) s

/-- A play whose chunks are all acknowledged, or that aborts, ends. -/
def endPlay (s : State) (play cause : Nat) : State := endMembers (modPlay s play (fun y => { y with ended := true, cause := cause })) play

def abortPlay (s : State) (play cause : Nat) : State := endPlay s play cause

/-- A QPLAY that joins a play which has ended ends when it starts. -/
def startPlay (s : State) (core id : Nat) : State :=
  match playOfOp s core id with
  | none => s
  | some i => if (s.plays[i]?).any (fun y => y.ended) then endMembers s i else s

/-! ## Results and their delivery (13 R360; 19 R432, R433) -/

/-- What the root keeps of a chunk: its result; for a local copy, each member's own bytes. -/
def chunkHeld (y : Play) (c : Chunk) (alt : Bool) (got : List (Nat × List Byte)) : List (Nat × List Byte) :=
  if c.kind = 3 then got else [(rootOf y alt, chunkResult y c alt got (rootOf y alt))]

/-- The bytes kept for a member. -/
def heldFor (c : Chunk) (held : List (Nat × List Byte)) (m : Nat) : List Byte :=
  if c.kind = 3 then (kfind held m).getD [] else (held.headD (0, [])).2

/-- Contributions are combined, and the root keeps the result. A contribution with uncorrectable data aborts the play; one that cannot be read
for another reason ends its member's QPLAY (log 17). Where the root or a contributor does not work, the chunk waits (16 R376). -/
def gatherChunk (s : State) (play chunk : Nat) (y : Play) (c : Chunk) (x : ChunkState) : State :=
  if x.edges.isNone || !((rootOf y x.alt) :: contributors y c x.alt).all (fun m => powered s (memberPkg y m)) then s
  else match readContribs s y c (contributors y c x.alt) with
    | (s, .error .wait) => s
    | (s, .error (.fail core op code detail a)) =>
      if code = 2 then abortPlay (uncAt s { hwWho core y.job with die := some ioDie } a 6) play 3
      else match y.joined.find? (fun j => j.core == core && j.op == op) with
        | some j => endMember s play j code detail a
        | none => s
    | (s, .ok got) =>
      let held := chunkHeld y c x.alt got
      modPlay s play (fun y => setChunk y chunk { x with held := some held })

/-- Whether no route leads from the root that keeps a chunk's result to a package (19 R433). A local copy crosses no edge. -/
def rootCut (s : State) (y : Play) (c : Chunk) (alt : Bool) (pkg : Nat) : Bool :=
  let root := memberPkg y (rootOf y alt)
  c.kind != 3 && pkg != root && (getPkg s root).unreachable.contains pkg

/-- Delivers the kept bytes to a member, whole, once; a failed write ends its QPLAY. A root or a member that does not work waits (16 R376). -/
def deliverTo (s : State) (play chunk : Nat) (c : Chunk) (alt : Bool) (bs : List Byte) (m : Nat) : State :=
  match s.plays[play]? with
  | none => s
  | some y =>
    match joinedOf y (memberPkg y m) with
    | none => s
    | some j =>
      let wrote (s : State) : State := modPlay s play (fun y => { y with wrote := y.wrote ++ [(chunk, m)] })
      if j.done || y.wrote.contains (chunk, m) || rootCut s y c alt j.pkg || !powered s j.pkg || !powered s (memberPkg y (rootOf y alt)) then s
      else if addrClass (chunkDst j c) = .aperture then
        wrote (modPlay s play (fun y => { y with result := pushBytes y.result (apertureKey j.pkg (fld (chunkDst j c) 0 40)) bs }))
      else match engineWrite s (memberWho y j) j.op [(chunkDst j c, bs)] with
        | (s, .done _) => wrote s
        | (s, .wait) => s
        | (s, .fail code detail a) => endMember s play j code detail a

/-- A chunk that every receiver has acknowledged raises SIGC; the last one ends the play. -/
def acknowledged (s : State) (play chunk : Nat) (c : Chunk) (x : ChunkState) : State :=
  match s.plays[play]? with
  | none => s
  | some y =>
    if !(receivers y c x.alt).all (fun m => y.wrote.contains (chunk, m)) then s
    else
      let s := modPlay s play (fun y =>
        let y := setChunk y chunk { x with finished := true }
        { y with ctrs := if c.sigc = 0xFF then y.ctrs else kset y.ctrs c.sigc (kget y.ctrs 0 c.sigc + 1) })
      if (List.range y.plan.chunks.length).all (fun i => i == chunk || (chunkState y i).finished) then endPlay s play 0 else s

/-- CHUNK_COMPLETION: the contributions are combined and the result kept at the root; then it goes to every member that a route reaches, until
all have acknowledged it. -/
def execChunkCompletion (play chunk : Nat) (s : State) : Host.Outcome State Fault Refusal :=
  event (match s.plays[play]? with
    | none => s
    | some y => match y.plan.chunks[chunk]? with
      | none => s
      | some c =>
        let x := chunkState y chunk
        if y.ended || !x.started || x.finished then s
        else match x.held with
          | none => gatherChunk s play chunk y c x
          | some held => acknowledged ((receivers y c x.alt).foldl (fun s m => deliverTo s play chunk c x.alt (heldFor c held m) m) s) play chunk c x)

/-- CHUNK_REDO: a started chunk without a result runs again over the alternate tree, once (19 R432). -/
def execChunkRedo (play chunk : Nat) (s : State) : Host.Outcome State Fault Refusal :=
  event (match s.plays[play]? with
    | none => s
    | some y => match y.plan.chunks[chunk]? with
      | none => s
      | some c =>
        let x := chunkState y chunk
        if y.ended || !x.started || x.held.isSome || x.alt then s
        else if x.edges.isNone || decide (x.startedAt + 2 ^ 20 ≤ s.cycle) then
          modPlay s play (fun y => setChunk y chunk { x with alt := true, startedAt := s.cycle, edges := chunkEdges s y c true })
        else s)

/-! ## Routing and aborts (19 R432, R434) -/

/-- Whether a member's package is unreachable: from the root, or, at the root, from every other member. -/
def memberCut (s : State) (y : Play) (pkg : Nat) : Bool :=
  let root := memberPkg y (rootOf y false)
  let rest := y.plan.members.filter (fun m => m.1 != root)
  if pkg = root then !rest.isEmpty && rest.all (fun m => (getPkg s m.1).unreachable.contains root) else (getPkg s root).unreachable.contains pkg

/-- A play after a change of routing: which members are cut off since when, and which chunks have lost an edge. -/
def playRouted (s : State) (y : Play) : Play :=
  let ext := playExt s y
  { y with
    cut := y.plan.members.foldl (fun m k => if memberCut s y k.1 then kset m k.1 (kget y.cut s.cycle k.1) else m) [],
    chunks := y.chunks.map (fun e => (e.1, if (e.2.edges.getD []).all (fun h => hopUp s ext h.1 h.2.1 h.2.2) then e.2 else { e.2 with edges := none })) }

def rerouteThePlays (s : State) : State := { s with plays := s.plays.map (playRouted s) }

/-- Whether a play may abort for a cause (19 R434). -/
def mayAbort (s : State) (y : Play) (cause : Nat) : Bool :=
  match cause with
  | 1 => y.chunks.any (fun e => e.2.started && e.2.held.isNone && e.2.alt && (e.2.edges.isNone || decide (e.2.startedAt + 2 ^ 20 ≤ s.cycle)))
  | 2 => y.plan.members.any (fun m => cutLimit s y m.1)
  | 4 => !y.torn.isEmpty
  | _ => false

/-- PLAY_ABORT; in a play that has ended, the members that it has not reached yet end as they are reached or at their own limit. -/
def execPlayAbort (play cause : Nat) (s : State) : Host.Outcome State Fault Refusal :=
  event (match s.plays[play]? with
    | none => s
    | some y => if y.ended then endMembers s play else if mayAbort s y cause then abortPlay s play cause else s)

/-! ## The completion record (11 R305) -/

/-- The play of a QPLAY operation. -/
def playOf (s : State) (core id : Nat) : Option Play := s.plays.find? (fun y => y.joined.any (fun j => j.core == core && j.op == id))

def playState (y : Play) (pkg : Nat) : Nat :=
  let dests := (List.range y.plan.chunks.length).flatMap (fun i =>
    let x := chunkState y i
    match y.plan.chunks[i]? with
    | none => []
    | some c => ((receivers y c x.alt).filter (fun m => memberPkg y m == pkg)).map (fun m => (i, m)))
  let done := dests.filter (fun d => y.wrote.contains d)
  if done.length = dests.length then 0 else if y.wrote.all (fun d => memberPkg y d.2 != pkg) then 1 else 2

def playRecord (y : Play) (pkg : Nat) : List Byte :=
  let n := y.plan.chunks.length
  let alts := (List.range n).filter (fun i => (chunkState y i).alt && (chunkState y i).held.isSome)
  leBytes 8 (playState y pkg + y.cause * 2 ^ 8 + alts.length * 2 ^ 16) ++ leBytes 56 0
    ++ leBytes (8 * ((n + 63) / 64)) (alts.foldl (fun v i => v + 2 ^ i) 0)

end Sys2Proof.Machine
end

