-- ==== Sys2Proof/Machine/Matrix.lean ====
section
/-! DEFINITION. The Sawmill: issue, queue, runs, tiles (10 R264-R282; 16 R369). -/

namespace Sys2Proof.Machine

open Sys2Proof

/-! ## Tiles (10 R264, R266) -/

def getTile (s : State) (g t : Nat) : Tile := kget (getGrove s g).tiles .reset t
def setTile (s : State) (g t : Nat) (z : Tile) : State := modGrove s g (fun u => { u with tiles := kset u.tiles t z })

/-- The status word of R264. -/
def tileStatus (z : Tile) : Word :=
  match z.owner with
  | none => word z.tag
  | some j => word (z.tag + z.pa * 2 ^ 4 + z.pb * 2 ^ 7 + z.ovf.toNat * 2 ^ 10 + z.err * 2 ^ 12 + j * 2 ^ 16 + 2 ^ 28 + z.ops * 2 ^ 32)

/-- ERR keeps the first error (10 R267). -/
def tileErr (z : Tile) (e : Nat) : Tile := if z.err = 0 then { z with err := e } else z

/-- A freshly claimed tile. -/
def claimedTile (job tag : Nat) : Tile := { Tile.reset with tag := tag, owner := some job }

def addOps (z : Tile) : Tile := { z with ops := (z.ops + 1) % 65536 }

/-- The notice of an operation on a tile that its job does not own (18 R419). -/
def ownerNotice (s : State) (op : SawOp) (t : Nat) : State :=
  memNotice s (corePkg op.core) op.job (coreId op.core) cTileOwner 0 (op.word + t * 2 ^ 32)

/-- Runs f on a tile that the job owns; on any other tile the operation has no effect but the notice. -/
def ownedTile (s : State) (op : SawOp) (t : Nat) (f : Tile → State) : State :=
  let z := getTile s (coreGrove op.core) t
  if z.owner = some op.job then f z else ownerNotice s op t

/-- A tile's elements, each replaced by f of its index and bits; zeros are not listed. -/
def tileMap (f : Nat → Nat → Nat) : Nat → Nat → KMap (BitVec 32) → KMap (BitVec 32)
  | 0, _, _ => []
  | n + 1, i, m =>
    let (v, rest) := match m with
      | [] => (0, [])
      | (j, v) :: l => if j = i then (v.toNat, l) else (0, m)
    let x := f i v % 2 ^ 32
    if x = 0 then tileMap f n (i + 1) rest else (i, BitVec.ofNat 32 x) :: tileMap f n (i + 1) rest

/-! ## Panels (10 R268, R269, R272) -/

/-- The scratchpad key of a panel address of an operation's core. -/
def sawKey (core : Nat) (va : Word) : Nat :=
  if addrClass va = .localWin then scratchKey core (fld va 0 17) else scratchKey (fld va 32 12 * 8192 + fld va 17 13) (fld va 0 17)

/-- Reads n bytes of a panel: a fenced core or corrupt data gives the failing address. -/
def panelRead (s : State) (op : SawOp) (va : Word) (n : Nat) : Except Word (List Byte) :=
  let k := sawKey op.core va
  if fencedFor s (hwWho op.core op.job) (keyCore k) then .error va
  else match firstBad s k n with
    | some b => .error (va + word (b - k))
    | none => .ok (cellsRead s.mem k n)

/-- Every container of a scale area is valid (05 R125). -/
def scalesOk : List Byte → Bool
  | x :: y :: l => (scaleVal (x.toNat + 256 * y.toNat)).isSome && scalesOk l
  | _ => true

/-- A panel and its scales: the bytes, or ERR with the failing address. -/
def stageSide (s : State) (op : SawOp) (va : Word) (t k : Nat) (sc : Bool) : Except (Nat × Word) (List Byte × List Byte) :=
  match panelRead s op va (panelBytes t k) with
  | .error a => .error (5, a)
  | .ok p =>
    if !sc then .ok (p, [])
    else match panelRead s op (va + word (panelBytes t k)) (scaleBytes k) with
      | .error a => .error (5, a)
      | .ok c => if scalesOk c then .ok (p, c) else .error (3, 0)

/-- A side taken from a latch (10 R276). -/
def latchSide (l : Latch) (core t p k : Nat) (sc : Bool) : Except (Nat × Word) (List Byte × List Byte) :=
  if l.core = some core && l.k = k && l.tag = t && l.planes = p && l.sc = sc then .ok (l.panel, l.scales) else .error (4, 0)

/-- Stages one run (10 R272). -/
def stageRun (s : State) (op : SawOp) (ctl pa pb : Word) (t : Nat) : Staged :=
  let g := getGrove s (coreGrove op.core)
  let k := ctlK ctl
  let sc := ctlSC ctl
  let a := if ctlLA ctl then latchSide g.la op.core (ctlTA ctl) (ctlPA ctl) k sc else stageSide s op pa (ctlTA ctl) k sc
  let b := if ctlLB ctl then latchSide g.lb op.core (ctlTB ctl) (ctlPB ctl) k sc else stageSide s op pb (ctlTB ctl) k sc
  match a, b with
  | .ok (x, sx), .ok (y, sy) => { t := t, ctl := ctl, a := x, b := y, sa := sx, sb := sy, err := 0 }
  | .error e, .ok _ => { t := t, ctl := ctl, a := [], b := [], sa := [], sb := [], err := e.1 }
  | .ok _, .error e => { t := t, ctl := ctl, a := [], b := [], sa := [], sb := [], err := e.1 }
  | .error e, .error f => { t := t, ctl := ctl, a := [], b := [], sa := [], sb := [], err := if e.1 = 4 || f.1 = 4 then 4 else max e.1 f.1 }

/-- The columns that a MOPM runs, ascending (10 R279). -/
def maskedCols (mask : BitVec 256) (desc row : Nat) : List Nat := (List.range (desc / 16 % 16 + 1)).filter (fun c => mask.getLsbD (16 * row + c))

/-- What an operation of the tile array computes, with the first error (10 R267, R272; log 40). -/
def sawStage (s : State) (op : SawOp) : List Staged :=
  match op.kind with
  | .run pa pb ctl => [stageRun s op ctl pa pb (ctlTile ctl)]
  | .masked pa pb ctl sa sb row tadv mask desc =>
    (maskedCols mask desc row).map (fun c =>
      stageRun s op ctl (pa + word c * sa) (pb + word c * sb) (ctlTile ctl + (if tadv then c else 0)))
  | .load isB panel ctl =>
    let t := if isB then ctlTB ctl else ctlTA ctl
    match stageSide s op panel t (ctlK ctl) (ctlSC ctl) with
    | .ok (p, c) => [{ t := 0, ctl := panel, a := p, b := [], sa := c, sb := [], err := 0 }]
    | .error (e, a) => [{ t := 0, ctl := a, a := [], b := [], sa := [], sb := [], err := e }]
  | _ => []

/-! ## Outer products (10 R271, R272; 05 R133, R134) -/

/-- x_n of element e of BPI blocks that start at bit 8192 × blk of p. -/
def bpiElem (p blk e n : Nat) : Int :=
  toSigned n ((List.range n).foldl (fun v j => 2 * v + (p.testBit (8192 * blk + 1024 * j + e)).toNat) 0)

/-- Row or column i of step k of a panel: its value before scaling. -/
def panelValue (p t planes k i : Nat) (raw : Bool) : FVal :=
  if t = 8 then
    let x := bpiElem p (k / 16) (64 * (k % 16) + i) (planes + 1)
    intVal (if raw then x else x * 2 ^ (7 - planes))
  else unpack (fmtOf t) (p / 2 ^ (1024 * k + 16 * i) % 2 ^ 16)

/-- The scale of row or column i at step k; 1 without scales. -/
def panelScale (sc k i : Nat) (on : Bool) : FVal :=
  if on then (scaleVal (sc / 2 ^ (1024 * (k / 32) + 16 * i) % 2 ^ 16)).getD (.fin false 0 0) else .fin false 1 0

/-- The result tag of a run (10 R271). -/
def runTag (ctl : Word) : Nat := if ctlTA ctl = 8 && !ctlSC ctl then 3 else 5

/-- One element through all steps: floating point, one rounding a step. -/
def fpElem (st : Staged) (i j : Nat) (z : Nat) : Nat :=
  let pa := leNat st.a
  let pb := leNat st.b
  let sa := leNat st.sa
  let sb := leNat st.sb
  let on := ctlSC st.ctl
  (List.range (ctlK st.ctl)).foldl (fun z k =>
    let a := (fmulX (panelValue pa (ctlTA st.ctl) (ctlPA st.ctl) k i false) (panelScale sa k i on)).1
    let b := (fmulX (panelValue pb (ctlTB st.ctl) (ctlPB st.ctl) k j false) (panelScale sb k j on)).1
    (fmaBits fp32 a b (unpack fp32 z)).1) z

def intOf : FVal → Int
  | .fin neg m e => if 0 ≤ e then (if neg then -1 else 1) * ((m * 2 ^ e.toNat : Nat) : Int) else 0
  | _ => 0

/-- One element through all steps: integer, wrapping; the flag says that an exact sum left INT32. -/
def intElem (st : Staged) (i j : Nat) (z : Nat) : Nat × Bool :=
  let pa := leNat st.a
  let pb := leNat st.b
  (List.range (ctlK st.ctl)).foldl (fun (acc : Nat × Bool) k =>
    let x := toSigned 32 acc.1 + intOf (panelValue pa 8 (ctlPA st.ctl) k i true) * intOf (panelValue pb 8 (ctlPB st.ctl) k j true)
    (ofSigned 32 x, acc.2 || (clampInt 32 x).2)) (z, false)

/-- One run on its tile: claim and clearing, checks, then the steps. -/
def doRun (s : State) (op : SawOp) (st : Staged) : State :=
  let g := coreGrove op.core
  let z := getTile s g st.t
  let r := runTag st.ctl
  let clr := ctlCLR st.ctl
  if !(z.owner == some op.job || (clr && z.owner.isNone)) then ownerNotice s op st.t
  else
    let z := if clr then claimedTile op.job r else z
    if z.tag ≠ r then setTile s g st.t (tileErr z 1)
    else if st.err ≠ 0 then setTile s g st.t (tileErr z st.err)
    else if r = 3 then
      if z.pa ≠ 0 && !(z.pa == ctlPA st.ctl && z.pb == ctlPB st.ctl) then setTile s g st.t (tileErr z 2)
      else
        let ovf := (List.range 4096).any (fun e => (intElem st (e / 64) (e % 64) (kget z.z 0 e).toNat).2)
        setTile s g st.t (addOps { z with pa := ctlPA st.ctl, pb := ctlPB st.ctl, ovf := z.ovf || ovf,
                                          z := tileMap (fun e v => (intElem st (e / 64) (e % 64) v).1) 4096 0 z.z })
    else setTile s g st.t (addOps { z with z := tileMap (fun e v => fpElem st (e / 64) (e % 64) v) 4096 0 z.z })

/-! ## The other operations -/

def doZero (s : State) (op : SawOp) (t mode : Nat) : State :=
  let g := coreGrove op.core
  let z := getTile s g t
  if mode = 2 then
    match z.owner with
    | none => s
    | some j => if j = op.job then setTile s g t .reset else ownerNotice s op t
  else if z.owner.isNone || z.owner = some op.job then setTile s g t (claimedTile op.job (if mode = 1 then 3 else 5))
  else ownerNotice s op t

def doLoad (s : State) (op : SawOp) (isB : Bool) (ctl : Word) (st : Staged) : State :=
  let l : Latch :=
    if st.err ≠ 0 then { Latch.reset with core := none }
    else { core := some op.core, k := ctlK ctl, tag := if isB then ctlTB ctl else ctlTA ctl, planes := if isB then ctlPB ctl else ctlPA ctl,
           sc := ctlSC ctl, panel := st.a, scales := st.sa }
  let s := modGrove s (coreGrove op.core) (fun g => if isB then { g with lb := l } else { g with la := l })
  if st.err = 0 then s
  else memNotice s (corePkg op.core) op.job (coreId op.core) (if st.err = 3 then cBlockScale else cUncorrectable) st.ctl op.word

/-- Bytes of row i of a tile for MST. -/
def tileRow (z : Tile) (i : Nat) (cvt : Bool) : List Byte :=
  (List.range 64).flatMap (fun j =>
    let v := (kget z.z 0 (64 * i + j)).toNat
    if cvt then leBytes 2 (roundVal bf16 0 0 (unpack fp32 v)).1 else leBytes 4 v)

/-- The name of a grove's Sawmill operation as a waiter on pages. -/
def sawId (g : Nat) : Nat := 2 ^ 40 + g

/-- MST: none while it waits for a page. Rows that overlap are written in ascending order, so the higher row's bytes stay; 04 R99 leaves the accesses of
an operation unordered (DESIGN CHOICE, log 95). -/
def doStore (s : State) (op : SawOp) (dst stride : Word) (t : Nat) (cvt : Bool) : State × Bool :=
  let g := coreGrove op.core
  let z := getTile s g t
  if z.owner ≠ some op.job then (ownerNotice s op t, true)
  else if cvt && z.tag ≠ 5 then (setTile s g t (tileErr z 1), true)
  else
    match engineWrite s (hwWho op.core op.job) (sawId g) ((List.range 64).map (fun i => (dst + word i * stride, tileRow z i cvt))) with
    | (s, .wait) => (s, false)
    | (s, .done _) => (s, true)
    | (s, .fail _ _ _) => (setTile s g t (tileErr (getTile s g t) 6), true)

/-- A row or column scale of MSCALE: no array means 1. -/
def mscaleVal (l : List Word) (i : Nat) : FVal :=
  if l.isEmpty then .fin false 1 0 else (scaleVal (l.getD i 0).toNat).getD (.fin false 0 0)

def doScale (s : State) (op : SawOp) (t : Nat) (rows cols : List Word) (pl : Bool) : State :=
  let g := coreGrove op.core
  ownedTile s op t (fun z =>
    if z.tag ≠ 3 && z.tag ≠ 5 then setTile s g t (tileErr z 1)
    else
      let n (p : Nat) : Nat := if p = 0 then 8 else p + 1
      let e : Nat := if pl && z.tag = 3 then (8 - n z.pa) + (8 - n z.pb) else 0
      let f (i v : Nat) : Nat :=
        let x := if z.tag = 3 then intVal (toSigned 32 v) else unpack fp32 v
        let y := (fmulX (fmulX x (.fin false 1 e)).1 (mscaleVal rows (i / 64))).1
        (roundVal fp32 0 0 (fmulX y (mscaleVal cols (i % 64))).1).1
      setTile s g t (addOps { z with z := tileMap f 4096 0 z.z, tag := 5, pa := 0, pb := 0 }))

/-! ## Start and completion (10 R265, R272; 16 R369, R372; 01 R15) -/

/-- Whether the governor and the limiter admit a Sawmill start of a package in this cycle. -/
def govAdmits (s : State) (p : Nat) : Bool :=
  let k := getPkg s p
  !k.limit && k.power == .run && !(k.govAt == s.cycle && decide (k.govn ≤ k.sawStarts))

def isRead : SawKind → Bool
  | .read _ _ => true
  | _ => false

/-- Whether the operation at the head may start. -/
def sawReady (s : State) (g : Nat) : Bool :=
  let u := getGrove s g
  let p := getPkg s (grovePkg g)
  u.sawRun.isNone && decide (u.notBefore ≤ s.cycle) && govAdmits s (grovePkg g) && p.sawLine.headD g == g

def countStart (s : State) (p : Nat) : State :=
  modPkg s p (fun k => { k with govAt := s.cycle, sawStarts := if k.govAt = s.cycle then k.sawStarts + 1 else 1,
                                cruStarts := if k.govAt = s.cycle then k.cruStarts else 0 })

def execSawmillStart (grove : Nat) (s : State) : Host.Outcome State Fault Refusal :=
  event (match (getGrove s grove).saw with
    | [] => s
    | op :: rest =>
      if isRead op.kind || !sawReady s grove || quietJob s (grovePkg grove) op.job then s
      else
        let run : SawRun := { op := op, runs := sawStage s op }
        let s := if run.runs.any (fun r => r.err == 5) then uncBump s (grovePkg grove) 1 else s
        countStart (modGrove s grove (fun u => { u with saw := rest, sawRun := some run })) (grovePkg grove))

def execSawmillCompletion (grove : Nat) (s : State) : Host.Outcome State Fault Refusal :=
  event (match (getGrove s grove).sawRun with
    | none => s
    | some r =>
      let op := r.op
      let (s, done) := match op.kind with
        | .zero t mode => (doZero s op t mode, true)
        | .load isB _ ctl => (r.runs.foldl (fun s st => doLoad s op isB ctl st) s, true)
        | .run _ _ _ => (r.runs.foldl (fun s st => doRun s op st) s, true)
        | .masked _ _ _ _ _ _ _ _ _ => (r.runs.foldl (fun s st => doRun s op st) s, true)
        | .store dst stride t cvt => doStore s op dst stride t cvt
        | .scale t rows cols pl => (doScale s op t rows cols pl, true)
        | .read _ _ => (s, true)
        | .cruise _ _ _ _ => (s, true)
      if done then bumpDone (modGrove s grove (fun u => { u with sawRun := none })) (hwWho op.core op.job) op.done else s)

/-- Whether the operation number n that waits outside a queue may enter it. -/
def mayEnter (s : State) (o : Obj) (wait queue : List SawOp) (n : Nat) : Bool :=
  match wait[n]? with
  | none => false
  | some op => afterMet s op.after op.target && decide (queue.length < 32) && (op.after.isSome || !behindOther s o (wait.take n) queue op.core op.born)

/-- SAWMILL_QUEUE_ENTRY: numbers past the Sawmill's waiting operations name the Cruise's (10 R265, R284). -/
def execSawmillQueueEntry (grove n : Nat) (s : State) : Host.Outcome State Fault Refusal :=
  let u := getGrove s grove
  let k := u.sawWait.length
  event (
    if mayEnter s (.sawmill grove) u.sawWait u.saw n then
      modGrove s grove (fun u => { u with saw := u.saw ++ (u.sawWait[n]?).toList, sawWait := u.sawWait.eraseIdx n })
    else if k ≤ n && mayEnter s (.cruise grove) u.cruWait u.cru (n - k) then
      modGrove s grove (fun u => { u with cru := u.cru ++ (u.cruWait[n - k]?).toList, cruWait := u.cruWait.eraseIdx (n - k) })
    else s)

/-! ## Issue -/

/-- The running thread's time in the line of waiters on an object: that of its own wait, or now. -/
def lineTime (s : State) (o : Obj) : Nat :=
  match (cx s).status with
  | .waiting x _ n => if x = o then n else s.seq
  | _ => s.seq

/-- An instruction's operation enters a queue in issue order, waits outside for its "after" counter, or keeps its context waiting; `put` puts it in the
queue or among those that wait outside, `room` stands for the 16 places there (10 R265). -/
def queueIssue (s : State) (o room : Obj) (wait queue : List SawOp) (op : SawOp) (put : Bool → State) : Res :=
  if op.after.isSome then
    if 16 ≤ (wait.filter (fun p => p.core == op.core && p.after.isSome)).length then .wait s room else .ok (put false)
  else if 32 ≤ queue.length || behindOther s o wait queue op.core (lineTime s o) then .wait s o
  else .ok (put true)

def sawIssue (s : State) (op : SawOp) : Res :=
  let g := coreGrove op.core
  let u := getGrove s g
  queueIssue s (.sawmill g) (.engineRoom op.core 16) u.sawWait u.saw op (fun q =>
    modGrove s g (fun u => if q then { u with saw := u.saw ++ [op] } else { u with sawWait := u.sawWait ++ [op] }))

def newOp (s : State) (i : Instr) (k : SawKind) : SawOp :=
  { kind := k, word := encode i, job := (cx s).job, core := cxCore s, after := none, target := 0, done := none, ctx := none }

/-- Counters of E(8s+1) to E(8s+3) (10 R278). -/
def withCounters (s : State) (l : List Word) (op : SawOp) (k : SawOp → Res) : Res :=
  optCounter s (l.getD 1 0) (fun after => optCounter s (l.getD 3 0) (fun done =>
    k { op with after := after, target := l.getD 2 0, done := done }))

/-- A control word's failure as a trap; "format tag mismatch" reports TB (10 R270, 17 R379). -/
def ctlTrap (s : State) (x : Word) (c : CtlCheck) (k : Res) : Res :=
  match c with
  | .ok => k
  | .operand => .trap s cMatrix 0 0
  | .tags => .trap s cTag 0 (5 + ctlTB x * 16 + ctlPB x * 256)

def execMzero (m t : Nat) := finish (.mzero m t) [] (fun s => sawIssue s (newOp s (.mzero m t) (.zero t m)))

/-- Fields of a latch load's control word (10 R276). -/
def loadCtlOk (x : Word) (isB : Bool) : Bool :=
  let t := if isB then ctlTB x else ctlTA x
  let p := if isB then ctlPB x else ctlPA x
  let keep : Nat := if isB then 0x7F + 0x7F * 2 ^ 14 + 2 ^ 25 else 0x7F + 0x7F * 2 ^ 7 + 2 ^ 25
  (x &&& ~~~(word keep)) == 0 && decide (1 ≤ ctlK x) && decide (ctlK x ≤ 64) && panelTag t p && !(t == 8 && ctlK x % 16 != 0)

def latchLoad (i : Instr) (a b : Nat) (isB : Bool) (s : State) : Res :=
  let x := regA s b
  let t := if isB then ctlTB x else ctlTA x
  let n := panelBytes t (ctlK x) + (if ctlSC x then scaleBytes (ctlK x) else 0)
  if !loadCtlOk x isB then .trap s cMatrix 0 0
  else if (panelKey s (thr s) t n (regA s a)).isNone then .trap s cMatrix (regA s a) 0
  else sawIssue (releaseWaits s s.cur) (newOp s i (.load isB (regA s a) x))

def execMlda (a b : Nat) := finish (.mlda a b) [rA a, rA b] (latchLoad (.mlda a b) a b false)
def execMldb (a b : Nat) := finish (.mldb a b) [rA a, rA b] (latchLoad (.mldb a b) a b true)

def execMpost (a b : Nat) := finish (.mpost a b) [rA a, rA b, rA (b + 1)] (fun s =>
  let x := regA s a
  ctlTrap s x (ctlCheck x true) (
    if !panelsOk s (thr s) x (regA s b) (regA s (b + 1)) then .trap s cMatrix (badPanel s (thr s) x (regA s b) (regA s (b + 1))) 0
    else if !ccoOk s (thr s) x then .trap s cCounter 0 0
    else
      let op := postOp (cxCore s) (cx s).job x (regA s b) (regA s (b + 1))
      sawIssue (releaseWaits s s.cur) { op with word := encode (.mpost a b) }))

/-- MOP ignores a panel register whose latch bit is set (10 R278). -/
def execMop (a b n : Nat) := finish (.mop a b n) [] (fun s =>
  withSets s n 1 (fun l =>
    let x := l.getD 0 0
    if (!ctlLA x && aBad (cx s) (rA a)) || (!ctlLB x && aBad (cx s) (rA b)) then .badReg s
    else ctlTrap s x (ctlCheck x false) (
      if (l.drop 4).any (fun v => v != 0) then .trap s cMatrix 0 0
      else if !panelsOk s (thr s) x (regA s a) (regA s b) then .trap s cMatrix (badPanel s (thr s) x (regA s a) (regA s b)) 0
      else withCounters s l (newOp s (.mop a b n) (.run (regA s a) (regA s b) x)) (sawIssue s))))

def execMopm (a b k n : Nat) := finish (.mopm a b k n) [rA a, rA b, rB k] (fun s =>
  withSets s n 1 (fun l =>
    let x := l.getD 0 0
    let y := l.getD 4 0
    let row := fld y 0 4
    let tadv := y.getLsbD 8
    let desc := maskDesc s k
    let cols := maskedCols (regB s k) desc row
    ctlTrap s x (ctlCheck x false) (
      if ctlLA x || ctlLB x || fld y 4 4 ≠ 0 || fld y 9 55 ≠ 0 || l.getD 7 0 != 0 then .trap s cMatrix 0 0
      else if desc = 0 || desc % 16 < row then .trap s cTag 0 3
      else match cols.findSome? (fun c =>
          let pa := regA s a + word c * l.getD 5 0
          let pb := regA s b + word c * l.getD 6 0
          if tadv && decide (7 < ctlTile x + c) then some 0
          else if !panelsOk s (thr s) x pa pb then some (badPanel s (thr s) x pa pb) else none) with
      | some va => .trap s cMatrix va 0
      | none => withCounters s l (newOp s (.mopm a b k n) (.masked (regA s a) (regA s b) x (l.getD 5 0) (l.getD 6 0) row tadv (regB s k) desc)) (sawIssue s))))

def execMst (a b n : Nat) := finish (.mst a b n) [rA a, rA b] (fun s =>
  withSets s n 1 (fun l =>
    let x := l.getD 0 0
    if fld x 4 60 ≠ 0 || (l.drop 4).any (fun v => v != 0) then .trap s cMatrix 0 0
    else withCounters s l (newOp s (.mst a b n) (.store (regA s a) (regA s b) (fld x 0 3) (x.getLsbD 3))) (sawIssue s)))

/-- The read of a tile that waits in the queue: it enters once, when the next instruction's address is good, and takes place at the head (10 R281). -/
def queuedRead (s : State) (op : SawOp) (k : State → Res) : Res :=
  let g := coreGrove op.core
  let u := getGrove s g
  if u.saw.any (fun o => o.ctx == some s.cur) then
    match u.saw with
    | o :: rest =>
      if o.ctx = some s.cur && sawReady s g then k (modGrove s g (fun u => { u with saw := rest })) else .wait s (.sawRead g)
    | [] => .wait s (.sawRead g)
  else withNext s (fun _ _ => match sawIssue s { op with ctx := some s.cur } with
    | .ok s => .wait s (.sawRead g)
    | r => r)

def execMrd (a b t : Nat) := finish (.mrd a b t) [rA b] (fun s =>
  if fld (regA s b) 12 52 ≠ 0 then .trap s cMatrix 0 0
  else queuedRead s (newOp s (.mrd a b t) (.read s.cur t)) (fun s =>
    let z := getTile s (coreGrove (cxCore s)) t
    if z.owner ≠ some (cx s).job then .trap s cTileOwner 0 0
    else
      let v := (kget z.z 0 (regA s b).toNat).toNat
      .ok (setA s a (if z.tag = 3 then signExt v 32 else word v))))

/-- MSCALE. One that waits for a place in the queue reads and checks its scale containers at each try: those that it sees when it gets the place count, "at
issue" names no other time (DESIGN CHOICE, log 89). -/
def execMscale (a b p t : Nat) := finish (.mscale a b p t) [rA a, rA b] (fun s =>
  let part (va : Word) : List (Word × Nat) := if va = 0 then [] else [(va, 128)]
  loads s false (part (regA s a) ++ part (regA s b)) (fun s bs =>
    if !bs.all scalesOk then .trap s cBlockScale 0 0
    else
      let words (l : List Byte) : List Word := (List.range 64).map (fun i => word (bfld l (2 * i) 2))
      let rows := if regA s a = 0 then [] else words (bs.getD 0 [])
      let cols := if regA s b = 0 then [] else words (bs.getD (if regA s a = 0 then 0 else 1) [])
      sawIssue s (newOp s (.mscale a b p t) (.scale t rows cols (p == 1)))))

def execMstat (a c t : Nat) := finish (.mstat a c t) [] (fun s =>
  if c = 1 then .ok (setA s a (getCore s (cxCore s)).crst)
  else queuedRead s (newOp s (.mstat a c t) (.read s.cur t)) (fun s =>
    let z := getTile s (coreGrove (cxCore s)) t
    if z.owner.isSome && z.owner ≠ some (cx s).job then .trap s cTileOwner 0 0 else .ok (setA s a (tileStatus z))))

/-- A context that leaves withdraws its read from the queue (10 R265, R281). -/
def withdrawReads (s : State) (ctx : Nat) : State :=
  modGrove s (coreGrove (ctxCore ctx)) (fun u => { u with
    saw := u.saw.filter (fun o => o.ctx != some ctx), sawWait := u.sawWait.filter (fun o => o.ctx != some ctx) })

end Sys2Proof.Machine
end

