-- ==== Sys2Proof/Machine/Cruise.lean ====
section
/-! DEFINITION. Cruise scoring and Blaze masks (10 R283-R289). -/

namespace Sys2Proof.Machine

open Sys2Proof

/-! ## The geometry of CRUISE (10 R283) -/

def geoD (x : Word) : Nat := 16 * (fld x 0 6 + 1)
def geoQN (x : Word) : Nat := fld x 8 2 + 2
def geoKN (x : Word) : Nat := fld x 10 2 + 2
def geoR (x : Word) : Nat := 2 ^ fld x 12 3
def geoC (x : Word) : Nat := fld x 16 4 + 1
def geoKT (x : Word) : Nat := 2 ^ (fld x 20 3 + 2)

def geoOk (x : Word) : Bool :=
  decide (fld x 8 2 ≤ 2) && decide (fld x 10 2 ≤ 2) && decide (fld x 12 3 ≤ 4) && decide (fld x 20 3 ≤ 4) && fld x 6 2 == 0
    && !x.getLsbD 15 && fld x 23 41 == 0 && decide (geoC x * geoKT x ≤ 1024) && decide (2 ≤ geoR x * geoC x)

def geoQBytes (x : Word) : Nat := 64 * geoD x
def geoKBytes (x : Word) : Nat := (geoC x * geoKT x + 63) / 64 * geoD x * 64

/-- The bytes from the score array's start that hold the grid. -/
def geoScoreBytes (x : Word) : Nat := 64 * (geoR x - 1) + 4 * geoC x

def execCruise (a b n : Nat) := finish (.cruise a b n) [rA a, rA b] (fun s =>
  withSets s n 1 (fun l =>
    let x := l.getD 0 0
    let w := thr s
    let g := coreGrove w.core
    if !geoOk x || (l.drop 5).any (fun v => v != 0) then .trap s cMatrix 0 0
    else if (panelKey s w 8 (geoQBytes x) (regA s a)).isNone then .trap s cMatrix (regA s a) 0
    else if (panelKey s w 8 (geoKBytes x) (regA s b)).isNone then .trap s cMatrix (regA s b) 0
    else if (panelKey s w 6 (geoScoreBytes x) (l.getD 4 0)).isNone then .trap s cMatrix (l.getD 4 0) 0
    else withCounters s l (newOp s (.cruise a b n) (.cruise (regA s a) (regA s b) x (l.getD 4 0))) (fun op =>
      let u := getGrove s g
      queueIssue s (.cruise g) (.engineRoom op.core 17) u.cruWait u.cru op (fun q =>
        modGrove s g (fun u => if q then { u with cru := u.cru ++ [op] } else { u with cruWait := u.cruWait ++ [op] })))))

/-- Whether the governor and the limiter admit a Cruise start (16 R369, R372). -/
def cruAdmits (s : State) (p : Nat) : Bool :=
  let k := getPkg s p
  !k.limit && k.power == .run && !(k.govAt == s.cycle && decide (k.govc ≤ k.cruStarts))

def countCruise (s : State) (p : Nat) : State :=
  modPkg s p (fun k => { k with govAt := s.cycle, cruStarts := if k.govAt = s.cycle then k.cruStarts + 1 else 1,
                                sawStarts := if k.govAt = s.cycle then k.sawStarts else 0 })

/-- Whether a grove's Cruise may start its next operation (10 R265, R284; 16 R369). -/
def cruReady (s : State) (g : Nat) : Bool :=
  let u := getGrove s g
  u.cruRun.isNone && decide (u.notBefore ≤ s.cycle) && cruAdmits s (grovePkg g) && (getPkg s (grovePkg g)).cruLine.headD g == g

def execCruiseStart (grove : Nat) (s : State) : Host.Outcome State Fault Refusal :=
  event (match (getGrove s grove).cru with
    | [] => s
    | op :: rest =>
      if !cruReady s grove || quietJob s (grovePkg grove) op.job then s
      else
        let s := countCruise s (grovePkg grove)
        modGrove s grove (fun u => { u with cru := rest, cruRun := some op }))

/-- p(i, key) of R284 from the two panels as numbers; dimension d of row i is element 64 (d mod 16) + i of block d / 16. -/
def cruProduct (q k : Nat) (x : Word) (i key : Nat) : Int :=
  (List.range (geoD x)).foldl (fun acc d =>
    let a := bpiElem q (d / 16) (64 * (d % 16) + i) (geoQN x)
    let b := bpiElem k (key / 64 * (geoD x / 16) + d / 16) (64 * (d % 16) + key % 64) (geoKN x)
    acc + (2 * a + 1) * (2 * b + 1)) 0

def maxInt : List Int → Int
  | [] => 0
  | x :: l => l.foldl (fun m y => if m < y then y else m) x

def cruScore (q k : Nat) (x : Word) (r c : Nat) : Int :=
  let rows := 64 / geoR x
  maxInt ((List.range (rows * geoKT x)).map (fun e => cruProduct q k x (r * rows + e / geoKT x) (c * geoKT x + e % geoKT x)))

/-- CRST after a completed CRUISE (10 R285). -/
def crstNext (old : Word) (err : Nat) : Word := word (err + (fld old 16 32 + 1) % 2 ^ 32 * 2 ^ 16)

/-- The planes of a panel that CRUISE reads: the first n of each block (10 R284). -/
def cruRead (s : State) (op : SawOp) (va : Word) (blocks n : Nat) : Except Word Nat :=
  (List.range blocks).foldl (fun acc b =>
    match acc with
    | .error a => .error a
    | .ok v => match panelRead s op (va + word (1024 * b)) (128 * n) with
      | .error a => .error a
      | .ok bs => .ok (v + leNat bs * 2 ^ (8192 * b))) (.ok 0)

/-- CRUISE_COMPLETION. A score array on a fenced core or in a failed unit gives ERR 5: 10 R267 keeps 6 for MST, and 18 R419 names 5 for panels
(DESIGN CHOICE, log 78). -/
def execCruiseCompletion (grove : Nat) (s : State) : Host.Outcome State Fault Refusal :=
  event (match (getGrove s grove).cruRun with
    | none => s
    | some op =>
      match op.kind with
      | .cruise qa ka x scores =>
        let key := sawKey op.core scores
        let q := cruRead s op qa (geoQBytes x / 1024) (geoQN x)
        let k := cruRead s op ka (geoKBytes x / 1024) (geoKN x)
        let fenced := fencedFor s (hwWho op.core op.job) (keyCore key)
        let entries := (List.range (geoR x * geoC x)).map (fun e => (e / geoC x, e % geoC x))
        let bad := fenced || entries.any (fun e => (storeBad s (key + 4 * (16 * e.1 + e.2)) 4).isSome)
        let (s, err) := match q, k with
          | .ok q, .ok k =>
            if bad then (s, 5)
            else (entries.foldl (fun s e => memWrite s (key + 4 * (16 * e.1 + e.2)) (leBytes 4 (ofSigned 32 (cruScore q k x e.1 e.2)))) s, 0)
          | _, _ => (s, 5)
        let s := if err = 5 && !fenced then uncBump s (grovePkg grove) 1 else s
        let s := modCore s op.core (fun u => { u with crst := crstNext u.crst err })
        bumpDone (modGrove s grove (fun u => { u with cruRun := none })) (hwWho op.core op.job) op.done
      | _ => modGrove s grove (fun u => { u with cruRun := none }))

/-! ## Blaze (10 R286-R289) -/

def descRows (m : Nat) : Nat := m % 16 + 1
def descCols (m : Nat) : Nat := m / 16 % 16 + 1

/-- The bits inside a grid. -/
def gridMask (m : Nat) : Nat := (List.range (descRows m)).foldl (fun v r => v + (2 ^ descCols m - 1) * 2 ^ (16 * r)) 0

/-- The columns of a row that mode 0 keeps. -/
def keepAtLeast (l : List Int) (t : Int) : Nat := packElems' (l.map (fun x => decide (t ≤ x)))
where packElems' : List Bool → Nat
  | [] => 0
  | b :: l => b.toNat + 2 * packElems' l

/-- How many entries come before entry c in the order of mode 1: a higher score, or an equal one at a lower index. -/
def rankOf (l : List Int) (c : Nat) (x : Int) : Nat :=
  ((List.range l.length).filter (fun i => decide (x < l.getD i 0) || (decide (l.getD i 0 = x) && decide (i < c)))).length

def keepTop (l : List Int) (k : Nat) : Nat :=
  (List.range l.length).foldl (fun v c => if rankOf l c (l.getD c 0) < k then v + 2 ^ c else v) 0

def execBlaze (a b m d : Nat) := finish (.blaze a b m d) [rA a, rA b] (fun s =>
  let base := regA s a
  let p := regA s b
  let desc := fld p 0 8
  if base.toNat % 64 ≠ 0 then .trap s cMatrix base 0
  else if fld p 8 24 ≠ 0 || desc = 0 then .trap s cMatrix 0 0
  else loads s false ((List.range (descRows desc)).map (fun r => (base + word (64 * r), 4 * descCols desc))) (fun s rows =>
    let scores (bs : List Byte) : List Int := (List.range (descCols desc)).map (fun c => toSigned 32 (bfld bs (4 * c) 4))
    let bits := rows.map (fun bs => if m = 0 then keepAtLeast (scores bs) (toSigned 32 (fld p 32 32)) else keepTop (scores bs) (fld p 32 32))
    let v := bits.foldr (fun x acc => x + 2 ^ 16 * acc) 0
    .ok (setMaskDesc (setB s d (BitVec.ofNat 256 v)) d desc)))

/-- A mismatch on a B register's descriptor: operand code 3; a descriptor has no tag and no plane count (17 R379; log 66). -/
def descTrap (s : State) : Res := .trap s cTag 0 3

def execBlzmov (b d : Nat) := finish (.blzmov b d) [rB b] (fun s =>
  if maskDesc s b = 0 then descTrap s else .ok (setMaskDesc (setB s d (regB s b)) d (maskDesc s b)))
def execBlzmovStore (a b : Nat) := finish (.blzmovStore a b) [rA a, rB b] (fun s =>
  if (regA s a).toNat % 32 ≠ 0 then .trap s cMatrix (regA s a) 0
  else if maskDesc s b = 0 then descTrap s
  else store1 s false (regA s a) (leBytes 32 (regB s b).toNat) (fun s => .ok s))
def execBlzmovLoad (a b d : Nat) := finish (.blzmovLoad a b d) [rA a, rA b] (fun s =>
  let desc := (regA s b).toNat
  if (regA s a).toNat % 32 ≠ 0 then .trap s cMatrix (regA s a) 0
  else if desc = 0 || 256 ≤ desc then .trap s cMatrix 0 0
  else load1 s false (regA s a) 32 (fun s bs =>
    .ok (setMaskDesc (setB s d (BitVec.ofNat 256 (leNat bs &&& gridMask desc))) d desc)))
def execBlzmovAnd (b d : Nat) := finish (.blzmovAnd b d) [rB b, rB d] (fun s =>
  if maskDesc s b = 0 || maskDesc s b ≠ maskDesc s d then descTrap s
  else .ok (setB s d (regB s d &&& regB s b)))
def execBlzpop (a b n : Nat) := finish (.blzpop a b n) [rA b, rB n] (fun s =>
  let x := regA s b
  let desc := maskDesc s n
  if desc = 0 then descTrap s
  else if fld x 5 59 ≠ 0 || (!x.getLsbD 4 && decide (desc % 16 < fld x 0 4)) then .trap s cMatrix 0 0
  else
    let v := (regB s n).toNat &&& gridMask desc
    .ok (setA s a (word (popBelow (if x.getLsbD 4 then v else v / 2 ^ (16 * fld x 0 4) % 2 ^ 16) 256))))

end Sys2Proof.Machine
end

