-- ==== Sys2Proof/Machine/Threads.lean ====
section
/-! DEFINITION. Leaving and keeping a context, fork, join and the deque (02 R25-R31, R40-R44; 09 R242-R244, R255, R256). -/

namespace Sys2Proof.Machine

open Sys2Proof

def execEndThread (s : State) : Host.Outcome State Fault Refusal := finish .endThread [] (fun s => .left (retireThread s s.cur)) s

def execHbeat (s : State) : Host.Outcome State Fault Refusal :=
  finish .hbeat [] (fun s => .ok (modCx s (fun c => { c with hb := 0, hbMark := s.cycle }))) s

/-- YIELD: without a free slot the thread goes on (02 R30). An overflow list whose pop fails an access sends the thread to the fault handler with
the PC of the YIELD itself: 02 R29 sends the record there, R30 only speaks of a thread that finds no slot (DESIGN CHOICE, log 70). So does a register that
cannot be read; the frame then holds the loops as they were before the YIELD (02 R64). -/
def yieldBody (s : State) : Res :=
  let core := cxCore s
  if poolFull s (coreGrove core) then .wait s (.pool (coreGrove core))
  else withNext s (fun n t =>
    let s := releaseWaits s s.cur
    match spill s core (if (frameBadOfs n).isSome then cx s else n) with
    | (s, .none) => .ok s
    | (s, .held) => .wait s (.migration (corePkg core) n.job (jobD s (corePkg core) n.job).ovfl.toNat)
    | (s, .at addr) => .left (dormant (poolPush s (coreGrove core) { r := suspRec n t addr, age := 0, handler := n.handler }) s.cur)
    | (s, .failed e a) => .left (spillFault s (encode .yield) e a false 0)
    | (s, .corrupt addr a) => .left (spillFault s (encode .yield) cUncorrectable a true addr))

def execYield (s : State) : Host.Outcome State Fault Refusal := finish .yield [] yieldBody s

/-- The frame parts that a live mask names (02 R31). -/
def liveParts (s : State) (mask : Nat) (base : Word) : List (Word × List Byte) :=
  ((List.range 32).filter (fun i => mask.testBit i)).flatMap (fun i =>
    [(base + word (0x100 + 128 * i), leBytes 128 (vnat' (regV s i))),
     (base + word (0x1100 + i), leBytes 1 ((regV s i).tag + 16 * (regV s i).planes))]) ++ [(base + 0x1270, leBytes 8 mask)]
where vnat' (v : VReg) : Nat := v.bits.toNat

/-- SUSPEND's own effect (09 R243). The record's first dword stands first so that the record is checked before the frame; it is written again
last. -/
def suspendBody (a b : Nat) (s : State) : Res :=
  let addr := regA s a
  let mask := regA s b
  let base := regA s 30
  if addr.toNat % 64 ≠ 0 then .trap s cRecord addr 0
  else if fld mask 32 32 ≠ 0 then .trap s cRecord 0 0
  else if mask ≠ 0 && base.toNat % 256 ≠ 0 then .trap s cRecord base 0
  else if mask ≠ 0 && (List.range 32).any (fun i => mask.getLsbD i && regBad (cx s) (rV i)) then .badReg s
  else withNext s (fun n t =>
    let s := releaseWaits s s.cur
    let c := cx s
    let r : Rec := { pc := t, job := c.job, prio := c.prio, ff := false, fc := false, st := c.st, rs := mask != 0, w1 := base, args := ctxArgs c }
    let bytes := recBytes r
    let parts := if mask = 0 then [] else liveParts s mask.toNat base
    stores s false ((addr, bytes.take 8) :: parts ++ [(addr + 8, bytes.drop 8), (addr, bytes.take 8)]) (fun s =>
      let s := releaseWaits s s.cur
      .left (dormant (endHold s (thr s) n.hold) s.cur)))

def execSuspend (a b : Nat) := finish (.suspend a b) [rA a, rA b, rA 30, rA 1, rA 2, rA 3, rA 4, rA 5, rA 6] (suspendBody a b)

/-- Reads the 64 bytes of a record at its home, header and all (09 R244). -/
def recordAt (s : State) (addr : Word) (acc : Acc) (k : State → Nat → List Byte → Res) : Res :=
  if addr.toNat % 64 ≠ 0 then .trap s cRecord addr 0
  else match check s (thr s) acc false addr 64 with
    | (s, .ok [(key, _)]) =>
      let s := settleBytes (if keyIsScratch key then drainTo s s.cur (keyCore key) else s) key 64
      match recallLines s key 64 with
      | (s, some _) => .trap s cUncorrectable addr 0
      | (s, none) => readable s key 64 addr (
        let s := cxlDelivers s (thr s) addr.toNat (fun _ => false) key 64
        k s key (homeRead s key 64))
    | (s, .bad c a) => .trap s c a 0
    | (s, .absent a) => .absent s a true false
    | (s, .held a) => .held s a
    | (s, _) => .trap s cWindowType addr 0

/-- ERET: takes the record at A1 at the header's data home, as RESUME does, and continues the recorded thread in this context (11 R311). The thread's
program order carries over to this core (04 R99): an L1 word that the core does not own is discarded, as at a RESUME's start, and so is its instruction
cache. -/
def eretBody (s : State) : Res :=
  let a1 := regA s 1
  let core := cxCore s
  let job := (cx s).job
  recordAt s a1 .both (fun s key bs =>
    let r := recOf bs
    if !(r.ff && r.fc && r.job == job) then .trap s cRecord 0 0
    else
      let kept := carriedOf s (corePkg core) job a1
      let s := freeEntry (dropL1 (homeWrite s key (leBytes 8 0)) core key 64) (corePkg core) job a1
      let s := endHold (releaseWaits s s.cur) (thr s) (cx s).hold
      match restored s core r with
      | (s, .error e) => .left (frameLost (dormant s s.cur) core { r := r, age := 0, handler := kept } e)
      | (s, .ok n) => .left (freeFrame (setCtx (dropICache (acquire s core) core) s.cur { n with handler := kept }) core job r.w1))

/-- The HOLD dword of a fault-ring entry whose record has no frame, read at its home as the record is; none for any other record. The bytes that the core
holds of it are older than what RESUME writes there (04 R103). -/
def holdAt (s : State) (addr : Word) (key : Nat) (r : Rec) (k : State → Option Word → Res) : Res :=
  if r.ff || (entryIndex (jobD s (cxPkg s) (cx s).job) addr).isNone then k s none
  else match recallLines (settleBytes s (key + 0x60) 8) (key + 0x60) 8 with
    | (s, some _) => .trap s cUncorrectable (addr + 0x40) 0
    | (s, none) => readable s (key + 0x60) 8 (addr + 0x60)
        (k (dropL1 s (cxCore s) (key + 0x60) 8) (some (word (leNat (homeRead s (key + 0x60) 8)))))

/-- RESUME: a record is taken once; one of a fault-ring entry frees the entry, and without a frame ends what HOLD names. -/
def resumeBody (d a b : Nat) (s : State) : Res :=
  let addr := regA s a
  let tgt := regA s b
  let core := cxCore s
  if fld tgt 13 51 ≠ 0 || 23 < fld tgt 0 5 || !inCores s (corePkg core * 8192 + fld tgt 0 13) (cx s).job then .trap s cMsgDest 0 0
  else
    let g := coreGrove (corePkg core * 8192 + fld tgt 0 13)
    recordAt s addr .both (fun s key bs =>
      let s := dropL1 s core key 64
      let r := recOf bs
      let job := (cx s).job
      if bfld bs 0 8 = 0 then .ok (setA s d 0)
      else if r.job ≠ job then .trap s cRecord 0 0
      else holdAt s addr key r (fun s hold =>
        if poolFull s g then .wait s (.pool g)
        else
          let kept := carriedOf s (corePkg core) job addr
          let s := homeWrite s key (leBytes 8 0)
          let s := match hold with
            | none => s
            | some h => homeWrite (endHold s (thr s) h) (key + 0x60) (leBytes 8 0)
          let s := if (entryIndex (jobD s (corePkg core) job) addr).isSome then freeEntry s (corePkg core) job addr else s
          .ok (setA (poolPush s g { r := r, age := 0, handler := kept }) d 1)))

def execResume (d a b : Nat) := finish (.resume d a b) [rA a, rA b] (resumeBody d a b)

/-! ## Fork, join, deque -/

/-- A record goes to the bottom of the deque, or to the tail of the pool when the deque is full (02 R42). -/
def dequePush (s : State) (core : Nat) (q : QRec) : State × Bool :=
  if (getCore s core).deque.length < 64 then (modCore s core (fun u => { u with deque := q :: u.deque }), true)
  else (poolPush s (coreGrove core) q, false)

/-- Whether a push would wait: the deque and the pool are both full (02 R33). -/
def pushWaits (s : State) (core : Nat) : Bool := decide (64 ≤ (getCore s core).deque.length) && poolFull s (coreGrove core)

def execFork (a b : Nat) := finish (.fork a b) [rA a, rA b, rA 1, rA 2, rA 3, rA 4, rA 5, rA 6, rA 30] (fun s =>
  let arm := regA s a
  let core := cxCore s
  if badTarget arm || arm.toNat % 4 ≠ 0 then .trap s cInsnAddr arm 0
  else counterAt s (regA s b) (fun key => readable s key 8 (regA s b) (
    if pushWaits s core then .wait s (.pool (coreGrove core))
    else
      let s := releaseWaits s s.cur
      let c := cx s
      let r : Rec := { pc := arm, job := c.job, prio := c.prio, ff := false, fc := false, st := c.st, rs := false, w1 := regA s 30, args := ctxArgs c }
      .ok (dequePush (counterAdd s key 1) core (plainRec r)).1)))

def execJoin (a : Nat) := finish (.join a) [rA a] (fun s =>
  counterAt s (regA s a) (fun key => readable s key 8 (regA s a) (
    let s := releaseWaits s s.cur
    let v := counterRead s key
    if v = 0 then .trap s cJoin 0 0
    else
      let s := counterSet s key (v - 1)
      if v = 1 then .ok (acquire s (cxCore s)) else .left (retireThread s s.cur))))

def execDqpush (d a : Nat) := finish (.dqpush d a) [rA a] (fun s =>
  let core := cxCore s
  if (regA s a).toNat % 64 ≠ 0 then .trap s cRecord (regA s a) 0
  else load1 s false (regA s a) 64 (fun s bs =>
    let r := recOf bs
    let job := (cx s).job
    if r.job ≠ job then .trap s cRecord 0 0
    else if pushWaits s core then .wait s (.pool (coreGrove core))
    else
      let r := { r with prio := max r.prio (jobD s (corePkg core) job).cap }
      match dequePush s core (plainRec r) with
      | (s, inDeque) => .ok (setA s d (if inDeque then 0 else 1))))

def execDqpop (d a : Nat) := finish (.dqpop d a) [rA a] (fun s =>
  let core := cxCore s
  if (regA s a).toNat % 64 ≠ 0 then .trap s cRecord (regA s a) 0
  else match (getCore s core).deque with
    | [] => checked s .write [(regA s a, 64)] (fun s => .ok (setA s d 0))
    | q :: _ => store1 s false (regA s a) (recBytes q.r) (fun s =>
        .ok (setA (modCore s core (fun u => { u with deque := u.deque.drop 1 })) d 1)))

end Sys2Proof.Machine
end

