-- ==== Sys2Proof/Machine/System.lean ====
section
/-! DEFINITION. Engine registers, system instructions, control registers, safe points (06 R171-R174; 11 R290, R310-R317; 03 R86;
17 R401). -/

namespace Sys2Proof.Machine

open Sys2Proof

/-! ## Engine registers (06 R171) -/

/-- A set whose owner differs is zeroed and claimed. -/
def claimSet (s : State) (core set job : Nat) : State :=
  if kfind (getCore s core).owner set = some job then s
  else modCore s core (fun u => { u with owner := kset u.owner set job, e := u.e.filter (fun x => x.1 / 8 != set) })

def execEwr (a n : Nat) := finish (.ewr a n) [rA a] (fun s =>
  let core := cxCore s
  .ok (modCore (claimSet s core (n / 8) (cx s).job) core (fun u => { u with e := kset u.e n (regA s a) })))
def execErd (a n : Nat) := finish (.erd a n) [] (fun s => withSets s (n / 8) 1 (fun l => .ok (setA s a (l.getD (n % 8) 0))))

/-! ## NOP, TRAP, ERET, WFE, SYNCI (11 R310-R313) -/

def execNop (s : State) : Host.Outcome State Fault Refusal := finish .nop [] (fun s => .ok s) s
def execTrap (d a : Nat) := finish (.trap d a) [rA a] (fun s => .trap s cSoftTrap (regA s a) 0)
def execEret (s : State) : Host.Outcome State Fault Refusal := finish .eret [rA 1] eretBody s

/-- The wait of WFE ends: the event bit is cleared. -/
def wfeDone (s : State) : State := modCx s (fun c => { c with event := false })

def execWfe (s : State) : Host.Outcome State Fault Refusal :=
  finish .wfe [] (fun s => if (cx s).event then .ok (wfeDone s) else .wait s (.event (cxCore s))) s

/-- WFE_TIMEOUT: a WFE completes after 65,536 cycles. -/
def execWfeTimeout (ctx : Nat) (s : State) : Host.Outcome State Fault Refusal :=
  event (match (getCtx s ctx).status with
    | .waiting (.event _) since _ =>
      if since + 65536 ≤ s.cycle then
        let t := { s with cur := ctx }
        { settle .wfe t (.ok (wfeDone t)) with cur := s.cur }
      else s
    | _ => s)

/-- SYNCI: the thread's earlier stores reach their homes, where fetches read them, and the core's instruction cache is emptied (04 R108). -/
def execSynci (s : State) : Host.Outcome State Fault Refusal := finish .synci [] (fun s => .ok (dropICache (releaseWaits s s.cur) (cxCore s))) s

/-! ## Shootdowns (03 R86, R87) -/

def Shoot.hits (x : Shoot) (e : TlbEntry) : Bool :=
  match x.scope with
  | 0 => e.covers x.job x.va
  | 1 => e.job == x.job
  | _ => true

/-- A shootdown on a package: every access that used a translation is performed at its target, and both TLB levels drop what it covers.
A walk in progress gives its result only when it completes, so it is restarted. -/
def shootdown (s : State) (pkg : Nat) (x : Shoot) : State :=
  let s := drainWith (fun p => corePkg (ctxCore p.ctx) == pkg) s
  { s with
    cores := s.cores.map (fun e => if corePkg e.1 = pkg then (e.1, { e.2 with tlb := e.2.tlb.filter (fun t => !x.hits t) }) else e),
    groves := s.groves.map (fun e => if grovePkg e.1 = pkg then (e.1, { e.2 with tlb2 := e.2.tlb2.filter (fun t => !x.hits t) }) else e) }

def execTlbinvPage (a : Nat) := finish (.tlbinvPage a) [rA a] (fun s =>
  .ok (shootdown (releaseWaits s s.cur) (cxPkg s) { scope := 0, job := (cx s).job, va := (regA s a).toNat }))
def execTlbinvJob (s : State) : Host.Outcome State Fault Refusal := finish .tlbinvJob [] (fun s =>
  .ok (shootdown (releaseWaits s s.cur) (cxPkg s) { scope := 1, job := (cx s).job, va := 0 })) s

/-- TLBINV_COMPLETION: the host's shootdown number n completes, and its command ends (13 R352). -/
def execTlbinvCompletion (pkg n : Nat) (s : State) : Host.Outcome State Fault Refusal :=
  event (match (getPkg s pkg).shoots[n]? with
    | none => s
    | some x => modPkg (shootdown s pkg x) pkg (fun p =>
      { p with shoots := p.shoots.eraseIdx n, busy := !(p.shoots.eraseIdx n).isEmpty }))

/-! ## BRK (11 R315; 16 R376) -/

/-- A context stops for the debugger; its PC stays at the instruction (log 50). -/
def stopCtx (s : State) : State := modCx s (fun c => { c with status := .stopped, hb := c.hb + (s.cycle - c.hbMark) })

def execBrk (d : Nat) := finish (.brk d) [] (fun s =>
  if 1 ≤ (getPkg s (cxPkg s)).debug then .left (stopCtx s) else .trap s cBreak 0 0)

/-! ## Control registers (11 R316) -/

/-- What CRD reads at an index. -/
def controlRead (s : State) (i : Nat) : Word :=
  let c := cx s
  let u := getCore s (cxCore s)
  let d := jobD s (cxPkg s) c.job
  match i with
  | 0x000 => c.cause
  | 0x001 => c.fpc
  | 0x002 => c.faddr
  | 0x003 => c.finfo
  | 0x004 => c.stat
  | 0x005 => c.seed
  | 0x006 => word c.job
  | 0x008 => c.l0.cnt
  | 0x009 => c.l0.sta
  | 0x00A => c.l0.fin
  | 0x00B => c.l1.cnt
  | 0x00C => c.l1.sta
  | 0x00D => c.l1.fin
  | 0x00E => word (c.l0.act.toNat + 2 * c.l1.act.toNat)
  | 0x040 => word (coreId (cxCore s))
  | 0x041 => word (cxPkg s)
  | 0x042 => word d.hbi
  | 0x043 => word d.spo
  | 0x044 => word d.sps
  | 0x045 => d.ovfl
  | 0x046 => d.deck
  | 0x047 => u.stagr
  | 0x048 => word s.cycle
  | 0x049 => u.dspec
  | 0x04A => u.crst
  | 0x04B => u.lmapb
  | 0x04C => u.lmapn
  | 0x04D => if u.spm then 1 else 0
  | _ => 0

/-- The bits of STAT that CWR writes: [20:0]. The descriptors are read only. -/
def statWrite (old v : Word) : Word := (old &&& word (0xFFFFFFFF * 2 ^ 32)) ||| (v &&& 0x1FFFFF)

/-- A write of LEND governs the iteration after the current one (02 R64): `cur` stays. -/
def loopWrite (c : Ctx) (l1 : Bool) (f : LoopLevel → LoopLevel) : Ctx := if l1 then { c with l1 := f c.l1 } else { c with l0 := f c.l0 }

/-- A loop register, made good by the write (18 R409). -/
def setLoop (s : State) (n : Nat) (f : LoopLevel → LoopLevel) : State :=
  modCx s (fun c => { loopWrite c (decide (3 ≤ n)) f with badRegs := keyDel c.badRegs (rL n) })

/-- What CWR does to the issuing context or core. -/
def controlWrite (s : State) (i : Nat) (v : Word) : State :=
  let core := cxCore s
  match i with
  | 0x004 => setStat s (statWrite (cx s).stat v)
  | 0x005 => modCx s (fun c => { c with seed := v })
  | 0x008 => setLoop s 0 (fun l => { l with cnt := v })
  | 0x009 => setLoop s 1 (fun l => { l with sta := low48 v })
  | 0x00A => setLoop s 2 (fun l => { l with fin := low48 v })
  | 0x00B => setLoop s 3 (fun l => { l with cnt := v })
  | 0x00C => setLoop s 4 (fun l => { l with sta := low48 v })
  | 0x00D => setLoop s 5 (fun l => { l with fin := low48 v })
  | 0x047 => modCore s core (fun u => { u with stagr := word (fld v 0 16) })
  | 0x04B => modCore s core (fun u => { u with lmapb := v &&& ~~~(15 : Word) })
  | 0x04C => modCore s core (fun u => { u with lmapn := word (min v.toNat 65536) })
  | _ => s

/-- The loop register that an index names, as a register that may fail its check (18 R409). -/
def controlSrc (i : Nat) : List Nat := if 8 ≤ i ∧ i ≤ 13 then [rL (i - 8)] else []

def execCrd (d i : Nat) := finish (.crd d i) (controlSrc i) (fun s => .ok (setA s d (controlRead s i)))
def execCwr (a i : Nat) := finish (.cwr a i) [rA a] (fun s => .ok (controlWrite s i (regA s a)))

/-! ## Safe points (11 R317; 17 R401) -/

def keepReg {α : Type} (mask : Nat) (m : KMap α) : KMap α := m.filter (fun e => mask.testBit e.1)

/-- The bits of STAT that a live map keeps: the descriptors of live B registers. -/
def liveStat (stat : Word) (bmask : Nat) : Word :=
  stat &&& word ((List.range 4).foldl (fun v i => if bmask.testBit i then v + 255 * 2 ^ (32 + 8 * i) else v) 0)

/-- The registers that a live map names; every other one, SEED and the rest of STAT among them, is zero (log 47). -/
def liveCtx (c : Ctx) (bs : List Byte) : Ctx :=
  let lm := bfld bs 8 8 / 2 ^ 12 % 4
  let bm := bfld bs 9 1 % 16
  { c with a := keepReg (bfld bs 0 4) c.a, v := keepReg (bfld bs 4 4) c.v, m := keepReg (bfld bs 8 1) c.m, b := keepReg bm c.b,
           l0 := if lm.testBit 0 then c.l0 else .reset, l1 := if lm.testBit 1 then c.l1 else .reset, stat := liveStat c.stat bm, seed := 0 }

/-- The offset of a context's frame in its core's section of the context area, and of its extras (17 R396). -/
def areaFrame (i : Nat) : Nat := 0x33000 + 4864 * i
def areaExtra (i : Nat) : Nat := 0x3C800 + 64 * i

/-- The extras of a context (17 R396; log 83). -/
def extraBytes (c : Ctx) (held sp : Bool) : List Byte :=
  qword c.cause ++ qword c.fpc ++ qword c.faddr ++ qword c.finfo ++ leBytes 8 c.event.toNat ++ leBytes 24 (held.toNat + 2 * sp.toNat)

/-- A thread leaves for the management processor with the registers of c: its frame and its extras go to the context area (17 R401). -/
def holdSafe (s : State) (ctx : Nat) (c : Ctx) (sp : Bool) : State :=
  let base := coreId (ctxCore ctx) * 2 ^ 18
  modPkg (dormant s ctx) (corePkg (ctxCore ctx)) (fun p => { p with
    safe := p.safe ++ [{ job := c.job, core := ctxCore ctx, sp := sp, ctx := c }],
    area := kset (kset p.area (base + areaFrame (ctx % 8)) (frameBytes c 0)) (base + areaExtra (ctx % 8)) (extraBytes c true sp) })

def execSafept (i : Nat) := finish (.safept i) [] (fun s =>
  let u := getCore s (cxCore s)
  if !u.spm then .ok s
  else if u.lmapn.toNat ≤ i then .trap s cLiveMap 0 0
  else load1 s false (u.lmapb + word (16 * i)) 16 (fun s bs =>
    let c := cx s
    let (n, t) := loopEnd c c.pc (c.pc + 4)
    if badTarget t then .trap s cInsnAddr t 0
    else if (unacked s s.cur).isSome then .wait s (.acks (cxCore s))
    else .left (holdSafe (releaseWaits s s.cur) s.cur { liveCtx n bs with pc := t } true)))

end Sys2Proof.Machine
end

