-- ==== Sys2Proof/Machine/EngineRun.lean ====
section
/-! DEFINITION. Start and completion of engine operations (11 R293-R305, R309; 03 R92, R93; 18 R417, R418, R425). -/

namespace Sys2Proof.Machine

open Sys2Proof

/-- An operation acts on its core's die, one of Quadrille on the I/O die (01 R13). -/
def opWho (core : Nat) (o : EngOp) : Who := { hwWho core o.job with die := if o.unit = 4 then some ioDie else none }

def setOpPhase (s : State) (core id : Nat) (p : OpPhase) : State :=
  modCore s core (fun u => { u with ops := u.ops.map (fun o => if o.id = id then { o with phase := p } else o) })

/-- A delivery to the operation's barrier (11 R291). -/
def opDeliver (s : State) (core : Nat) (o : EngOp) (n : Nat) : State :=
  let k := sawKey core (o.sets.getD 5 0)
  if o.sets.getD 5 0 = 0 || n = 0 || cutFor s (opWho core o) (keyCore k) then s else barrierDeliver s k n

/-- Finishes an operation from the outcome of its last accesses; n bytes were delivered. -/
def opEnd (s : State) (core : Nat) (o : EngOp) (n : Nat) : EngRes → State
  | .wait => s
  | .fail c d a => opDeliver (finishEng s core o.id c d a) core o n
  | .done _ => opDeliver (finishEng s core o.id 0 0 0) core o n

/-! ## ECOPY, EGATH, ESCAT (11 R296, R297) -/

/-- A copy that did not succeed; k other bytes were written. -/
def copyEnd (s : State) (core : Nat) (o : EngOp) (l : List (Word × Word × Nat)) (k : Nat) (r : EngRes) : State :=
  match copyFailed s (opWho core o) l r with
  | (s, r, n) => opEnd s core o (k + n) r

/-- The keys of the bytes of an access. -/
def accessKeys (s : State) (w : Who) (acc : Acc) (a : Word) (n : Nat) : List (Nat × Nat) :=
  match accessTry s w acc a n with
  | (_, .ok [.ok sp]) => sp
  | _ => []
def spanKeys (l : List (Nat × Nat)) : List Nat := l.flatMap (fun e => (List.range e.2).map (fun i => e.1 + i))

/-- Spans in ascending order, each with whether it is written. -/
def insertSpan (x : Nat × Nat × Bool) : List (Nat × Nat × Bool) → List (Nat × Nat × Bool)
  | [] => [x]
  | y :: l => if y.1 < x.1 then y :: insertSpan x l else x :: y :: l

/-- Whether a written span meets another span; `we` and `re` are the ends of the written and of the read spans so far. -/
def spansClash : List (Nat × Nat × Bool) → Nat → Nat → Bool
  | [], _, _ => false
  | (k, n, wr) :: l, we, re =>
    if n = 0 then spansClash l we re
    else decide (k < we) || (wr && decide (k < re)) || (if wr then spansClash l (max we (k + n)) re else spansClash l we (max re (k + n)))

/-- Whether two elements of a copy write a byte, or one writes a byte that is read. -/
def copyClash (s : State) (w : Who) (l : List (Word × Word × Nat)) : Bool :=
  spansClash ((l.flatMap (fun e => (accessKeys s w .read e.1 e.2.2).map (fun x => (x.1, x.2, false))
    ++ (accessKeys s w .write e.2.1 e.2.2).map (fun x => (x.1, x.2, true)))).foldr insertSpan []) 0 0

/-- A byte of a copy: its source and destination keys, and the aligned dwords of its element in which they lie, by numbers of the read and of the write. -/
structure CopyByte where
  src : Nat
  dst : Nat
  read : Nat
  write : Nat
deriving DecidableEq, Repr

/-- The bytes of the element number e of a copy. -/
def elementBytes (e : Nat) (src dst : List Nat) : List CopyByte :=
  (src.zip dst).map (fun b => { src := b.1, dst := b.2, read := e * 2 ^ 72 + b.1 / 8, write := e * 2 ^ 72 + b.2 / 8 })

/-- The place of a byte in the values read so far. -/
def CopyByte.num (b : CopyByte) : Nat := b.read / 2 ^ 72 * 2 ^ 72 + b.src

/-- Reads one aligned dword of an element's source, of the bytes l that are still to be written. -/
def readDword (s : State) (l : List CopyByte) (got : KMap Byte) (n : Nat) : KMap Byte :=
  (l.filter (fun b => b.read == n && (kfind got b.num).isNone)).foldl (fun m b => kset m b.num ((homeRead s b.src 1).headD 0)) got

/-- Copies bytes in a free order, one aligned dword of one element's destination at a time, and so whole (04 R97); a source dword that has not been read is
read, whole too, when a byte of it is first written. -/
def copyBytes (s : State) (got : KMap Byte) : Nat → List CopyByte → State
  | 0, _ => s
  | n + 1, l =>
    match l[(freeNow s).toNat % l.length]? with
    | none => s
    | some b =>
      let mine := l.filter (fun x => x.write == b.write)
      let got := mine.foldl (fun m x => readDword s l m x.read) got
      copyBytes (mine.foldl (fun s x => homeWrite s x.dst [kget got 0 x.num]) (freeStep s)) got n (l.filter (fun x => x.write != b.write))

/-- A copy whose bytes meet: each byte holds the value of one of the writes or reads concerned (11 R296; log 5). A source dword is read at the start or at
its turn, a free choice. -/
def copyFree (s : State) (w : Who) (l : List (Word × Word × Nat)) : State :=
  let dst := l.flatMap (fun e => accessKeys s w .write e.2.1 e.2.2)
  let s := dst.foldl (fun s e => (recallLines s e.1 e.2).1) s
  let bs := l.zipIdx.flatMap (fun e => elementBytes e.2 (spanKeys (accessKeys s w .read e.1.1 e.1.2.2)) (spanKeys (accessKeys s w .write e.1.2.1 e.1.2.2)))
  let (s, got) := ((bs.map (fun b => b.read)).foldl keyAdd []).foldl (fun (r : State × KMap Byte) n =>
    (freeStep r.1, if freeBit r.1 then readDword r.1 bs r.2 n else r.2)) (s, [])
  dst.foldl (fun s e => mend s e.1 e.2) (copyBytes s got bs.length bs)

/-- The (source, destination) offsets of ECOPY, dimension 0 innermost. -/
def copyOffsets (l : List Word) : Nat → List (Word × Word)
  | 0 => [(0, 0)]
  | d + 1 => (List.range (copyCount l d)).flatMap (fun i =>
      (copyOffsets l d).map (fun o => (o.1 + word i * l.getD (8 + 2 * d) 0, o.2 + word i * l.getD (9 + 2 * d) 0)))

def startCopy (s : State) (core : Nat) (o : EngOp) : State :=
  let x := o.sets.getD 0 0
  let n := fld x 0 13
  let offs := copyOffsets o.sets (fld x 13 4)
  let w := opWho core o
  let moves := offs.map (fun e => (o.a + e.1, o.b + e.2, n))
  match engineRead s w o.id (moves.map (fun e => (e.1, n))) with
  | (s, .done bs) => match engineWrite s w o.id ((moves.zip bs).map (fun e => (e.1.2.1, e.2))) with
    | (t, .done r) => opEnd (if copyClash s w moves then copyFree s w moves else t) core o (n * offs.length) (.done r)
    | (s, r) => copyEnd s core o moves 0 r
  | (s, r) => copyEnd s core o moves 0 r

/-- The rows of a list: (position, index), skipped ones as none. -/
def listRows (bs : List Byte) (n iw : Nat) (skip : Bool) : List (Nat × Option Nat) :=
  (List.range n).map (fun p =>
    let v := bfld bs (iw * p) iw
    (p, if skip && v = 2 ^ (8 * iw) - 1 then none else some v))

def startGather (s : State) (core : Nat) (o : EngOp) : State :=
  let x := o.sets.getD 0 0
  let esz := fld x 0 13
  let n := fld x 16 14
  let iw := if o.opt.testBit 0 then 8 else 4
  let stride := o.sets.getD 9 0
  let w := opWho core o
  match engineRead s (opWho core o) o.id [(o.sets.getD 8 0, iw * n)] with
  | (s, .done l) =>
    let rows := listRows (l.headD []) n iw (o.opt.testBit 1)
    let live := rows.filterMap (fun r => r.2.map (fun i => (r.1, i)))
    let scatter := o.word / 2 ^ 16 % 32 = 1
    if scatter then
      let moves := live.map (fun r => (o.a + word (r.1 * esz), o.b + word r.2 * stride, esz))
      match engineRead s w o.id (moves.map (fun e => (e.1, esz))) with
      | (s, .done bs) =>
        match engineWrite s w o.id ((moves.zip bs).map (fun e => (e.1.2.1, e.2))) with
        | (s, .done r) => opEnd s core o (esz * live.length) (.done r)
        | (s, r) => copyEnd s core o moves 0 r
      | (s, r) => copyEnd s core o moves 0 r
    else
      let moves := live.map (fun r => (o.a + word r.2 * stride, o.b + word (r.1 * esz), esz))
      match engineRead s w o.id (moves.map (fun e => (e.1, esz))) with
      | (s, .done bs) =>
        let zeros := if o.opt.testBit 2 then (rows.filter (fun r => r.2.isNone)).map (fun r => (o.b + word (r.1 * esz), List.replicate esz 0)) else []
        match engineWrite s w o.id ((moves.zip bs).map (fun e => (e.1.2.1, e.2)) ++ zeros) with
        | (s, .done r) => opEnd s core o (esz * (live.length + zeros.length)) (.done r)
        | (s, r) => match writeFailed s w zeros r with
        | (s, k) => copyEnd s core o moves k r
      | (s, r) => copyEnd s core o moves 0 r
  | (s, r) => opEnd s core o 0 r

/-! ## EBIND and ENEAR (11 R298, R301; 12 R337, R338; 18 R420) -/

def startBind (s : State) (core : Nat) (o : EngOp) : State :=
  let x := o.sets.getD 0 0
  let stk := fld x 0 3
  let slot := fld x 3 6
  let key := slot + stk * 64
  let pkg := corePkg core
  match getStream s pkg key with
  | none => s
  | some st =>
    if st.started || st.complete then s
    else if !x.getLsbD 10 then setStream s pkg key { st with started := true, elems := passElems, edges := passEdges, passThrough := true, sport := 0 }
    else match engineRead s (streamWho stk st) o.id [(o.a, 64)] with
      | (s, .done h) =>
        match headerBad (h.headD []) with
        | some w => endStream s pkg key st 3 6 (word w)
        | none => match engineRead s (streamWho stk st) o.id [(o.a, bfld (h.headD []) 4 4)] with
          | (s, .done l) => match armImage (getPkg s pkg) stk slot st (l.headD []) with
            | .ok st => setStream s pkg key st
            | .error (d, w) => endStream s pkg key st 3 d (word w)
          | (s, .fail c d a) => endStream s pkg key st c d a
          | (s, .wait) => s
      | (s, .fail c d a) => endStream s pkg key st c d a
      | (s, .wait) => s

def startNear (s : State) (core : Nat) (o : EngOp) : State :=
  let x := o.sets.getD 0 0
  let n := (o.sets.getD 6 0).toNat
  let passes := nbPasses o.a o.b (o.sets.getD 9 0) (o.sets.getD 10 0) (o.sets.getD 8 0).toNat
  match nbCommand s (opWho core o) (fld x 0 2) (fld x 2 2) (o.sets.getD 7 0).toNat n passes with
  | (s, k, c, d, a) => opDeliver (finishEng s core o.id c d a) core o k

/-! ## EQRY (11 R302; 03 R89) -/

/-- The 16 bytes of a hotness entry. -/
def hotBytes : Option Hot → List Byte
  | none => leBytes 16 0
  | some h => leBytes 8 (1 + h.win % 2 ^ 31 * 2 + min (2 ^ 32 - 1) (8 * h.stv + h.dlv / 16) * 2 ^ 32) ++ leBytes 4 h.dlv ++ leBytes 4 h.stv

def hotEntries (p : Pkg) (src first n : Nat) : List Byte := (List.range n).flatMap (fun i => hotBytes (kfind p.hot (src * 4096 + first + i)))

/-- An entry of an EQRY that fails: whether it was copied before is a free choice (11 R295; log 5); one that was copied is whole, and is cleared. -/
def copyHot (s : State) (w : Who) (a : Word) (i : Nat) (clear : State → Nat → State) : State :=
  if !freeBit s then freeStep s
  else match accessTry (freeStep s) w .write a 16 with
    | (t, .ok cs) => clear (placesWrite t cs [hotBytes (kfind (getPkg s (corePkg w.core)).hot i)]) i
    | _ => freeStep s

def startQuery (s : State) (core : Nat) (o : EngOp) : State :=
  let x := o.sets.getD 0 0
  let pkg := corePkg core
  let src := fld x 0 4
  let first := fld x 4 12
  let n := fld x 16 13
  let clear (s : State) (i : Nat) : State := if x.getLsbD 31 then modPkg s pkg (fun p => { p with hot := kdel p.hot i }) else s
  let entries := (List.range n).map (fun i => src * 4096 + first + i)
  match engineWrite s (opWho core o) o.id [(o.a, hotEntries (getPkg s pkg) src first n)] with
  | (s, .done b) => opEnd (entries.foldl clear s) core o 0 (.done b)
  | (s, .wait) => s
  | (s, r) => opEnd (entries.foldl (fun s i => copyHot s (opWho core o) (o.a + word (16 * (i - src * 4096 - first))) i clear) s) core o 0 r

/-! ## QLOAD (11 R304) -/

def startLoad (s : State) (core : Nat) (o : EngOp) : State :=
  let pkg := corePkg core
  let slot := o.b.toNat
  let bad (s : State) (w : Nat) : State := finishEng (modPkg s pkg (fun p => { p with plans := kdel p.plans slot })) core o.id 3 3 (word w)
  match engineRead s (opWho core o) o.id [(o.a, 64)] with
  | (s, .done h) =>
    match planHeaderBad (h.headD []) with
    | some w => bad s w
    | none => match engineRead s (opWho core o) o.id [(o.a, planBytes (h.headD []))] with
      | (s, .done l) => match parsePlan (l.headD []) o.job pkg with
        | .error w => bad s w
        | .ok p => finishEng (modPkg s pkg (fun k => { k with plans := kset k.plans slot p })) core o.id 0 0 0
      | (s, r) => opEnd s core o 0 r
  | (s, r) => opEnd s core o 0 r

/-! ## MIGR (03 R92, R93; 11 R309; 18 R425) -/

/-- A record is released beside a page: the home grove of a key, or the grove of the core that parked it (18 R406). -/
def releaseBeside (s : State) (job key : Nat) (core : Nat) (q : QRec) : State :=
  let g := homeGrove key
  let here := (List.range 24).any (fun i => inCores s (groveCore g i) job)
  poolPush s (if here then g else coreGrove core) q

/-- Step 5 of R93: the mark is cleared and the parked records are released beside a key. -/
def endMigration (s : State) (pkg key : Nat) (m : Migration) : State :=
  let s := modPkg s pkg (fun p => { p with migs := p.migs.filter (fun x => !(x.job == m.job && x.va == m.va)) })
  flushPushes (m.parked.foldl (fun s e => releaseBeside s m.job key e.1 e.2) s) pkg

/-- The reason that a migration has no effect (11 R309; log 51). -/
def migrRefusal (s : State) (pkg : Nat) (job : Nat) (e : TlbEntry) (dst : Nat) : Option Nat :=
  let k := getPkg s pkg
  let inside := dst % e.size == 0 && ((paRange dst == 0 && paRange (dst + e.size - 1) == 0) || (paRange dst == 1 && paRange (dst + e.size - 1) == 1))
  let granted := (kget k.grants [] job).any (fun g => decide (g.1 ≤ dst) && decide (dst + e.size ≤ g.1 + g.2))
  if e.size = 2 ^ 30 then some 1
  else if leafBit e 10 then some 2
  else if !inside then some 3
  else if k.migs.any (fun m => m.job == job && m.va == e.va) then some 4
  else if !granted then some 5
  else none

/-- The leaf entries that map a page, with their new values (03 R93 step 4). -/
def newLeaves (s : State) (e : TlbEntry) (va dst : Nat) : List (Nat × Word) :=
  let run := e.size = 65536
  let first := if run then e.leafAt - 8 * (va / 4096 % 16) else e.leafAt
  (List.range (if run then 16 else 1)).map (fun i =>
    let key := first + 8 * i
    let old := tableRead s key
    let keep := old &&& ~~~(word ((2 ^ 40 - 1) * 2 ^ 12 + 2 ^ 9))
    (key, keep ||| word (dst + 4096 * i + if paRange dst = 0 then 0 else 2 ^ 9)))

/-- Steps 1 and 2: the mark and the shootdown (log 41). A window's address and a page with U = 0, for which 11 R309 has no DETAIL, fail as engine accesses with
CODE 1 (DESIGN CHOICE, log 88). -/
def startMigr (s : State) (core : Nat) (o : EngOp) : State :=
  let pkg := corePkg core
  let va := o.a.toNat
  let done (c d : Nat) (a : Word) : State := finishEng s core o.id c d a
  if addrClass o.a ≠ .translated then done 1 (if addrClass o.a = .nonCanonical then cNonCanonical else cWindowType) o.a
  else if !(astEntry s pkg o.job).getLsbD 0 then done 1 cNotPresent o.a
  else match walk s pkg (coreDie core) o.job va with
    | .absent => done 4 6 0
    | .bad c => done (failCode c) (if c = cUncorrectable then 0 else c) o.a
    | .leaf e =>
      if !leafBit e 4 then done 1 cDenied o.a
      else match migrRefusal s pkg o.job e o.b.toNat with
        | some d => done 4 d 0
        | none =>
          let m : Migration := { job := o.job, va := e.va, size := e.size, src := e.pa, dst := o.b.toNat, op := o.id, core := core, parked := [] }
          let s := modPkg s pkg (fun p => { p with migs := p.migs ++ [m] })
          shootdown s pkg { scope := 0, job := o.job, va := va }

/-- The first byte of a page, as an offset, whose access gets no answer: pages are copied in chunks of 4 KiB (13 R349; 18 R423). -/
def noAnswer (s : State) (pkg die pa size : Nat) : Option Nat :=
  ((List.range ((size + 4095) / 4096)).find? (fun i => !answers s pkg die (pa + 4096 * i))).map (fun i => 4096 * i)

/-- Steps 3 to 5: update-only lines of both pages are combined first, for the copy reads the one and writes the other (04 R114). A failure leaves the leaf as it is and releases the records beside the page's old first byte (18 R425). -/
def runMigr (s : State) (core : Nat) (o : EngOp) (m : Migration) : State :=
  let pkg := corePkg core
  let failed (s : State) (c d : Nat) (a : Word) : State := finishEng (endMigration s pkg (physKey pkg m.src) m) core o.id c d a
  match walk s pkg (coreDie core) m.job m.va with
  | .absent => failed s 4 6 0
  | .bad c => failed s (failCode c) (if c = cUncorrectable then 0 else c) o.a
  | .leaf e =>
    let old := paSpans s pkg e.pa m.size
    let new := paSpans s pkg m.dst m.size
    let at_ (i : Int) : Word := addOfs (word m.va) i
    match noAnswer s pkg (coreDie core) e.pa m.size, noAnswer s pkg (coreDie core) m.dst m.size with
    | some i, _ => failed s 1 cNoTarget (word (m.va + i))
    | none, some i => failed s 1 cNoTarget (word (m.va + i))
    | none, none => match recallSpans s old 0 with
      | (s, some i) => failed s 2 0 (at_ i)
      | (s, none) => match recallSpans s new 0 with
        | (s, some i) => failed s 2 0 (at_ i)
        | (s, none) => match firstBadIn s old 0 with
          | some i => failed s 2 0 (word (m.va + i))
          | none =>
            let s := spansWrite (paDeliver s e.pa old) new (spansHome s old)
            let s := (newLeaves s e m.va m.dst).foldl (fun s x => homeWrite s x.1 (qword x.2)) s
            finishEng (endMigration s pkg (physKey pkg m.dst) m) core o.id 0 0 0

/-! ## The two events (11 R293) -/

/-- What a started operation does. -/
def runOp (s : State) (core : Nat) (o : EngOp) : State :=
  match o.unit with
  | 0 => startCopy s core o
  | 1 => startGather s core o
  | 2 => if o.word / 2 ^ 16 % 32 = 1 then startBind s core o else startNear s core o
  | 3 => startQuery s core o
  | 4 => if o.word / 2 ^ 16 % 32 = 1 then startPlay s core o.id else startLoad s core o
  | 6 =>
    match (getPkg s (corePkg core)).migs.find? (fun m => m.core == core && m.op == o.id) with
    | some m => runMigr s core o m
    | none => startMigr s core o
  | _ => s

/-- The "after" counter of an operation. -/
def opAfter (core : Nat) (o : EngOp) : Option Nat := if o.sets.getD 1 0 = 0 then none else some (sawKey core (o.sets.getD 1 0))

/-- ENGINE_OPERATION_START: a waiting operation starts when its counter has reached its target; one that waits for a page tries again. -/
def execEngineOperationStart (core n : Nat) (s : State) : Host.Outcome State Fault Refusal :=
  event (match (getCore s core).ops[n]? with
    | none => s
    | some o =>
      match o.phase with
      | .finished => s
      | .running => runOp s core o
      | .waiting =>
        if (getPkg s (corePkg core)).quiet.contains o.job || !afterMet s (opAfter core o) (o.sets.getD 2 0) then s
        else
          let s := setOpPhase s core o.id .running
          runOp (if o.unit = 4 && o.word / 2 ^ 16 % 32 = 1 then rerouteThePlays (beginPlay s (corePkg core) core o.id) else s) core o)

/-- The bytes of an operation's status record (11 R294), or of a QPLAY's completion record (R305). -/
def statusBytes (s : State) (core : Nat) (o : EngOp) : List Byte :=
  match (if o.unit = 4 then playOf s core o.id else none) with
  | some y => playRecord y (corePkg core)
  | none => leBytes 8 (o.code + o.detail * 256) ++ qword o.where_

/-- The operation leaves: an EBIND releases its slot. -/
def dropOp (s : State) (core : Nat) (o : EngOp) : State :=
  let s := modCore s core (fun u => { u with ops := u.ops.filter (fun x => x.id != o.id) })
  if o.unit = 2 then modPkg s (corePkg core) (fun p => { p with streams := p.streams.filter (fun e => !(e.2.core == core && e.2.op == o.id)) }) else s

/-- ENGINE_OPERATION_COMPLETION: the status write, then the completion counter. -/
def execEngineOperationCompletion (core n : Nat) (s : State) : Host.Outcome State Fault Refusal :=
  event (match (getCore s core).ops[n]? with
    | none => s
    | some o =>
      if o.phase ≠ .finished then s
      else
        let at_ := o.sets.getD 4 0
        let finish (s : State) : State :=
          bumpDone (dropOp s core o) (opWho core o) (if o.sets.getD 3 0 = 0 then none else some (sawKey core (o.sets.getD 3 0)))
        if at_ = 0 then finish s
        else
          let l := [(at_, statusBytes s core o)]
          match engineWrite s (opWho core o) o.id l with
          | (s, .wait) => s
          | (s, .done _) => finish s
          | (s, .fail c d a) =>
            let s := if c = 2 then uncAt s (opWho core o) a 5 else s
            finish (memNotice s (corePkg core) o.job (coreId core) (if c = 2 then cUncorrectable else d) at_ o.word))

end Sys2Proof.Machine
end

