-- ==== Sys2Proof/Machine/Groups.lean ====
section
/-! DEFINITION. Groups, SENDM, group loads and the group barrier (02 R38, R39; 09 R238, R249-R253; 01 R15; 18 R410-R413). -/

namespace Sys2Proof.Machine

open Sys2Proof

/-! ## Membership records -/

def setGroup (s : State) (pkg job n : Nat) (g : Group) : State :=
  modGrove s (groupSlice pkg job n) (fun u => { u with groups := kset u.groups (groupKey job n) g })

def delGroup (s : State) (pkg job n : Nat) : State :=
  modGrove s (groupSlice pkg job n) (fun u => { u with groups := kdel u.groups (groupKey job n) })

def memberOf (g : Group) (core : Nat) : Option Member := g.members.find? (fun m => m.core == core)

/-- A core that counts as arrived and contributes nothing for a job (17 R392, 18 R410). -/
def memberFenced (s : State) (job core : Nat) : Bool :=
  let u := getCore s core
  u.fenced.isSome || u.unrepaired.contains job || u.offMark

/-- The die of a slice. -/
def groveDie (g : Nat) : Nat := g % 256 / 64

/-- R253: at least one arrival, and every current member has arrived or is fenced, or stands on the other side of a die's isolation from the slice that
holds the record (19 R431; log 53). -/
def phaseComplete (s : State) (slice job : Nat) (g : Group) : Bool :=
  g.members.any (fun m => decide (0 < m.arr)) && g.members.all (fun m =>
    decide (0 < m.arr) || memberFenced s job m.core || isolatedAt s (grovePkg slice) (groveDie slice) m.core)

/-- The stagger step of a core (11 R316). -/
def stagStep (s : State) (core : Nat) : Nat := fld (getCore s core).stagr 0 16

/-- Each grove of a member starts no Sawmill operation before c + S × g, S the largest step among the group's members there (01 R15). -/
def staggerGroves (s : State) : List Member → State
  | [] => s
  | m :: l =>
    staggerGroves (modGrove s (coreGrove m.core) (fun u =>
      { u with notBefore := max u.notBefore (s.cycle + stagStep s m.core * groveNum (coreGrove m.core)) })) l

/-- Completes the phases whose test holds; arrivals beyond the current phase stay for the next. -/
def completePhases (s : State) (slice job : Nat) : Nat → Group → State × Group
  | 0, g => (s, g)
  | n + 1, g =>
    if phaseComplete s slice job g then
      let s := staggerGroves s g.members
      completePhases s slice job n { g with phase := (g.phase + 1) % 65536,
                                            dones := kset (g.dones.filter (fun e => decide (s.cycle < e.2 + 2 ^ 22))) g.phase s.cycle,
                                            members := g.members.map (fun m => { m with arr := m.arr - 1 }) }
    else (s, g)

/-- Writes a group after its completion test; a group without members is dissolved and its waiters run again (log 36). -/
def settleGroup (s : State) (pkg job n : Nat) (g : Group) : State :=
  if g.members.isEmpty then
    g.noted.foldl (fun s c => wake s c (fun o => match o with
      | .group p j m _ => p == pkg && j == job && m == n
      | _ => false)) (delGroup s pkg job n)
  else
    let (s, g) := completePhases s (groupSlice pkg job n) job ((g.members.map (fun m => m.arr)).foldl max 0) g
    setGroup s pkg job n g

/-! ## A membership record that fails its check (18 R413) -/

def groupVa (n : Nat) : Word := word (0x1D0 * 2 ^ 48 + n % 65536 * 2 ^ 17)
def markOf (pkg job n : Nat) : Nat := groupMark (groupSlice pkg job n) (groupKey job n)

/-- Whether an object is the wait of a GBAR on a group. -/
def onGroup (pkg job n : Nat) (o : Obj) : Bool :=
  match o with
  | .group p j m _ => p == pkg && j == job && m == n
  | _ => false

/-- The reset of a failed record: no members. Every GBAR that waits on it runs again and traps, be the group made anew before or not. -/
def resetGroup (s : State) (pkg job n : Nat) : State :=
  let s := { s with
    bad := keyDel s.bad (markOf pkg job n),
    ctxs := s.ctxs.map (fun e => match e.2.status with
      | .waiting o _ _ => if onGroup pkg job n o then (e.1, { e.2 with lost := true }) else e
      | _ => e),
    cores := s.cores.map (fun e => (e.1, { e.2 with park := e.2.park.map (fun p =>
      if onGroup pkg job n p.obj then { p with qrec := { p.qrec with lost := true } } else p) })) }
  match getGroup s pkg job n with
  | some g => settleGroup s pkg job n { g with members := [] }
  | none => s

/-- Whether the record of the running job's group n fails its check. -/
def groupFails (s : State) (n : Nat) : Bool := s.bad.contains (markOf (cxPkg s) (cx s).job n)

/-- Continues when the record of a group is good, else resets it and traps. -/
def groupGood (s : State) (n : Nat) (k : State → Res) : Res :=
  if groupFails s n then .trap (resetGroup s (cxPkg s) (cx s).job n) cUncorrectable (groupVa n) 0 else k s

/-- The group number of a register operand (09 R249). -/
def groupNum (s : State) (x : Word) (k : Nat → Res) : Res := if fld x 16 48 ≠ 0 then .trap s cGroupNumber 0 0 else groupGood s x.toNat (fun _ => k x.toNat)

/-! ## SENDM (09 R238) -/

/-- The cores of a route-class set (09 R238); none for a bad selector. -/
def routeSet (s : State) (pkg job r : Nat) (x : Word) : Option (List Nat) :=
  let sel := fld x 0 16
  if fld x 16 16 ≠ 0 || fld x 45 19 ≠ 0 || 4096 < fld x 32 13 then none
  else if r = 0 then (if 256 ≤ sel then none else some ((List.range 24).map (fun i => pkg * 8192 + sel * 32 + i)))
  else if r = 1 then (if 4 ≤ sel then none else some ((List.range 1536).map (fun i => pkg * 8192 + denseCore (1536 * sel + i))))
  else if r = 2 then some (match getGroup s pkg job sel with
    | some g => g.members.map (fun m => m.core)
    | none => [])
  else if sel ≠ 0 then none
  else some ((List.range 6144).map (fun i => pkg * 8192 + denseCore i))

/-- One copy per core of the set that is in CORES; copies beyond the injector's room follow as it empties (09 R238). -/
def sendCopies (m : Nat → Msg) : List Nat → State → State
  | [], s => s
  | c :: cs, s => sendCopies m cs (injectLater s (cxCore s) (m c))

/-- SENDM. A membership record that fails its check when the multicast passes it is reset like any (18 R413), and the set is empty: SENDM, which R413 does
not name among the instructions that trap, sends nothing (DEDUCED, log 105). -/
def execSendm (a b r p h : Nat) := finish (.sendm a b r p h) [rA a, rA b, rA (b + 1), rA (b + 2)] (fun s =>
  let x := regA s a
  match routeSet s (cxPkg s) (cx s).job r x with
  | none => .trap s cMsgDest 0 0
  | some cores => sendTo s (regA s b) (fld x 32 13) (fun s bs =>
      .ok (if r = 2 && groupFails s (fld x 0 16) then uncBump (resetGroup s (cxPkg s) (cx s).job (fld x 0 16)) (cxPkg s) 2
        else sendCopies (fun dst => newMsg dst (cx s).job h (capped s p) (regA s (b + 1)) (regA s (b + 2)) bs 0)
          (cores.filter (fun c => inCores s c (cx s).job)) s)))

/-! ## Joining and leaving (09 R250) -/

def lowestRank (g : List Member) : Nat := (lowestFree (fun r => g.any (fun m => m.rank == r)) 6144 0).getD 0

def execGjoin (d b : Nat) := finish (.gjoin d b) [rA b] (fun s =>
  groupNum s (regA s b) (fun n =>
    let pkg := cxPkg s
    let job := (cx s).job
    let core := cxCore s
    match getGroup s pkg job n with
    | none =>
      if 32 ≤ (getGrove s (groupSlice pkg job n)).groups.length then .trap s cGroupTable 0 0
      else .ok (setA (settleGroup s pkg job n
        { members := [{ core := core, rank := 0, joins := 1, arr := 0 }], phase := 0, dones := [], noted := [] }) d 0)
    | some g =>
      match memberOf g core with
      | some m =>
        if 65535 ≤ m.joins then .trap s cGroupNumber 0 0
        else .ok (setA (settleGroup s pkg job n { g with members := g.members.map (fun x =>
          if x.core == core then { x with joins := x.joins + 1 } else x) }) d (word m.rank))
      | none =>
        let r := lowestRank g.members
        .ok (setA (settleGroup s pkg job n { g with members := g.members ++ [{ core := core, rank := r, joins := 1, arr := 0 }] }) d (word r))))

def execGleave (d b : Nat) := finish (.gleave d b) [rA b] (fun s =>
  groupNum s (regA s b) (fun n =>
    let pkg := cxPkg s
    let job := (cx s).job
    let core := cxCore s
    let s := releaseWaits s s.cur
    match getGroup s pkg job n with
    | none => .ok (setA s d (BitVec.allOnes 64))
    | some g =>
      match memberOf g core with
      | none => .ok (setA s d (BitVec.allOnes 64))
      | some m =>
        if 1 < m.joins then
          .ok (setA (settleGroup s pkg job n { g with members := g.members.map (fun x =>
            if x.core == core then { x with joins := x.joins - 1 } else x) }) d (word (m.joins - 1)))
        else .ok (setA (settleGroup s pkg job n { g with members := g.members.filter (fun x => x.core != core) }) d 0)))

def execGinfo (d b : Nat) := finish (.ginfo d b) [rA b] (fun s =>
  groupNum s (regA s b) (fun n =>
    match getGroup s (cxPkg s) (cx s).job n with
    | none => .ok (setA s d 0)
    | some g =>
      let (r, j) := match memberOf g (cxCore s) with
        | some m => (m.rank, m.joins)
        | none => (0xFFFF, 0)
      .ok (setA s d (word (r + g.members.length * 2 ^ 16 + j * 2 ^ 32 + g.phase * 2 ^ 48)))))

/-! ## Group loads (09 R251, R252) -/

/-- The format tag and size of a group load's format field: 0 .i32, 1 .i64, 2 .f32. -/
def gldTag (t : Nat) : Nat := if t = 0 then 3 else if t = 1 then 4 else 5
def gldSize (t : Nat) : Nat := if t = 1 then 8 else 4

/-- The offset of a group-window address, or its failure. A non-canonical address has the cause of 03 R65, though 09 R251 gives any other address "window
access type" (DESIGN CHOICE, log 38). -/
def groupAddr (s : State) (va : Word) (size : Nat) (k : Nat → Nat → Res) : Res :=
  match addrClass va with
  | .nonCanonical => .trap s cNonCanonical va 0
  | .group =>
    let ofs := fld va 0 17
    if fld va 33 19 ≠ 0 then .trap s cWindow va 0
    else if ofs % size ≠ 0 then .trap s cWindow va 0
    else k (fld va 17 16) ofs
  | _ => .trap s cWindowType va 0

def sortRanks : List (Nat × Nat) → KMap Nat
  | [] => []
  | (r, v) :: l => kset (sortRanks l) r v

/-- Whether a member of a group load can be read now: it contributes nothing, or its dword is full where the load waits for that and no request waits
there before this one (07 R195). -/
def memberReady (s : State) (job size : Nat) (g : GroupLoad) (m : Nat × Nat) : Bool :=
  let key := scratchKey m.1 g.ofs
  let dword := key / 8 * 8
  memberFenced s job m.1 || isolatedFor s (cxCore s) m.1 || (firstBad s key size).isSome || !g.full
    || (s.full.contains dword && firstInLine s (.dword dword true))

/-- Reads one member: one that is fenced or whose word fails its check contributes nothing (18 R410, R412). -/
def readMember (s : State) (job size : Nat) (g : GroupLoad) (m : Nat × Nat) : GroupLoad :=
  let key := scratchKey m.1 g.ofs
  let g := { g with left := g.left.filter (fun x => x != m) }
  if memberFenced s job m.1 || isolatedFor s (cxCore s) m.1 || (firstBad s key size).isSome then { g with short := true }
  else { g with got := g.got ++ [(m.2, leNat (cellsRead s.mem key size))] }

/-- The read of a member whose word fails its check is counted (18 R410; 19 R436). -/
def countMember (s : State) (job size : Nat) (g : GroupLoad) (m : Nat × Nat) : State :=
  if !memberFenced s job m.1 && !isolatedFor s (cxCore s) m.1 && (firstBad s (scratchKey m.1 g.ofs) size).isSome then uncBump s (cxPkg s) 1 else s

/-- One read of a group load: of the members that are ready, a free choice (04 R112; log 4). -/
def readMembers (s : State) (job size : Nat) (g : GroupLoad) : State × GroupLoad :=
  let l := g.left.filter (memberReady s job size g)
  let read (s : State) (m : Nat × Nat) : State × GroupLoad := (countMember s job size g m, readMember s job size g m)
  match l with
  | [] => (s, g)
  | [m] => read s m
  | m :: _ => read (freeStep s) (l.getD ((freeNow s).toNat % l.length) m)

/-- The end of a group load: the tree over 8,192 rank positions, Ad, GSH and GCNT; an acquire. -/
def gldDone (s : State) (d t o : Nat) (g : GroupLoad) : State :=
  let tag := gldTag t
  let x := sparseReduce o tag 13 (sortRanks g.got)
  let v := if t = 0 then signExt x 32 else word x
  let s := modCx (acquire s (cxCore s)) (fun c => { c with gload := none })
  setGroupFlags (setA s d v) g.short g.got.length

/-- Where a group load stands: at its first attempt the member set is the group's members now (04 R112). -/
def groupStart (s : State) (n ofs : Nat) (full : Bool) : GroupLoad :=
  match (cx s).gload with
  | some g => g
  | none => { ofs := ofs, full := full, left := (match getGroup s (cxPkg s) (cx s).job n with
      | some g => g.members.map (fun m => (m.core, m.rank))
      | none => []), got := [], short := false }

/-- GLD and GLDF: the member set is taken first, then the members are read one at a time, in the order in which the request reaches them (04 R112). -/
def gldBody (d a t o : Nat) (full : Bool) (s : State) : Res :=
  groupAddr s (regA s a) (gldSize t) (fun n ofs => groupGood s n (fun s =>
    let job := (cx s).job
    let pkg := cxPkg s
    let start := groupStart s n ofs full
    let s := drainWith (fun p => p.ctx == s.cur && p.remote) s
    match readMembers s job (gldSize t) start with
    | (s, g) =>
      if g.left.isEmpty then .ok (gldDone s d t o g)
      else .wait (modCx s (fun c => { c with gload := some g })) (.groupLoad pkg job n)))

def execGld (d a t o : Nat) := finish (.gld d a t o) [rA a] (gldBody d a t o false)
def execGldf (d a t o : Nat) := finish (.gldf d a t o) [rA a] (gldBody d a t o true)

/-! ## GBAR (09 R253) -/

def phaseBehind (c t : Nat) : Nat := (c + 131071 - t % 65536) % 65536

/-- The cycle in which a core's waiters for phase t go on: its completion plus the core's stagger. -/
def gbarDue (s : State) (g : Group) (core t : Nat) : Nat :=
  match kfind g.dones t with
  | some c => c + stagStep s core * groveNum (coreGrove core)
  | none => 0

/-- Whether the running thread has waited here for phase t since before it completed. -/
def gbarWaited (s : State) (g : Group) (t : Nat) : Bool :=
  match (cx s).status, kfind g.dones t with
  | .waiting (.group _ _ _ u) since _, some c => u == t && decide (since ≤ c)
  | _, _ => false

/-- The wait of GBAR for phase t: released at the completion cycle plus the core's stagger. BST is set when the phase was over before the wait
began (02 R59); `fresh` says that the thread arrives now. -/
def gbarWait (s : State) (d pkg job n : Nat) (g : Group) (t : Nat) (fresh : Bool) : Res :=
  let k := phaseBehind g.phase t
  if 32768 ≤ k || decide (s.cycle < gbarDue s g (cxCore s) t) then .wait s (.group pkg job n t)
  else
    let stale := k ≠ 0 && !fresh && !gbarWaited s g t
    let s := setA (acquire s (cxCore s)) d (word t)
    .ok (if stale then setStale s else s)

/-- The group number of a GBAR: Ab, which was read when it issued; once it has arrived it waits with that number, also where Ad, which it has written, is
the same register (09 R234). A record that runs again reads Ab anew (log 104). -/
def gbarNum (s : State) (b : Nat) : Word :=
  match (cx s).status with
  | .waiting (.group _ _ n _) _ _ => word n
  | _ => regA s b

def execGbar (d b : Nat) := finish (.gbar d b) [rA d, rA b] (fun s =>
  groupNum s (gbarNum s b) (fun n =>
    let pkg := cxPkg s
    let job := (cx s).job
    let core := cxCore s
    if (cx s).lost then .trap (modCx s (fun c => { c with lost := false })) cUncorrectable (groupVa n) 0
    else match getGroup s pkg job n with
    | none => .trap s cGroupNumber 0 0
    | some g =>
      if (regA s d).getLsbD 63 then gbarWait s d pkg job n g (fld (regA s d) 0 16) false
      else match memberOf g core with
        | none => .trap s cGroupNumber 0 0
        | some m =>
          if (unacked s s.cur).isSome then .wait s (.acks core)
          else
          let t := (g.phase + m.arr) % 65536
          let s := releaseWaits s s.cur
          let s := settleGroup s pkg job n { g with members := g.members.map (fun x => if x.core == core then { x with arr := x.arr + 1 } else x) }
          let s := setA s d (word (t + 2 ^ 63))
          match getGroup s pkg job n with
          | none => .trap s cGroupNumber 0 0
          | some g => gbarWait s d pkg job n g t true))

/-- GBAR_RELEASE: a noted core releases its parked GBAR records of completed phases once its stagger has passed. -/
def execGbarRelease (pkg grp core : Nat) (s : State) : Host.Outcome State Fault Refusal :=
  let job := grp / 65536
  let n := grp % 65536
  event (match getGroup s pkg job n with
    | none => s
    | some g =>
      wake s core (fun o => match o with
        | .group p j m t => p == pkg && j == job && m == n && decide (phaseBehind g.phase t < 32768) && decide (gbarDue s g core t ≤ s.cycle)
        | _ => false))

end Sys2Proof.Machine
end

