-- ==== Sys2Proof/Machine/Records.lean ====
section
/-! DEFINITION. Packets, landing queues, decks, the start of records and hardware suspension (02 R19-R25, R32, R43-R50; 17 R384-R393;
19 R429). -/

namespace Sys2Proof.Machine

open Sys2Proof

/-! ## Handler entries (02 R20) -/

structure HandlerEntry where
  addr : Nat
  pool : Nat
  size : Nat
  slots : Nat
deriving DecidableEq, Repr

/-- The entry of 16 bytes, unless it is invalid. -/
def handlerEntry (bs : List Byte) : Option HandlerEntry :=
  let x := bfld bs 0 8
  let y := bfld bs 8 8
  let e : HandlerEntry := { addr := x % 2 ^ 48, pool := y % 2 ^ 17, size := 64 * (y / 2 ^ 17 % 128), slots := y / 2 ^ 24 % 256 + 1 }
  if !x.testBit 48 || x / 2 ^ 49 ≠ 0 || e.addr % 4 ≠ 0 || e.pool % 64 ≠ 0 || 4096 < e.size || y / 2 ^ 32 ≠ 0
      || (e.size ≠ 0 && 131072 < e.pool + e.slots * e.size) then none
  else some e

/-- What the NI finds for a message: its entry, or the cause, FADDR and PC of a discard (02 R23). -/
def findHandler (s : State) (core : Nat) (m : Msg) (len : Nat) : State × Except (Nat × Word × Nat) HandlerEntry :=
  let d := jobD s (corePkg core) m.job
  if d.hcnt ≤ m.handler then (s, .error (cHandlerIndex, 0, 0))
  else
    let a := d.htab + word (16 * m.handler)
    match hwRead s (hwWho core m.job) a 16 with
    | (s, .error e) => (s, .error (e.1, a, 0))
    | (s, .ok bs) => match handlerEntry bs with
      | none => (s, .error (cHandlerInvalid, 0, 0))
      | some h => if h.size < len then (s, .error (cTooLong, 0, h.addr)) else (s, .ok h)

/-- Whether the NI's read of a message's handler entry is held at a page in migration (03 R93). -/
def entryHeld (s : State) (core : Nat) (m : Msg) : Bool :=
  let d := jobD s (corePkg core) m.job
  let a := d.htab + word (16 * m.handler)
  decide (m.handler < d.hcnt) && (migrating s (corePkg core) m.job a.toNat || migrating s (corePkg core) m.job (a + 15).toNat)

/-- The PC of a discarded message's record: HADDR when the entry can be read and is valid, else 0 (17 R386). -/
def entryPc (s : State) (core : Nat) (m : Msg) : State × Nat :=
  match findHandler s core m 0 with
  | (s, .ok h) => (s, h.addr)
  | (s, .error e) => (s, e.2.2)

/-! ## Packets (02 R19-R23) -/

def heldMsg (s : State) (core num : Nat) : Option Msg := (getCore s core).held.find? (fun m => m.num == num)

def modHeld (s : State) (core num : Nat) (f : Msg → Msg) : State :=
  modCore s core (fun u => { u with held := u.held.map (fun m => if m.num = num then f m else m) })

/-- Every packet of a message is gone, and its injector need not hold it any more (log 49). -/
def purgeMsg (s : State) (src num : Nat) : State :=
  let s := { s with net := s.net.filter (fun p => !(p.src == src && p.num == num)), refused := s.refused.filter (fun r => !(r.pkt.src == src && r.pkt.num == num)) }
  modHeld s src num (fun m => { m with left := 0 })

/-- The launch record of a message; `slot` is the window address of its landing slot, or 0 (02 R24, R27). -/
def launchRec (m : Msg) (len src : Nat) (pc : Nat) (slot : Word) : Rec :=
  { pc := word pc, job := m.job, prio := m.prio, ff := false, fc := false, st := false, rs := false,
    w1 := if slot = 0 then m.link else slot, args := [m.arg0, m.arg1, slot, sourceWord len m.origin (corePkg src), 0, 0] }

def discardInfo (m : Msg) (len : Nat) : Nat := m.handler % 4096 + m.prio * 2 ^ 12 + len % 8192 * 2 ^ 32

/-- A discarded message and its record (17 R386). -/
def discardMsg (s : State) (core src : Nat) (m : Msg) (len cause pc : Nat) (faddr : Word) : State :=
  let r := { launchRec m len src pc 0 with w1 := 0, prio := max m.prio (jobD s (corePkg core) m.job).cap }
  discardRec s core r cause faddr (discardInfo m len) m.link

/-- Frees the slot of a claim and drops it. -/
def dropClaim (s : State) (core : Nat) (c : Claim) : State :=
  modCore s core (fun u => { u with slots := keyDel u.slots c.slot, claims := u.claims.filter (fun x => !(x.src == c.src && x.num == c.num)) })

/-- One packet is accepted by its receiver. -/
def acceptPacket (s : State) (p : Packet) : State := modHeld s p.src p.num (fun m => { m with left := m.left - 1, sent := s.cycle })

def refusePacket (s : State) (p : Packet) : State := { s with refused := s.refused ++ [{ pkt := p, due := s.cycle + 256 }] }

/-- Writes a packet into a slot. -/
def placePacket (s : State) (core slot : Nat) (p : Packet) (m : Msg) : State :=
  let k := scratchKey core (slot + p.ofs)
  let bs := (m.payload.drop p.ofs).take p.size
  mend (memWrite s k bs) k bs.length

/-- A packet of a message that already holds a slot. The last one queues the launch record, at the HADDR of the entry that the NI checked when the first
packet arrived (02 R20), unless the deck is full (02 R48). -/
def morePacket (s : State) (core : Nat) (p : Packet) (m : Msg) (c : Claim) : State :=
  let t := placePacket s core c.slot p m
  if c.received + p.size < c.len then
    acceptPacket (modCore t core (fun u => { u with claims := u.claims.map (fun x =>
      if x.src = c.src && x.num = c.num then { x with received := x.received + p.size, last := s.cycle } else x) })) p
  else match arrive t core (launchRec m c.len p.src c.pc (windowAddr core c.slot)) with
    | (t, false) => refusePacket { s with net := t.net } p
    | (t, true) => acceptPacket (modCore t core (fun u => { u with claims := u.claims.filter (fun x => !(x.src == c.src && x.num == c.num)) })) p

/-- The first packet of a message at its receiver (02 R20-R23; 17 R390). -/
def firstPacket (s : State) (core : Nat) (p : Packet) (m : Msg) : State :=
  let len := m.payload.length
  match findHandler s core m len with
  | (s, .error e) => purgeMsg (discardMsg s core p.src m len e.1 e.2.2 e.2.1) p.src p.num
  | (s, .ok h) =>
    if len = 0 then
      match arrive s core (launchRec m 0 p.src h.addr 0) with
      | (_, false) => refusePacket s p
      | (t, true) => acceptPacket t p
    else match lowestFree (fun i => (getCore s core).slots.contains (h.pool + i * h.size)) h.slots 0 with
      | none => refusePacket s p
      | some i =>
        let slot := h.pool + i * h.size
        let c : Claim := { msg := { m with payload := [] }, len := len, src := p.src, num := p.num, slot := slot, pc := h.addr, received := 0, last := s.cycle }
        let t := modCore s core (fun u => { u with slots := slot :: u.slots, claims := u.claims ++ [c] })
        morePacket t core p m c

/-- A trigger message is a local push: where another message would be refused, it waits in the network for space (02 R48). -/
def pushOr (s t : State) (m : Msg) : State := if m.trig && decide (s.refused.length < t.refused.length) then s else t

/-- PACKET_ARRIVAL: packet number n of the network reaches its receiver. A first packet whose handler entry lies in a page in migration stays in the
network until the migration ends. -/
def execPacketArrival (n : Nat) (s : State) : Host.Outcome State Fault Refusal :=
  event (match s.net[n]? with
    | none => s
    | some p =>
      let drop (s : State) : State := { s with net := s.net.eraseIdx n }
      match heldMsg s p.src p.num with
      | none => drop s
      | some m =>
        let core := m.dst
        let pk := getPkg s (corePkg core)
        if (getPkg s (corePkg p.src)).unreachable.contains (corePkg core) then s
        else if !inCores s core m.job then purgeMsg s p.src p.num
        else if pk.quiet.contains m.job then pushOr s (refusePacket (drop s) p) m
        else
          let claim := (getCore s core).claims.find? (fun c => c.src == p.src && c.num == p.num)
          if fencedFor s (hwWho p.src m.job) core then
            if entryHeld s core m then s else
            let s := match claim with
              | some c => dropClaim s core c
              | none => s
            let e := entryPc s core m
            purgeMsg (discardMsg e.1 core p.src m m.payload.length cFenced e.2 (windowAddr core 0)) p.src p.num
          else match claim with
            | some c => morePacket (drop s) core p m c
            | none => if entryHeld s core m then s else pushOr s (firstPacket (drop s) core p m) m)

def execPacketResend (n : Nat) (s : State) : Host.Outcome State Fault Refusal :=
  event (match s.refused[n]? with
    | none => s
    | some r => if r.due ≤ s.cycle then { s with refused := s.refused.eraseIdx n, net := s.net ++ [r.pkt] } else s)

/-- MESSAGE_ACCEPTANCE: the injector's hold and number are free; messages behind it move in. -/
def execMessageAcceptance (core num : Nat) (s : State) : Host.Outcome State Fault Refusal :=
  event (match heldMsg s core num with
    | none => s
    | some m =>
      if m.left ≠ 0 then s
      else
        let s := modCore s core (fun u => { u with held := u.held.filter (fun x => x.num != num) })
        flushSends (getCore s core).sendQ.length s core)

/-- Whether a package cannot reach another, or not be reached by it: no message goes on between them (19 R429). -/
def apart (s : State) (a b : Nat) : Bool := (getPkg s a).unreachable.contains b || (getPkg s b).unreachable.contains a

/-- PARTIAL_MESSAGE_DISCARD: on a core that took over an id with a record (17 R391); from an unreachable package without one (19 R429). -/
def execPartialMessageDiscard (core n : Nat) (s : State) : Host.Outcome State Fault Refusal :=
  event (match (getCore s core).claims[n]? with
    | none => s
    | some c =>
      let late := decide (c.last + 2 ^ 20 < s.cycle)
      if decide (c.last + 2 ^ 20 ≤ s.cycle) && apart s (corePkg core) (corePkg c.src) then dropClaim s core c
      else if late && decide ((getCore s core).phys ≠ 32) && !entryHeld s core c.msg then
        let e := entryPc s core c.msg
        discardMsg (purgeMsg (dropClaim e.1 core c) c.src c.num) core c.src c.msg c.len cFenced e.2 (windowAddr core 0)
      else s)

/-! ## Queues (02 R47, R49; 17 R393) -/

/-- A free entry takes the oldest deck record of its priority; the fault launches that wait come after the decks (log 29). -/
def refillOne (s : State) (core prio : Nat) : State :=
  let u := getCore s core
  match kget u.deckOrder [] prio with
    | [] => flushLaunches s core
    | job :: rest =>
      if 32 ≤ (queueOf u prio).length || u.fenced.isSome then s
      else
        let k := deckOf s core job prio
        let a := deckAddr (jobD s (corePkg core) job) core prio k.head
        let s := setDeck s core job prio { k with head := k.head + 1, kept := k.kept.drop 1 }
        let s := modCore s core (fun u => { u with deckOrder := kset u.deckOrder prio rest })
        match hwRead s (hwWho core job) a 64 with
        | (s, .ok bs) => flushLaunches (enqueue s core (plainRec (recOf bs))) core
        | (s, .error e) => flushLaunches (deckLoss s core (k.kept.headD (zeroRec job prio)) (e.1, a)) core

/-- DECK_REFILL. -/
def execDeckRefill (core prio : Nat) (s : State) : Host.Outcome State Fault Refusal := event (refillOne s core prio)

/-- Whether a queued record has aged 4,096 cycles and may move up one priority, never above its job's CAP (02 R49). -/
def overdue (s : State) (core prio : Nat) (q : QRec) : Bool :=
  prio ≠ 0 && decide (q.age + 4096 ≤ s.cycle) && decide ((jobD s (corePkg core) q.r.job).cap < prio)

/-- Record n of a queue moves up: as a new arrival of priority p − 1; none when it is not due, or its own deck is full (02 R48). -/
def agedMove (s : State) (core prio n : Nat) : Option State :=
  match (queueOf (getCore s core) prio)[n]? with
  | none => none
  | some q =>
    if !overdue s core prio q then none
    else
      let t := modCore s core (fun u => { u with q := kset u.q prio ((queueOf u prio).eraseIdx n) })
      let r := { q.r with prio := prio - 1 }
      match q.handler with
      | some _ => some (flushLaunches (launchPush t core (coreId core) { q with r := r }) core)
      | none => match arrive t core r with
        | (t, true) => some (flushLaunches t core)
        | (_, false) => none

/-- RECORD_AGING: records that are due move in their queue order; one whose deck is full holds no other back (02 R48, R49). -/
def execRecordAging (core prio n : Nat) (s : State) : Host.Outcome State Fault Refusal :=
  event (if (List.range n).any (fun i => (agedMove s core prio i).isSome) then s else (agedMove s core prio n).getD s)

/-! ## The start of a record (02 R43, R44, R50) -/

/-- The first context of a core that is dormant. -/
def dormantCtx (s : State) (core : Nat) : Option Nat :=
  ((List.range 8).find? (fun i => (getCtx s (core * 8 + i)).status == .dormant)).map (fun i => core * 8 + i)

/-- Whether a core may start a record of a job (17 R395, R401). -/
def mayStart (s : State) (core job : Nat) : Bool := inCores s core job && !(getPkg s (corePkg core)).spmJobs.contains job && !quietJob s (corePkg core) job

/-- The oldest eligible record of the lowest-numbered priority of a pool and its ring (02 R33). -/
def poolPick (s : State) (core : Nat) (l : List QRec) : Option Nat :=
  let ok (p i : Nat) : Bool := match l[i]? with
    | some q => q.r.prio == p && mayStart s core q.r.job
    | none => false
  ((List.range 4).filterMap (fun p => (List.range l.length).find? (ok p))).head?

/-- The queue that a core serves: the first one whose head it may start. -/
def queuePick (s : State) (core : Nat) : Option (Nat × QRec) :=
  ((List.range 4).filterMap (fun p => match queueOf (getCore s core) p with
    | q :: _ => if mayStart s core q.r.job then some (p, q) else none
    | [] => none)).head?

/-- Whether a core would pop its own deque now: it has a dormant context, and neither its queues nor its pool give it a record first (02 R43, R50). -/
def ownerPops (s : State) (core : Nat) : Bool :=
  let u := getCore s core
  (dormantCtx s core).isSome && u.fenced.isNone && !u.offMark && (queuePick s core).isNone && (poolPick s core (poolAll (getGrove s (coreGrove core)))).isNone
    && (match u.deque with
      | q :: _ => mayStart s core q.r.job
      | [] => false)

/-- The victim of a steal: the first core after this one whose top record the thief may take. The owner comes first to the last record (02 R44). -/
def stealFrom (s : State) (core : Nat) : Option (Nat × QRec) :=
  let g := coreGrove core
  ((List.range 23).filterMap (fun k =>
    let v := groveCore g ((coreId core % 32 + 1 + k) % 24)
    let u := getCore s v
    if u.fenced.isSome then none
    else match u.deque.getLast? with
      | some q => if mayStart s core q.r.job && !(u.deque.length == 1 && ownerPops s v) then some (v, q) else none
      | none => none)).head?

/-- Whether a record's frame, which the hardware reads when it resumes, lies in a page in migration: the record waits (03 R93). -/
def frameHeld (s : State) (core : Nat) (q : QRec) : Bool := (q.r.ff || q.r.rs) && hwHeld s (hwWho core q.r.job) q.r.w1 4864

/-- RECORD_START: the lowest-numbered dormant context takes the first record in the order of R50. -/
def execRecordStart (core : Nat) (s : State) : Host.Outcome State Fault Refusal :=
  let u := getCore s core
  let g := coreGrove core
  event (match dormantCtx s core with
    | none => s
    | some ctx =>
      if u.fenced.isSome || u.offMark then s
      else match queuePick s core with
        | some (p, q) =>
          flushLaunches (startLaunch (modCore s core (fun u => { u with q := kset u.q p ((queueOf u p).drop 1) })) ctx q) core
        | none => match poolPick s core (poolAll (getGrove s g)) with
          | some i =>
            match poolTake s g i with
            | (t, some q) => if frameHeld s core q then s else startResume t ctx q
            | (t, none) => t
          | none => match u.deque with
            | q :: rest =>
              if mayStart s core q.r.job && !frameHeld s core q then startResume (modCore s core (fun u => { u with deque := rest })) ctx q else s
            | [] => match stealFrom s core with
              | some (v, q) =>
                if frameHeld s core q then s else startResume (modCore s v (fun u => { u with deque := u.deque.dropLast })) ctx { q with r := { q.r with st := true } }
              | none => s)

/-! ## Hardware suspension (02 R31, R32) -/

/-- The core whose park table takes a wait; none for a wait that keeps its context. -/
def parkHome (ctx : Nat) : Obj → Option Nat
  | .dword k _ => some (keyCore k)
  | .counter k => some (keyCore k)
  | .barrier k => some (keyCore k)
  | .ring k _ => some (keyCore k)
  | .group _ _ _ _ => some (ctxCore ctx)
  | _ => none

/-- The word of the instruction that a context waits in: the one that it was fetched with (log 18), else the one at its PC. -/
def wordAt (s : State) (ctx : Nat) : Nat :=
  let c := getCtx s ctx
  match c.insn, peek s (hwWho (ctxCore ctx) c.job) c.pc.toNat with
  | some w, _ => w
  | none, some pa => leNat (homeRead s (paKey s (corePkg (ctxCore ctx)) pa) 4)
  | none, none => 0

/-- Whether a waiting context's request at a scratchpad can be performed now: it is performed first, and no withdrawal comes before it (07 R195, R196;
09 R262). -/
def requestReady (s : State) (ctx : Nat) : Bool :=
  let c := getCtx s ctx
  let t := { s with cur := ctx }
  match c.status, c.insn.bind decodeWord with
  | .waiting (.dword k full) _ _, some _ => s.full.contains k == full && firstInLine t (.dword k full)
  | .waiting (.counter k) _ _, some (.cntw _ _ b) => decide (getA c b ≤ counterRead s k)
  | .waiting (.barrier k) _ _, some (.barwait _ b) => (match readBarrier s k with
    | some o => decide (phaseLag o.c (fld (getA c b) 0 16) < 32768)
    | none => false)
  | .waiting (.ring k n) _ _, some (.rtake _ _ _) => (match readRing s k with
    | some r => decide (counterRead s (r.posKey n) < ringFill s r) && firstInLine t (.ring k n)
    | none => false)
  | _, _ => false

/-- The state of a step that goes on. -/
def nextOf (s : State) : Host.Outcome State Fault Refusal → State
  | .next t => t
  | _ => s

/-- Performs the request that a context waits with: its instruction is complete (07 R196, 09 R262). -/
def performWaiting (s : State) (ctx : Nat) : State :=
  let t := { s with cur := ctx }
  let u := match (getCtx s ctx).insn.bind decodeWord with
    | some (.ldfTake d a) => nextOf t (execLdfTake d a t)
    | some (.ldfPeek d a) => nextOf t (execLdfPeek d a t)
    | some (.ste a b) => nextOf t (execSte a b t)
    | some (.cntw d a b) => nextOf t (execCntw d a b t)
    | some (.barwait a b) => nextOf t (execBarwait a b t)
    | some (.rtake d a b) => nextOf t (execRtake d a b t)
    | _ => t
  { u with cur := s.cur }

/-- The number in line of a request that waits at its scratchpad, on a dword, a counter, a barrier or a ring. -/
def waitsAtHome (c : Ctx) : Option Nat :=
  match c.status with
  | .waiting (.dword _ _) _ n => some n
  | .waiting (.counter _) _ n => some n
  | .waiting (.fence _) _ n => some n
  | .waiting (.barrier _) _ n => some n
  | .waiting (.ring _ _) _ n => some n
  | .waiting (.groupLoad _ _ _) _ n => if (c.gload.map (fun g => g.full)).getD false then some n else none
  | _ => none

/-- Contexts in the order in which they began to wait. -/
def insertWaiter (x : Nat × Nat) : List (Nat × Nat) → List (Nat × Nat)
  | [] => [x]
  | y :: l => if x.1 < y.1 then x :: y :: l else y :: insertWaiter x l

def waiters (s : State) : List Nat :=
  ((s.ctxs.filterMap (fun e => (waitsAtHome e.2).map (fun n => (n, e.1)))).foldl (fun l x => insertWaiter x l) []).map (fun x => x.2)

/-- Performs the requests of the given contexts that have become performable, one at a time, in the order of the list; each may make another one
performable. -/
def performReady (ctxs : List Nat) : Nat → State → State
  | 0, s => s
  | n + 1, s => match ctxs.find? (requestReady s) with
    | some c => performReady ctxs n (performWaiting s c)
    | none => s

/-- The value of a counter as a record is parked on it: a write of any kind changes it (02 R32; log 87). -/
def seenAt (s : State) : Obj → Word
  | .counter k => counterRead s k
  | _ => 0

/-- Releases the records of a core that are parked on a counter whose value has changed since: a store, an atomic or XDSP wrote it (02 R32; log 87). -/
def wakeWritten (s : State) (core : Nat) : State :=
  let hit := ((getCore s core).park.filter (fun p => seenAt s p.obj != p.seen)).map (fun p => p.obj)
  if hit.isEmpty then s else wake s core (fun o => hit.contains o)

/-- A GBAR whose group is gone, or whose record was lost, has a trap to take, and is not parked (09 R253; 18 R413). -/
def groupGone (s : State) : Obj → Bool
  | .group pkg job n _ => (getGroup s pkg job n).isNone
  | _ => false

/-- A GBAR record stands in its core's park table: the slice notes the core (09 R253). -/
def noteGroup (s : State) (core : Nat) : Obj → State
  | .group pkg job n _ =>
    match getGroup s pkg job n with
    | some g => setGroup s pkg job n { g with noted := keyAdd g.noted core }
    | none => s
  | _ => s

def execHardwareSuspension (ctx : Nat) (s : State) : Host.Outcome State Fault Refusal :=
  let core := ctxCore ctx
  let c := getCtx s ctx
  event (match c.status with
    | .waiting o since _ =>
      match parkHome ctx o with
      | none => s
      | some home =>
        let wth := (jobD s (corePkg core) c.job).wth
        if wth = 0 || s.cycle < since + wth || 64 ≤ (getCore s home).park.length || requestReady s ctx || (unacked s ctx).isSome || c.lost || groupGone s o then s
        else
          match spill (releaseWaits s ctx) core c with
          | (_, .none) => s
          | (_, .held) => s
          | (t, .at addr) =>
            let q : QRec := { r := suspRec c c.pc addr, age := 0, handler := c.handler, lost := c.lost }
            dormant (noteGroup (modCore t home (fun u => { u with park := u.park ++ [{ obj := o, qrec := q, seen := seenAt t o }] })) core o) ctx
          | (t, .failed e a) => { spillFault { t with cur := ctx } (wordAt s ctx) e a false 0 with cur := s.cur }
          | (t, .corrupt addr a) => { spillFault { t with cur := ctx } (wordAt s ctx) cUncorrectable a true addr with cur := s.cur }
    | _ => s)

end Sys2Proof.Machine
end

