-- ==== Sys2Proof/Machine/Links.lean ====
section
/-! DEFINITION. Link records, Pelrek lanes and routes, unreachable packages, UCIe links and isolated dies, CXL ports (18 R422-R424; 19
R426-R431, R438). -/

namespace Sys2Proof.Machine

open Sys2Proof

/-! ## Link records (19 R426): keys 0 to 127 are Pelrek ports, 128 to 137 UCIe links, 144 to 153 Ethernet ports. -/

def modLink (s : State) (pkg k : Nat) (f : Link → Link) : State :=
  modPkg s pkg (fun p => { p with links := kset p.links k (f (kget p.links .reset k)) })
def ucieKey (link : Nat) : Nat := 128 + link
def ethKey (port : Nat) : Nat := 144 + port

/-- A change of UP signals the management processor (19 R426). -/
def signalUp (s t : State) (pkg k : Nat) : State :=
  if (getLink s pkg k).up != (getLink t pkg k).up then modPkg t pkg (fun p => { p with mgmt := p.mgmt + 1 }) else t

/-- UP clears, which FAIL remembers. -/
def Link.drop (l : Link) : Link := { l with up := false, degr := false, fail := l.fail || l.up }

/-- The value that the record's register reads. -/
def linkWord (l : Link) : Word := word (l.up.toNat + 2 * l.degr.toNat + 4 * l.fail.toNat + l.retry % 2 ^ 16 * 2 ^ 16)

/-! ## Routing (19 R428, R429) -/

/-- Routing after a change of the links: which packages no route joins (log 52), and what it means for the plays. -/
def rerouteIn (s : State) (ext : List Nat) : State :=
  let all := torusAll ext
  rerouteThePlays (all.foldl (fun t p => modPkg t p (fun u => { u with unreachable := all.filter (fun q => !joins s ext p q) })) s)

/-- Routing within the extents that firmware has set. -/
def reroute (s : State) (pkg : Nat) : State := rerouteIn s (getPkg s pkg).extents

/-! ## Pelrek ports (19 R427, R428, R438) -/

/-- The lanes of a port that carry flits: not down, and enabled by the fuses (16 R372). -/
def lanesLeft (p : Pkg) (k : Nat) : List Nat :=
  (List.range 2).filter (fun n => !(kget p.links .reset k).down.contains n && !(decide (k < 128) && p.fusedOff.contains (2 * k + n)))

/-- The far end of a Pelrek port, as package and port. -/
def farPort (ext : List Nat) (pkg k : Nat) : Nat × Nat :=
  let h := k / 16 % 2
  (torusHop ext pkg (k / 32) (h == 0), k / 32 * 32 + 16 * (1 - h) + k % 16)

/-- The lanes of a port's link: a lane joins both ends, and works while it is left at both (19 R427; log 52). -/
def linkLanes (s : State) (pkg k : Nat) : List Nat :=
  let q := farPort (getPkg s pkg).extents pkg k
  (lanesLeft (getPkg s pkg) k).filter (fun n => 128 ≤ k || q.1 == pkg || (lanesLeft (getPkg s q.1) q.2).contains n)

/-- LINK_RETRANSMISSION of the link with a record's key: every kind of link record counts its retransmissions (19 R426, R427). On which working lane a
Pelrek flit failed, and whether the lane's flit before it succeeded, no row shows: free choices (log 52). -/
def execLinkRetransmission (pkg port : Nat) (s : State) : Host.Outcome State Fault Refusal :=
  let l := linkLanes s pkg port
  let kept := (freeNow s).getLsbD 8
  pkgEvent s pkg (if 154 ≤ port then s
    else modLink (freeStep s) pkg port (fun x => { x with
      retry := (x.retry + 1) % 2 ^ 16,
      run := match l[(freeNow s).toNat % l.length]? with
        | some lane => kset x.run lane ((if kept then kget x.run 0 lane else 0) + 1)
        | none => x.run }))

/-- UP of a port clears, which signals. -/
def dropEnd (s : State) (pkg k : Nat) : State := signalUp s (modLink s pkg k Link.drop) pkg k

/-- A link that carries no more traffic: UP clears at both ends (19 R426). -/
def dropBoth (s : State) (pkg k : Nat) : State :=
  let q := farPort (getPkg s pkg).extents pkg k
  let t := dropEnd s pkg k
  if q.1 = pkg then t else dropEnd t q.1 q.2

/-- The Pelrek dimension of an isolated die has every port down (19 R431). -/
def dropDies (s : State) (pkg : Nat) (dies : List Nat) : State :=
  ((List.range 128).filter (fun k => dies.contains (k / 32) && (getLink s pkg k).up)).foldl (fun s k => dropBoth s pkg k) s

/-- A lane is down at a port and at the port that it joins. -/
def laneGone (s : State) (pkg port lane : Nat) : State :=
  let q := farPort (getPkg s pkg).extents pkg port
  let gone (s : State) (p k : Nat) : State := modLink s p k (fun l => { l with down := keyAdd l.down lane, run := kdel l.run lane })
  if q.1 = pkg then gone s pkg port else gone (gone s pkg port) q.1 q.2

/-- A lane is down, at both of its ends; ports with no lane left clear UP, and ports with one left set DEGR. -/
def loseLane (s : State) (pkg port lane : Nat) : State :=
  let q := farPort (getPkg s pkg).extents pkg port
  let t := laneGone s pkg port lane
  let half (s : State) (p k : Nat) : State := modLink s p k (fun l => { l with degr := l.up })
  if (linkLanes t pkg port).isEmpty then (if (getLink s pkg port).up then reroute (dropBoth t pkg port) pkg else t)
  else if q.1 = pkg then half t pkg port
  else half (half t pkg port) q.1 q.2

/-- LANE_DOWN: a lane whose flits failed 16 times in a row (19 R427; log 52). -/
def execLaneDown (pkg port lane : Nat) (s : State) : Host.Outcome State Fault Refusal :=
  pkgEvent s pkg (if port < 128 && lane < 2 && 16 ≤ kget (getLink s pkg port).run 0 lane then loseLane s pkg port lane else s)

/-- Firmware lowers the rate of a lane; the fuse is a limit that it cannot exceed (16 R372). -/
def setRate (s : State) (pkg port lane rate : Nat) : State :=
  let r := min (kget (getPkg s pkg).fusedRate Config.laneRate (2 * port + lane)) rate
  modLink s pkg port (fun l => { l with rates := kset l.rates lane r })

/-- LANE_DISABLE: lanes 0 and 1; number 2 + 2 r + l sets the rate code r of lane l (log 80). -/
def execLaneDisable (pkg port lane : Nat) (s : State) : Host.Outcome State Fault Refusal :=
  pkgEvent s pkg (if 128 ≤ port then s else if lane < 2 then loseLane s pkg port lane else setRate s pkg port (lane % 2) ((lane - 2) / 2))

/-- The plays of a package whose router state is lost abort with CAUSE 3 (19 R434). -/
def abortPlaysOf (s : State) (pkg : Nat) : State :=
  (List.range s.plays.length).foldl (fun s i => match s.plays[i]? with
    | some y => if !y.ended && (joinedOf y pkg).isSome then abortPlay s i 3 else s
    | none => s) s

/-- ROUTER_UNCORRECTABLE: the router takes every port down, the error counts in class 6, and the plays of its package abort (19 R428, R434, R436). -/
def execRouterUncorrectable (pkg : Nat) (s : State) : Host.Outcome State Fault Refusal :=
  let t := modPkg (uncBump s pkg 6) pkg (fun p => { p with routerDown := true })
  pkgEvent s pkg (abortPlaysOf (reroute ((List.range 128).foldl (fun s k => if (getLink s pkg k).up then dropBoth s pkg k else s) t) pkg) pkg)

/-- Whether a port can carry traffic: its package runs firmware, its router works, its die is not isolated, and a lane is left. -/
def linkReady (s : State) (pkg k : Nat) : Bool :=
  let p := getPkg s pkg
  p.booted && p.power != .off && !p.routerDown && !(decide (k < 128) && p.isolated.contains (k / 32)) && !(lanesLeft p k).isEmpty

/-- A port trains: UP rises when both ends are ready; one whose package has no neighbour there trains alone (log 24). -/
def trainPort (s : State) (pkg k : Nat) : State :=
  let q := farPort (getPkg s pkg).extents pkg k
  let far := decide (k < 128) && q.1 != pkg
  let up := linkReady s pkg k && (!far || (linkReady s q.1 q.2 && !(linkLanes s pkg k).isEmpty))
  let train (s : State) (p k : Nat) : State :=
    signalUp s (modLink s p k (fun l => { l with up := up, degr := up && decide (k < 128) && (linkLanes s p k).length == 1, fail := l.fail || (l.up && !up) })) p k
  let s := train s pkg k
  if far && up then train s q.1 q.2 else s

/-- The Pelrek ports that carried traffic, or may, train again towards the neighbours that the extents give. -/
def trainPelrek (s : State) (pkg : Nat) : State := ((List.range 128).filter (fun k => (getLink s pkg k).up)).foldl (fun s k => trainPort s pkg k) s

/-- Every link of a package trains: the Pelrek ports, the UCIe links and the Ethernet ports. -/
def trainPorts (s : State) (pkg : Nat) : State := ((List.range 154).filter (fun k => k < 138 || 144 ≤ k)).foldl (fun s k => trainPort s pkg k) s

/-! ## Traffic to an unreachable package (19 R429) -/

/-- T: 2^22 cycles. -/
def awayTime : Nat := 2 ^ 22

/-- UNREACHABLE_TIMEOUT. Kind 0: the access of context n. Kind 1: pending store n. Kind 2: the message core × 65,536 + number. -/
def execUnreachableTimeout (kind n : Nat) (s : State) : Host.Outcome State Fault Refusal :=
  event (match kind with
    | 0 => match (getCtx s n).status with
      | .waiting (.away va) since _ =>
        if since + awayTime ≤ s.cycle then
          let c := getCtx s n
          deliverTrap s n { cause := cFenced, fpc := c.pc, faddr := word va, finfo := word (wordAt s n), pc := c.pc }
        else s
      | _ => s
    | 1 => match s.stores[n]? with
      | none => s
      | some p =>
        if awayStore s p && decide (p.since + awayTime ≤ s.cycle) then
          memNotice { s with stores := s.stores.eraseIdx n } (corePkg (ctxCore p.ctx)) p.job (coreId (ctxCore p.ctx)) cFenced
            (windowAddr (keyCore p.key) (keyOfs p.key)) 0
        else s
    | _ =>
      let core := n / 65536
      match (getCore s core).held.find? (fun m => m.num == n % 65536) with
      | none => s
      | some m =>
        if m.left ≠ 0 && (getPkg s (corePkg core)).unreachable.contains (corePkg m.dst) && decide (m.sent + awayTime ≤ s.cycle) then
          memNotice (purgeMsg s core m.num) (corePkg core) m.job (coreId core) cFenced (windowAddr m.dst 0) (m.handler % 4096)
        else s)

/-! ## UCIe (19 R430, R431) -/

/-- The compute dies at the ends of a die-to-die link; links 0 to 3 join a die to the I/O die (19 R426; log 53). -/
def ucieDies : Nat → List Nat
  | 4 => [0, 1]
  | 5 => [0, 2]
  | 6 => [0, 3]
  | 7 => [1, 2]
  | 8 => [1, 3]
  | 9 => [2, 3]
  | k => [k]

def execUcieLaneRepair (pkg link : Nat) (s : State) : Host.Outcome State Fault Refusal :=
  pkgEvent s pkg (if link < 10 && (getLink s pkg (ucieKey link)).up then modLink s pkg (ucieKey link) (fun l => { l with degr := true }) else s)

/-- A die without a working die-to-die link. -/
def dieAlone (s : State) (pkg die : Nat) : Bool :=
  ((List.range 10).filter (fun k => (ucieDies k).contains die)).all (fun k => !(getLink s pkg (ucieKey k)).up)

/-! ## CXL ports (18 R422-R424) -/

def CxlPort.reset : CxlPort := { up := false, fail := false, tmo := 0 }
def modPort (s : State) (pkg port : Nat) (f : CxlPort → CxlPort) : State :=
  modPkg s pkg (fun p => { p with ports := kset p.ports port (f (kget p.ports .reset port)) })

/-- The value that a port status record reads. -/
def portWord (x : CxlPort) : Word := word (x.up.toNat + 2 * x.fail.toNat + x.tmo % 2 ^ 32 * 2 ^ 32)

/-- CXL_PORT_FAILURE: with tmo = 1, by a request that stayed unanswered for 2^22 cycles. -/
def execCxlPortFailure (pkg port tmo : Nat) (s : State) : Host.Outcome State Fault Refusal :=
  pkgEvent s pkg (if port < 4 && portUp (getPkg s pkg) port then
    modPkg (modPort s pkg port (fun x => { up := false, fail := true, tmo := (x.tmo + if tmo = 1 then 1 else 0) % 2 ^ 32 })) pkg (fun p => { p with mgmt := p.mgmt + 1 })
  else s)

def execCxlPortRecovery (pkg port : Nat) (s : State) : Host.Outcome State Fault Refusal :=
  pkgEvent s pkg (if port < 4 then modPort s pkg port (fun x => { x with up := true }) else s)

end Sys2Proof.Machine
end

