-- ==== Sys2Proof/Machine/Ethernet.lean ====
section
/-! DEFINITION. Ethernet: posting and polling work, the engine's steps, receive, completion, retries and failures (11 R306-R308; 13
R361-R364; 19 R435). -/

namespace Sys2Proof.Machine

open Sys2Proof

/-! ## Queue pairs and completion queues -/

def getQp (s : State) (pkg qp : Nat) : Option QueuePair := kfind (getPkg s pkg).qps qp
def modQp (s : State) (pkg qp : Nat) (f : QueuePair → QueuePair) : State :=
  match getQp s pkg qp with
  | none => s
  | some q => modPkg s pkg (fun p => { p with qps := kset p.qps qp (f q) })

/-- The 32 bytes of a completion entry (11 R307). -/
def cqBytes (e : CqEntry) : List Byte :=
  qword e.wrid ++ leBytes 8 (e.bytes % 2 ^ 32 + e.st * 2 ^ 32 + e.iv.toNat * 2 ^ 40 + e.opc * 2 ^ 41 + e.qpn * 2 ^ 44) ++ leBytes 8 (e.imm % 2 ^ 32)
    ++ leBytes 8 0

def sendQueue (q : QueuePair) (snd : Bool) : List WorkEntry := if snd then q.sends else q.recvs
def setQueue (q : QueuePair) (snd : Bool) (l : List WorkEntry) : QueuePair := if snd then { q with sends := l } else { q with recvs := l }

/-- The oldest work entry of a direction finishes: its completion entry, then its counter (13 R364). -/
def finishEntry (s : State) (pkg qp : Nat) (snd : Bool) (st bytes imm : Nat) (iv : Bool) : State :=
  match getQp s pkg qp with
  | none => s
  | some q => match sendQueue q snd with
    | [] => s
    | e :: rest =>
      let x : CqEntry := { wrid := e.wrid, bytes := bytes, st := st, iv := iv, opc := if snd then 1 else 2, qpn := qp, imm := imm }
      let s := modQp s pkg qp (fun q => { setQueue q snd rest with rnr := if snd then 0 else q.rnr })
      let s := modPkg s pkg (fun p => { p with cqs := kset p.cqs q.cq (kget p.cqs [] q.cq ++ [x]) })
      bumpDone s { hwWho e.core q.job with die := some ioDie } (if e.cnt = 0 then none else some (sawKey e.core e.cnt))

/-- The number under which an entry of a queue pair waits for a page; the numbers of operations are smaller. -/
def ethId (qp : Nat) (snd : Bool) : Nat := 2 ^ 64 + 2 * qp + snd.toNat

/-- No entry of a queue pair waits for a page any more. -/
def leavePages (s : State) (pkg qp : Nat) : State := leaveLanding (leaveLanding s pkg (ethId qp false)) pkg (ethId qp true)

def failQp (s : State) (pkg qp : Nat) : State := modQp (leavePages s pkg qp) pkg qp (fun q => { q with err := true })

/-- What a receive's message brought: its length, its immediate, and whether it has one. -/
abbrev Arrived := Nat × Nat × Bool

/-- An entry ends with a failure that puts the queue pair into the error state. -/
def failEntry (s : State) (pkg qp : Nat) (snd : Bool) (st : Nat) (got : Arrived) : State :=
  failQp (finishEntry s pkg qp snd st got.1 got.2.1 got.2.2) pkg qp

def noMessage : Arrived := (0, 0, false)

/-- The Ethernet engine's accesses for an entry: from the I/O die (01 R13). -/
def ethWho (q : QueuePair) (e : WorkEntry) : Who := { hwWho e.core q.job with die := some ioDie }

/-- An access of the engine that met uncorrectable data counts it (19 R436). -/
def ethCount (s : State) (w : Who) (code : Nat) (a : Word) : State := if code = 2 then uncAt s w a 3 else s

/-! ## NSEND, NRECV (11 R306) -/

def entryOk (bs : List Byte) : Bool :=
  bfld bs 0 4 == 0 && decide (bfld bs 16 8 < 2 ^ 31) && decide (bfld bs 40 8 < 2 ^ 33) && bfld bs 48 8 == 0 && bfld bs 56 8 == 0

def entryOf (bs : List Byte) (core : Nat) : WorkEntry :=
  { key := bfld bs 4 4, addr := word (bfld bs 8 8), len := bfld bs 16 8, wrid := word (bfld bs 24 8), cnt := word (bfld bs 32 8),
    imm := bfld bs 40 4, iv := (bfld bs 44 1).testBit 0, core := core, reached := false }

def postEntry (snd : Bool) (a b : Nat) (s : State) : Res :=
  let pkg := cxPkg s
  let n := (regA s b).toNat
  match getQp s pkg n with
  | none => .trap s cQueuePair 0 0
  | some q =>
    if q.job ≠ (cx s).job || 1024 ≤ n then .trap s cQueuePair 0 0
    else if (regA s a).toNat % 64 ≠ 0 then .trap s cEngine 0 0
    else load1 s false (regA s a) 64 (fun s bs =>
      if !entryOk bs then .trap s cEngine 0 0
      else
        let e := entryOf bs (cxCore s)
        optCounter s e.cnt (fun _ =>
          let l := sendQueue q snd
          if l.isEmpty || decide (l.length < Config.queuePairRoom) then
            .ok (modQp (if snd then releaseWaits s s.cur else s) pkg n (fun q => setQueue q snd (sendQueue q snd ++ [e])))
          else .wait s (.queuePair pkg n)))

def execNsend (a b : Nat) := finish (.nsend a b) [rA a, rA b] (postEntry true a b)
def execNrecv (a b : Nat) := finish (.nrecv a b) [rA a, rA b] (postEntry false a b)

/-! ## NPOLL (11 R308) -/

def pollOk (l : List Word) : Bool :=
  let x := l.getD 0 0
  fld x 8 8 == 0 && decide (1 ≤ fld x 16 7) && decide (fld x 16 7 ≤ 64) && fld x 23 41 == 0 && allZero (l.drop 1)

def execNpoll (a b n : Nat) := finish (.npoll a b n) [rA b] (fun s => withSets s n 1 (fun l =>
  let x := l.getD 0 0
  let pkg := cxPkg s
  let cq := fld x 0 8
  if !pollOk l || (regA s b).toNat % 32 != 0 then .trap s cEngine 0 0
  else
    let got := (kget (getPkg s pkg).cqs [] cq).take (fld x 16 7)
    store1 s false (regA s b) (got.flatMap cqBytes) (fun s =>
      let s := modPkg s pkg (fun p => { p with cqs := kset p.cqs cq ((kget p.cqs [] cq).drop got.length) })
      .ok (setA (acquire s (cxCore s)) a (word got.length)))))

/-! ## The engine reaches a work entry (13 R363; 19 R435) -/

/-- Whether a region covers an entry with the rights that it needs. -/
def regionOk (p : Pkg) (q : QueuePair) (e : WorkEntry) (snd : Bool) : Bool :=
  match kfind p.regions e.key with
  | none => false
  | some r => r.pd == q.pd && (if snd then r.rd else r.wr) && decide (r.base ≤ e.addr.toNat) && decide (e.addr.toNat + e.len ≤ r.base + r.len)

def markReached (s : State) (pkg qp : Nat) (snd : Bool) : State :=
  modQp s pkg qp (fun q => match sendQueue q snd with
    | [] => q
    | e :: rest => { setQueue q snd ({ e with reached := true } :: rest) with rnrAt := if snd then s.cycle else q.rnrAt })

/-- The engine takes up the oldest entry of a direction: it flushes, checks, and for a send reads the buffer. `got`: the message that has arrived for a
receive. -/
def reachEntry (s : State) (pkg qp : Nat) (snd : Bool) (got : Arrived) : State :=
  match getQp s pkg qp with
  | none => s
  | some q => match sendQueue q snd with
    | [] => s
    | e :: _ =>
      if (getPkg s pkg).quiet.contains q.job then s
      else if q.err then finishEntry s pkg qp snd 4 0 0 false
      else if e.reached then s
      else if snd && !(getLink s pkg (ethKey q.port)).up then failEntry s pkg qp snd 3 noMessage
      else if !regionOk (getPkg s pkg) q e snd then failEntry s pkg qp snd 1 got
      else if !snd then markReached s pkg qp snd
      else match engineRead s (ethWho q e) (ethId qp snd) [(e.addr, e.len)] with
        | (s, .done _) => markReached s pkg qp snd
        | (s, .fail c _ a) => failEntry (ethCount s (ethWho q e) c a) pkg qp snd 1 noMessage
        | (s, .wait) => s

def execWorkEntryReached (pkg qp snd : Nat) (s : State) : Host.Outcome State Fault Refusal := event (reachEntry s pkg qp (snd = 1) noMessage)

/-! ## Receiving and completing (13 R364; 19 R435) -/

/-- ETH_RECEIVE: a message of len bytes, whose bytes are the number `data` with the lowest first. Without a posted buffer it places nothing and
is answered with a NAK. -/
def execEthReceive (pkg qp len data imm iv : Nat) (s : State) : Host.Outcome State Fault Refusal :=
  let got : Arrived := (len, if iv = 1 then imm else 0, iv = 1)
  let s := match getQp s pkg qp with
    | some q => if q.err then s else reachEntry s pkg qp false got
    | none => s
  event (match getQp s pkg qp with
    | none => s
    | some q => match q.recvs with
      | [] => s
      | e :: _ =>
        if q.err || !e.reached || (getPkg s pkg).quiet.contains q.job then s
        else
          let l := [(e.addr, leBytes (min len e.len) data)]
          match engineWrite s (ethWho q e) (ethId qp false) l with
          | (s, .done _) => finishEntry s pkg qp false (if e.len < len then 2 else 0) got.1 got.2.1 got.2.2
          | (s, .fail c d a) => failEntry (writeFailed (ethCount s (ethWho q e) c a) (ethWho q e) l (.fail c d a)).1 pkg qp false 1 got
          | (s, .wait) => s)

/-- The oldest send of a queue pair, once the engine has read its buffer. -/
def sentHead (s : State) (pkg qp : Nat) : Option (QueuePair × WorkEntry) :=
  match getQp s pkg qp with
  | none => none
  | some q => match q.sends with
    | [] => none
    | e :: _ => if e.reached && !q.err then some (q, e) else none

def execEthSendCompletion (pkg qp : Nat) (s : State) : Host.Outcome State Fault Refusal :=
  event (match sentHead s pkg qp with
    | none => s
    | some (_, e) => finishEntry s pkg qp true 0 e.len 0 false)

/-- RNR_RETRY: 64 µs, 128,000 cycles, after a receiver-not-ready NAK; the eighth NAK ends the send. -/
def execRnrRetry (pkg qp : Nat) (s : State) : Host.Outcome State Fault Refusal :=
  event (match sentHead s pkg qp with
    | none => s
    | some (q, _) =>
      if s.cycle < q.rnrAt + 128000 then s
      else if q.rnr < 7 then modQp s pkg qp (fun q => { q with rnr := q.rnr + 1, rnrAt := s.cycle })
      else failEntry s pkg qp true 3 noMessage)

/-- A port that goes down ends the send in progress of each of its queue pairs; a later one meets the port when the engine reaches it (19 R435). -/
def portDown (port pkg : Nat) (s : State) (e : Nat × QueuePair) : State :=
  if e.2.port ≠ port || e.2.err then s
  else match sentHead s pkg e.1 with
    | some _ => failEntry s pkg e.1 true 3 noMessage
    | none => s

def execEthPortDown (pkg port : Nat) (s : State) : Host.Outcome State Fault Refusal :=
  pkgEvent s pkg (if port < 10 then (getPkg s pkg).qps.foldl (portDown port pkg) (signalUp s (modLink s pkg (ethKey port) Link.drop) pkg (ethKey port)) else s)

end Sys2Proof.Machine
end

