-- ==== Sys2Proof/Machine/Homes.lean ====
section
/-! DEFINITION. What happens at the home slices: registration, remote acknowledgement, eviction, update-only flushes, translation misses and
walks, page requests and their answers (03 R82-R87; 04 R105-R107; 13 R354-R356; 18 R405, R406, R409, R415, R416). -/

namespace Sys2Proof.Machine

open Sys2Proof

/-! ## Stores (04 R105-R107) -/

/-- Pending store number n reaches its home, with those that go before or with it. -/
def reachHome (s : State) (n : Nat) : State :=
  match s.stores[n]? with
  | none => s
  | some q => drainWith (sameInsn q) s

def execStoreRegistration (n : Nat) (s : State) : Host.Outcome State Fault Refusal :=
  event (match s.stores[n]? with
    | some p => if p.remote then s else reachHome s n
    | none => s)

/-- REMOTE_STORE_ACKNOWLEDGEMENT: numbers past the pending stores name those that a fenced id turned away, of which the job gets a notice (log 79). -/
def execRemoteStoreAcknowledgement (n : Nat) (s : State) : Host.Outcome State Fault Refusal :=
  event (match s.stores[n]? with
    | some p => if !p.remote || awayStore s p then s else reachHome s n
    | none => match s.nacked[n - s.stores.length]? with
      | none => s
      | some p => memNotice { s with nacked := s.nacked.eraseIdx (n - s.stores.length) } (corePkg (ctxCore p.ctx)) p.job (coreId (ctxCore p.ctx)) cFenced
          (windowAddr (keyCore p.key) (keyOfs p.key)) 0)

/-- A translation of a package that maps a physical key, as the job and the virtual address (log 21). -/
def mapping (s : State) (key : Nat) : Option (Nat × Word) :=
  let hit (e : TlbEntry) : Option (Nat × Word) :=
    if e.pa ≤ keyPa key && keyPa key < e.pa + e.size then some (e.job, word (e.va + (keyPa key - e.pa))) else none
  let cores := s.cores.flatMap (fun c => if corePkg c.1 = keyPkg key then c.2.tlb else [])
  let slices := s.groves.flatMap (fun g => if grovePkg g.1 = keyPkg key then g.2.tlb2 else [])
  ((cores ++ slices).filterMap hit).head?

/-- A memory notice about a physical key: to the job that has it mapped, else to the first installed one (log 21). -/
def keyNotice (s : State) (coreId key : Nat) : State :=
  let p := keyPkg key
  match mapping s key with
  | some (job, va) => lostNotice s p job coreId 2 va
  | none => match (getPkg s p).jobs with
    | (job, _) :: _ => lostNotice s p job coreId 2 (word (keyPa key))
    | [] => uncBump s p 2

/-- The dword at k leaves core c's L1; its owned bytes go back to their home first (04 R105). One that fails its check is lost (18 R409). -/
def evictWord (s : State) (core k : Nat) : State :=
  let own (i : Nat) : Bool := kfind s.owner (k + i) == some core
  let drop (s : State) : State := modCore s core (fun u => { u with l1 := u.l1.filter (fun e => e.1 / 8 != k / 8) })
  if !(List.range 8).any own then drop s
  else if s.bad.contains (l1Mark core k) then
    let t := (List.range 8).foldl (fun t i => if own i then { t with owner := kdel t.owner (k + i) } else t) s
    keyNotice (drop { t with bad := keyDel t.bad (l1Mark core k) }) (coreId core) k
  else drop ((List.range 8).foldl (fun t i => if own i then unownByte t (k + i) else t) s)

/-! ## The capacity of the L1 caches (01 R9): 32 KiB each; which word leaves is a free choice (log 108) -/

/-- Words leave a core's L1 data cache until it holds no more than 32,768 bytes. -/
def fitL1 : Nat → State → Nat → State
  | 0, s, _ => s
  | n + 1, s, core =>
    let l := (getCore s core).l1
    if l.length ≤ 32768 then s
    else match l[(freeNow s).toNat % l.length]? with
      | none => s
      | some e => fitL1 n (evictWord (freeStep s) core (e.1 / 8 * 8)) core

/-- Words leave a core's L1 instruction cache until it holds no more than 8,192 instructions. -/
def fitICache : Nat → State → Nat → State
  | 0, s, _ => s
  | n + 1, s, core =>
    let l := (getCore s core).icache
    if l.length ≤ 8192 then s
    else fitICache n (modCore (freeStep s) core (fun u => { u with icache := l.eraseIdx ((freeNow s).toNat % l.length) })) core

def overfull (u : Core) : Bool := decide (32768 < u.l1.length) || decide (8192 < u.icache.length)

def fitCore (s : State) (core : Nat) : State :=
  let s := fitL1 ((getCore s core).l1.length - 32768) s core
  fitICache ((getCore s core).icache.length - 8192) s core

/-- What the last cycle brought into full caches has pushed other words out. -/
def fitCaches (s : State) : State := ((s.cores.filter (fun e => overfull e.2)).map (fun e => e.1)).foldl fitCore s

/-- OWNED_WORD_EVICTION. -/
def execOwnedWordEviction (core key : Nat) (s : State) : Host.Outcome State Fault Refusal := event (evictWord s core (key / 8 * 8))

/-- UPDATE_ONLY_FLUSH: the oldest partial of a grove on a line is combined at the home (18 R415, R416). -/
def execUpdateOnlyFlush (grove line : Nat) (s : State) : Host.Outcome State Fault Refusal :=
  let hit (p : Partial) : Bool := p.grove == grove && p.key / 64 == line / 64
  event (match s.partials.findIdx? hit with
    | none => s
    | some i => match s.partials[i]? with
      | none => s
      | some p =>
        let t := { s with partials := s.partials.eraseIdx i }
        if p.bad then keyNotice t 0x1FFF (line / 64 * 64) else combine t p)

/-! ## Translation misses and walks (03 R83-R87) -/

def samePage (a b : Miss) : Bool := a.job == b.job && a.va / 4096 == b.va / 4096

/-- The number of busy walkers: the pages in the list. -/
def busyWalkers : List Miss → Nat
  | [] => 0
  | m :: l => busyWalkers l + if l.any (samePage m) then 0 else 1

/-- A miss arrives at its slice: a walker or one that already walks its page, the walk queue, or a refusal. -/
def missArrives (s : State) (g : Nat) (m : Miss) : State :=
  modGrove s g (fun u =>
    if u.walks.any (samePage m) || decide (busyWalkers u.walks < 4) then { u with walks := u.walks ++ [m] }
    else if u.walkQ.length < 64 then { u with walkQ := u.walkQ ++ [m] }
    else { u with walkRef := u.walkRef ++ [{ m with due := s.cycle + 256 }] })

/-- TLB_MISS_REQUEST: a second-level hit is answered, a miss is walked. -/
def execTlbMissRequest (core job va : Nat) (s : State) : Host.Outcome State Fault Refusal :=
  let g := transHome core job va
  event (if !(astEntry s (corePkg core) job).getLsbD 0 || migrating s (corePkg core) job va || 28 * 2 ^ 52 ≤ va || (tlbFind (getCore s core).tlb job va).isSome then s
    else match tlbFind (getGrove s g).tlb2 job va with
      | some e => installAt s core g e
      | none => missArrives s g { core := core, job := job, va := va, due := 0 })

def execWalkRetry (grove n : Nat) (s : State) : Host.Outcome State Fault Refusal :=
  event (match (getGrove s grove).walkRef[n]? with
    | none => s
    | some m =>
      if s.cycle < m.due then s
      else missArrives (modGrove s grove (fun u => { u with walkRef := u.walkRef.eraseIdx n })) grove m)

/-- The walk queue moves up into free walkers. -/
def moveUp : Nat → Grove → Grove
  | 0, u => u
  | n + 1, u =>
    match u.walkQ with
    | [] => u
    | m :: l => if u.walks.any (samePage m) || decide (busyWalkers u.walks < 4) then moveUp n { u with walks := u.walks ++ [m], walkQ := l } else u

/-- WALK_COMPLETION: every requester of the page gets the translation; a walk that fails installs nothing, and the access that needs it
fails when it is made again. Nor does one for a page in migration, whose accesses wait (03 R93). A is set for a page that may be read (log 56). -/
def execWalkCompletion (grove n : Nat) (s : State) : Host.Outcome State Fault Refusal :=
  event (match (getGrove s grove).walks[n]? with
    | none => s
    | some m =>
      let all := (getGrove s grove).walks.filter (samePage m)
      let s := modGrove s grove (fun u => moveUp u.walkQ.length { u with walks := u.walks.filter (fun x => !samePage m x) })
      if migrating s (grovePkg grove) m.job m.va then s
      else match walk s (grovePkg grove) (coreDie m.core) m.job m.va with
      | .leaf e =>
        let (s, e) := if permits .read e then setAD s e false else (s, e)
        all.foldl (fun s x => installAt s x.core grove e) s
      | _ => s)

/-! ## The fault landing (13 R354-R356; 18 R405, R406) -/

/-- LANDING_RETRY: a thread that found the landing full tries its access again after 256 cycles (log 18). -/
def execLandingRetry (ctx : Nat) (s : State) : Host.Outcome State Fault Refusal :=
  event (match (getCtx s ctx).status with
    | .waiting (.landing _) since _ =>
      if since + 256 ≤ s.cycle then modCtx s ctx (fun c => { c with status := .running, hbMark := s.cycle }) else s
    | _ => s)

def powerOfTwo (n : Nat) : Bool := n == 2 ^ Nat.log2 n

/-- Whether the ring has room for an entry (13 R355). -/
def ringRoom (p : Pkg) : Bool :=
  let n := p.ringCount.toNat
  decide (64 ≤ n) && decide (n ≤ 65536) && powerOfTwo n && (word p.ringHead - p.ringTail) != p.ringCount

/-- The 32 bytes of a page-request entry. -/
def pageEntry (slot gen : Nat) (q : PageReq) : List Byte :=
  leBytes 8 (q.va.toNat % 2 ^ 57 + q.wr.toNat * 2 ^ 57 + q.fx.toNat * 2 ^ 58) ++ leBytes 8 (q.job + slot * 2 ^ 16 + gen * 2 ^ 32)
    ++ leBytes 8 (q.src + q.eng.toNat * 2 ^ 13) ++ leBytes 8 0

/-- A landing slot's request that has no ring entry yet. -/
def pageWaiting (p : Pkg) (i : Nat) : Option (Nat × Nat × PageReq) :=
  match kfind p.landing i with
  | some l => match l.req with
    | some q => if q.written then none else some (i, l.gen, q)
    | none => none
  | none => none

/-- PAGE_REQUEST_ENTRY: the oldest request that has no entry yet is written to the ring in host memory. -/
def execPageRequestEntry (pkg : Nat) (s : State) : Host.Outcome State Fault Refusal :=
  let p := getPkg s pkg
  event (match (p.landOrder.filterMap (pageWaiting p)).head? with
    | none => s
    | some (i, gen, q) =>
      if !ringRoom p then s
      else
        let at_ := 2 ^ 51 + (p.ringBase.toNat + 32 * (p.ringHead % p.ringCount.toNat)) % 2 ^ 51
        let s := homeWrite s (physKey pkg at_) (pageEntry i gen q)
        modPkg s pkg (fun p => { p with msi := p.msi + 1, ringHead := (p.ringHead + 1) % 2 ^ 64,
                                        landing := kset p.landing i { gen := gen, req := some { q with written := true } } }))

/-- Frees a landing slot: its generation rises. -/
def freeLandSlot (s : State) (pkg i : Nat) : State :=
  modPkg s pkg (fun p => { p with landing := kset p.landing i { gen := (landGen p i + 1) % 2 ^ 32, req := none }, landOrder := p.landOrder.filter (fun x => x != i) })

/-- The physical key of the page that a request names, once it is valid. -/
def pageKey (s : State) (core job : Nat) (va : Word) : Option Nat :=
  let page := va.toNat / 4096 * 4096
  match walk s (corePkg core) (coreDie core) job page with
  | .leaf e => some (physKey (corePkg core) (e.pa + (page - e.va)))
  | _ => none

/-- The hold field of a record's full frame. -/
def frameHold (s : State) (core : Nat) (r : Rec) : State × Word :=
  match hwRead s (hwWho core r.job) (r.w1 + 0x1268) 8 with
  | (s, .ok bs) => (s, word (leNat bs))
  | (s, .error _) => (s, 0)

/-- A ready-pool record of a pre-empted job, as an entry of kind 2 of its job section (17 R398, 18 R406). -/
def areaEntry (kind loc : Nat) (body : List Byte) : List Byte := leBytes 8 (kind + body.length * 2 ^ 8 + loc * 2 ^ 32) ++ body

def joinImage (s : State) (pkg job : Nat) (e : Nat × QRec × Nat) : State :=
  modPkg s pkg (fun p => match kfind p.preempted job with
    | some v => { p with preempted := kset p.preempted job { v with
        pool := v.pool ++ [(coreGrove e.1, e.2.1)], entries := v.entries ++ areaEntry 2 (coreGrove e.1 % 256) (recBytes e.2.1.r) } }
    | none => p)

/-- A parked record is released after its page has become valid; that of a pre-empted job joins the saved pool records (log 57). -/
def answerYes (s : State) (pkg : Nat) (q : PageReq) (e : Nat × QRec × Nat) : State :=
  if (kfind (getPkg s pkg).preempted q.job).isSome then joinImage s pkg q.job e
  else match pageKey s e.1 q.job q.va with
    | some key => releaseBeside s q.job key e.1 e.2.1
    | none => poolPush s (coreGrove e.1) e.2.1

/-- A parked record is refused: it goes to the fault handler with its frame; that of a pre-empted job joins its image. -/
def answerNo (s : State) (pkg : Nat) (e : Nat × QRec × Nat) : State :=
  let r := e.2.1.r
  if (kfind (getPkg s pkg).preempted r.job).isSome then joinImage s pkg r.job e
  else match frameHold s e.1 r with
  | (s, hold) => report s pkg { job := r.job, r := { r with fc := true, rs := false }, cause := cRefused, fpc := r.pc, faddr := word (e.2.2 / 2 ^ 32),
                                finfo := word (e.2.2 % 2 ^ 32), hold := hold, coreId := coreId e.1, about := none, kept := e.2.1.handler }

/-- What an answer does once every earlier host write is performed (13 R356). -/
def actAnswer (s : State) (pkg value : Nat) : State :=
  let i := value % 4096
  match kfind (getPkg s pkg).landing i with
  | some { gen := gen, req := some q } =>
    if gen ≠ value / 2 ^ 32 % 2 ^ 32 then modPkg s pkg (fun p => { p with stale := (p.stale + 1) % 2 ^ 64 })
    else
      let s := freeLandSlot s pkg i
      if value.testBit 12 then q.parked.foldl (fun s e => answerYes s pkg q e) s
      else
        let s := q.parked.foldl (fun s e => answerNo s pkg e) s
        modPkg s pkg (fun p => { p with refusedOps := q.waiters.foldl (fun m e => kset m e.1 e.2) p.refusedOps })
  | _ => modPkg s pkg (fun p => { p with stale := (p.stale + 1) % 2 ^ 64 })

/-- The host's write to BAR0 0x120. One with OK = 1 acts after the messages that came before it and are still held (20 R441). -/
def pageAnswer (s : State) (pkg value : Nat) : State :=
  if value.testBit 12 && !(getPkg s pkg).hostHeld.isEmpty then
    modPkg s pkg (fun p => { p with hostHeld := p.hostHeld ++ [{ core := 0, qrec := plainRec (zeroRec 0 0), answer := some value }] })
  else actAnswer s pkg value

def execPageRequestAnswer (pkg value : Nat) (s : State) : Host.Outcome State Fault Refusal := event (pageAnswer s pkg value)

end Sys2Proof.Machine
end

