-- ==== Sys2Proof/Machine/Fencing.lean ====
section
/-! DEFINITION. Delivery of a held trap, heartbeats, fences and spares, powered-down cores, soft errors and the patrol scrubber (02 R53; 17
R381, R384, R387-R392; 18 R408, R409, R410, R413, R417, R420; 19 R436). -/

namespace Sys2Proof.Machine

open Sys2Proof

/-! ## Delivery (17 R381, R384) -/

/-- FAULT_DELIVERY: a context that holds a trap delivers it when its job's fault ring has a free entry. -/
def execFaultDelivery (ctx : Nat) (s : State) : Host.Outcome State Fault Refusal :=
  event (match (getCtx s ctx).status with
    | .faulting f _ => if ringFree s (corePkg (ctxCore ctx)) (getCtx s ctx).job then deliverTrap s ctx f else s
    | _ => s)

/-- FAULT_DELIVERY_RETRY: the retry every 256 cycles. -/
def execFaultDeliveryRetry (ctx : Nat) (s : State) : Host.Outcome State Fault Refusal :=
  event (match (getCtx s ctx).status with
    | .faulting f since => if since + 256 ≤ s.cycle then deliverTrap s ctx f else s
    | _ => s)

/-! ## The fence (17 R387, R389; 18 R417, R420) -/

/-- The heartbeat count of a context (02 R53). It stands still while a pre-emption stops the job's threads (17 R395). -/
def heartbeat (s : State) (ctx : Nat) : Nat :=
  let c := getCtx s ctx
  c.hb + (match c.status with
    | .running => if quietJob s (corePkg (ctxCore ctx)) c.job then 0 else s.cycle - c.hbMark
    | _ => 0)

/-- The installed jobs whose CORES hold a core. -/
def jobsOn (s : State) (core : Nat) : List Nat := ((getPkg s (corePkg core)).jobs.map (fun e => e.1)).filter (inCores s core)

/-- What a fence destroys of a job: FINFO of its notice (17 R389). -/
def lossWord (s : State) (core job : Nat) : Nat :=
  let u := getCore s core
  let mine (q : QRec) : Bool := q.r.job == job
  let threads := ((List.range 8).filter (fun i =>
    let c := getCtx s (core * 8 + i)
    c.status != .dormant && c.job == job)).length
  let queued := ((List.range 4).flatMap (fun p => (queueOf u p).filter mine)).length
  threads + queued * 2 ^ 4 + (u.deque.filter mine).length * 2 ^ 12 + (u.park.filter (fun p => mine p.qrec)).length * 2 ^ 19

/-- Takes the words that a core owns back to their homes (log 22). For a word that fails its check the home keeps its value, and a notice tells of it (18
R409). -/
def writeBack (s : State) (core : Nat) : State :=
  let words := (s.owner.filter (fun e => e.2 == core)).foldl (fun l e => keyAdd l (e.1 / 8 * 8)) []
  words.foldl (fun s k => evictWord s core k) s

/-- Operations of a core that wait for a counter or for queue room are discarded (18 R417), and so are its reads. -/
def dropWaiting (s : State) (core : Nat) : State :=
  let s := ((getCore s core).ops.filter (fun o => o.phase == .waiting)).foldl (fun s o => dropOp s core o) s
  { s with groves := s.groves.map (fun g => (g.1, { g.2 with
      sawWait := g.2.sawWait.filter (fun o => o.core != core), cruWait := g.2.cruWait.filter (fun o => o.core != core),
      saw := g.2.saw.filter (fun o => !(o.core == core && isRead o.kind)) })) }

/-- Rings on a core leave the streams of its package (18 R420). -/
def dropRings (s : State) (core : Nat) : State :=
  modPkg s (corePkg core) (fun p => { p with streams := p.streams.map (fun e => (e.1, e.2.keepRings (fun r => r.core != core))) })

/-- A member that stops contributing lets phases complete (17 R392). -/
def settleGroupsOf (s : State) (core : Nat) : State :=
  let all := s.groves.flatMap (fun g => if grovePkg g.1 = corePkg core then g.2.groups else [])
  all.foldl (fun s e => if (memberOf e.2 core).isSome then settleGroup s (corePkg core) (e.1 / 65536) (e.1 % 65536) e.2 else s) s

/-- Rings that the isolation of a die cuts from their stream's stack leave the stream, and every group's phases are tested again (19 R431, 18 R420, 17
R392). -/
def cutOff (s : State) (pkg : Nat) : State :=
  let s := modPkg s pkg (fun p => { p with streams := p.streams.map (fun e => (e.1, cutRings s pkg e.1 e.2)) })
  let all := s.groves.flatMap (fun g => if grovePkg g.1 = pkg then g.2.groups else [])
  all.foldl (fun s e => settleGroup s pkg (e.1 / 65536) (e.1 % 65536) e.2) s

/-- UCIE_LINK_DOWN: a die that it leaves alone is isolated until device reset. -/
def execUcieLinkDown (pkg link : Nat) (s : State) : Host.Outcome State Fault Refusal :=
  pkgEvent s pkg (if link < 10 && (getLink s pkg (ucieKey link)).up then
    let t := signalUp s (modLink s pkg (ucieKey link) Link.drop) pkg (ucieKey link)
    let alone := (ucieDies link).filter (dieAlone t pkg)
    if alone.isEmpty then t
    else cutOff (reroute (dropDies (modPkg t pkg (fun p => { p with isolated := alone.foldl keyAdd p.isolated })) pkg alone) pkg) pkg
  else s)

/-- The fault launches that wait for a core that no core stands in for are stranded (17 R384). -/
def strandLaunches (s : State) (core : Nat) : State :=
  modPkg s (corePkg core) (fun p => { p with strandedCount := p.strandedCount + (p.launches.filter (fun l => l.1 == core)).length })

/-- A core is fenced: what it had sent is performed, its units and contexts are lost (log 59). -/
def fenceCore (s : State) (core : Nat) : State :=
  let jobs := jobsOn s core
  let lost := jobs.map (fun j => (j, lossWord s core j))
  let mine := (waiters s).filter (fun c => ctxCore c == core)
  let s := performReady mine mine.length s
  let s := dropRings (dropWaiting (writeBack (drainWith (fun p => ctxCore p.ctx == core) s) core) core) core
  let s := { s with ctxs := s.ctxs.map (fun e => if ctxCore e.1 = core then (e.1, Ctx.reset) else e) }
  let phys := (getCore s core).phys
  let s := modGrove s (coreGrove core) (fun g => { g with deadPhys := keyAdd g.deadPhys (if phys = 32 then coreId core % 32 else phys) })
  let s := modCore s core (fun u => { u with
    q := [], deque := [], park := [], trigs := [], claims := [], spawn := none, fenced := some s.cycle,
    unrepaired := jobs.foldl keyAdd u.unrepaired, lost := lost, fences := u.fences + 1 })
  strandLaunches (settleGroupsOf s core) core

/-- HEARTBEAT_MISS: the count of a context reaches its job's HBI. -/
def execHeartbeatMiss (ctx : Nat) (s : State) : Host.Outcome State Fault Refusal :=
  let core := ctxCore ctx
  let hbi := (jobD s (corePkg core) (getCtx s ctx).job).hbi
  event (if (getCtx s ctx).status != .dormant && hbi ≠ 0 && decide (hbi ≤ heartbeat s ctx) && (getCore s core).fenced.isNone then fenceCore s core
    else s)

/-- The physical spare that takes over in a grove: not fenced, and not in use (17 R388). -/
def spareOf (s : State) (g : Nat) : Option Nat :=
  let used := (List.range 24).map (fun i => (getCore s (groveCore g i)).phys)
  [24, 25].find? (fun k => !(getGrove s g).deadPhys.contains k && !used.contains k)

/-- A scratchpad of zeros, every dword empty. -/
def zeroScratch (s : State) (core : Nat) : State :=
  let inside (k : Nat) : Bool := decide (scratchKey core 0 ≤ k) && decide (k < scratchKey core 0 + 2 ^ 17)
  { s with mem := s.mem.filter (fun c => !inside c.1), full := s.full.filter (fun k => !inside k), bad := s.bad.filter (fun k => !inside k) }

/-- SPARE_TAKEOVER: 64 cycles after the fence; every job of the core gets its notice. -/
def execSpareTakeover (core : Nat) (s : State) : Host.Outcome State Fault Refusal :=
  let u := getCore s core
  event (match u.fenced, spareOf s (coreGrove core) with
    | some since, some k =>
      if s.cycle < since + 64 then s
      else
        let jobs := jobsOn s core
        let spm := jobs.any (fun j => (getPkg s (corePkg core)).spmJobs.contains j)
        let s := zeroScratch s core
        let s := modCore s core (fun u => { Core.reset with
          spm := spm, nextNum := u.nextNum, held := u.held, sendQ := u.sendQ, deckOrder := u.deckOrder, ops := u.ops, phys := k, unrepaired := jobs.foldl keyAdd u.unrepaired,
          fences := u.fences })
        let s := jobs.foldl (fun s j => report s (corePkg core)
          { job := j, r := zeroRec j (jobD s (corePkg core) j).cap, cause := cHeartbeat, fpc := 0, faddr := windowAddr core 0,
            finfo := word (kget u.lost 0 j), hold := 0, coreId := coreId core, about := some (fenceTag s core), kept := none }) s
        flushLaunches s core
    | _, _ => s)

/-- CORE_POWERED_DOWN: the core runs nothing more and counts as fenced for group loads. -/
def execCorePoweredDown (core : Nat) (s : State) : Host.Outcome State Fault Refusal :=
  pkgEvent s (corePkg core) (settleGroupsOf (modCore s core (fun u => { u with offMark := true })) core)

/-! ## Soft errors (18 R408, R409, R413; 19 R436) -/

/-- A record that fails its check is lost; its job gets a memory notice (18 R409). -/
def lostRecord (s : State) (pkg coreId : Nat) (q : QRec) : State := lostNotice s pkg q.r.job coreId 2 0

/-- A queued record lost to a soft error (18 R409; log 55). -/
def loseQueued (s : State) (core p i : Nat) : State :=
  match (queueOf (getCore s core) p)[i]? with
  | none => s
  | some q => flushLaunches (lostRecord (modCore s core (fun u => { u with q := kset u.q p ((queueOf u p).eraseIdx i) })) (corePkg core) (coreId core) q) core

def loseStolen (s : State) (core i : Nat) : State :=
  match (getCore s core).deque[i]? with
  | none => s
  | some q => lostRecord (modCore s core (fun u => { u with deque := u.deque.eraseIdx i })) (corePkg core) (coreId core) q

def loseParked (s : State) (core i : Nat) : State :=
  match (getCore s core).park[i]? with
  | none => s
  | some q => lostRecord (modCore s core (fun u => { u with park := u.park.eraseIdx i })) (corePkg core) (coreId core) q.qrec

/-- An on-chip record of a ready pool; one of the ring fails with its HBM block. -/
def losePooled (s : State) (g i : Nat) : State :=
  match (getGrove s g).pool[i]? with
  | none => s
  | some q => poolSettle (lostRecord (modGrove s g (fun u => { u with pool := u.pool.eraseIdx i })) (grovePkg g) 0x1FFF q) g

/-- A word of a core's L1: an owned one is marked, a clean one discarded. -/
def spoilL1 (s : State) (core k : Nat) : State :=
  if (List.range 8).any (fun i => kfind s.owner (k / 8 * 8 + i) == some core) then { s with bad := keyAdd s.bad (l1Mark core k) }
  else modCore s core (fun u => { u with l1 := u.l1.filter (fun e => e.1 / 8 != k / 8) })

/-- A register's unit, as `regBad` numbers them; A0 and M0 are wired. -/
def spoilRegister (s : State) (ctx r : Nat) : State :=
  if r = rA 0 || r = rM 0 || (32 ≤ r && r < 64) || (82 ≤ r && r < 128) || 640 ≤ r then s else modCtx s ctx (fun c => { c with badRegs := keyAdd c.badRegs r })

/-- Skidder state of a region: the region stops (18 R420). -/
def spoilRegion (s : State) (pkg key : Nat) : State :=
  match getStream s pkg key with
  | some st => if st.started && !st.complete then endStream s pkg key st 2 0 0 else s
  | none => s

def spoilGroup (s : State) (g k : Nat) : State :=
  if (kfind (getGrove s g).groups k).isSome then { s with bad := keyAdd s.bad (groupMark g k) } else s

/-- The router or Quadrille state of a play at one of its packages. -/
def spoilPlay (s : State) (n pkg : Nat) : State :=
  match s.plays[n]? with
  | some y => if y.ended || (joinedOf y pkg).isNone then s else abortPlay (uncBump s pkg 6) n 3
  | none => s

/-- SOFT_ERROR. Kinds: 0 a memory unit (key); 1 a register's unit (context × 1,024 + unit); 2 an L1 word (core × 2^66 + key); 3 a landing-queue record
((core × 4 + priority) × 64 + n); 4 a deque record and 5 a park-table record (core × 64 + n); 6 a ready-pool record (grove × 8,192 + n); 7
an update-only partial (n); 8 a membership record (slice × 2^28 + group); 9 a core's TLB and instruction cache; 10 a Skidder region (package × 512 +
stream); 11 a corrected error (package × 8 + class); 12 router or Quadrille state of a play (play × 4,096 + package); 13 a dword of a shared-cache slice (key). -/
def execSoftError (kind key : Nat) (s : State) : Host.Outcome State Fault Refusal :=
  event (match kind with
    | 0 => { s with bad := keyAdd s.bad (unitOf (key % 2 ^ 65)) }
    | 1 => spoilRegister s (key / 1024) (key % 1024)
    | 2 => spoilL1 s (key / 2 ^ 66) (key % 2 ^ 66)
    | 3 => loseQueued s (key / 256) (key / 64 % 4) (key % 64)
    | 4 => loseStolen s (key / 64) (key % 64)
    | 5 => loseParked s (key / 64) (key % 64)
    | 6 => losePooled s (key / 8192) (key % 8192)
    | 7 => { s with partials := s.partials.modify key (fun p => { p with bad := true }) }
    | 8 => spoilGroup s (key / 2 ^ 28) (key % 2 ^ 28)
    | 9 => modCore s key (fun u => { u with tlb := [], icache := [] })
    | 10 => spoilRegion s (key / 512) (key % 512)
    | 11 => modPkg s (key / 8) (fun p => { p with corr := kset p.corr (key % 8) ((kget p.corr 0 (key % 8) + 1) % 2 ^ 32) })
    | 12 => spoilPlay s (key / 4096) (key % 4096)
    | _ => if keyIsScratch key then s else { s with bad := keyAdd s.bad (sliceMark (key % 2 ^ 65)) })

/-- The scrubber's reading of every block of a package, once in each 2^40 cycles: each HBM block that fails counts in class 3 (19 R436; log 107). -/
def scrubAll (s : State) (pkg : Nat) : State :=
  (s.bad.filter (fun u => u < 2 ^ 66 && keyPkg u == pkg && !keyIsScratch u && paRange (keyPa u) == 0)).foldl (fun s _ => uncBump s pkg 3) s

/-- PATROL_SCRUB: an uncorrectable HBM block is left unchanged and counted. -/
def execPatrolScrub (pkg block : Nat) (s : State) : Host.Outcome State Fault Refusal :=
  pkgEvent s pkg (if block < 2 ^ 34 && s.bad.contains (physKey pkg (32 * block)) then uncBump s pkg 3 else s)

end Sys2Proof.Machine
end

