-- ==== Sys2Proof/Machine/Host.lean ====
section
/-! DEFINITION. The host's side: active messages, memory accesses, the commands of the job-table interface and the registers of BAR0 (02 R34-R36; 13
R347-R356, R362; 17 R395). -/

namespace Sys2Proof.Machine

open Sys2Proof

/-! ## Active messages (02 R36; 13 R350, R351) -/

/-- DISC and ACC of an injector page, at its offset 0x040 (13 R350). -/
def discard (s : State) (pkg page : Nat) : State := modPkg s pkg (fun p => { p with disc := kset p.disc page ((kget p.disc 0 page + 1) % 2 ^ 32) })
def accept (s : State) (pkg page : Nat) : State := modPkg s pkg (fun p => { p with acc := kset p.acc page ((kget p.acc 0 page + 1) % 2 ^ 32) })

/-- The dword that a read of an injector page's offset 0x040 gives. -/
def countWord (p : Pkg) (page : Nat) : Word := word (kget p.acc 0 page + kget p.disc 0 page * 2 ^ 32)

/-- The job and the target core of a 64-byte write to an injector page, if the NI accepts it. -/
def hostTarget (s : State) (pkg page ofs size data : Nat) : Option (Nat × Nat) :=
  let core := pkg * 8192 + data % 8192
  let pc := data / 2 ^ 64 % 2 ^ 64
  match kfind (getPkg s pkg).binds page with
  | none => none
  | some job =>
    if ofs ≠ 0 || size ≠ 64 || data.testBit 13 || data / 2 ^ 16 % 2 ^ 48 ≠ 0 || pc % 4 ≠ 0 || 2 ^ 48 ≤ pc || data / 2 ^ 256 % 2 ^ 256 ≠ 0
        || 23 < data % 32 || !inCores s core job || (getPkg s pkg).quiet.contains job then none
    else some (job, core)

/-- The launch record of a host active message; its source is core 0x1FFF of the package (02 R24). -/
def hostRec (pkg job data : Nat) : Rec :=
  { pc := word (data / 2 ^ 64 % 2 ^ 64), job := job, prio := data / 2 ^ 14 % 4, ff := false, fc := false, st := false, rs := false, w1 := 0,
    args := [word (data / 2 ^ 128 % 2 ^ 64), word (data / 2 ^ 192 % 2 ^ 64), 0, sourceWord 0 0x1FFF pkg, 0, 0] }

/-- Queues an accepted message. False: its deck is full. A fenced id discards it as any message (17 R390; log 60). -/
def hostArrive (s : State) (core : Nat) (r : Rec) : State × Bool :=
  if fencedFor s { hwWho core r.job with die := some ioDie } core then
    (discardRec s core { r with prio := max r.prio (jobD s (corePkg core) r.job).cap } cFenced (windowAddr core 0) (r.prio * 2 ^ 12) 0, true)
  else arrive s core r

/-- HOST_ACTIVE_MESSAGE: a host write of `size` bytes `data` at an offset of an injector page (log 60). The NIs work in Run only (16 R376). -/
def execHostActiveMessage (pkg page ofs size data : Nat) (s : State) : Host.Outcome State Fault Refusal :=
  pkgEvent s pkg (if 4096 ≤ page || !powered s pkg then s
    else match hostTarget s pkg page ofs size data with
      | none => discard s pkg page
      | some (job, core) =>
        let t := accept s pkg page
        let r := hostRec pkg job data
        let hold (t : State) : State := modPkg t pkg (fun p => { p with hostHeld := p.hostHeld ++ [{ core := core, qrec := plainRec r }] })
        if !(getPkg s pkg).hostHeld.isEmpty then hold t
        else match hostArrive t core r with
          | (t, true) => t
          | (_, false) => hold t)

/-- HOST_MESSAGE_RETRY: what is held goes on in its order. A message is tried again, unless a pre-emption stops its job (17 R395); an answer acts once
the messages before it are queued (20 R441). -/
def execHostMessageRetry (pkg : Nat) (s : State) : Host.Outcome State Fault Refusal :=
  event (match (getPkg s pkg).hostHeld with
    | [] => s
    | h :: rest =>
      let t := modPkg s pkg (fun p => { p with hostHeld := rest })
      match h.answer with
      | some v => actAnswer t pkg v
      | none =>
        if (getPkg s pkg).quiet.contains h.qrec.r.job then s
        else match hostArrive t h.core h.qrec.r with
        | (t, true) => t
        | (_, false) => s)

/-! ## The HDM range (13 R347) -/

/-- The error of a failed unit that an interface of the package met is counted (19 R436). -/
def countUnit (s : State) (pkg : Nat) : Option Nat → State
  | none => s
  | some k => match unitClass s k with
    | some c => uncBump s pkg c
    | none => s

/-- The recall of an interface's access: a partial that fails its check is an error of the slices (18 R416). -/
def recallCounted (s : State) (pkg k n : Nat) : State :=
  match recallLines s k n with
  | (s, some _) => uncBump s pkg 2
  | (s, none) => s

/-- What the host's read of [k, k + n) gets: its bytes; none when they fail their check, which is counted (log 109). -/
def hdmRead (s : State) (pkg k n : Nat) : State :=
  let put (s : State) (v : Option Nat) : State := modPkg s pkg (fun p => { p with hdmRead := v })
  match firstBad s k n with
  | some b => put (countUnit s pkg (some b)) none
  | none => put s (some (leNat (homeRead s k n)))

/-- HOST_HDM_ACCESS: a host access at offset x reaches HBM address x. A write to part of a failed unit leaves it unchanged (18 R409). -/
def execHostHdmAccess (pkg wr ofs size value : Nat) (s : State) : Host.Outcome State Fault Refusal :=
  let k := physKey pkg ofs
  pkgEvent s pkg (if (getPkg s pkg).hdm < ofs + size || !hasTarget (getPkg s pkg) ioDie ofs then s
    else
      let s := recallCounted s pkg k size
      if wr ≠ 1 then hdmRead s pkg k size
      else if (storeBad s k size).isSome then s
      else mend (homeWrite s k (leBytes size value)) k size)

/-! ## The job-table interface (13 R352, R353) -/

def jta (s : State) (pkg i : Nat) : Nat :=
  let p := getPkg s pkg
  (if i = 0 then p.jta0 else if i = 1 then p.jta1 else p.jta2).toNat

/-- A command ends with a result. -/
def result (s : State) (pkg r : Nat) : State := modPkg s pkg (fun p => { p with result := r })

/-- Whether every part of an access of the interface to n bytes gets an answer: none of them is turned away by the host (13 R348; log 77). -/
def physAnswers (s : State) (pkg pa n : Nat) : Bool :=
  (List.range ((n + 4095) / 4096)).all (fun i => answers s pkg ioDie (pa + 4096 * i)) && answers s pkg ioDie (pa + n - 1)

/-- Bytes at a physical address that the interface reads; none when they cannot be read. -/
def physRead (s : State) (pkg pa n : Nat) : State × Option (List Byte) :=
  let sp := paSpans s pkg pa n
  if 2 ^ 52 < pa + n || !physAnswers s pkg pa n then (s, none)
  else match recallSpans s sp 0 with
    | (s, some _) => (uncBump s pkg 2, none)
    | (s, none) => if (firstBadIn s sp 0).isSome then (countUnit s pkg (sp.findSome? (fun x => firstBad s x.1 x.2)), none)
      else (paDeliver s pa sp, some (spansHome s sp))

/-- The fields of a descriptor (02 R34), and whether each must-be-zero bit is zero. -/
def descriptorOf (bs : List Byte) : Nat × Job × Bool :=
  let d (i : Nat) : Nat := bfld bs (8 * i) 8
  let j : Job :=
    { cap := d 0 / 2 ^ 12 % 4, swt := d 0 / 2 ^ 14 % 256, wth := d 0 / 2 ^ 22 % 2 ^ 20, htab := word (d 1), hcnt := d 2 % 8192,
      ctro := d 3 % 2 ^ 17, ctrs := d 3 / 2 ^ 17 % 2 ^ 18, deck := word (d 4), spo := d 5 % 2 ^ 17, sps := d 5 / 2 ^ 17 % 2 ^ 18, ovfl := word (d 6),
      fhaddr := word (d 7), fcore := d 8 % 8192, hbi := d 9 % 2 ^ 40, cores := bfld bs 0x80 768 }
  let zero : Bool := d 0 / 2 ^ 42 == 0 && d 1 % 16 == 0 && d 2 / 2 ^ 13 == 0 && d 3 / 2 ^ 35 == 0 && j.ctro % 8 == 0 && d 4 % 2 ^ 16 == 0
    && d 5 / 2 ^ 35 == 0 && j.spo % 256 == 0 && d 7 % 4 == 0 && d 8 / 2 ^ 13 == 0 && d 9 / 2 ^ 40 == 0 && bfld bs 0x50 0x30 == 0
  (d 0 % 4096, j, zero)

/-- What installation refuses (02 R35). -/
def descriptorOk (j : Job) (zero : Bool) : Bool :=
  zero && j.swt != 0 && decide (1 ≤ j.hcnt) && decide (j.hcnt ≤ 4096) && decide (j.fcore % 32 < 24) && j.cores.testBit (denseIndex j.fcore)

def cmdInstall (s : State) (pkg : Nat) : State :=
  let a := jta s pkg 0
  if a % 128 ≠ 0 then result s pkg 1
  else match physRead s pkg a 896 with
    | (s, none) => result s pkg 1
    | (s, some bs) => match descriptorOf bs with
      | (job, j, zero) =>
        if !descriptorOk j zero then result s pkg 2
        else if (jobOn s pkg job).isSome then result s pkg 3
        else result (modPkg s pkg (fun p => { p with jobs := kset p.jobs job j })) pkg 0

def cmdAset (s : State) (pkg : Nat) : State :=
  let v := (getPkg s pkg).jta1
  if 4096 ≤ jta s pkg 0 || fld v 1 11 ≠ 0 || fld v 52 12 ≠ 0 then result s pkg 1
  else result (modPkg s pkg (fun p => { p with ast := kset p.ast (jta s pkg 0) v })) pkg 0

/-- SHOOT runs until TLBINV_COMPLETION. -/
def cmdShoot (s : State) (pkg : Nat) : State :=
  if 3 ≤ jta s pkg 0 || 4096 ≤ jta s pkg 1 then result s pkg 1
  else modPkg (result s pkg 0) pkg (fun p => { p with busy := true, shoots := p.shoots ++ [{ scope := jta s pkg 0, job := jta s pkg 1, va := jta s pkg 2 }] })

def cmdBind (s : State) (pkg : Nat) : State :=
  let v := jta s pkg 1
  let page := jta s pkg 0
  if 4096 ≤ page || v / 2 ^ 12 % 2 ^ 51 ≠ 0 then result s pkg 1
  else if v.testBit 63 then result (modPkg s pkg (fun p => { p with binds := kdel p.binds page })) pkg 0
  else if (jobOn s pkg (v % 4096)).isNone then result s pkg 1
  else result (modPkg s pkg (fun p => { p with binds := kset p.binds page (v % 4096) })) pkg 0

def cmdGrant (s : State) (pkg : Nat) : State :=
  let job := jta s pkg 0
  let base := jta s pkg 1
  let n := jta s pkg 2 * 2 ^ 21
  let old := kget (getPkg s pkg).grants [] job
  if 4096 ≤ job || base % 2 ^ 21 ≠ 0 || 2 ^ 52 < base + n then result s pkg 1
  else if n = 0 then result (modPkg s pkg (fun p => { p with grants := kdel p.grants job })) pkg 0
  else if 16 ≤ old.length then result s pkg 4
  else result (modPkg s pkg (fun p => { p with grants := kset p.grants job (old ++ [(base, n)]) })) pkg 0

def cmdHotread (s : State) (pkg : Nat) : State :=
  let src := jta s pkg 0
  let pa := jta s pkg 1
  let x := jta s pkg 2
  let first := x % 4096
  let n := x / 2 ^ 16 % 2 ^ 13
  let last := pa + 16 * n - 1
  if 12 ≤ src || pa % 16 ≠ 0 || x / 2 ^ 12 % 16 ≠ 0 || 2 ^ 29 ≤ x || n = 0 || 4096 < first + n || 2 ^ 52 ≤ last || paRange pa = 1 || paRange pa = 3
      || paRange last ≠ paRange pa || !physAnswers s pkg pa (16 * n) then result s pkg 1
  else
    let k := physKey pkg pa
    result (mend (homeWrite (recallCounted s pkg k (16 * n)) k (hotEntries (getPkg s pkg) src first n)) k (16 * n)) pkg 0

/-- A key that is registered already gets the new region (DESIGN CHOICE, log 100). -/
def cmdRegion (s : State) (pkg : Nat) : State :=
  let x := jta s pkg 0
  let key := x % 2 ^ 32
  let n := jta s pkg 2
  let r : Region :=
    { job := x / 2 ^ 32 % 4096, pd := x / 2 ^ 44 % 64, rd := x.testBit 50, wr := x.testBit 51, base := jta s pkg 1, len := n }
  if 2 ^ 52 ≤ x || n = 0 || 2 ^ 40 < n then result s pkg 1
  else if 4096 ≤ (getPkg s pkg).regions.length && (kfind (getPkg s pkg).regions key).isNone then result s pkg 4
  else result (modPkg s pkg (fun p => { p with regions := kset p.regions key r })) pkg 0

/-- A queue-pair context of 64 bytes, if it is good (13 R362). -/
def contextOf (bs : List Byte) : Option QueuePair :=
  let d (i : Nat) : Nat := bfld bs (8 * i) 8
  let mtu := d 0 / 2 ^ 26 % 2 ^ 13
  let port := d 0 / 2 ^ 40 % 256
  if (d 0).testBit 39 || 2 ^ 48 ≤ d 0 || !(mtu == 1024 || mtu == 2048 || mtu == 4096) || 9 < port || 2 ^ 24 ≤ d 1 || 2 ^ 48 ≤ d 4 || d 5 ≠ 0
      || 2 ^ 24 ≤ d 6 || 2 ^ 24 ≤ d 7 then none
  else some { job := d 0 % 4096, pd := d 0 / 2 ^ 12 % 64, cq := d 0 / 2 ^ 18 % 256, mtu := mtu, port := port, rqpn := d 1, ip := bfld bs 16 16,
              mac := d 4, sndPsn := d 6, rcvPsn := d 7, err := false, sends := [], recvs := [], rnr := 0, rnrAt := 0 }

def cmdQpset (s : State) (pkg : Nat) : State :=
  let qp := jta s pkg 0
  let a := jta s pkg 1
  if 1024 ≤ qp then result s pkg 1
  else if a = 0 then result (modPkg (leavePages s pkg qp) pkg (fun p => { p with qps := kdel p.qps qp })) pkg 0
  else match physRead s pkg a 64 with
    | (s, none) => result s pkg 1
    | (s, some bs) => match contextOf bs with
      | none => result s pkg 1
      | some q => result (modPkg (leavePages s pkg qp) pkg (fun p => { p with qps := kset p.qps qp q })) pkg 0

end Sys2Proof.Machine
end

