-- ==== Sys2Proof/Machine/Jobs.lean ====
section
/-! DEFINITION. Removing a job, the commands of the job-table interface as events, and writes to the registers of BAR0 (00 R5; 13 R349,
R352-R356; 16 R375; 18 R422; 19 R426). -/

namespace Sys2Proof.Machine

open Sys2Proof

/-! ## Discarding records (16 R375): the frame slot and the landing slot are freed, a spawn link ends without counting -/

/-- Frees the landing slot that a hold field names; a spawn link just ends. -/
def dropHold (s : State) (hold : Word) : State := if hold = 0 || hold.getLsbD 0 then s else freeSlot s hold

/-- A launch record, whose bytes 8-15 are its hold field. -/
def dropLaunch (s : State) (q : QRec) : State := dropHold s q.r.w1

/-- A record of a suspended thread or of a fork. -/
def dropResume (s : State) (core : Nat) (r : Rec) : State :=
  if !r.ff then s
  else match frameHold s core r with
    | (s, hold) => freeFrame (dropHold s hold) core r.job r.w1

def ofJob (job : Nat) (q : QRec) : Bool := q.r.job == job

/-- The records of one priority's deck. -/
def dropDeck (s : State) (core job p : Nat) : State :=
  let k := deckOf s core job p
  let s := k.kept.foldl (fun s r => dropLaunch s (plainRec r)) s
  let s := modPkg s (corePkg core) (fun u => { u with decks := kdel u.decks (deckKey job core p) })
  modCore s core (fun u => { u with deckOrder := kset u.deckOrder p ((kget u.deckOrder [] p).filter (fun j => j != job)) })

/-- A claimed entry of the fault ring: its thread's frame and hold, then the claim. -/
def dropEntry (s : State) (pkg job : Nat) (d : Job) (i : Nat) : State :=
  let core := pkg * 8192 + d.fcore
  match hwRead s (hwWho core job) (ringBase d + word (128 * i)) 128 with
  | (s, .ok bs) =>
    let r := recOf bs
    if bfld bs 0 8 = 0 then s else dropHold (if r.ff then freeFrame s core job r.w1 else s) (word (bfld bs 0x60 8))
  | (s, .error _) => s

/-- A report that no ring entry holds. -/
def dropNotice (s : State) (pkg : Nat) (n : Notice) : State :=
  let core := pkg * 8192 + (if n.coreId = 0x1FFF then (jobD s pkg n.job).fcore else n.coreId)
  dropHold (if n.r.ff then freeFrame s core n.job n.r.w1 else s) n.hold

/-- Everything that a core holds for a job outside its contexts. -/
def dropOnCore (s : State) (job core : Nat) : State :=
  let u := getCore s core
  let s := (List.range 4).foldl (fun s p => dropDeck s core job p) s
  let s := ((List.range 4).flatMap (queueOf u)).foldl (fun s q => if ofJob job q then dropLaunch s q else s) s
  let s := u.deque.foldl (fun s q => if ofJob job q then dropResume s core q.r else s) s
  let s := u.park.foldl (fun s p => if ofJob job p.qrec then dropResume s core p.qrec.r else s) s
  let s := u.claims.foldl (fun s c => if c.msg.job = job then dropClaim s core c else s) s
  let s := (u.ops.filter (fun o => o.job == job && o.phase == .waiting)).foldl (fun s o => dropOp s core o) s
  let sets := (u.owner.filter (fun e => e.2 == job)).map (fun e => e.1)
  modCore s core (fun u => { u with
    q := u.q.map (fun e => (e.1, e.2.filter (fun q => !ofJob job q))), deque := u.deque.filter (fun q => !ofJob job q),
    park := u.park.filter (fun p => !ofJob job p.qrec), trigs := u.trigs.filter (fun t => t.job != job),
    owner := u.owner.filter (fun e => e.2 != job), e := u.e.filter (fun e => !sets.contains (e.1 / 8)),
    spawn := u.spawn.filter (fun q => q.job != job), frames := u.frames.filter (fun f => f.1 != job), sendQ := u.sendQ.filter (fun m => m.job != job),
    unrepaired := keyDel u.unrepaired job })

/-- Everything that a grove holds for a job: pool records, operations that have not started, tiles, membership records. -/
def dropOnGrove (s : State) (job g : Nat) : State :=
  let (s, out) := poolDrop s g (ofJob job)
  let s := out.foldl (fun s q => dropResume s (groveCore g 0) q.r) s
  modGrove s g (fun u => { u with
    sawWait := u.sawWait.filter (fun o => o.job != job), cruWait := u.cruWait.filter (fun o => o.job != job),
    saw := u.saw.filter (fun o => o.job != job), cru := u.cru.filter (fun o => o.job != job),
    tiles := u.tiles.map (fun t => if t.2.owner = some job then (t.1, .reset) else t), groups := u.groups.filter (fun e => e.1 / 65536 != job) })

/-- The cores of a package that may hold something of a job: its CORES, and any core with units of its own. -/
def jobCores (s : State) (pkg : Nat) (d : Job) : List Nat :=
  let own := (s.cores.filter (fun e => corePkg e.1 == pkg)).map (fun e => e.1)
  own ++ (((List.range 6144).filter (fun i => d.cores.testBit i)).map (fun i => pkg * 8192 + denseCore i)).filter (fun c => !own.contains c)

/-- The fault landing and the page's other tables: parked records are discarded, the slots freed without an answer. -/
def dropLanding (s : State) (pkg job : Nat) : State :=
  (getPkg s pkg).landOrder.foldl (fun s i =>
    match kfind (getPkg s pkg).landing i with
    | some { gen := _, req := some q } =>
      if q.job = job then freeLandSlot (q.parked.foldl (fun s e => dropResume s e.1 e.2.1.r) s) pkg i else s
    | _ => s) s

/-- The package's own records and tables of a job. -/
def dropOnPkg (s : State) (pkg job : Nat) (d : Job) : State :=
  let p := getPkg s pkg
  let s := dropLanding s pkg job
  let s := (kget p.claims [] job).foldl (fun s i => dropEntry s pkg job d i) s
  let s := ((p.notices ++ p.stranded).filter (fun n => n.job == job)).foldl (fun s n => dropNotice s pkg n) s
  let s := ((p.safe ++ p.releasing).filter (fun r => r.job == job)).foldl (fun s r => dropHold s r.ctx.hold) s
  let bound := (p.qps.filter (fun e => e.2.job == job)).map (fun e => e.1)
  modPkg s pkg (fun p => { p with
    claims := kdel p.claims job, carried := p.carried.filter (fun e => e.1 / 512 != job), launches := p.launches.filter (fun l => !ofJob job l.2.2),
    notices := p.notices.filter (fun n => n.job != job), stranded := p.stranded.filter (fun n => n.job != job),
    hostHeld := p.hostHeld.filter (fun h => h.answer.isSome || !ofJob job h.qrec), binds := p.binds.filter (fun e => e.2 != job),
    qps := p.qps.filter (fun e => !bound.contains e.1), streams := p.streams.filter (fun e => e.2.job != job),
    plans := p.plans.filter (fun e => e.2.job != job), safe := p.safe.filter (fun r => r.job != job), spmJobs := keyDel p.spmJobs job,
    releasing := p.releasing.filter (fun r => r.job != job), pushes := p.pushes.filter (fun e => e.2.1 != job),
    quiet := keyDel p.quiet job, preempted := kdel p.preempted job,
    preempting := (p.preempting.map (fun l => l.filter (fun j => j != job))).filter (fun l => !l.isEmpty) })

/-- Whether REMOVE must wait: a thread of the job holds a context, or one of its engine operations, the Sawmill, the Cruise and the Ethernet
engine among the engines (04 R99), has started and not completed. -/
def jobBusy (s : State) (pkg job : Nat) : Bool :=
  s.ctxs.any (fun e => corePkg (ctxCore e.1) == pkg && e.2.status != .dormant && e.2.job == job)
    || s.cores.any (fun e => corePkg e.1 == pkg && e.2.ops.any (fun o => o.job == job && o.phase != .waiting))
    || s.groves.any (fun e => grovePkg e.1 == pkg && ((match e.2.sawRun with
      | some r => r.op.job == job
      | none => false) || (match e.2.cruRun with
      | some o => o.job == job
      | none => false)))
    || (getPkg s pkg).qps.any (fun e => e.2.job == job && !e.2.err && (e.2.sends.any (fun w => w.reached) || e.2.recvs.any (fun w => w.reached)))

/-- Teardown (16 R375): with the job still installed its records are discarded, then its tables, then the job. -/
def teardown (s : State) (pkg job : Nat) (d : Job) : State :=
  let cores := jobCores s pkg d
  let s := dropOnPkg s pkg job d
  let s := (s.groves.filter (fun e => grovePkg e.1 == pkg)).foldl (fun s e => dropOnGrove s job e.1) s
  let s := cores.foldl (fun s c => dropOnCore s job c) s
  let s := cores.foldl flushLaunches s
  let s := if (getPkg s pkg).life = .deployed then (cores.filter (fun c => inCores s c job)).foldl zeroWords s else s
  let s := modPkg s pkg (fun p => { p with jobs := kdel p.jobs job })
  { s with plays := (s.plays.map torn).filter (fun y => y.job != job || y.plan.members.any (fun m => (jobOn s m.1 job).isSome)) }
where
  torn (y : Play) : Play := if y.job == job && y.plan.members.any (fun m => m.1 == pkg) then { y with torn := keyAdd y.torn pkg } else y
  zeroWords (s : State) (core : Nat) : State :=
    let inside (k : Nat) : Bool := decide (scratchKey core 0 ≤ k) && decide (k < scratchKey core 0 + 2 ^ 17)
    { s with mem := s.mem.filter (fun c => !inside c.1), bad := s.bad.filter (fun k => !inside k) }

def cmdRemove (s : State) (pkg : Nat) : State :=
  let job := jta s pkg 0
  match jobOn s pkg job with
  | none => result s pkg 1
  | some d => if jobBusy s pkg job then result s pkg 3 else result (teardown s pkg job d) pkg 0

/-! ## Commands (13 R352, R353) -/

def command (s : State) (pkg op : Nat) : State :=
  match op with
  | 0x01 => cmdInstall s pkg
  | 0x02 => cmdRemove s pkg
  | 0x03 => cmdAset s pkg
  | 0x04 => cmdShoot s pkg
  | 0x05 => cmdBind s pkg
  | 0x06 => cmdGrant s pkg
  | 0x07 => cmdHotread s pkg
  | 0x08 => cmdRegion s pkg
  | 0x09 => cmdQpset s pkg
  | _ => result s pkg 1

/-- A write of OP with GO = 1; it is ignored while a command runs. -/
def startCommand (s : State) (pkg op : Nat) : State :=
  if (getPkg s pkg).busy || !hasPower s pkg then s else command (modPkg s pkg (fun p => { p with op := op })) pkg op

def execInstall (pkg : Nat) (s : State) : Host.Outcome State Fault Refusal := event (startCommand s pkg 0x01)
def execRemove (pkg : Nat) (s : State) : Host.Outcome State Fault Refusal := event (startCommand s pkg 0x02)
def execAset (pkg : Nat) (s : State) : Host.Outcome State Fault Refusal := event (startCommand s pkg 0x03)
def execShoot (pkg : Nat) (s : State) : Host.Outcome State Fault Refusal := event (startCommand s pkg 0x04)
def execBind (pkg : Nat) (s : State) : Host.Outcome State Fault Refusal := event (startCommand s pkg 0x05)
def execGrant (pkg : Nat) (s : State) : Host.Outcome State Fault Refusal := event (startCommand s pkg 0x06)
def execHotread (pkg : Nat) (s : State) : Host.Outcome State Fault Refusal := event (startCommand s pkg 0x07)
def execRegion (pkg : Nat) (s : State) : Host.Outcome State Fault Refusal := event (startCommand s pkg 0x08)
def execQpset (pkg : Nat) (s : State) : Host.Outcome State Fault Refusal := event (startCommand s pkg 0x09)

/-! ## Registers of BAR0 (00 R5) -/

/-- The decoder entry that firmware writes (13 R349). -/
def decoderWord (v : Nat) : Word := word (v % 32 + v / 2 ^ 40 % 2 ^ 24 * 2 ^ 40)

/-- The number of the link whose record lies at an offset (19 R426). -/
def linkAt (ofs : Nat) : Option Nat :=
  if ofs % 8 ≠ 0 || ofs < 0x2300 then none
  else
    let k := (ofs - 0x2300) / 8
    if k < 138 || (144 ≤ k && k < 154) then some k else none

/-- The pooled window and offset of a key of a package, when it has one. -/
def pooledAt (pkg k : Nat) : Option (Nat × Nat) :=
  if keyPkg k = pkg && !keyIsScratch k && paRange (keyPa k) = 1 then some ((keyPa k - 2 ^ 44) / 2 ^ 40, (keyPa k - 2 ^ 44) % 2 ^ 40) else none

/-- What the devices on the ports hold, by port × 2^64 + port address: the bytes of mapped addresses stand in memory. -/
def deviceBytes (s : State) (pkg : Nat) : KMap Byte :=
  let p := getPkg s pkg
  s.mem.foldl (fun m c => match pooledAt pkg c.1 with
    | some (i, x) => (match portPlace (kget p.decoder 0 i) x with
      | some (n, a) => kset m (n * 2 ^ 64 + a) c.2
      | none => m)
    | none => m) (p.pooled.filter (fun e => (portHome p (e.1 / 2 ^ 64) (e.1 % 2 ^ 64)).isNone))

/-- The pooled memory of a package leaves State.mem. -/
def dropPooled (s : State) (pkg : Nat) : State :=
  let s := (s.owner.filter (fun o => (pooledAt pkg o.1).isSome)).foldl (fun s o => unownByte s o.1) s
  { s with mem := s.mem.filter (fun c => (pooledAt pkg c.1).isNone) }

/-- The devices' bytes that the decoder table maps are shown in State.mem. -/
def showPooled (s : State) (pkg : Nat) : State :=
  (getPkg s pkg).pooled.foldl (fun s b => match portHome (getPkg s pkg) (b.1 / 2 ^ 64) (b.1 % 2 ^ 64) with
    | some pa => memWrite s (physKey pkg pa) [b.2]
    | none => s) s

/-- Firmware writes decoder entry i: the windows now show what the devices hold at the new port addresses (13 R349; log 19). -/
def setDecoder (s : State) (pkg i : Nat) (e : Word) : State :=
  let s := (s.owner.filter (fun o => (pooledAt pkg o.1).isSome)).foldl (fun s o => unownByte s o.1) s
  let held := deviceBytes s pkg
  showPooled (modPkg (dropPooled s pkg) pkg (fun p => { p with decoder := kset p.decoder i e, pooled := held })) pkg

/-- Firmware's settings that the spec gives no register: the torus extents, one byte each, the size of the HDM range, and the address of the overflow
ring of each grove (03 R95; log 23, log 75). -/
def firmwareSet (s : State) (pkg i v : Nat) : State :=
  if i = 0 then
    let ext := (List.range 4).map (fun d => v / 256 ^ d % 256)
    if ext.all (fun n => decide (1 ≤ n) && decide (n ≤ 8)) then rerouteIn (trainPelrek (modPkg s pkg (fun p => { p with extents := ext })) pkg) ext else s
  else if i = 1 then (if v % 2 ^ 30 = 0 && v ≤ 2 ^ 39 then modPkg s pkg (fun p => { p with hdm := v }) else s)
  else if v % 64 = 0 && v + 4096 * 64 ≤ 2 ^ 39 then modGrove s (pkg * 256 + (i - 2)) (fun u => { u with ringAt := v }) else s

/-- A limit of GOVCTL: 1 to 256; any other value is ignored (16 R370). -/
def govLimit (old v : Nat) : Nat := if 1 ≤ v && v ≤ 256 then v else old

/-- A management write of GOVCTL, at BAR0 offset 0x2100. -/
def govWrite (s : State) (pkg value : Nat) : State :=
  modPkg s pkg (fun p => { p with govn := govLimit p.govn (value % 512), govc := govLimit p.govc (value / 2 ^ 16 % 512) })

/-- W1C of VLD clears a hotness entry (03 R89). -/
def hotClear (s : State) (pkg i v : Nat) : State := if v % 2 = 1 then modPkg s pkg (fun p => { p with hot := kdel p.hot i }) else s

/-- A write of a dword at an offset of BAR0, by the host or, with fw = 1, by firmware. A read-only field ignores it. Offsets from 2^20 on
are the model's names of settings without an address (log 23). -/
def regWrite (s : State) (pkg ofs v : Nat) (fw : Bool) : State :=
  let set (f : Pkg → Pkg) : State := modPkg s pkg f
  if ofs = 0 then (if v.testBit 8 then startCommand s pkg (v % 256) else set (fun p => { p with op := v % 256 }))
  else if ofs = 0x008 then set (fun p => { p with jta0 := word v })
  else if ofs = 0x010 then set (fun p => { p with jta1 := word v })
  else if ofs = 0x018 then set (fun p => { p with jta2 := word v })
  else if ofs = 0x100 then set (fun p => { p with ringBase := word v })
  else if ofs = 0x108 then set (fun p => { p with ringCount := word v })
  else if ofs = 0x118 then set (fun p => { p with ringTail := word v })
  else if ofs = 0x120 then pageAnswer s pkg v
  else if 0x1000 ≤ ofs && ofs < 0x1080 && ofs % 8 = 0 then
    (if fw then setDecoder s pkg ((ofs - 0x1000) / 8) (decoderWord v) else s)
  else if 0x2200 ≤ ofs && ofs < 0x2220 && ofs % 8 = 0 then
    (if v.testBit 1 then modPort s pkg ((ofs - 0x2200) / 8) (fun x => { x with fail := false }) else s)
  else if ofs = 0x2100 then (if fw then govWrite s pkg v else s)
  else if fw && 2 ^ 20 ≤ ofs && ofs < 2 ^ 20 + 8 * 258 then firmwareSet s pkg ((ofs - 2 ^ 20) / 8) v
  else if 2 ^ 21 ≤ ofs then (if ofs % 16 = 0 && ofs < 2 ^ 21 + 16 * 12 * 4096 then hotClear s pkg ((ofs - 2 ^ 21) / 16) v else s)
  else match linkAt ofs with
    | some k => if v.testBit 2 then modLink s pkg k (fun l => { l with fail := false }) else s
    | none => s

def execRegisterWrite (pkg ofs value fw : Nat) (s : State) : Host.Outcome State Fault Refusal :=
  pkgEvent s pkg (regWrite s pkg ofs (value % 2 ^ 64) (fw = 1))

end Sys2Proof.Machine
end

