-- ==== Sys2Proof/Machine/Area.lean ====
section
/-! DEFINITION. The bytes of the context area: core sections and job sections (17 R396-R398). What the rules leave open inside an entry is the model's
choice (log 83). -/

namespace Sys2Proof.Machine

open Sys2Proof

/-! ## Core sections (17 R396, R397) -/

/-- Bytes filled up with zeros. -/
def padTo (n : Nat) (bs : List Byte) : List Byte := (bs ++ List.replicate (n - bs.length) 0).take n

/-- Entries of n bytes each, in a row. -/
def areaTable (n : Nat) (l : List (List Byte)) : List Byte := l.flatMap (padTo n)

def dwords (l : List Nat) : List Byte := l.flatMap (leBytes 8)

/-- The header of a core section. -/
def coreHeader (s : State) (job : Nat) (v : SavedCore) : List Byte :=
  let deck (p : Nat) : Nat := (deckOf s v.core job p).head % 2 ^ 32 + (deckOf s v.core job p).tail % 2 ^ 32 * 2 ^ 32
  let held := v.ctxs.foldl (fun m e => m + 2 ^ (16 + e.1 % 8)) 0
  let range : List Nat := match v.unit.spawn with
    | none => [0]
    | some q => [q.next + 2 ^ 63, q.n0 + q.n1 * 2 ^ 21 + q.n2 * 2 ^ 42, q.c0 + q.count * 2 ^ 16, q.handler + q.prio * 2 ^ 12, q.arg0.toNat, q.ctr.toNat]
  padTo 256 (dwords ([job + held, deck 0, deck 1, deck 2, deck 3] ++ range))

/-- An action block as CNTT reads it (09 R246). -/
def trigBlock : TrigAct → List Nat
  | .empty => [0, 0, 0]
  | .send core handler prio x y => [core + handler * 2 ^ 16 + prio * 2 ^ 28, x.toNat, y.toNat]
  | .post ctl pa pb => [ctl.toNat, pa.toNat, pb.toNat]

def trigBytes (t : Trig) : List Byte := dwords ([t.key % 2 ^ 17, t.target.toNat] ++ trigBlock t.act ++ [t.job])

/-- The scratch-window address of a scratchpad key. -/
def keyWindow (k : Nat) : Nat := (windowAddr (keyCore k) (keyOfs k)).toNat

/-- The address of an awaited object: a group's is its group-window address at offset 0. -/
def objAddr : Obj → Nat
  | .dword k _ => keyWindow k
  | .counter k => keyWindow k
  | .fence k => keyWindow k
  | .barrier k => keyWindow k
  | .ring k _ => keyWindow k
  | .group _ _ num _ => (groupVa num).toNat
  | .groupLoad _ _ num => (groupVa num).toNat
  | _ => 0

/-- An unstarted engine operation: its word, its operands and its sets, without the registers of R296 that must be zero. -/
def engOpBytes (o : EngOp) : List Byte :=
  let l := if o.sets.length = 32 then o.sets.take 6 ++ (o.sets.drop 8).take 23 else o.sets
  dwords ([o.word, o.a.toNat, o.b.toNat] ++ l.map (fun v => v.toNat))

/-- Block scales, 9 bits each, from the lowest bit up (05 R125). -/
def packScales (l : List Word) : List Nat :=
  let v := (l.zipIdx.map (fun e => fld e.1 0 9 * 2 ^ (9 * e.2))).sum
  (List.range 9).map (fun i => v / 2 ^ (64 * i) % 2 ^ 64)

def sawOperands : SawKind → List Nat
  | .zero t mode => [t, mode]
  | .load isB panel ctl => [isB.toNat, panel.toNat, ctl.toNat]
  | .run pa pb ctl => [pa.toNat, pb.toNat, ctl.toNat]
  | .masked pa pb ctl sa sb row tadv mask desc =>
    [pa.toNat, pb.toNat, ctl.toNat, sa.toNat, sb.toNat, row + 2 ^ 32 * tadv.toNat, desc] ++ (List.range 4).map (fun i => mask.toNat / 2 ^ (64 * i) % 2 ^ 64)
  | .store dst stride t cvt => [dst.toNat, stride.toNat, t + 2 ^ 32 * cvt.toNat]
  | .scale t rows cols pl =>
    [t + 2 ^ 32 * pl.toNat + 2 ^ 33 * (!rows.isEmpty).toNat + 2 ^ 34 * (!cols.isEmpty).toNat] ++ packScales rows ++ packScales cols
  | .read ctx t => [ctx, t]
  | .cruise q k geo scores => [q.toNat, k.toNat, geo.toNat, scores.toNat]

/-- The address of a counter of an operation, 0 for none. -/
def counterWord (c : Option Nat) : Nat := (c.map keyWindow).getD 0

/-- An unstarted operation of the Sawmill or the Cruise. -/
def sawOpBytes (o : SawOp) : List Byte := dwords ([o.word, counterWord o.after, o.target.toNat, counterWord o.done] ++ sawOperands o.kind)

/-- The full/empty bits of the dwords with the given keys. -/
def fullBits (core : Nat) (full : List Nat) : KMap Byte :=
  full.foldl (fun m k =>
    let d := (k - scratchKey core 0) / 8
    kset m (0x20000 + d / 8) (kget m 0 (0x20000 + d / 8) ||| (1#8 <<< (d % 8)))) []

def claimBytes (c : Claim) : List Byte :=
  dwords [c.slot, c.src + c.num * 2 ^ 32, c.msg.job + c.msg.handler * 2 ^ 16 + c.msg.prio * 2 ^ 28 + c.len * 2 ^ 32, c.msg.arg0.toNat, c.msg.arg1.toNat, c.received]

/-- The section of a core: `saw` are the unstarted operations of its Sawmill and Cruise. Bytes at no listed offset are zero. -/
def coreArea (s : State) (job : Nat) (saw : List SawOp) (v : SavedCore) : KMap (List Byte) :=
  let u := v.unit
  let queues := (List.range 4).map (queueOf u)
  v.scratch.map (fun c => (c.1 - scratchKey v.core 0, [c.2])) ++ (fullBits v.core v.full).map (fun e => (e.1, [e.2]))
    ++ [(0x20800, coreHeader s job v), (0x21000, areaTable 64 (u.trigs.map trigBytes)),
      (0x22000, areaTable 2048 (queues.map (fun l => l.flatMap (fun q => recBytes q.r)))),
      (0x24000, areaTable 64 (queues.map (fun l => l.flatMap (fun q => leBytes 2 (min 65535 q.age))))),
      (0x25000, u.deque.flatMap (fun q => recBytes q.r)), (0x26000, u.park.flatMap (fun p => qword p.qrec.r.w1 ++ leBytes 8 (objAddr p.obj % 2 ^ 64))),
      (0x26400, (List.range 64).flatMap (fun i => qword (kget u.e 0 i))),
      (0x26600, (List.range 8).flatMap (fun i => leBytes 8 ((kfind u.owner i).map (fun j => j + 2 ^ 12)).toList.sum)),
      (0x27000, areaTable 256 ((u.ops.filter (fun o => o.phase == .waiting)).map engOpBytes ++ saw.map sawOpBytes))]
    ++ v.ctxs.map (fun e => (areaFrame (e.1 % 8), frameBytes e.2 0)) ++ v.ctxs.map (fun e => (areaExtra (e.1 % 8), extraBytes e.2 true false))
    ++ [(0x3CA00, areaTable 64 (u.claims.map claimBytes))]

/-! ## The job section (17 R398) -/

def tileBody (t : Tile) : List Byte := qword (tileStatus t) ++ (List.range 4096).flatMap (fun i => leBytes 4 (kget t.z 0 i).toNat)

/-- A membership record: its ranks, then the state of its GBAR, the arrivals, the noted cores and the completion cycles of recent phases. -/
def groupBody (g : Group) : List Byte :=
  dwords ([g.phase, g.members.length, g.noted.length, g.dones.length] ++ g.members.flatMap (fun m => [m.core + m.rank * 2 ^ 32, m.joins + m.arr * 2 ^ 32])
    ++ g.noted ++ g.dones.flatMap (fun e => [e.1, e.2]))

def elemBody (e : Nat × Elem) : List Byte :=
  let x := e.2
  dwords ([e.1, x.preds, x.wave, x.slots.length] ++ x.slots) ++ x.l.flatMap (fun v => leBytes 4 v.toNat)
    ++ x.ins.flatMap (fun q => dwords (q.1 :: q.2.length :: q.2.map (fun t => t.data.toNat + t.level * 2 ^ 32)))
    ++ (match x.gen with
      | none => leBytes 8 0
      | some g => dwords ([1, g.slot, g.c, g.depth] ++ g.frames.flatMap (fun f => [f.1, f.2.1, f.2.2])))

def streamBody (s : State) (st : Stream) : List Byte :=
  (((getCore s st.core).ops.find? (fun o => o.id == st.op)).map (fun o => padTo 256 (engOpBytes o))).getD []
    ++ dwords ([st.pos, st.wrote, st.part.length, st.passing.length] ++ st.passing.flatMap (fun x => [x.1, x.2])) ++ st.part ++ st.elems.flatMap elemBody

/-- The image of a plan (11 R303). -/
def planBody (p : Plan) : List Byte :=
  let nm := p.members.length
  padTo 64 (leBytes 8 (p.chunks.length + nm * 2 ^ 16 + p.nctr * 2 ^ 32))
    ++ padTo (planTable nm - 64) (p.members.flatMap (fun m => leBytes 8 (m.1 + m.2.1 * 2 ^ 12 + m.2.2 * 2 ^ 25)))
    ++ p.chunks.flatMap (fun c => leBytes 8 (c.kind + c.op * 16 + c.fmt * 256 + c.srcb * 2 ^ 10 + c.dstb * 2 ^ 13 + c.waitc * 2 ^ 16 + c.sigc * 2 ^ 24 + c.bytes * 2 ^ 32)
        ++ qword c.sofs ++ qword c.dofs ++ leBytes 8 c.waitn)

def workBody (w : WorkEntry) : List Byte :=
  dwords [w.key * 2 ^ 32, w.addr.toNat, w.len, w.wrid.toNat, w.cnt.toNat, w.imm + 2 ^ 32 * w.iv.toNat, 0, 0]

def qpBody (q : QueuePair) : List Byte :=
  dwords ([q.pd, q.cq, q.mtu, q.port, q.rqpn, q.ip, q.mac, q.sndPsn, q.rcvPsn, q.err.toNat, q.sends.length, q.recvs.length])
    ++ q.sends.flatMap workBody ++ q.recvs.flatMap workBody

/-- The entries of a job's section. -/
def jobArea (s : State) (v : SavedJob) : List Byte :=
  v.tiles.flatMap (fun t => areaEntry 1 (t.1 % 256 * 8 + t.2.1) (tileBody t.2.2)) ++ v.pool.flatMap (fun e => areaEntry 2 (e.1 % 256) (recBytes e.2.r))
    ++ v.groups.flatMap (fun e => areaEntry 3 (e.2.1 % 65536) (groupBody e.2.2)) ++ v.streams.flatMap (fun e => areaEntry 4 e.1 (streamBody s e.2))
    ++ v.plans.flatMap (fun e => areaEntry 5 e.1 (planBody e.2)) ++ v.qps.flatMap (fun e => areaEntry 6 e.1 (qpBody e.2))

end Sys2Proof.Machine
end

