-- ==== Sys2Proof/Machine/Preempt.lean ====
section
/-! DEFINITION. Pre-emption and restoration of jobs, and safe-point mode (17 R394-R401). -/

namespace Sys2Proof.Machine

open Sys2Proof

/-! ## Quiescence (17 R394, R395) -/

/-- The jobs that a request names: 12 bits each, bit 12 telling that another follows. -/
def jobList : Nat → Nat → List Nat
  | 0, _ => []
  | n + 1, v => v % 4096 :: (if v.testBit 12 then jobList n (v / 2 ^ 13) else [])

/-- Whether a package's core holds an installed job outside a list that is not pre-empted. -/
def strangerOn (s : State) (core : Nat) (jobs : List Nat) : Bool :=
  (jobsOn s core).any (fun j => !jobs.contains j && (kfind (getPkg s (corePkg core)).preempted j).isNone)

/-- The cores in the CORES of some of the jobs. -/
def coresOf (s : State) (pkg : Nat) (jobs : List Nat) : List Nat :=
  (((List.range 6144).filter (fun i => jobs.any (fun j => (jobD s pkg j).cores.testBit i))).map (fun i => pkg * 8192 + denseCore i))

def mayPreempt (s : State) (pkg : Nat) (jobs : List Nat) : Bool :=
  jobs.all (fun j => (jobOn s pkg j).isSome && (kfind (getPkg s pkg).preempted j).isNone) && !(coresOf s pkg jobs).any (fun c => strangerOn s c jobs)

/-- An operation that pre-emption waits for: started, and no bound stream. -/
def opHolds (jobs : List Nat) (o : EngOp) : Bool :=
  jobs.contains o.job && o.phase != .waiting && !(o.unit == 2 && o.word / 2 ^ 16 % 32 == 1 && o.phase == .running)

def sawHolds (jobs : List Nat) : Option SawOp → Bool
  | some o => jobs.contains o.job
  | none => false

/-- Whether nothing that has started remains: engine, Sawmill and Cruise operations, plays, and work entries of queue pairs. -/
def jobsQuiet (s : State) (pkg : Nat) (jobs : List Nat) : Bool :=
  !s.cores.any (fun e => corePkg e.1 == pkg && e.2.ops.any (opHolds jobs))
    && !s.groves.any (fun e => grovePkg e.1 == pkg && (sawHolds jobs (e.2.sawRun.map (fun r => r.op)) || sawHolds jobs e.2.cruRun))
    && !(getPkg s pkg).qps.any (fun e => jobs.contains e.2.job && !e.2.err && e.2.sends.any (fun w => w.reached))
    && !(getPkg s pkg).streams.any (fun e => jobs.contains e.2.job && e.2.started && !e.2.complete && (e.2.ending.isSome || !cycleOver s e.2))

def ctxOf (pkg : Nat) (jobs : List Nat) (e : Nat × Ctx) : Bool :=
  corePkg (ctxCore e.1) == pkg && e.2.status != .dormant && jobs.contains e.2.job

/-- A stopped thread: its wait is withdrawn, a group load abandoned, its heartbeat count dropped. -/
def stoppedCtx (c : Ctx) : Ctx :=
  { c with gload := none, insn := none, hb := 0, status := match c.status with
    | .waiting _ _ _ => .running
    | x => x }

/-! ## The image (17 R396-R398) -/

def inScratch (core k : Nat) : Bool := decide (scratchKey core 0 ≤ k) && decide (k < scratchKey core 0 + 2 ^ 17)

/-- The landing records of a core with their stamps of entry turned into ages, or back: both are the cycle less the other. -/
def turnAges (s : State) (u : Core) : Core := { u with q := u.q.map (fun e => (e.1, e.2.map (fun q => { q with age := s.cycle - q.age }))) }

/-- The unstarted operations of a core's Sawmill and Cruise, in their order. -/
def unstarted (s : State) (jobs : List Nat) (core : Nat) : List SawOp :=
  let g := getGrove s (coreGrove core)
  (g.saw ++ g.sawWait ++ g.cru ++ g.cruWait).filter (fun o => o.core == core && jobs.contains o.job && !isRead o.kind)

def saveCore (s : State) (jobs : List Nat) (core : Nat) : SavedCore :=
  let v : SavedCore :=
    { area := [], core := core, scratch := s.mem.filter (fun c => inScratch core c.1), full := s.full.filter (inScratch core),
      ctxs := (s.ctxs.filter (fun e => ctxCore e.1 == core && ctxOf (corePkg core) jobs e)).map (fun e => (e.1, stoppedCtx e.2)),
      unit := turnAges s (getCore s core) }
  { v with area := ((jobs.filter (inCores s core)).foldl (fun m j => kset m j (coreArea s j (unstarted s jobs core) v)) []) }

def grovesOf (s : State) (pkg : Nat) : List (Nat × Grove) := s.groves.filter (fun e => grovePkg e.1 == pkg)

/-- Takes the jobs' records out of a package's ready pools, by grove. A ring record that fails its check is lost with a notice (18 R409). -/
def takePools (s : State) (pkg : Nat) (jobs : List Nat) : State × List (Nat × QRec) :=
  (grovesOf s pkg).foldl (fun acc e =>
    let mine (q : QRec) : Bool := jobs.contains q.r.job
    let lost := (getGrove acc.1 e.1).ring.filter (fun x => mine x.2 && (ringRead acc.1 e.1 x).isNone)
    let (s, out) := poolDrop acc.1 e.1 mine
    (lost.foldl (fun s x => lostNotice s pkg x.2.r.job 0x1FFF 3 0) s, acc.2 ++ out.map (fun q => (e.1, q)))) (s, [])

/-- The image of one job; the cores and the jobs' pool records are given. -/
def saveJob (s : State) (pkg job : Nat) (jobs : List Nat) (pool : List (Nat × QRec)) (cores : List SavedCore) : SavedJob :=
  let p := getPkg s pkg
  let gs := grovesOf s pkg
  let ops (f : Grove → List SawOp) : List (Nat × SawOp) :=
    gs.flatMap (fun e => ((f e.2).filter (fun o => o.job == job && !isRead o.kind)).map (fun o => (e.1, o)))
  let v : SavedJob := {
    entries := [], jobs := jobs, cores := cores,
    pool := pool.filter (fun e => ofJob job e.2),
    tiles := gs.flatMap (fun e => (e.2.tiles.filter (fun t => t.2.owner == some job)).map (fun t => (e.1, t.1, t.2))),
    groups := gs.flatMap (fun e => (e.2.groups.filter (fun g => g.1 / 65536 == job)).map (fun g => (e.1, g.1, g.2))),
    saw := ops (fun g => g.saw), sawWait := ops (fun g => g.sawWait), cru := ops (fun g => g.cru), cruWait := ops (fun g => g.cruWait),
    streams := p.streams.filter (fun e => e.2.job == job), plans := p.plans.filter (fun e => e.2.job == job),
    qps := p.qps.filter (fun e => e.2.job == job) }
  { v with entries := jobArea s v }

/-- The units of a core are empty after the save; its injector and its own control registers stay. -/
def clearCore (u : Core) : Core :=
  { u with q := [], deque := [], park := [], trigs := [], e := [], owner := [], claims := [], slots := [], frames := [], deckOrder := [], spawn := none,
           ops := [] }

/-- Releases what the image holds. -/
def clearJobs (s : State) (pkg : Nat) (jobs cores : List Nat) : State :=
  let keepOp (o : SawOp) : Bool := !jobs.contains o.job
  let clearGrove (g : Grove) : Grove :=
    { g with saw := g.saw.filter keepOp, sawWait := g.sawWait.filter keepOp,
             cru := g.cru.filter keepOp, cruWait := g.cruWait.filter keepOp, groups := g.groups.filter (fun e => !jobs.contains (e.1 / 65536)),
             tiles := g.tiles.map (fun t => if jobs.any (fun j => t.2.owner == some j) then (t.1, .reset) else t) }
  let s := { s with ctxs := s.ctxs.map (fun e => if ctxOf pkg jobs e then (e.1, Ctx.reset) else e),
                    groves := s.groves.map (fun e => if grovePkg e.1 = pkg then (e.1, clearGrove e.2) else e) }
  let s := cores.foldl (fun s c => modCore (zeroScratch s c) c clearCore) s
  modPkg s pkg (fun p => { p with streams := p.streams.filter (fun e => !jobs.contains e.2.job), plans := p.plans.filter (fun e => !jobs.contains e.2.job),
                                  qps := p.qps.filter (fun e => !jobs.contains e.2.job) })

/-- A context of a pre-empted job stops: a trap that it holds is delivered first, any other wait is withdrawn. -/
def stopThread (s : State) (ctx : Nat) : State :=
  let s := withdrawReads (releaseWaits s ctx) ctx
  match (getCtx s ctx).status with
  | .faulting f _ => deliverTrap s ctx f
  | _ => modCtx s ctx stoppedCtx

/-- Steps 1 and 2: packets and starts are refused; requests that have become performable are performed (07 R196, 09 R262), then every context stops. -/
def quiesce (s : State) (pkg : Nat) (jobs : List Nat) : State :=
  let s := modPkg s pkg (fun p => { p with quiet := jobs.foldl keyAdd p.quiet })
  let mine := (s.ctxs.filter (ctxOf pkg jobs)).map (fun e => e.1)
  let s := performReady ((waiters s).filter (fun c => mine.contains c)) mine.length s
  ((s.ctxs.filter (ctxOf pkg jobs)).map (fun e => e.1)).foldl stopThread s

/-- The deck refills of a core that have a place reserved, of one priority (02 R47; 17 R400). -/
def refillAll (core prio : Nat) : Nat → State → State
  | 0, s => s
  | n + 1, s => if (kget (getCore s core).deckOrder [] prio).isEmpty then s else refillAll core prio n (refillOne s core prio)

def refillCores (s : State) (cores : List Nat) : State := cores.foldl (fun s c => (List.range 4).foldl (fun s p => refillAll c p 32 s) s) s

/-- Step 5 for jobs of which nothing started remains: they are saved and released (log 62). -/
def saveJobs (s : State) (pkg : Nat) (jobs : List Nat) : State :=
  let cores := coresOf s pkg jobs
  let s := refillCores s cores
  let (s, pool) := takePools s pkg jobs
  let image := cores.map (saveCore s jobs)
  let saved := (List.range jobs.length).map (fun i => (jobs.getD i 0, saveJob s pkg (jobs.getD i 0) jobs pool (if i = 0 then image else [])))
  let s := clearJobs s pkg jobs cores
  modPkg s pkg (fun p => { p with preempted := saved.foldl (fun m e => kset m e.1 e.2) p.preempted,
                                  preempting := p.preempting.filter (fun l => l != jobs) })

/-- PRE_EMPTION: quiesces the jobs; once nothing started remains, in this step or in a later one, saves and releases them (log 62). -/
def execPreEmption (pkg job : Nat) (s : State) : Host.Outcome State Fault Refusal :=
  let jobs := jobList 16 job
  event (if !mayPreempt s pkg jobs then s
    else
      let s := quiesce s pkg jobs
      if jobsQuiet s pkg jobs then saveJobs s pkg jobs
      else modPkg s pkg (fun p => { p with preempting := if p.preempting.contains jobs then p.preempting else p.preempting ++ [jobs] }))

/-- The first pre-emption whose jobs have become quiet goes on to step 5. -/
def endPreemption (s : State) (pkg : Nat) : State :=
  match (getPkg s pkg).preempting.find? (fun jobs => mayPreempt s pkg jobs && jobsQuiet (quiesce s pkg jobs) pkg jobs) with
  | none => s
  | some jobs => saveJobs (quiesce s pkg jobs) pkg jobs

/-! ## Restoration (17 R399, R400) -/

/-- Whether a stream, plan, queue pair, tile or spawn sequencer of an image has been taken by another job. -/
def placeTaken (s : State) (pkg : Nat) (v : SavedJob) : Bool :=
  let p := getPkg s pkg
  v.streams.any (fun e => (kfind p.streams e.1).isSome) || v.plans.any (fun e => (kfind p.plans e.1).isSome)
    || v.qps.any (fun e => (kfind p.qps e.1).isSome)
    || v.cores.any (fun c => c.unit.spawn.isSome && (getCore s c.core).spawn.isSome)
    || v.tiles.any (fun t => ((kfind (getGrove s t.1).tiles t.2.1).map (fun z => z.owner.isSome)).getD false)

/-- The engine registers of the image's owned sets, whole, over those of the core (06 R171, R173). -/
def mergeSets (u v : Core) : Core :=
  let sets := v.owner.map (fun e => e.1)
  { u with e := (v.e.filter (fun e => sets.contains (e.1 / 8))).foldl (fun m e => kset m e.1 e.2) (u.e.filter (fun e => !sets.contains (e.1 / 8))),
           owner := v.owner.foldl (fun m e => kset m e.1 e.2) u.owner }

/-- The units of a core from its image: what stands there already stays in front. -/
def mergeCore (u v : Core) : Core :=
  { mergeSets u v with
    q := (List.range 4).foldl (fun m p => kset m p (kget u.q [] p ++ kget v.q [] p)) u.q, deque := u.deque ++ v.deque, park := u.park ++ v.park,
    trigs := u.trigs ++ v.trigs, claims := u.claims ++ v.claims, slots := u.slots ++ v.slots, frames := u.frames ++ v.frames,
    deckOrder := v.deckOrder.foldl (fun m e => kset m e.1 (kget m [] e.1 ++ e.2)) u.deckOrder,
    spawn := if v.spawn.isSome then v.spawn else u.spawn, ops := u.ops ++ v.ops }

/-- A held thread whose frame cannot be written goes to the fault handler; no instruction was running (02 R30; log 62). -/
def heldFault (s : State) (r : SafeRec) (cause : Nat) (faddr : Word) (ff : Bool) (addr : Word) : State :=
  let f : FaultInfo := { cause := cause, fpc := r.ctx.pc, faddr := faddr, finfo := 0, pc := r.ctx.pc }
  report s (corePkg r.core) (faultNotice (r.core * 8) r.ctx f (faultRec r.ctx f ff addr))

/-- A held thread's record goes to its grove's ready pool with FF = 1. It waits while no frame slot can be had (log 62). -/
def poolHeld (s : State) (r : SafeRec) : State :=
  match spill s r.core r.ctx with
  | (t, .at addr) => poolPush t (coreGrove r.core) { r := suspRec r.ctx r.ctx.pc addr, age := 0, handler := r.ctx.handler, lost := r.ctx.lost }
  | (t, .failed e a) => heldFault t r e a false 0
  | (t, .corrupt addr a) => heldFault t r cUncorrectable a true addr
  | (_, _) => modPkg s (corePkg r.core) (fun p => { p with releasing := p.releasing ++ [r] })

/-- A held context resumes, or its record goes to the ready pool when the context is taken. One that resumes in its place keeps the body in force of a
loop (org and cur) across a pending write of LSTA or LEND, for which its frame (02 R28) has no place (DESIGN CHOICE, log 12). -/
def restoreCtx (s : State) (e : Nat × Ctx) : State :=
  let core := ctxCore e.1
  let c := { e.2 with hbMark := s.cycle, spMark := s.cycle }
  if (getCtx s e.1).status = .dormant then dropICache (acquire (setCtx s e.1 c) core) core
  else poolHeld s { job := c.job, core := core, sp := false, ctx := c }

/-- A core's section is put back: the whole scratchpad with its full/empty bits, whatever stood there, then its units (log 62). -/
def restoreCore (s : State) (v : SavedCore) : State :=
  let s := v.scratch.foldl (fun s c => memWrite s c.1 [c.2]) (zeroScratch s v.core)
  let s := { s with full := v.full.foldl keyAdd s.full }
  let s := modCore s v.core (fun u => mergeCore u (turnAges s v.unit))
  let s := v.ctxs.foldl restoreCtx s
  v.unit.trigs.foldl (fun s t => trigTest s t.key) s

/-- Groves, tiles and package tables from an image. -/
def restoreJob (s : State) (pkg : Nat) (v : SavedJob) : State :=
  let s := v.tiles.foldl (fun s t => modGrove s t.1 (fun g => { g with tiles := kset g.tiles t.2.1 t.2.2 })) s
  let s := v.groups.foldl (fun s e => modGrove s e.1 (fun g => { g with groups := kset g.groups e.2.1 e.2.2 })) s
  let s := v.saw.foldl (fun s e => modGrove s e.1 (fun g => { g with saw := g.saw ++ [e.2] })) s
  let s := v.sawWait.foldl (fun s e => modGrove s e.1 (fun g => { g with sawWait := g.sawWait ++ [e.2] })) s
  let s := v.cru.foldl (fun s e => modGrove s e.1 (fun g => { g with cru := g.cru ++ [e.2] })) s
  let s := v.cruWait.foldl (fun s e => modGrove s e.1 (fun g => { g with cruWait := g.cruWait ++ [e.2] })) s
  let s := modPkg s pkg (fun p => { p with
    streams := v.streams.foldl (fun m e => kset m e.1 (cutRings s pkg e.1 e.2)) p.streams, plans := v.plans.foldl (fun m e => kset m e.1 e.2) p.plans,
    qps := v.qps.foldl (fun m e => kset m e.1 e.2) p.qps })
  let s := v.cores.foldl restoreCore s
  v.pool.foldl (fun s e => poolPush s e.1 e.2) s

/-- RESTORATION: of every job that was pre-empted together with the one named. -/
def execRestoration (pkg job : Nat) (s : State) : Host.Outcome State Fault Refusal :=
  event (match kfind (getPkg s pkg).preempted job with
    | none => s
    | some v =>
      let all := v.jobs.filterMap (fun j => kfind (getPkg s pkg).preempted j)
      if all.any (placeTaken s pkg) then s
      else
        let s := modPkg s pkg (fun p => { p with quiet := p.quiet.filter (fun j => !v.jobs.contains j),
                                                 preempted := p.preempted.filter (fun e => !v.jobs.contains e.1) })
        all.foldl (fun s v => restoreJob s pkg v) s)

/-! ## Safe-point mode (17 R401) -/

def execSafePointModeSet (pkg job : Nat) (s : State) : Host.Outcome State Fault Refusal :=
  event (match jobOn s pkg job with
    | none => s
    | some _ =>
      let s := modPkg s pkg (fun p => { p with spmJobs := keyAdd p.spmJobs job })
      let s := (coresOf s pkg [job]).foldl (fun s c => modCore s c (fun u => { u with spm := true })) s
      { s with ctxs := s.ctxs.map (fun e => if ctxOf pkg [job] e then (e.1, { e.2 with spMark := s.cycle }) else e) })

/-- SAFE_POINT_TIMEOUT: 2^20 cycles without SAFEPT or END stop the thread with SP = 0. -/
def execSafePointTimeout (ctx : Nat) (s : State) : Host.Outcome State Fault Refusal :=
  let c := getCtx s ctx
  event (if c.status != .dormant && (getPkg s (corePkg (ctxCore ctx))).spmJobs.contains c.job && decide (c.spMark + 2 ^ 20 ≤ s.cycle) then
    let s := performReady [ctx] 1 s
    match (getCtx s ctx).status with
    | .dormant => s
    | .faulting f _ => deliverTrap s ctx f
    | _ =>
      let s := withdrawReads (releaseWaits s ctx) ctx
      { holdSafe { s with cur := ctx } ctx (stoppedCtx (getCtx s ctx)) false with cur := s.cur }
  else s)

/-- Whether the release of a job's safe-point mode places a held record: the job's own, and that of another job's thread that a SAFEPT suspended only
because SPM was set on a core they share, once it is clear there. -/
def released (s : State) (pkg job : Nat) (r : SafeRec) : Bool :=
  r.job == job || (!(getPkg s pkg).spmJobs.contains r.job && !(getCore s r.core).spm)

/-- The held records that a release places go to their groves' ready pools; those without a frame slot wait. -/
def releaseSafe (s : State) (pkg job : Nat) : State :=
  let out := (getPkg s pkg).safe.filter (released s pkg job)
  out.foldl poolHeld (modPkg s pkg (fun p => { p with safe := p.safe.filter (fun r => !released s pkg job r) }))

/-- The released records that wait for a frame slot try again. -/
def retryReleased (s : State) (pkg : Nat) : State :=
  let l := (getPkg s pkg).releasing
  let waits (r : SafeRec) : Bool := quietJob s pkg r.job
  (l.filter (fun r => !waits r)).foldl poolHeld (modPkg s pkg (fun p => { p with releasing := l.filter waits }))

/-- SAFE_POINT_RELEASE: SPM clears and the held records are placed. -/
def execSafePointRelease (pkg job : Nat) (s : State) : Host.Outcome State Fault Refusal :=
  let s := modPkg s pkg (fun p => { p with spmJobs := keyDel p.spmJobs job })
  let still (c : Nat) : Bool := (jobsOn s c).any (fun j => (getPkg s pkg).spmJobs.contains j)
  let s := (coresOf s pkg [job]).foldl (fun s c => modCore s c (fun u => { u with spm := still c })) s
  event (releaseSafe s pkg job)

end Sys2Proof.Machine
end

