-- ==== Sys2Proof/Machine/Platform.lean ====
section
/-! DEFINITION. Governor, monitors, limits, boot, fuses, SPDM, debug, lifecycle, power states and device reset (03 R91; 16 R369-R376). -/

namespace Sys2Proof.Machine

open Sys2Proof

/-! ## Governor, hotness, monitors, limits -/

def execGovctlWrite (pkg value : Nat) (s : State) : Host.Outcome State Fault Refusal := pkgEvent s pkg (govWrite s pkg value)

/-- The value that GOVCTL reads. -/
def govWord (p : Pkg) : Word := word (p.govn % 512 + p.govc % 512 * 2 ^ 16)

/-- DLV and STV of every entry are halved (03 R91). -/
def halveHot (s : State) (pkg : Nat) : State :=
  modPkg s pkg (fun p => { p with hot := p.hot.map (fun e => (e.1, { e.2 with dlv := e.2.dlv / 2, stv := e.2.stv / 2 })) })

/-- HOTNESS_HALVING: the clock raises it every 2^24 cycles. -/
def execHotnessHalving (pkg : Nat) (s : State) : Host.Outcome State Fault Refusal := event (halveHot s pkg)

/-- A monitor record (16 R371); 95 °C is 760 units. ILIM stays until the record is read. -/
def monitorWord (held : Bool) (pkg n temp vcore : Nat) : Word :=
  word (temp % 2 ^ 16 + vcore % 2 ^ 16 * 2 ^ 16 + (Config.processCode pkg n).toNat * 2 ^ 32
    + (if 760 ≤ temp % 2 ^ 16 && temp % 2 ^ 16 < 2 ^ 15 then 2 ^ 40 else 0) + (if held then 2 ^ 41 else 0))

/-- The governor writes monitor record n with what the sensors give. -/
def refresh (s : State) (pkg n temp vcore : Nat) : State :=
  modPkg s pkg (fun p => { p with monitors := kset p.monitors n (monitorWord ((kget p.monitors 0 n).getLsbD 41) pkg n temp vcore) })

/-- MONITOR_REFRESH: the sensors' values for record n, in a cycle in which the records are refreshed; without the event they are free values (log 64). -/
def execMonitorRefresh (pkg n temp vcore : Nat) (s : State) : Host.Outcome State Fault Refusal :=
  pkgEvent s pkg (if n < 5 && s.cycle % 2 ^ 16 = 0 then refresh s pkg n temp vcore else s)

/-- The refresh of every record of a package, with free sensor values. -/
def refreshAll (s : State) (pkg : Nat) : State :=
  (List.range 5).foldl (fun s n => refresh (freeStep s) pkg n ((freeNow s).toNat % 2 ^ 16) ((freeNow s).toNat / 2 ^ 16 % 2 ^ 16)) s

/-- The packages of the machine: those that the extents of package 0 give, and those that State lists. -/
def packages (s : State) : List Nat := ((torusAll (getPkg s 0).extents) ++ s.pkgs.map (fun e => e.1)).foldl keyAdd []

/-- The refresh of every 2^16 cycles, in each package that has power (16 R371, R376). -/
def refreshPackages (s : State) : State := ((packages s).filter (hasPower s)).foldl refreshAll s

/-- Every record's ILIM is set: the current limiter has held a start (16 R371). -/
def markHeld (s : State) (pkg : Nat) : State :=
  modPkg s pkg (fun p => { p with monitors := (List.range 5).foldl (fun m n => kset m n (kget m 0 n ||| word (2 ^ 41))) p.monitors })

/-- CURRENT_LIMIT: from now on starts are held (16 R372). -/
def execCurrentLimit (pkg : Nat) (s : State) : Host.Outcome State Fault Refusal := pkgEvent s pkg (modPkg s pkg (fun p => { p with limit := true }))

def execCurrentFallsBelowLimit (pkg : Nat) (s : State) : Host.Outcome State Fault Refusal := pkgEvent s pkg (modPkg s pkg (fun p => { p with limit := false }))

/-! ## Losing a package's state (16 R372, R376) -/

/-- A key that the package's own memories hold: HBM or a scratchpad. Host and pooled memory lie outside the package. -/
def ownKey (pkg k : Nat) : Bool := keyPkg k == pkg && (keyIsScratch k || paRange (keyPa k) == 0)

/-- Whether a failed unit's mark lies in a package: its own memory, an L1 word, a slice dword, or a group record. -/
def ownMark (pkg u : Nat) : Bool :=
  if 2 ^ 120 ≤ u then grovePkg ((u - 2 ^ 120) / 2 ^ 30) == pkg
  else if 2 ^ 70 ≤ u then corePkg (u / 2 ^ 70 - 1) == pkg
  else if 2 ^ 66 ≤ u then keyPkg (u - 2 ^ 66) == pkg
  else ownKey pkg u

/-- A package leaves its plays: what it gave and got is gone. -/
def leavePlay (pkg : Nat) (y : Play) : Play :=
  { y with joined := y.joined.filter (fun j => j.pkg != pkg), pushed := y.pushed.filter (fun e => e.1 / 2 ^ 40 != pkg),
           result := y.result.filter (fun e => e.1 / 2 ^ 40 != pkg) }

/-- The neighbours' ports towards a package that is off carry nothing (19 R426). -/
def dropNeighbours (s : State) (ext : List Nat) (pkg : Nat) : State :=
  ((List.range 4).flatMap (fun d => [(d, true), (d, false)])).foldl (fun s w =>
    let q := torusHop ext pkg w.1 w.2
    if q = pkg then s
    else (List.range 16).foldl (fun s i =>
      let k := 32 * w.1 + 16 * (if w.2 then 1 else 0) + i
      signalUp s (modLink s q k Link.drop) q k) s) s

/-- All device state of a package is lost; the fuses stay. -/
def losePackage (s : State) (pkg : Nat) : State :=
  let p := getPkg s pkg
  let q : Pkg := { Pkg.reset with power := .off, life := p.life, nextLife := p.nextLife, revoked := p.revoked, rollback := p.rollback, fusedOff := p.fusedOff,
                                  fusedRate := p.fusedRate, booted := false, pooled := deviceBytes s pkg }
  let s := { s with
    ctxs := s.ctxs.filter (fun e => corePkg (ctxCore e.1) != pkg), cores := s.cores.filter (fun e => corePkg e.1 != pkg),
    groves := s.groves.filter (fun e => grovePkg e.1 != pkg), pkgs := kset s.pkgs pkg q,
    mem := s.mem.filter (fun c => !ownKey pkg c.1 && (pooledAt pkg c.1).isNone), full := s.full.filter (fun k => !ownKey pkg k),
    bad := s.bad.filter (fun k => !ownMark pkg k),
    owner := s.owner.filter (fun e => corePkg e.2 != pkg), stores := s.stores.filter (fun e => corePkg (ctxCore e.ctx) != pkg),
    nacked := s.nacked.filter (fun e => corePkg (ctxCore e.ctx) != pkg),
    partials := s.partials.filter (fun e => keyPkg e.key != pkg), net := s.net.filter (fun e => corePkg e.src != pkg),
    refused := s.refused.filter (fun e => corePkg e.pkt.src != pkg),
    plays := (s.plays.map (leavePlay pkg)).filter (fun y => !y.joined.isEmpty) }
  rerouteIn (dropNeighbours s p.extents pkg) p.extents

def execThermalTrip (pkg : Nat) (s : State) : Host.Outcome State Fault Refusal := event (losePackage s pkg)

/-- HBM of zeros, and every scratchpad with it when asked: nothing that was on its way there, or is held of it, comes back. -/
def zeroHbm (s : State) (pkg : Nat) (scratch : Bool) : State :=
  let gone (k : Nat) : Bool := ownKey pkg k && (scratch || !keyIsScratch k)
  { s with mem := s.mem.filter (fun c => !gone c.1), owner := s.owner.filter (fun e => !gone e.1),
           bad := s.bad.filter (fun u => !gone (if u < 2 ^ 66 then u else if u < 2 ^ 70 then u - 2 ^ 66 else u % 2 ^ 70) || 2 ^ 120 ≤ u),
           partials := s.partials.filter (fun p => !gone p.key), stores := s.stores.filter (fun p => !gone p.key),
           nacked := s.nacked.filter (fun p => !gone p.key),
           cores := s.cores.map (fun e => (e.1, { e.2 with l1 := e.2.l1.filter (fun b => !gone b.1), icache := e.2.icache.filter (fun b => !gone b.1) })) }

/-! ## Boot (16 R373, R376; 13 R347, R357) -/

/-- A signature under one of the four fused key hashes that is not revoked, and a version that the counter admits. -/
def imageGood (p : Pkg) (image : Nat) : Bool :=
  (List.range 4).any (fun k => !p.revoked.contains k && Config.imageSigned k image) && decide (p.rollback ≤ Config.imageVersion image)

/-- The first stage and the runtime firmware that it starts are each verified before they run. -/
def stagesGood (p : Pkg) (image : Nat) : Bool := imageGood p image && imageGood p (Config.runtimeImage image)

/-- The links train: every port that is ready at both ends, and the CXL ports (log 24). -/
def trainLinks (s : State) (pkg : Nat) : State :=
  reroute ((List.range 4).foldl (fun s n => modPort s pkg n (fun x => { x with up := true })) (trainPorts s pkg)) pkg

/-- Firmware runs: a lifecycle change takes effect, and entering Returned zeroes HBM and the scratchpads. -/
def startFirmware (s : State) (pkg image : Nat) : State :=
  let p := getPkg s pkg
  let s := if p.nextLife = .returned && p.life ≠ .returned then zeroHbm s pkg true else s
  trainLinks (modPkg s pkg (fun p => { p with
    life := p.nextLife, booted := true, recovery := false, debug := 0, firmware := [image, Config.runtimeImage image] })) pkg

/-- BOOT of a flash image, in Standby (16 R376): a stage that fails a check leaves the root in Recovery, which takes no flash image. -/
def execBoot (pkg image : Nat) (s : State) : Host.Outcome State Fault Refusal :=
  event (if (getPkg s pkg).power ≠ .standby || (getPkg s pkg).recovery then s
    else if stagesGood (getPkg s pkg) image then startFirmware s pkg image
    else modPkg s pkg (fun p => { p with recovery := true, booted := false }))

def execRecoveryImageWrite (pkg image : Nat) (s : State) : Host.Outcome State Fault Refusal :=
  event (if (getPkg s pkg).power = .standby && (getPkg s pkg).recovery && stagesGood (getPkg s pkg) image then startFirmware s pkg image else s)

/-- FUSE_WRITE: kind 0 revokes a key, kind 1 raises the anti-rollback counter; in the Standby state of Manufacture (16 R376). -/
def execFuseWrite (pkg kind value : Nat) (s : State) : Host.Outcome State Fault Refusal :=
  event (if (getPkg s pkg).power ≠ .standby || (getPkg s pkg).life ≠ .manufacture then s
    else if kind = 0 then (if value < 4 then modPkg s pkg (fun p => { p with revoked := keyAdd p.revoked value }) else s)
    else modPkg s pkg (fun p => { p with rollback := max p.rollback value }))

/-! ## SPDM (16 R374). The last answer is entry 0, its contents entry 1, the algorithms chosen entry 2 (log 20). -/

/-- Whether the responder can be reached: the package is powered and port 0's link is up. -/
def spdmUp (s : State) (pkg : Nat) : Bool := (getPkg s pkg).power != .off && portUp (getPkg s pkg) 0

def answer (s : State) (pkg code value : Nat) : State :=
  if !spdmUp s pkg then s else modPkg s pkg (fun p => { p with spdm := kset (kset p.spdm 0 code) 1 value })

/-- ERROR with UnsupportedRequest. -/
def unsupported (s : State) (pkg : Nat) : State := answer s pkg 0x7F 0x07

def execGetVersion (pkg : Nat) (s : State) : Host.Outcome State Fault Refusal := event (answer s pkg 0x04 0x13)
def execGetCapabilities (pkg : Nat) (s : State) : Host.Outcome State Fault Refusal := event (answer s pkg 0x61 (2 + 4 + 16))

/-- Of the algorithms offered, ECDSA P-384 is bit 7 and SHA-384 bit 1; nothing else is taken. -/
def execNegotiateAlgorithms (pkg asym hash : Nat) (s : State) : Host.Outcome State Fault Refusal :=
  let pick := (if asym.testBit 7 then 0x80 else 0) + (if hash.testBit 1 then 0x02 else 0) * 2 ^ 32
  event (if !spdmUp s pkg then s else modPkg (answer s pkg 0x63 pick) pkg (fun p => { p with spdm := kset p.spdm 2 pick }))

def execGetDigests (pkg : Nat) (s : State) : Host.Outcome State Fault Refusal := event (answer s pkg 0x01 (Config.certDigest 0))
def execGetCertificate (pkg slot ofs len : Nat) (s : State) : Host.Outcome State Fault Refusal :=
  event (answer s pkg 0x02 (Config.certificate slot / 256 ^ ofs % 256 ^ len))
def execChallenge (pkg slot nonce : Nat) (s : State) : Host.Outcome State Fault Refusal := event (answer s pkg 0x03 (Config.challengeSignature slot nonce))

def lifeCode : Lifecycle → Nat
  | .manufacture => 0
  | .deployed => 1
  | .returned => 2

/-- What each index measures (16 R374). -/
def measurement (p : Pkg) (index : Nat) : Nat :=
  match index with
  | 1 => Config.romDigest
  | 2 => Config.imageDigest (p.firmware.getD 0 0)
  | 3 => Config.imageDigest (p.firmware.getD 1 0)
  | _ => Config.stateDigest (lifeCode p.life) p.debug

def execGetMeasurements (pkg index : Nat) (s : State) : Host.Outcome State Fault Refusal :=
  let p := getPkg s pkg
  event (if 1 ≤ index && index ≤ 4 then answer s pkg 0x60 (measurement p index) else unsupported s pkg)

def execSpdmOtherRequest (pkg _code : Nat) (s : State) : Host.Outcome State Fault Refusal := event (unsupported s pkg)

/-! ## Debug, lifecycle, power (16 R376) -/

/-- A token signed under a fused key hash that is not revoked (16 R373, R376). -/
def tokenGood (p : Pkg) (level token : Nat) : Bool := (List.range 4).any (fun k => !p.revoked.contains k && Config.tokenSigned k level token)

/-- DEBUG_TOKEN: level 2 is refused in Deployed. -/
def execDebugToken (pkg level token : Nat) (s : State) : Host.Outcome State Fault Refusal :=
  let p := getPkg s pkg
  event (if p.power = .off || !(level == 1 || level == 2) || (level == 2 && p.life == .deployed) || !tokenGood p level token then s
    else modPkg s pkg (fun p => { p with debug := max p.debug level }))

/-- LIFECYCLE_CHANGE: 0 Manufacture, 1 Deployed, 2 Returned, from the next boot on (log 63). -/
def execLifecycleChange (pkg next : Nat) (s : State) : Host.Outcome State Fault Refusal :=
  pkgEvent s pkg (match next with
    | 0 => modPkg s pkg (fun p => { p with nextLife := .manufacture })
    | 1 => modPkg s pkg (fun p => { p with nextLife := .deployed })
    | 2 => modPkg s pkg (fun p => { p with nextLife := .returned })
    | _ => s)

/-- The heartbeat counts of a package's running threads stop with their cores, or go on (16 R376; 02 R53). -/
def turnBeats (s : State) (pkg : Nat) (stop : Bool) : State :=
  { s with ctxs := s.ctxs.map (fun e =>
      if corePkg (ctxCore e.1) = pkg && e.2.status == .running then
        (e.1, { e.2 with hb := if stop then e.2.hb + (s.cycle - e.2.hbMark) else e.2.hb, hbMark := s.cycle })
      else e) }

/-- POWER_STATE_CHANGE: 0 Off, 1 Standby, 2 Run. Run is entered from Standby with firmware that has booted; in Returned the HBM is zeroed first. -/
def execPowerStateChange (pkg next : Nat) (s : State) : Host.Outcome State Fault Refusal :=
  let p := getPkg s pkg
  event (match next with
    | 0 => losePackage s pkg
    | 1 => modPkg (if p.power = .run then turnBeats s pkg true else s) pkg (fun p => { p with power := .standby })
    | 2 =>
      if p.power = .standby && p.booted && !p.recovery then
        modPkg (if p.life = .returned then zeroHbm (turnBeats s pkg false) pkg false else turnBeats s pkg false) pkg (fun p => { p with power := .run })
      else s
    | _ => s)

/-- What device reset leaves of a package: the fuses, what its devices hold, and the power state with what the root has verified (16 R373, R376; log 25). -/
def resetPkg (s : State) (pkg : Nat) (p : Pkg) : Pkg :=
  { Pkg.reset with life := p.life, nextLife := p.nextLife, revoked := p.revoked, rollback := p.rollback, fusedOff := p.fusedOff, fusedRate := p.fusedRate,
                   power := p.power, booted := p.booted, recovery := p.recovery, firmware := p.firmware, pooled := deviceBytes s pkg }

/-- DEVICE_RESET: every unit at its reset value; memory contents and fuses stay (log 25). -/
def execDeviceReset (s : State) : Host.Outcome State Fault Refusal :=
  event { State.reset with
    mem := s.mem.filter (fun c => (pooledAt (keyPkg c.1) c.1).isNone), free := s.free,
    pkgs := s.pkgs.map (fun e => (e.1, resetPkg s e.1 e.2)) }

/-! ## Debug access (16 R372, R376) -/

/-- A write by scan or management access. Spaces: 0 memory, 1 scratchpads (core id × 2^17 + offset), 2 BAR0 registers, 3 an A register
(context × 32 + register), 4 a PC, 5 a stopped context goes on. -/
def debugWrite (s : State) (pkg space addr size value : Nat) : State :=
  match space with
  | 0 =>
    let k := paKey s pkg (addr % 2 ^ 52)
    mend (homeWrite (recallLines s k size).1 k (leBytes size value)) k size
  | 1 =>
    let k := scratchKey (pkg * 8192 + addr / 2 ^ 17 % 8192) (addr % 2 ^ 17)
    mend (memWrite s k (leBytes size value)) k size
  | 2 => regWrite s pkg addr (value % 2 ^ 64) true
  | 3 => if addr % 32 = 0 then s else modCtx s (addr / 32) (fun c => { c with a := kset c.a (addr % 32) (word value), badRegs := keyDel c.badRegs (addr % 32) })
  | 4 => modCtx s addr (fun c => { c with pc := word value })
  | _ => modCtx s addr (fun c => match c.status with
    | .stopped => { c with status := .running, hbMark := s.cycle }
    | _ => c)

/-- What a read of a register of BAR0 gives; bits without a meaning read as zero (00 R5). -/
def regRead (p : Pkg) (ofs : Nat) : Word :=
  if ofs = 0 then word (p.op % 256)
  else if ofs = 0x008 then p.jta0
  else if ofs = 0x010 then p.jta1
  else if ofs = 0x018 then p.jta2
  else if ofs = 0x020 then word (p.busy.toNat + p.result % 256 * 2 ^ 8)
  else if ofs = 0x100 then p.ringBase
  else if ofs = 0x108 then p.ringCount
  else if ofs = 0x110 then word p.ringHead
  else if ofs = 0x118 then p.ringTail
  else if ofs = 0x128 then word p.stale
  else if 0x1000 ≤ ofs && ofs < 0x1080 && ofs % 8 = 0 then kget p.decoder 0 ((ofs - 0x1000) / 8)
  else if 0x2000 ≤ ofs && ofs < 0x2028 && ofs % 8 = 0 then kget p.monitors 0 ((ofs - 0x2000) / 8)
  else if ofs = 0x2100 then govWord p
  else if 0x2200 ≤ ofs && ofs < 0x2220 && ofs % 8 = 0 then portWord (kget p.ports .reset ((ofs - 0x2200) / 8))
  else if 0x2800 ≤ ofs && ofs < 0x2838 && ofs % 8 = 0 then word (kget p.corr 0 ((ofs - 0x2800) / 8) + kget p.unc 0 ((ofs - 0x2800) / 8) * 2 ^ 32)
  else match linkAt ofs with
    | some k => linkWord (kget p.links .reset k)
    | none => 0

/-- A read of a register of BAR0: a monitor record's ILIM is cleared by its read. -/
def readReg (s : State) (pkg ofs : Nat) : State :=
  modPkg s pkg (fun p => { p with
    readValue := regRead p ofs,
    monitors := if 0x2000 ≤ ofs && ofs < 0x2028 && ofs % 8 = 0 then
      kset p.monitors ((ofs - 0x2000) / 8) (kget p.monitors 0 ((ofs - 0x2000) / 8) &&& ~~~(word (2 ^ 41))) else p.monitors })

/-- A read by scan or management access, in the spaces of debugWrite. -/
def debugRead (s : State) (pkg space addr size : Nat) : State :=
  let put (s : State) (v : Word) : State := modPkg s pkg (fun p => { p with readValue := v })
  match space with
  | 0 => match recallLines s (paKey s pkg (addr % 2 ^ 52)) size with
    | (s, _) => put s (word (leNat (homeRead s (paKey s pkg (addr % 2 ^ 52)) size)))
  | 1 => put s (word (leNat (cellsRead s.mem (scratchKey (pkg * 8192 + addr / 2 ^ 17 % 8192) (addr % 2 ^ 17)) size)))
  | 3 => put s (getA (getCtx s (addr / 32)) (addr % 32))
  | 4 => put s (getCtx s addr).pc
  | 5 => put s (getCtx s addr).stat
  | _ => s

/-- The context that a read of space 3, 4 or 5 traces. -/
def tracedCtx (space addr : Nat) : Nat := if space = 3 then addr / 32 else addr

/-- What level 1 may trace: the registers, PC and STAT of the package's contexts; in Deployed only of those that are no part of an installed job (16 R376; log 63). -/
def traceable (s : State) (pkg space addr : Nat) : Bool :=
  let c := getCtx s (tracedCtx space addr)
  decide (3 ≤ space) && decide (space ≤ 5) && corePkg (ctxCore (tracedCtx space addr)) == pkg
    && ((getPkg s pkg).life != .deployed || c.status == .dormant || (jobOn s pkg c.job).isNone)

/-- DEBUG_ACCESS: level 1 traces; scan and memory access need level 2, which Deployed never has, so that its firewalls hold; a stopped context needs
level 1 to go on. The registers of BAR0 may always be read. -/
def execDebugAccess (pkg wr space addr size value : Nat) (s : State) : Host.Outcome State Fault Refusal :=
  let p := getPkg s pkg
  event (if p.power = .off then s
    else if wr = 1 then (if 2 ≤ p.debug || (space = 5 && 1 ≤ p.debug) then debugWrite s pkg space addr size value else s)
    else if space = 2 then readReg s pkg addr
    else if 2 ≤ p.debug || (1 ≤ p.debug && traceable s pkg space addr) then debugRead s pkg space addr size
    else s)

end Sys2Proof.Machine
end

