-- ==== Sys2Proof/Machine/Scalar.lean ====
section
/-! DEFINITION. Register and immediate operations (07 R184-R187). -/

namespace Sys2Proof.Machine

open Sys2Proof

/-! ## Shared operations -/

/-- Ad = f(Aa, Ab). -/
def op2 (i : Instr) (d a b : Nat) (f : Word → Word → Word) (s : State) : Host.Outcome State Fault Refusal :=
  finish i [rA a, rA b] (fun s => .ok (setA s d (f (regA s a) (regA s b)))) s

/-- Ad = f(Aa). -/
def op1 (i : Instr) (d a : Nat) (f : Word → Word) (s : State) : Host.Outcome State Fault Refusal :=
  finish i [rA a] (fun s => .ok (setA s d (f (regA s a)))) s

/-- Ad = f(old Ad, Aa, Ab). -/
def op3 (i : Instr) (d a b : Nat) (f : Word → Word → Word → Word) (s : State) : Host.Outcome State Fault Refusal :=
  finish i [rA d, rA a, rA b] (fun s => .ok (setA s d (f (regA s d) (regA s a) (regA s b)))) s

/-- A truth value as a register value. -/
def boolWord (b : Bool) : Word := if b then 1 else 0

/-- The shift amount y[5:0]. -/
def amount (y : Word) : Nat := y.toNat % 64

def mulh (x y : Word) : Word := BitVec.ofInt 64 (x.toInt * y.toInt / 2 ^ 64)
def mulhu (x y : Word) : Word := word (x.toNat * y.toNat / 2 ^ 64)
/-- R186: truncation toward zero; −2^63 / −1 wraps to −2^63. -/
def divS (x y : Word) : Word := if y = 0 then BitVec.allOnes 64 else BitVec.ofInt 64 (x.toInt.tdiv y.toInt)
def remS (x y : Word) : Word := if y = 0 then x else BitVec.ofInt 64 (x.toInt.tmod y.toInt)
def divU (x y : Word) : Word := if y = 0 then BitVec.allOnes 64 else word (x.toNat / y.toNat)
def remU (x y : Word) : Word := if y = 0 then x else word (x.toNat % y.toNat)
def sltS (x y : Word) : Bool := decide (x.toInt < y.toInt)
def clzW (x : Word) : Word := word (64 - bitLen x.toNat)
def popcW (x : Word) : Word := word ((List.range 64).filter (fun i => x.getLsbD i)).length
def ctzW (x : Word) : Word := if x = 0 then 64 else popcW ((x &&& -x) - 1)
def brevW (x : Word) : Word := word ((List.range 64).foldl (fun n i => 2 * n + (x.getLsbD i).toNat) 0)
def bswapW (x : Word) : Word := word (leNat (leBytes 8 x.toNat).reverse)
/-- n of SEXT and ZEXT: y[5:0], where 0 stands for 64 (07 R185). -/
def fieldLen (y : Nat) : Nat := if y % 64 = 0 then 64 else y % 64
def sextW (x y : Word) : Word := signExt x.toNat (fieldLen y.toNat)
def zextW (x y : Word) : Word := word (x.toNat % 2 ^ fieldLen y.toNat)
def extrW (x y : Word) : Word := word (x.toNat / 2 ^ amount y % 2 ^ fieldLen (fld y 8 6))
def insrW (old x y : Word) : Word :=
  let f := word ((2 ^ fieldLen (fld y 8 6) - 1) * 2 ^ amount y)
  (old &&& ~~~f) ||| ((x <<< amount y) &&& f)

/-! ## Register operations (07 R184-R186) -/

def execAdd (d a b : Nat) := op2 (.add d a b) d a b (fun x y => x + y)
def execSub (d a b : Nat) := op2 (.sub d a b) d a b (fun x y => x - y)
def execAnd (d a b : Nat) := op2 (.and d a b) d a b (fun x y => x &&& y)
def execOr (d a b : Nat) := op2 (.or d a b) d a b (fun x y => x ||| y)
def execXor (d a b : Nat) := op2 (.xor d a b) d a b (fun x y => x ^^^ y)
def execAndn (d a b : Nat) := op2 (.andn d a b) d a b (fun x y => x &&& ~~~y)
def execSll (d a b : Nat) := op2 (.sll d a b) d a b (fun x y => x <<< amount y)
def execSrl (d a b : Nat) := op2 (.srl d a b) d a b (fun x y => x >>> amount y)
def execSra (d a b : Nat) := op2 (.sra d a b) d a b (fun x y => x.sshiftRight (amount y))
def execRol (d a b : Nat) := op2 (.rol d a b) d a b (fun x y => x.rotateLeft (amount y))
def execMul (d a b : Nat) := op2 (.mul d a b) d a b (fun x y => x * y)
def execMulh (d a b : Nat) := op2 (.mulh d a b) d a b mulh
def execMulhu (d a b : Nat) := op2 (.mulhu d a b) d a b mulhu
def execDiv (d a b : Nat) := op2 (.div d a b) d a b divS
def execDivu (d a b : Nat) := op2 (.divu d a b) d a b divU
def execRem (d a b : Nat) := op2 (.rem d a b) d a b remS
def execRemu (d a b : Nat) := op2 (.remu d a b) d a b remU
def execMin (d a b : Nat) := op2 (.min d a b) d a b (fun x y => if x.toInt ≤ y.toInt then x else y)
def execMax (d a b : Nat) := op2 (.max d a b) d a b (fun x y => if x.toInt ≤ y.toInt then y else x)
def execMinu (d a b : Nat) := op2 (.minu d a b) d a b (fun x y => if x ≤ y then x else y)
def execMaxu (d a b : Nat) := op2 (.maxu d a b) d a b (fun x y => if x ≤ y then y else x)
def execSlt (d a b : Nat) := op2 (.slt d a b) d a b (fun x y => boolWord (sltS x y))
def execSltu (d a b : Nat) := op2 (.sltu d a b) d a b (fun x y => boolWord (decide (x < y)))
def execSeq (d a b : Nat) := op2 (.seq d a b) d a b (fun x y => boolWord (x == y))
def execClz (d a : Nat) := op1 (.clz d a) d a clzW
def execCtz (d a : Nat) := op1 (.ctz d a) d a ctzW
def execPopc (d a : Nat) := op1 (.popc d a) d a popcW
def execBrev (d a : Nat) := op1 (.brev d a) d a brevW
def execBswap (d a : Nat) := op1 (.bswap d a) d a bswapW
def execSext (d a b : Nat) := op2 (.sext d a b) d a b sextW
def execZext (d a b : Nat) := op2 (.zext d a b) d a b zextW
def execExtr (d a b : Nat) := op2 (.extr d a b) d a b extrW
def execInsr (d a b : Nat) := op3 (.insr d a b) d a b insrW
def execSel (d a b : Nat) := op3 (.sel d a b) d a b (fun o x y => if o ≠ 0 then x else y)

/-! ## Immediates (07 R187) -/

def execAddi (d a i : Nat) := op1 (.addi d a i) d a (fun x => x + sx16 i)
def execAndi (d a i : Nat) := op1 (.andi d a i) d a (fun x => x &&& word i)
def execOri (d a i : Nat) := op1 (.ori d a i) d a (fun x => x ||| word i)
def execXori (d a i : Nat) := op1 (.xori d a i) d a (fun x => x ^^^ word i)
def execSlti (d a i : Nat) := op1 (.slti d a i) d a (fun x => boolWord (sltS x (sx16 i)))
def execSlli (d a n : Nat) := op1 (.slli d a n) d a (fun x => x <<< n)
def execSrli (d a n : Nat) := op1 (.srli d a n) d a (fun x => x >>> n)
def execSrai (d a n : Nat) := op1 (.srai d a n) d a (fun x => x.sshiftRight n)
def execLih (d a i : Nat) := op1 (.lih d a i) d a (fun x => (x <<< 16) ||| word i)
def execLil (d i : Nat) (s : State) : Host.Outcome State Fault Refusal := finish (.lil d i) [] (fun s => .ok (setA s d (word i))) s
def execLea (d a i : Nat) := op1 (.lea d a i) d a (fun x => x + sx16 i * 65536)
def execAddpc (d i : Nat) (s : State) : Host.Outcome State Fault Refusal :=
  finish (.addpc d i) [] (fun s => .ok (setA s d ((cx s).pc + dist 16 i))) s

end Sys2Proof.Machine
end

