-- ==== Sys2Proof/Machine/VectorMemory.lean ====
section
/-! DEFINITION. Vector loads and stores, and bit-plane accesses (08 R221-R226). -/

namespace Sys2Proof.Machine

open Sys2Proof

/-- Loads the active elements below `lim` from their addresses; elements from `lim` on become zero (08 R221, R224). -/
def vectorLoad (s : State) (ap : Bool) (d m t lim : Nat) (addr : Nat → Word) : Res :=
  let w := tagWidth t
  let n := tagCount t
  let act := (List.range n).filter (fun e => decide (e < lim) && maskBit s m e)
  loads s ap (act.map (fun e => (addr e, w / 8))) (fun s bs =>
    let old := vnat (regV s d)
    let vals := act.zip bs
    let v := packElems w ((List.range n).map (fun e =>
      if lim ≤ e then 0
      else match kfind vals e with
        | some b => leNat b
        | none => elemAt w old e))
    .ok (setVPart s d (mkV v t 0) (laneDwords w n (fun e => decide (lim ≤ e) || maskBit s m e))))

/-- Stores the active elements below `lim` in ascending order. A suffix must be Vd's tag; tag 0 stores dwords (08 R222). -/
def vectorStore (s : State) (ap : Bool) (d m t lim : Nat) (addr : Nat → Word) : Res :=
  let x := regV s d
  if t ≠ 0 && x.tag ≠ t then tagTrap s 0 x
  else
    let w := tagWidth t
    let act := (List.range (tagCount t)).filter (fun e => decide (e < lim) && maskBit s m e)
    stores s ap (act.map (fun e => (addr e, leBytes (w / 8) (elemAt w (vnat x) e)))) (fun s => .ok s)

/-- Element addresses of the three forms. -/
def seqAddr (base : Word) (t : Nat) (e : Nat) : Word := base + word (e * (tagWidth t / 8))
def strideAddr (base stride : Word) (e : Nat) : Word := base + word e * stride
def gatherAddr (base : Word) (x : VReg) (t : Nat) (e : Nat) : Word := base + word (elemAt 32 (vnat x) e * (tagWidth t / 8))

/-- VLD and VST. "With any suffix" in the aperture's list (13 R358) takes in the form without one, whose tag is 0 (DESIGN CHOICE, log 42). -/
def execVld (d a m t : Nat) := finish (.vld d a m t) [rA a, rM m] (fun s =>
  vectorLoad s ((regA s a).toNat % 8 == 0) d m t 128 (seqAddr (regA s a) t))
def execVst (d a m t : Nat) := finish (.vst d a m t) [rA a, rV d, rM m] (fun s =>
  vectorStore s ((regA s a).toNat % 8 == 0) d m t 128 (seqAddr (regA s a) t))
def execVlds (d a b m t : Nat) := finish (.vlds d a b m t) [rA a, rA b, rM m] (fun s =>
  vectorLoad s false d m t 128 (strideAddr (regA s a) (regA s b)))
def execVsts (d a b m t : Nat) := finish (.vsts d a b m t) [rA a, rA b, rV d, rM m] (fun s =>
  vectorStore s false d m t 128 (strideAddr (regA s a) (regA s b)))
def execVldi (d a b m t : Nat) := finish (.vldi d a b m t) [rA a, rV b, rM m] (fun s =>
  if (regV s b).tag ≠ 10 then tagTrap s 2 (regV s b) else vectorLoad s false d m t 32 (gatherAddr (regA s a) (regV s b) t))
def execVsti (d a b m t : Nat) := finish (.vsti d a b m t) [rA a, rV b, rV d, rM m] (fun s =>
  if (regV s b).tag ≠ 10 then tagTrap s 2 (regV s b) else vectorStore s false d m t 32 (gatherAddr (regA s a) (regV s b) t))

/-! ## Bit planes (08 R225, R226) -/

/-- Aa bits [3:0] and [9:7] are zero. -/
def bpiAligned (x : Word) : Bool := x.toNat % 16 == 0 && fld x 7 3 == 0

/-- The address of a group's 16 bytes of plane k. -/
def planeAddr (x : Word) (k : Nat) : Word := x - word (fld x 4 3 * 16) + word ((7 - k) * 128 + 16 * fld x 4 3)

/-- x_n of element e from planes 7, 6, … as numbers of 128 bits. -/
def planeElem (planes : List Nat) (n e : Nat) : Nat :=
  (signExt (planes.foldl (fun v p => 2 * v + (p.testBit e).toNat) 0) n).toNat % 256

def execVldp (d a m n : Nat) := finish (.vldp d a m n) [rA a, rM m] (fun s =>
  let x := regA s a
  if !bpiAligned x then .trap s cBpiAddr x 0
  else loads s false ((List.range n).map (fun j => (planeAddr x (7 - j), 16))) (fun s bs =>
    lanes s d 8 128 (maskBit s m) 8 (n - 1) (fun e => (planeElem (bs.map leNat) n e, 0))))

/-- The plain reconstruction of byte e of a BPI register (05 R123). -/
def plainByte (x : VReg) (e : Nat) : Nat := elemAt 8 (vnat x) e * 2 ^ (7 - x.planes) % 256

/-- Plane k of a BPI register's 128 elements. -/
def planeOf (x : VReg) (k : Nat) : Nat := packElems 1 ((List.range 128).map (fun e => ((plainByte x e).testBit k).toNat))

/-- Merges the active bits into bytes at their location, in one indivisible step each (08 R226). -/
def mergePlanes (s : State) (mask : Nat) : List (Word × Nat) → List Chk → State
  | (_, v) :: rest, .ok sp :: cs =>
    let s := sp.foldl (fun s e => settleBytes (if keyIsScratch e.1 then drainTo s s.cur (keyCore e.1) else s) e.1 e.2) s
    let old := leNat (spansHome s sp)
    let new := (old &&& (2 ^ 128 - 1 - mask)) ||| (v &&& mask)
    let s := spansWrite s sp (leBytes 16 new)
    mergePlanes (sp.foldl (fun s e => dropL1 s (cxCore s) e.1 e.2) s) mask rest cs
  | _, _ => s

/-- VSTP. With a mask it reads and writes each byte at its location, and yet is checked as a write: RD is not needed. The merge is performed at once, also in
the scratchpad of a package that no route reaches (DESIGN CHOICE, log 110). -/
def execVstp (d a m : Nat) := finish (.vstp d a m) [rA a, rV d, rM m] (fun s =>
  let x := regA s a
  let v := regV s d
  if v.tag ≠ 8 then tagTrap s 0 v
  else if !bpiAligned x then .trap s cBpiAddr x 0
  else
    let l := (List.range 8).map (fun j => (planeAddr x (7 - j), planeOf v (7 - j)))
    if m = 0 then stores s false (l.map (fun e => (e.1, leBytes 16 e.2))) (fun s => .ok s)
    else
      let ns := l.map (fun e => (e.1, 16))
      match checkMany s (thr s) .write false ns [] with
      | (s, cs) => match chkRes s true cs with
        | some r => r
        | none => match recallMany s ns cs with
          | (s, some b) => .trap s cUncorrectable b 0
          | (s, none) => match badMany s false ns cs with
            | some b => .trap s cUncorrectable b 0
            | none => .ok (mergePlanes s (regM s m).toNat l cs))

end Sys2Proof.Machine
end

