-- ==== Sys2Proof/Machine/Dispatch.lean ====
section
/-! DEFINITION. The meaning of every instruction and event: one arm per constructor. -/

namespace Sys2Proof.Machine

open Sys2Proof

/-- What an instruction or event does. -/
def exec (i : Instr) (s : State) : Host.Outcome State Fault Refusal :=
  match i with
  | .add v0 v1 v2 => Sys2Proof.Machine.execAdd v0 v1 v2 s
  | .sub v0 v1 v2 => Sys2Proof.Machine.execSub v0 v1 v2 s
  | .and v0 v1 v2 => Sys2Proof.Machine.execAnd v0 v1 v2 s
  | .or v0 v1 v2 => Sys2Proof.Machine.execOr v0 v1 v2 s
  | .xor v0 v1 v2 => Sys2Proof.Machine.execXor v0 v1 v2 s
  | .andn v0 v1 v2 => Sys2Proof.Machine.execAndn v0 v1 v2 s
  | .sll v0 v1 v2 => Sys2Proof.Machine.execSll v0 v1 v2 s
  | .srl v0 v1 v2 => Sys2Proof.Machine.execSrl v0 v1 v2 s
  | .sra v0 v1 v2 => Sys2Proof.Machine.execSra v0 v1 v2 s
  | .rol v0 v1 v2 => Sys2Proof.Machine.execRol v0 v1 v2 s
  | .mul v0 v1 v2 => Sys2Proof.Machine.execMul v0 v1 v2 s
  | .mulh v0 v1 v2 => Sys2Proof.Machine.execMulh v0 v1 v2 s
  | .mulhu v0 v1 v2 => Sys2Proof.Machine.execMulhu v0 v1 v2 s
  | .div v0 v1 v2 => Sys2Proof.Machine.execDiv v0 v1 v2 s
  | .divu v0 v1 v2 => Sys2Proof.Machine.execDivu v0 v1 v2 s
  | .rem v0 v1 v2 => Sys2Proof.Machine.execRem v0 v1 v2 s
  | .remu v0 v1 v2 => Sys2Proof.Machine.execRemu v0 v1 v2 s
  | .min v0 v1 v2 => Sys2Proof.Machine.execMin v0 v1 v2 s
  | .max v0 v1 v2 => Sys2Proof.Machine.execMax v0 v1 v2 s
  | .minu v0 v1 v2 => Sys2Proof.Machine.execMinu v0 v1 v2 s
  | .maxu v0 v1 v2 => Sys2Proof.Machine.execMaxu v0 v1 v2 s
  | .slt v0 v1 v2 => Sys2Proof.Machine.execSlt v0 v1 v2 s
  | .sltu v0 v1 v2 => Sys2Proof.Machine.execSltu v0 v1 v2 s
  | .seq v0 v1 v2 => Sys2Proof.Machine.execSeq v0 v1 v2 s
  | .clz v0 v1 => Sys2Proof.Machine.execClz v0 v1 s
  | .ctz v0 v1 => Sys2Proof.Machine.execCtz v0 v1 s
  | .popc v0 v1 => Sys2Proof.Machine.execPopc v0 v1 s
  | .brev v0 v1 => Sys2Proof.Machine.execBrev v0 v1 s
  | .bswap v0 v1 => Sys2Proof.Machine.execBswap v0 v1 s
  | .sext v0 v1 v2 => Sys2Proof.Machine.execSext v0 v1 v2 s
  | .zext v0 v1 v2 => Sys2Proof.Machine.execZext v0 v1 v2 s
  | .extr v0 v1 v2 => Sys2Proof.Machine.execExtr v0 v1 v2 s
  | .insr v0 v1 v2 => Sys2Proof.Machine.execInsr v0 v1 v2 s
  | .sel v0 v1 v2 => Sys2Proof.Machine.execSel v0 v1 v2 s
  | .addi v0 v1 v2 => Sys2Proof.Machine.execAddi v0 v1 v2 s
  | .andi v0 v1 v2 => Sys2Proof.Machine.execAndi v0 v1 v2 s
  | .ori v0 v1 v2 => Sys2Proof.Machine.execOri v0 v1 v2 s
  | .xori v0 v1 v2 => Sys2Proof.Machine.execXori v0 v1 v2 s
  | .slti v0 v1 v2 => Sys2Proof.Machine.execSlti v0 v1 v2 s
  | .slli v0 v1 v2 => Sys2Proof.Machine.execSlli v0 v1 v2 s
  | .srli v0 v1 v2 => Sys2Proof.Machine.execSrli v0 v1 v2 s
  | .srai v0 v1 v2 => Sys2Proof.Machine.execSrai v0 v1 v2 s
  | .lih v0 v1 v2 => Sys2Proof.Machine.execLih v0 v1 v2 s
  | .lil v0 v1 => Sys2Proof.Machine.execLil v0 v1 s
  | .lea v0 v1 v2 => Sys2Proof.Machine.execLea v0 v1 v2 s
  | .addpc v0 v1 => Sys2Proof.Machine.execAddpc v0 v1 s
  | .ldB v0 v1 v2 => Sys2Proof.Machine.execLdB v0 v1 v2 s
  | .ldH v0 v1 v2 => Sys2Proof.Machine.execLdH v0 v1 v2 s
  | .ldW v0 v1 v2 => Sys2Proof.Machine.execLdW v0 v1 v2 s
  | .ldD v0 v1 v2 => Sys2Proof.Machine.execLdD v0 v1 v2 s
  | .ldBZ v0 v1 v2 => Sys2Proof.Machine.execLdBZ v0 v1 v2 s
  | .ldHZ v0 v1 v2 => Sys2Proof.Machine.execLdHZ v0 v1 v2 s
  | .ldWZ v0 v1 v2 => Sys2Proof.Machine.execLdWZ v0 v1 v2 s
  | .stB v0 v1 v2 => Sys2Proof.Machine.execStB v0 v1 v2 s
  | .stH v0 v1 v2 => Sys2Proof.Machine.execStH v0 v1 v2 s
  | .stW v0 v1 v2 => Sys2Proof.Machine.execStW v0 v1 v2 s
  | .stD v0 v1 v2 => Sys2Proof.Machine.execStD v0 v1 v2 s
  | .ldx v0 v1 v2 v3 v4 v5 => Sys2Proof.Machine.execLdx v0 v1 v2 v3 v4 v5 s
  | .stx v0 v1 v2 v3 v4 => Sys2Proof.Machine.execStx v0 v1 v2 v3 v4 s
  | .ldfTake v0 v1 => Sys2Proof.Machine.execLdfTake v0 v1 s
  | .ldfPeek v0 v1 => Sys2Proof.Machine.execLdfPeek v0 v1 s
  | .ste v0 v1 => Sys2Proof.Machine.execSte v0 v1 s
  | .tagset v0 v1 => Sys2Proof.Machine.execTagset v0 v1 s
  | .tagget v0 v1 => Sys2Proof.Machine.execTagget v0 v1 s
  | .acq => Sys2Proof.Machine.execAcq s
  | .rel => Sys2Proof.Machine.execRel s
  | .fenceE v0 v1 => Sys2Proof.Machine.execFenceE v0 v1 s
  | .pref v0 => Sys2Proof.Machine.execPref v0 s
  | .aadd v0 v1 v2 v3 => Sys2Proof.Machine.execAadd v0 v1 v2 v3 s
  | .amin v0 v1 v2 v3 v4 => Sys2Proof.Machine.execAmin v0 v1 v2 v3 v4 s
  | .amax v0 v1 v2 v3 v4 => Sys2Proof.Machine.execAmax v0 v1 v2 v3 v4 s
  | .aand v0 v1 v2 v3 => Sys2Proof.Machine.execAand v0 v1 v2 v3 s
  | .aor v0 v1 v2 v3 => Sys2Proof.Machine.execAor v0 v1 v2 v3 s
  | .axor v0 v1 v2 v3 => Sys2Proof.Machine.execAxor v0 v1 v2 v3 s
  | .aswp v0 v1 v2 v3 => Sys2Proof.Machine.execAswp v0 v1 v2 v3 s
  | .acas v0 v1 v2 v3 => Sys2Proof.Machine.execAcas v0 v1 v2 v3 s
  | .afadd v0 v1 v2 => Sys2Proof.Machine.execAfadd v0 v1 v2 s
  | .aupd v0 v1 v2 v3 v4 => Sys2Proof.Machine.execAupd v0 v1 v2 v3 v4 s
  | .beq v0 v1 v2 => Sys2Proof.Machine.execBeq v0 v1 v2 s
  | .bne v0 v1 v2 => Sys2Proof.Machine.execBne v0 v1 v2 s
  | .blt v0 v1 v2 => Sys2Proof.Machine.execBlt v0 v1 v2 s
  | .bge v0 v1 v2 => Sys2Proof.Machine.execBge v0 v1 v2 s
  | .bltu v0 v1 v2 => Sys2Proof.Machine.execBltu v0 v1 v2 s
  | .bgeu v0 v1 v2 => Sys2Proof.Machine.execBgeu v0 v1 v2 s
  | .bz v0 v1 => Sys2Proof.Machine.execBz v0 v1 s
  | .bnz v0 v1 => Sys2Proof.Machine.execBnz v0 v1 s
  | .jmp v0 => Sys2Proof.Machine.execJmp v0 s
  | .jal v0 => Sys2Proof.Machine.execJal v0 s
  | .jr v0 => Sys2Proof.Machine.execJr v0 s
  | .jalr v0 v1 => Sys2Proof.Machine.execJalr v0 v1 s
  | .loop v0 v1 v2 => Sys2Proof.Machine.execLoop v0 v1 v2 s
  | .loopi v0 v1 v2 => Sys2Proof.Machine.execLoopi v0 v1 v2 s
  | .vadd v0 v1 v2 v3 => Sys2Proof.Machine.execVadd v0 v1 v2 v3 s
  | .vsub v0 v1 v2 v3 => Sys2Proof.Machine.execVsub v0 v1 v2 v3 s
  | .vmul v0 v1 v2 v3 => Sys2Proof.Machine.execVmul v0 v1 v2 v3 s
  | .vfma v0 v1 v2 v3 => Sys2Proof.Machine.execVfma v0 v1 v2 v3 s
  | .vfms v0 v1 v2 v3 => Sys2Proof.Machine.execVfms v0 v1 v2 v3 s
  | .vmin v0 v1 v2 v3 => Sys2Proof.Machine.execVmin v0 v1 v2 v3 s
  | .vmax v0 v1 v2 v3 => Sys2Proof.Machine.execVmax v0 v1 v2 v3 s
  | .vabs v0 v1 v2 => Sys2Proof.Machine.execVabs v0 v1 v2 s
  | .vneg v0 v1 v2 => Sys2Proof.Machine.execVneg v0 v1 v2 s
  | .vand v0 v1 v2 v3 => Sys2Proof.Machine.execVand v0 v1 v2 v3 s
  | .vor v0 v1 v2 v3 => Sys2Proof.Machine.execVor v0 v1 v2 v3 s
  | .vxor v0 v1 v2 v3 => Sys2Proof.Machine.execVxor v0 v1 v2 v3 s
  | .vshl v0 v1 v2 v3 => Sys2Proof.Machine.execVshl v0 v1 v2 v3 s
  | .vshr v0 v1 v2 v3 => Sys2Proof.Machine.execVshr v0 v1 v2 v3 s
  | .vcmp v0 v1 v2 v3 v4 => Sys2Proof.Machine.execVcmp v0 v1 v2 v3 v4 s
  | .vsel v0 v1 v2 v3 => Sys2Proof.Machine.execVsel v0 v1 v2 v3 s
  | .vrcp v0 v1 v2 => Sys2Proof.Machine.execVrcp v0 v1 v2 s
  | .vrsq v0 v1 v2 => Sys2Proof.Machine.execVrsq v0 v1 v2 s
  | .vexp2 v0 v1 v2 => Sys2Proof.Machine.execVexp2 v0 v1 v2 s
  | .vlog2 v0 v1 v2 => Sys2Proof.Machine.execVlog2 v0 v1 v2 s
  | .vpack v0 v1 v2 => Sys2Proof.Machine.execVpack v0 v1 v2 s
  | .vunpk v0 v1 v2 => Sys2Proof.Machine.execVunpk v0 v1 v2 s
  | .vsplat v0 v1 v2 v3 => Sys2Proof.Machine.execVsplat v0 v1 v2 v3 s
  | .vext v0 v1 v2 => Sys2Proof.Machine.execVext v0 v1 v2 s
  | .vins v0 v1 v2 => Sys2Proof.Machine.execVins v0 v1 v2 s
  | .vperm v0 v1 v2 v3 => Sys2Proof.Machine.execVperm v0 v1 v2 v3 s
  | .vred v0 v1 v2 v3 => Sys2Proof.Machine.execVred v0 v1 v2 v3 s
  | .vscan v0 v1 v2 v3 => Sys2Proof.Machine.execVscan v0 v1 v2 v3 s
  | .vcvt v0 v1 v2 v3 v4 => Sys2Proof.Machine.execVcvt v0 v1 v2 v3 v4 s
  | .vld v0 v1 v2 v3 => Sys2Proof.Machine.execVld v0 v1 v2 v3 s
  | .vst v0 v1 v2 v3 => Sys2Proof.Machine.execVst v0 v1 v2 v3 s
  | .vlds v0 v1 v2 v3 v4 => Sys2Proof.Machine.execVlds v0 v1 v2 v3 v4 s
  | .vsts v0 v1 v2 v3 v4 => Sys2Proof.Machine.execVsts v0 v1 v2 v3 v4 s
  | .vldi v0 v1 v2 v3 v4 => Sys2Proof.Machine.execVldi v0 v1 v2 v3 v4 s
  | .vsti v0 v1 v2 v3 v4 => Sys2Proof.Machine.execVsti v0 v1 v2 v3 v4 s
  | .vldp v0 v1 v2 v3 => Sys2Proof.Machine.execVldp v0 v1 v2 v3 s
  | .vstp v0 v1 v2 => Sys2Proof.Machine.execVstp v0 v1 v2 s
  | .vnzs v0 v1 v2 => Sys2Proof.Machine.execVnzs v0 v1 v2 s
  | .vband v0 v1 v2 v3 => Sys2Proof.Machine.execVband v0 v1 v2 v3 s
  | .vpopp v0 v1 v2 => Sys2Proof.Machine.execVpopp v0 v1 v2 s
  | .visect v0 v1 v2 v3 => Sys2Proof.Machine.execVisect v0 v1 v2 v3 s
  | .vmovmMaskToVector v0 v1 => Sys2Proof.Machine.execVmovmMaskToVector v0 v1 s
  | .mand v0 v1 v2 => Sys2Proof.Machine.execMand v0 v1 v2 s
  | .mor v0 v1 v2 => Sys2Proof.Machine.execMor v0 v1 v2 s
  | .mnot v0 v1 => Sys2Proof.Machine.execMnot v0 v1 s
  | .mpop v0 v1 => Sys2Proof.Machine.execMpop v0 v1 s
  | .vmovmVectorToMask v0 v1 => Sys2Proof.Machine.execVmovmVectorToMask v0 v1 s
  | .send v0 v1 v2 v3 => Sys2Proof.Machine.execSend v0 v1 v2 v3 s
  | .sendi v0 v1 v2 v3 => Sys2Proof.Machine.execSendi v0 v1 v2 v3 s
  | .sendm v0 v1 v2 v3 v4 => Sys2Proof.Machine.execSendm v0 v1 v2 v3 v4 s
  | .spawn v0 v1 v2 v3 => Sys2Proof.Machine.execSpawn v0 v1 v2 v3 s
  | .xdsp v0 v1 v2 v3 => Sys2Proof.Machine.execXdsp v0 v1 v2 v3 s
  | .endThread => Sys2Proof.Machine.execEndThread s
  | .yield => Sys2Proof.Machine.execYield s
  | .suspend v0 v1 => Sys2Proof.Machine.execSuspend v0 v1 s
  | .resume v0 v1 v2 => Sys2Proof.Machine.execResume v0 v1 v2 s
  | .hbeat => Sys2Proof.Machine.execHbeat s
  | .cnti v0 v1 => Sys2Proof.Machine.execCnti v0 v1 s
  | .cnta v0 v1 v2 => Sys2Proof.Machine.execCnta v0 v1 v2 s
  | .cntaRel v0 v1 v2 => Sys2Proof.Machine.execCntaRel v0 v1 v2 s
  | .cntw v0 v1 v2 => Sys2Proof.Machine.execCntw v0 v1 v2 s
  | .cntt v0 v1 v2 => Sys2Proof.Machine.execCntt v0 v1 v2 s
  | .barinit v0 v1 => Sys2Proof.Machine.execBarinit v0 v1 s
  | .bararv v0 v1 => Sys2Proof.Machine.execBararv v0 v1 s
  | .bardrop v0 => Sys2Proof.Machine.execBardrop v0 s
  | .barwait v0 v1 => Sys2Proof.Machine.execBarwait v0 v1 s
  | .bartx v0 v1 => Sys2Proof.Machine.execBartx v0 v1 s
  | .gjoin v0 v1 => Sys2Proof.Machine.execGjoin v0 v1 s
  | .gleave v0 v1 => Sys2Proof.Machine.execGleave v0 v1 s
  | .gld v0 v1 v2 v3 => Sys2Proof.Machine.execGld v0 v1 v2 v3 s
  | .gldf v0 v1 v2 v3 => Sys2Proof.Machine.execGldf v0 v1 v2 v3 s
  | .gbar v0 v1 => Sys2Proof.Machine.execGbar v0 v1 s
  | .ginfo v0 v1 => Sys2Proof.Machine.execGinfo v0 v1 s
  | .gbarRelease v0 v1 v2 => Sys2Proof.Machine.execGbarRelease v0 v1 v2 s
  | .fork v0 v1 => Sys2Proof.Machine.execFork v0 v1 s
  | .join v0 => Sys2Proof.Machine.execJoin v0 s
  | .dqpush v0 v1 => Sys2Proof.Machine.execDqpush v0 v1 s
  | .dqpop v0 v1 => Sys2Proof.Machine.execDqpop v0 v1 s
  | .rget v0 v1 => Sys2Proof.Machine.execRget v0 v1 s
  | .rput v0 v1 => Sys2Proof.Machine.execRput v0 v1 s
  | .rtake v0 v1 v2 => Sys2Proof.Machine.execRtake v0 v1 v2 s
  | .rfree v0 v1 v2 => Sys2Proof.Machine.execRfree v0 v1 v2 s
  | .ecopy v0 v1 v2 => Sys2Proof.Machine.execEcopy v0 v1 v2 s
  | .egath v0 v1 v2 v3 => Sys2Proof.Machine.execEgath v0 v1 v2 v3 s
  | .escat v0 v1 v2 v3 => Sys2Proof.Machine.execEscat v0 v1 v2 v3 s
  | .esub v0 v1 => Sys2Proof.Machine.execEsub v0 v1 s
  | .ebind v0 v1 v2 => Sys2Proof.Machine.execEbind v0 v1 v2 s
  | .enear v0 v1 v2 => Sys2Proof.Machine.execEnear v0 v1 v2 s
  | .eqry v0 v1 => Sys2Proof.Machine.execEqry v0 v1 s
  | .qload v0 v1 v2 => Sys2Proof.Machine.execQload v0 v1 v2 s
  | .qplay v0 v1 => Sys2Proof.Machine.execQplay v0 v1 s
  | .nsend v0 v1 => Sys2Proof.Machine.execNsend v0 v1 s
  | .nrecv v0 v1 => Sys2Proof.Machine.execNrecv v0 v1 s
  | .npoll v0 v1 v2 => Sys2Proof.Machine.execNpoll v0 v1 v2 s
  | .migr v0 v1 v2 => Sys2Proof.Machine.execMigr v0 v1 v2 s
  | .mzero v0 v1 => Sys2Proof.Machine.execMzero v0 v1 s
  | .mlda v0 v1 => Sys2Proof.Machine.execMlda v0 v1 s
  | .mldb v0 v1 => Sys2Proof.Machine.execMldb v0 v1 s
  | .mpost v0 v1 => Sys2Proof.Machine.execMpost v0 v1 s
  | .mop v0 v1 v2 => Sys2Proof.Machine.execMop v0 v1 v2 s
  | .mopm v0 v1 v2 v3 => Sys2Proof.Machine.execMopm v0 v1 v2 v3 s
  | .mst v0 v1 v2 => Sys2Proof.Machine.execMst v0 v1 v2 s
  | .mrd v0 v1 v2 => Sys2Proof.Machine.execMrd v0 v1 v2 s
  | .mscale v0 v1 v2 v3 => Sys2Proof.Machine.execMscale v0 v1 v2 v3 s
  | .mstat v0 v1 v2 => Sys2Proof.Machine.execMstat v0 v1 v2 s
  | .cruise v0 v1 v2 => Sys2Proof.Machine.execCruise v0 v1 v2 s
  | .blaze v0 v1 v2 v3 => Sys2Proof.Machine.execBlaze v0 v1 v2 v3 s
  | .blzmov v0 v1 => Sys2Proof.Machine.execBlzmov v0 v1 s
  | .blzmovStore v0 v1 => Sys2Proof.Machine.execBlzmovStore v0 v1 s
  | .blzmovLoad v0 v1 v2 => Sys2Proof.Machine.execBlzmovLoad v0 v1 v2 s
  | .blzmovAnd v0 v1 => Sys2Proof.Machine.execBlzmovAnd v0 v1 s
  | .blzpop v0 v1 v2 => Sys2Proof.Machine.execBlzpop v0 v1 v2 s
  | .ewr v0 v1 => Sys2Proof.Machine.execEwr v0 v1 s
  | .erd v0 v1 => Sys2Proof.Machine.execErd v0 v1 s
  | .nop => Sys2Proof.Machine.execNop s
  | .trap v0 v1 => Sys2Proof.Machine.execTrap v0 v1 s
  | .eret => Sys2Proof.Machine.execEret s
  | .wfe => Sys2Proof.Machine.execWfe s
  | .synci => Sys2Proof.Machine.execSynci s
  | .tlbinvPage v0 => Sys2Proof.Machine.execTlbinvPage v0 s
  | .tlbinvJob => Sys2Proof.Machine.execTlbinvJob s
  | .brk v0 => Sys2Proof.Machine.execBrk v0 s
  | .crd v0 v1 => Sys2Proof.Machine.execCrd v0 v1 s
  | .cwr v0 v1 => Sys2Proof.Machine.execCwr v0 v1 s
  | .safept v0 => Sys2Proof.Machine.execSafept v0 s
  | .kadd v0 v1 v2 v3 v4 => Sys2Proof.Machine.execKadd v0 v1 v2 v3 v4 s
  | .ksub v0 v1 v2 v3 v4 => Sys2Proof.Machine.execKsub v0 v1 v2 v3 v4 s
  | .kmul v0 v1 v2 v3 v4 => Sys2Proof.Machine.execKmul v0 v1 v2 v3 v4 s
  | .kmac v0 v1 v2 v3 v4 => Sys2Proof.Machine.execKmac v0 v1 v2 v3 v4 s
  | .kand v0 v1 v2 v3 v4 => Sys2Proof.Machine.execKand v0 v1 v2 v3 v4 s
  | .kor v0 v1 v2 v3 v4 => Sys2Proof.Machine.execKor v0 v1 v2 v3 v4 s
  | .kxor v0 v1 v2 v3 v4 => Sys2Proof.Machine.execKxor v0 v1 v2 v3 v4 s
  | .kshl v0 v1 v2 v3 v4 => Sys2Proof.Machine.execKshl v0 v1 v2 v3 v4 s
  | .kshr v0 v1 v2 v3 v4 => Sys2Proof.Machine.execKshr v0 v1 v2 v3 v4 s
  | .kcmp v0 v1 v2 v3 v4 => Sys2Proof.Machine.execKcmp v0 v1 v2 v3 v4 s
  | .ksel v0 v1 v2 v3 v4 => Sys2Proof.Machine.execKsel v0 v1 v2 v3 v4 s
  | .kmin v0 v1 v2 v3 v4 => Sys2Proof.Machine.execKmin v0 v1 v2 v3 v4 s
  | .kmax v0 v1 v2 v3 v4 => Sys2Proof.Machine.execKmax v0 v1 v2 v3 v4 s
  | .kcvt v0 v1 v2 v3 v4 => Sys2Proof.Machine.execKcvt v0 v1 v2 v3 v4 s
  | .kpopc v0 v1 v2 v3 v4 => Sys2Proof.Machine.execKpopc v0 v1 v2 v3 v4 s
  | .kpass v0 v1 v2 v3 v4 => Sys2Proof.Machine.execKpass v0 v1 v2 v3 v4 s
  | .kred v0 v1 v2 v3 v4 => Sys2Proof.Machine.execKred v0 v1 v2 v3 v4 s
  | .kend v0 v1 v2 v3 v4 => Sys2Proof.Machine.execKend v0 v1 v2 v3 v4 s
  | .ksetp v0 v1 v2 v3 v4 => Sys2Proof.Machine.execKsetp v0 v1 v2 v3 v4 s
  | .kclrp v0 v1 v2 v3 v4 => Sys2Proof.Machine.execKclrp v0 v1 v2 v3 v4 s
  | .kdeq v0 v1 v2 v3 v4 => Sys2Proof.Machine.execKdeq v0 v1 v2 v3 v4 s
  | .kenq v0 v1 v2 v3 v4 => Sys2Proof.Machine.execKenq v0 v1 v2 v3 v4 s
  | .klgen v0 v1 v2 v3 v4 => Sys2Proof.Machine.execKlgen v0 v1 v2 v3 v4 s
  | .kmrd v0 v1 v2 v3 v4 => Sys2Proof.Machine.execKmrd v0 v1 v2 v3 v4 s
  | .kmwr v0 v1 v2 v3 v4 => Sys2Proof.Machine.execKmwr v0 v1 v2 v3 v4 s
  | .wave v0 v1 v2 v3 => Sys2Proof.Machine.execWave v0 v1 v2 v3 s
  | .knbadd v0 v1 v2 v3 v4 => Sys2Proof.Machine.execKnbadd v0 v1 v2 v3 v4 s
  | .knbscl v0 v1 v2 v3 v4 => Sys2Proof.Machine.execKnbscl v0 v1 v2 v3 v4 s
  | .knbsum v0 v1 v2 v3 v4 => Sys2Proof.Machine.execKnbsum v0 v1 v2 v3 v4 s
  | .packetArrival v0 => Sys2Proof.Machine.execPacketArrival v0 s
  | .packetResend v0 => Sys2Proof.Machine.execPacketResend v0 s
  | .messageAcceptance v0 v1 => Sys2Proof.Machine.execMessageAcceptance v0 v1 s
  | .deckRefill v0 v1 => Sys2Proof.Machine.execDeckRefill v0 v1 s
  | .recordAging v0 v1 v2 => Sys2Proof.Machine.execRecordAging v0 v1 v2 s
  | .recordStart v0 => Sys2Proof.Machine.execRecordStart v0 s
  | .hardwareSuspension v0 => Sys2Proof.Machine.execHardwareSuspension v0 s
  | .spawnSequencerSend v0 => Sys2Proof.Machine.execSpawnSequencerSend v0 s
  | .engineOperationStart v0 v1 => Sys2Proof.Machine.execEngineOperationStart v0 v1 s
  | .engineOperationCompletion v0 v1 => Sys2Proof.Machine.execEngineOperationCompletion v0 v1 s
  | .sawmillQueueEntry v0 v1 => Sys2Proof.Machine.execSawmillQueueEntry v0 v1 s
  | .sawmillStart v0 => Sys2Proof.Machine.execSawmillStart v0 s
  | .sawmillCompletion v0 => Sys2Proof.Machine.execSawmillCompletion v0 s
  | .cruiseStart v0 => Sys2Proof.Machine.execCruiseStart v0 s
  | .cruiseCompletion v0 => Sys2Proof.Machine.execCruiseCompletion v0 s
  | .tlbMissRequest v0 v1 v2 => Sys2Proof.Machine.execTlbMissRequest v0 v1 v2 s
  | .walkRetry v0 v1 => Sys2Proof.Machine.execWalkRetry v0 v1 s
  | .walkCompletion v0 v1 => Sys2Proof.Machine.execWalkCompletion v0 v1 s
  | .tlbinvCompletion v0 v1 => Sys2Proof.Machine.execTlbinvCompletion v0 v1 s
  | .storeRegistration v0 => Sys2Proof.Machine.execStoreRegistration v0 s
  | .ownedWordEviction v0 v1 => Sys2Proof.Machine.execOwnedWordEviction v0 v1 s
  | .updateOnlyFlush v0 v1 => Sys2Proof.Machine.execUpdateOnlyFlush v0 v1 s
  | .landingRetry v0 => Sys2Proof.Machine.execLandingRetry v0 s
  | .pageRequestEntry v0 => Sys2Proof.Machine.execPageRequestEntry v0 s
  | .pageRequestAnswer v0 v1 => Sys2Proof.Machine.execPageRequestAnswer v0 v1 s
  | .faultDelivery v0 => Sys2Proof.Machine.execFaultDelivery v0 s
  | .faultDeliveryRetry v0 => Sys2Proof.Machine.execFaultDeliveryRetry v0 s
  | .heartbeatMiss v0 => Sys2Proof.Machine.execHeartbeatMiss v0 s
  | .spareTakeover v0 => Sys2Proof.Machine.execSpareTakeover v0 s
  | .partialMessageDiscard v0 v1 => Sys2Proof.Machine.execPartialMessageDiscard v0 v1 s
  | .wfeTimeout v0 => Sys2Proof.Machine.execWfeTimeout v0 s
  | .hostActiveMessage v0 v1 v2 v3 v4 => Sys2Proof.Machine.execHostActiveMessage v0 v1 v2 v3 v4 s
  | .hostMessageRetry v0 => Sys2Proof.Machine.execHostMessageRetry v0 s
  | .install v0 => Sys2Proof.Machine.execInstall v0 s
  | .remove v0 => Sys2Proof.Machine.execRemove v0 s
  | .aset v0 => Sys2Proof.Machine.execAset v0 s
  | .shoot v0 => Sys2Proof.Machine.execShoot v0 s
  | .bind v0 => Sys2Proof.Machine.execBind v0 s
  | .grant v0 => Sys2Proof.Machine.execGrant v0 s
  | .hotread v0 => Sys2Proof.Machine.execHotread v0 s
  | .region v0 => Sys2Proof.Machine.execRegion v0 s
  | .qpset v0 => Sys2Proof.Machine.execQpset v0 s
  | .govctlWrite v0 v1 => Sys2Proof.Machine.execGovctlWrite v0 v1 s
  | .registerWrite v0 v1 v2 v3 => Sys2Proof.Machine.execRegisterWrite v0 v1 v2 v3 s
  | .hotnessHalving v0 => Sys2Proof.Machine.execHotnessHalving v0 s
  | .monitorRefresh v0 v1 v2 v3 => Sys2Proof.Machine.execMonitorRefresh v0 v1 v2 v3 s
  | .currentLimit v0 => Sys2Proof.Machine.execCurrentLimit v0 s
  | .thermalTrip v0 => Sys2Proof.Machine.execThermalTrip v0 s
  | .boot v0 v1 => Sys2Proof.Machine.execBoot v0 v1 s
  | .recoveryImageWrite v0 v1 => Sys2Proof.Machine.execRecoveryImageWrite v0 v1 s
  | .fuseWrite v0 v1 v2 => Sys2Proof.Machine.execFuseWrite v0 v1 v2 s
  | .getVersion v0 => Sys2Proof.Machine.execGetVersion v0 s
  | .getCapabilities v0 => Sys2Proof.Machine.execGetCapabilities v0 s
  | .negotiateAlgorithms v0 v1 v2 => Sys2Proof.Machine.execNegotiateAlgorithms v0 v1 v2 s
  | .getDigests v0 => Sys2Proof.Machine.execGetDigests v0 s
  | .getCertificate v0 v1 v2 v3 => Sys2Proof.Machine.execGetCertificate v0 v1 v2 v3 s
  | .challenge v0 v1 v2 => Sys2Proof.Machine.execChallenge v0 v1 v2 s
  | .getMeasurements v0 v1 => Sys2Proof.Machine.execGetMeasurements v0 v1 s
  | .spdmOtherRequest v0 v1 => Sys2Proof.Machine.execSpdmOtherRequest v0 v1 s
  | .debugToken v0 v1 v2 => Sys2Proof.Machine.execDebugToken v0 v1 v2 s
  | .lifecycleChange v0 v1 => Sys2Proof.Machine.execLifecycleChange v0 v1 s
  | .powerStateChange v0 v1 => Sys2Proof.Machine.execPowerStateChange v0 v1 s
  | .deviceReset => Sys2Proof.Machine.execDeviceReset s
  | .preEmption v0 v1 => Sys2Proof.Machine.execPreEmption v0 v1 s
  | .restoration v0 v1 => Sys2Proof.Machine.execRestoration v0 v1 s
  | .safePointModeSet v0 v1 => Sys2Proof.Machine.execSafePointModeSet v0 v1 s
  | .safePointTimeout v0 => Sys2Proof.Machine.execSafePointTimeout v0 s
  | .safePointRelease v0 v1 => Sys2Proof.Machine.execSafePointRelease v0 v1 s
  | .chunkStart v0 v1 => Sys2Proof.Machine.execChunkStart v0 v1 s
  | .chunkCompletion v0 v1 => Sys2Proof.Machine.execChunkCompletion v0 v1 s
  | .chunkRedo v0 v1 => Sys2Proof.Machine.execChunkRedo v0 v1 s
  | .playAbort v0 v1 => Sys2Proof.Machine.execPlayAbort v0 v1 s
  | .linkRetransmission v0 v1 => Sys2Proof.Machine.execLinkRetransmission v0 v1 s
  | .laneDown v0 v1 v2 => Sys2Proof.Machine.execLaneDown v0 v1 v2 s
  | .routerUncorrectable v0 => Sys2Proof.Machine.execRouterUncorrectable v0 s
  | .unreachableTimeout v0 v1 => Sys2Proof.Machine.execUnreachableTimeout v0 v1 s
  | .ucieLaneRepair v0 v1 => Sys2Proof.Machine.execUcieLaneRepair v0 v1 s
  | .ucieLinkDown v0 v1 => Sys2Proof.Machine.execUcieLinkDown v0 v1 s
  | .cxlPortFailure v0 v1 v2 => Sys2Proof.Machine.execCxlPortFailure v0 v1 v2 s
  | .cxlPortRecovery v0 v1 => Sys2Proof.Machine.execCxlPortRecovery v0 v1 s
  | .ethReceive v0 v1 v2 v3 v4 v5 => Sys2Proof.Machine.execEthReceive v0 v1 v2 v3 v4 v5 s
  | .ethSendCompletion v0 v1 => Sys2Proof.Machine.execEthSendCompletion v0 v1 s
  | .rnrRetry v0 v1 => Sys2Proof.Machine.execRnrRetry v0 v1 s
  | .ethPortDown v0 v1 => Sys2Proof.Machine.execEthPortDown v0 v1 s
  | .patrolScrub v0 v1 => Sys2Proof.Machine.execPatrolScrub v0 v1 s
  | .hostHdmAccess v0 v1 v2 v3 v4 => Sys2Proof.Machine.execHostHdmAccess v0 v1 v2 v3 v4 s
  | .remoteStoreAcknowledgement v0 => Sys2Proof.Machine.execRemoteStoreAcknowledgement v0 s
  | .currentFallsBelowLimit v0 => Sys2Proof.Machine.execCurrentFallsBelowLimit v0 s
  | .laneDisable v0 v1 v2 => Sys2Proof.Machine.execLaneDisable v0 v1 v2 s
  | .corePoweredDown v0 => Sys2Proof.Machine.execCorePoweredDown v0 s
  | .debugAccess v0 v1 v2 v3 v4 v5 => Sys2Proof.Machine.execDebugAccess v0 v1 v2 v3 v4 v5 s
  | .workEntryReached v0 v1 v2 => Sys2Proof.Machine.execWorkEntryReached v0 v1 v2 s
  | .softError v0 v1 => Sys2Proof.Machine.execSoftError v0 v1 s

end Sys2Proof.Machine
end

