-- ==== Sys2Proof/Machine/Schedule.lean ====
section
/-! DEFINITION. Time, the choice of the next thread or hardware event, and instruction fetch (02 R50-R52; 03 R90, R91; 04 R108; 17 R380; log 3,
log 6). -/

namespace Sys2Proof.Machine

open Sys2Proof

/-! ## Time -/

/-- Whether a thread, in RTAKE or parked, waits on a ring that has no filled slot for it. -/
def ringStarves (s : State) (key : Nat) : Bool :=
  let dry (o : Obj) : Bool := match o with
    | .ring k c => k == key && (match readRing s k with
      | some r => decide (ringFill s r ≤ counterRead s (r.posKey c))
      | none => false)
    | _ => false
  s.ctxs.any (fun e => match e.2.status with
    | .waiting o _ _ => dry o
    | _ => false) || (getCore s (keyCore key)).park.any (fun p => dry p.obj)

/-- The window, as (stack, physical address), in which a read stream's next fetch lies while a ring of it starves (03 R90). -/
def starved (s : State) (e : Nat × Stream) : Option (Nat × Nat) :=
  let st := e.2
  if !st.started || st.complete || st.dir || decide (st.len ≤ st.pos) || !st.rings.any (fun r => ringStarves s (scratchKey r.core r.ofs)) then none
  else (peek s (streamWho (e.1 / 64) st) (st.base + word st.pos).toNat).map (fun pa => (e.1 / 64, pa / 2 ^ 21))

/-- The starved cycle that ends: one for each window that a starving stream fetches from next (03 R90; log 76). Only in Run do consumers wait (16 R376). -/
def starve (s : State) (pkg : Nat) (p : Pkg) : State :=
  let l := if p.power == .run then p.streams.filterMap (starved s) else []
  (l.zipIdx.filter (fun e => !(l.take e.2).contains e.1)).foldl (fun s e => hotCount s pkg e.1.1 (e.1.2 * 2 ^ 21) 0 1) s

/-- Whether the head of a grove's Sawmill or Cruise queue asks the governor for a start (16 R369). -/
def sawAsks (s : State) (g : Nat) (u : Grove) : Bool :=
  u.sawRun.isNone && decide (u.notBefore ≤ s.cycle) && (match u.saw with
    | op :: _ => !quietJob s (grovePkg g) op.job
    | [] => false)
def cruAsks (s : State) (g : Nat) (u : Grove) : Bool :=
  u.cruRun.isNone && decide (u.notBefore ≤ s.cycle) && (match u.cru with
    | op :: _ => !quietJob s (grovePkg g) op.job
    | [] => false)

/-- The groves of a package that ask, in the order in which the governor admits them: those deferred before, then the new ones in ascending die and
grove. -/
def lineUp (s : State) (pkg : Nat) (asks : State → Nat → Grove → Bool) (line : List Nat) : List Nat :=
  let now := (s.groves.filter (fun e => grovePkg e.1 == pkg && asks s e.1 e.2)).map (fun e => e.1)
  line.filter (fun g => now.contains g) ++ now.filter (fun g => !line.contains g)

def lines (s : State) : State :=
  s.pkgs.foldl (fun t e => modPkg t e.1 (fun p => { p with sawLine := lineUp s e.1 sawAsks p.sawLine, cruLine := lineUp s e.1 cruAsks p.cruLine })) s

/-- Whether the current limiter holds a start of a package: a Sawmill or Cruise start, or a Skidder issue (16 R372). -/
def holdsStart (s : State) (pkg : Nat) (p : Pkg) : Bool :=
  s.groves.any (fun e => grovePkg e.1 == pkg && (sawAsks s e.1 e.2 || cruAsks s e.1 e.2))
    || p.streams.any (fun e => e.2.started && !e.2.complete && !quietJob s pkg e.2.job && e.2.elems.any (fun x => elemActs s e.2 x.1 x.2))

/-- One cycle passes. The monitor records are refreshed every 2^16 cycles (16 R371). Every 2^24 cycles each package's hotness tables are halved (03 R91), and
once in 2^40 the patrol scrubber has read every block (19 R436). -/
def tick (s : State) : State :=
  let t : State := fitCaches { s with cycle := s.cycle + 1 }
  let t := t.pkgs.foldl (fun t p => starve t p.1 p.2) t
  let t := lines t
  let t := t.pkgs.foldl (fun t p => if p.2.limit && p.2.power == .run && holdsStart s p.1 p.2 then markHeld t p.1 else t) t
  let t := if t.cycle % 2 ^ 16 = 0 then refreshPackages t else t
  let t := if t.cycle % 2 ^ 40 = 0 then t.pkgs.foldl (fun t p => if hasPower t p.1 then scrubAll t p.1 else t) t else t
  if t.cycle % 2 ^ 24 = 0 then t.pkgs.foldl (fun t p => halveHot t p.1) t else t

/-! ## Threads (02 R51) -/

/-- What a fetch gives: the word, with the state that the access leaves, or the state of a thread that took none. -/
inductive Fetched where
  | word (s : State) (w : Nat)
  | stop (s : State)
deriving DecidableEq, Repr

def fetchTrap (s : State) (cause : Nat) (faddr : Word) : State :=
  let c := cx s
  deliverTrap (if cause = cUncorrectable then uncMet s (thr s) faddr else s) s.cur { cause := cause, fpc := c.pc, faddr := faddr, finfo := 0, pc := c.pc }

/-- What the instruction cache answers. A word that a store has changed since is old or new, a free choice, until SYNCI (04 R108; log 4). -/
def cachedWord (s : State) (k : Nat) : State × Option Nat :=
  match kfind (getCore s (cxCore s)).icache k with
  | none => (s, none)
  | some w => if leNat (homeRead s k 4) = w then (s, some w) else (freeStep s, if freeBit s then some w else none)

/-- The word at a key, through the core's instruction cache. -/
def fetchKey (s : State) (k : Nat) : Fetched :=
  let core := cxCore s
  match cachedWord s k with
  | (s, some w) => .word s w
  | (s, none) => match recallLines s k 4 with
    | (s, some line) => .stop (fetchTrap s cUncorrectable ((cx s).pc - word (k - line)))
    | (s, none) =>
      if (firstBad s k 4).isSome then .stop (fetchTrap s cUncorrectable (cx s).pc)
      else
        let w := leNat (homeRead s k 4)
        .word (modCore (cxlDelivers s (thr s) (cx s).pc.toNat (fun _ => false) k 4) core (fun u => { u with icache := kset u.icache k w })) w

/-- The fetch of the running thread's next instruction. -/
def fetchWord (s : State) : Fetched :=
  match check s (thr s) .fetch false (cx s).pc 4 with
  | (s, .ok ((k, _) :: _)) => fetchKey s k
  | (s, .bad c a) => .stop (fetchTrap s c a)
  | (s, .absent a) => .stop (pageAbsent s 0 a false true)
  | (s, .held a) => .stop (pageHeld s 0 a)
  | (s, _) => .stop (fetchTrap s cWindowType (cx s).pc)

/-- A word that encodes no instruction (06 R152; log 37). -/
def illegal (s : State) (w : Nat) : State :=
  let c := cx s
  deliverTrap s s.cur { cause := cIllegal, fpc := c.pc, faddr := 0, finfo := word w, pc := c.pc }

/-- The running context issues the instruction with word w, which it holds until the instruction ends (log 18). -/
def begun (s : State) (w : Nat) : State :=
  modCx s (fun c => { c with insn := some w, status := .running, hbMark := goOnMark s c })

/-- The instruction that the running context waits in. -/
def heldWord (s : State) : Option Nat := if underWay s then (cx s).insn else none

/-- The word of the selected thread's instruction: the one that it waits in, or the next one fetched. -/
def nextWord (s : State) : Fetched :=
  match heldWord s with
  | some w => .word s w
  | none => match fetchWord (modCx s (fun c => { c with insn := none })) with
    | .stop t => .stop t
    | .word t w => .word (begun t w) w

/-- The selected thread runs one instruction. -/
def runThread (s : State) : Host.Outcome State Fault Refusal :=
  match nextWord s with
  | .stop t => .next t
  | .word t w => match decodeWord w with
    | some i => exec i t
    | none => .next (illegal t w)

/-- Whether a core issues instructions for a job: it works, its package runs, and no pre-emption stops the job. -/
def coreRuns (s : State) (core job : Nat) : Bool :=
  let p := getPkg s (corePkg core)
  let u := getCore s core
  u.fenced.isNone && !u.offMark && p.power == .run && !p.quiet.contains job

/-- Whether the wait of a context is over: its instruction, which holds the place of its request, would now do something (log 18). A thread that
found the landing full tries again only after its time (13 R354). -/
def waitOver (s : State) (ctx : Nat) : Bool :=
  match (getCtx s ctx).status with
  | .waiting (.landing _) _ _ => false
  | .waiting _ _ _ => match runThread { s with cur := ctx } with
    | .next t => getCtx t ctx != getCtx s ctx
    | _ => false
  | _ => false

/-- Whether a context is ready: it runs, or its wait is over (02 R51; log 18). -/
def canIssue (s : State) (ctx : Nat) : Bool :=
  coreRuns s (ctxCore ctx) (getCtx s ctx).job && ((getCtx s ctx).status == .running || waitOver s ctx)

/-- The first ready context in scan order, from P + 1 on. -/
def scanCore (s : State) (core : Nat) : Option Nat :=
  let p := (getCore s core).ptr
  ((List.range 8).map (fun i => core * 8 + (p + 1 + i) % 8)).find? (canIssue s)

/-- The cores that have contexts, ascending. -/
def busyCores (s : State) : List Nat := (s.ctxs.map (fun e => ctxCore e.1)).foldl keyAdd []

/-- The cores take turns (log 3). -/
def chooseCtx (s : State) : Option Nat :=
  let l := busyCores s
  (l.filter (fun c => decide (ctxCore s.cur < c)) ++ l).findSome? (scanCore s)

/-- The thread of context `ctx` issues: its core's pointer moves to it. -/
def selectCtx (s : State) (ctx : Nat) : State := modCore { s with cur := ctx } (ctxCore ctx) (fun u => { u with ptr := ctx % 8 })

/-! ## Requests that wait at a scratchpad (07 R195; 09 R245, R248, R261) -/

/-- The request that is performed before any newer one: the first in line that has become performable. -/
def served (s : State) : Option Nat := (waiters s).find? (fun c => coreRuns s (ctxCore c) (getCtx s c).job && waitOver s c)

/-! ## Hardware events that are due -/

/-- What an event does. -/
abbrev Act := State → Host.Outcome State Fault Refusal

def ctxEvents (k : Nat) : List Act :=
  [execLandingRetry k, execFaultDeliveryRetry k, execWfeTimeout k, execHardwareSuspension k, execSafePointTimeout k, execUnreachableTimeout 0 k]

def coreEvents (c : Nat) (u : Core) : List Act :=
  [execSpawnSequencerSend c, execRecordStart c, execSpareTakeover c, fun s => event (wakeWritten s c), fun s => event (flushLaunches s c)]
    ++ (if u.deque.isEmpty then [] else (List.range 24).map (fun i => execRecordStart (groveCore (coreGrove c) i)))
    ++ (List.range 4).flatMap (fun p => execDeckRefill c p :: (List.range (queueOf u p).length).map (fun n => execRecordAging c p n))
    ++ (List.range u.claims.length).map (fun n => execPartialMessageDiscard c n)
    ++ (List.range u.ops.length).flatMap (fun n => [execEngineOperationStart c n, execEngineOperationCompletion c n])
    ++ u.held.flatMap (fun m => [execMessageAcceptance c m.num, execUnreachableTimeout 2 (c * 65536 + m.num)])

def groveEvents (g : Nat) (u : Grove) : List Act :=
  [execSawmillStart g, execSawmillCompletion g, execCruiseStart g, execCruiseCompletion g]
    ++ (List.range (u.sawWait.length + u.cruWait.length)).map (fun n => execSawmillQueueEntry g n)
    ++ (List.range u.walkRef.length).map (fun n => execWalkRetry g n) ++ (List.range u.walks.length).map (fun n => execWalkCompletion g n)
    ++ u.groups.flatMap (fun e => e.2.noted.map (fun c => execGbarRelease (grovePkg g) e.1 c))
    ++ (List.range 24).map (fun i => execRecordStart (groveCore g i))

/-- The step of a configuration slot's operation. -/
def slotEvent (op pkg stk slot el isl : Nat) : Option Act :=
  match op with
  | 0x01 => some (execKadd pkg stk slot el isl)
  | 0x02 => some (execKsub pkg stk slot el isl)
  | 0x03 => some (execKmul pkg stk slot el isl)
  | 0x04 => some (execKmac pkg stk slot el isl)
  | 0x05 => some (execKand pkg stk slot el isl)
  | 0x06 => some (execKor pkg stk slot el isl)
  | 0x07 => some (execKxor pkg stk slot el isl)
  | 0x08 => some (execKshl pkg stk slot el isl)
  | 0x09 => some (execKshr pkg stk slot el isl)
  | 0x0A => some (execKcmp pkg stk slot el isl)
  | 0x0B => some (execKsel pkg stk slot el isl)
  | 0x0C => some (execKmin pkg stk slot el isl)
  | 0x0D => some (execKmax pkg stk slot el isl)
  | 0x0E => some (execKcvt pkg stk slot el isl)
  | 0x0F => some (execKpopc pkg stk slot el isl)
  | 0x10 => some (execKpass pkg stk slot el isl)
  | 0x11 => some (execKred pkg stk slot el isl)
  | 0x12 => some (execKend pkg stk slot el isl)
  | 0x13 => some (execKsetp pkg stk slot el isl)
  | 0x14 => some (execKclrp pkg stk slot el isl)
  | 0x20 => some (execKdeq pkg stk slot el isl)
  | 0x21 => some (execKenq pkg stk slot el isl)
  | 0x28 => some (execKlgen pkg stk slot el isl)
  | 0x30 => some (execKmrd pkg stk slot el isl)
  | 0x31 => some (execKmwr pkg stk slot el isl)
  | 0x38 => some (execKnbadd pkg stk slot el isl)
  | 0x39 => some (execKnbscl pkg stk slot el isl)
  | 0x3A => some (execKnbsum pkg stk slot el isl)
  | _ => none

def streamEvents (pkg : Nat) (e : Nat × Stream) : List Act :=
  kEvent pkg e.1 :: e.2.elems.flatMap (fun x =>
    execWave pkg (e.1 / 64) (e.1 % 64) x.1 ::
      (List.range x.2.slots.length).filterMap (fun i => slotEvent (kOP (x.2.slots.getD i 0)) pkg (e.1 / 64) (e.1 % 64) x.1 i))

def pkgEvents (p : Nat) (u : Pkg) : List Act :=
  [execPageRequestEntry p, execHostMessageRetry p] ++ [fun s => event (retryReleased s p), fun s => event (endPreemption s p)] ++ (List.range u.shoots.length).map (fun n => execTlbinvCompletion p n)
    ++ u.qps.flatMap (fun q => [execWorkEntryReached p q.1 0, execWorkEntryReached p q.1 1]) ++ u.streams.flatMap (streamEvents p)

/-- Whether an event does something now. -/
def isDue (s : State) (a : Act) : Bool :=
  match a s with
  | .next t => t != s
  | _ => false

/-- The first of n like events that does something now: what has waited longest goes first. -/
def firstDue (n : Nat) (f : Nat → Act) : Act := fun s =>
  match (List.range n).find? (fun i => isDue s (f i)) with
  | some i => f i s
  | none => .next s

/-- An event that happens only while the packages that take part in it work. -/
def ifPowered (s : State) (pkgs : List Nat) (a : Act) : Act := if pkgs.all (powered s) then a else event

/-- The packages that an event of a packet, or of a store on its way, takes part in. -/
def packetPkgs (s : State) (p : Packet) : List Nat := [corePkg p.src, corePkg (((heldMsg s p.src p.num).map (fun m => m.dst)).getD p.src)]
def storePkgs (p : PendingStore) : List Nat := [corePkg (ctxCore p.ctx), keyPkg p.key]

/-- The n-th of a list of packets or stores, with its event. -/
def listed {α : Type} (s : State) (l : List α) (pkgs : α → List Nat) (f : Nat → Act) (n : Nat) : Act :=
  ifPowered s ((l[n]?.map pkgs).getD []) (f n)

/-- The aborts of a play, while a package of it works. -/
def playAborts (s : State) (i : Nat) (y : Play) : List Act :=
  if y.plan.members.any (fun m => powered s m.1) then [execPlayAbort i 1, execPlayAbort i 2, execPlayAbort i 4] else []

/-- The events of a play: a chunk starts once every member works; a started one goes on, and is redone, at the members that work. -/
def playDue (s : State) (i : Nat) (y : Play) : List Act :=
  let pkgs := y.plan.members.map (fun m => m.1)
  (List.range y.plan.chunks.length).flatMap (fun c => ifPowered s pkgs (execChunkStart i c) ::
    (if pkgs.any (powered s) then [execChunkCompletion i c, execChunkRedo i c] else []))

/-- The lanes of a package's Pelrek ports whose flits have failed 16 times in a row (19 R427). -/
def laneEvents (p : Nat) (u : Pkg) : List Act :=
  u.links.flatMap (fun e => (e.2.run.filter (fun r => decide (16 ≤ r.2))).map (fun r => execLaneDown p e.1 r.1))

/-- Every hardware event that the state gives rise to, due or not. In Standby and Off nothing of these goes on (16 R376), but for the links, which carry
flits in Standby too. -/
def allEvents (s : State) : List Act :=
  [firstDue s.net.length (listed s s.net (packetPkgs s) execPacketArrival),
      firstDue s.refused.length (listed s (s.refused.map (fun r => r.pkt)) (packetPkgs s) execPacketResend),
      firstDue s.stores.length (listed s s.stores storePkgs execStoreRegistration),
      firstDue (s.stores.length + s.nacked.length) (listed s (s.stores ++ s.nacked) storePkgs execRemoteStoreAcknowledgement),
      firstDue s.stores.length (listed s s.stores (fun p => [corePkg (ctxCore p.ctx)]) (execUnreachableTimeout 1))]
    ++ (s.ctxs.filter (fun e => powered s (corePkg (ctxCore e.1)))).flatMap (fun e => ctxEvents e.1)
    ++ (s.cores.filter (fun e => powered s (corePkg e.1))).flatMap (fun e => coreEvents e.1 e.2)
    ++ (s.groves.filter (fun e => powered s (grovePkg e.1))).flatMap (fun e => groveEvents e.1 e.2)
    ++ (s.pkgs.filter (fun e => powered s e.1)).flatMap (fun e => pkgEvents e.1 e.2) ++ s.pkgs.flatMap (fun e => laneEvents e.1 e.2)
    ++ (List.range s.plays.length).flatMap (fun i => match s.plays[i]? with
      | some y => playDue s i y ++ playAborts s i y
      | none => [])

/-- The next event that is due; the cycle says where the search begins. -/
def nextEvent (s : State) : Option Act :=
  let l := allEvents s
  let k := s.cycle % max 1 l.length
  (l.drop k ++ l.take k).find? (isDue s)

/-! ## The choice -/

/-- The fence of a core whose context has reached its HBI comes before anything else in that cycle (17 R387). -/
def fenceNow (s : State) : Option Act := ((s.ctxs.filter (fun e => powered s (corePkg (ctxCore e.1)))).map (fun e => execHeartbeatMiss e.1)).find? (isDue s)

/-- A speculative access of the hardware for a thread's core: a prefetch, or a read-ahead of the Cruise or look-ahead of a Skidder, which installs nothing.
Whether one comes, for whom and where, is a free choice (18 R407; log 82); none comes for a core that does not work (16 R376). -/
def speculate (s : State) : State :=
  let t := { s with free := s.free + 3 }
  if !freeBit s then freeStep s
  else match s.ctxs[(freeNow { s with free := s.free + 1 }).toNat % max 1 s.ctxs.length]? with
    | none => t
    | some e =>
      if e.2.status = .dormant || !powered s (corePkg (ctxCore e.1)) then t
      else speculateAt t (thr { t with cur := e.1 }) ((freeNow s).getLsbD 1) (freeNow { s with free := s.free + 2 })

/-- A speculative access, when there is one, and one hardware event that is due, or nothing. -/
def runEvent (s : State) : Host.Outcome State Fault Refusal :=
  let s := speculate s
  match nextEvent s with
  | some a => a { s with turn := .thread }
  | none => .next s

/-- One instruction of a thread. -/
def issue (s : State) (ctx : Nat) : Host.Outcome State Fault Refusal := runThread (selectCtx { s with turn := .hardware } ctx)

/-- A fence that is due; else a request that has waited and has become performable; else threads and hardware take turns, and whoever has nothing to
do passes. Speculative accesses come in the turns in which no thread can issue, and in no other turn of the hardware (DESIGN CHOICE, log 82). A placed
instruction goes first (log 3, log 7). -/
def runChoice (s : State) : Host.Outcome State Fault Refusal :=
  match s.turn, chooseCtx s with
  | .first, some c => issue s c
  | t, next =>
    match fenceNow s with
    | some a => a s
    | none => match served s with
      | some c => runThread { s with cur := c }
      | none => match t, next with
        | _, none => runEvent s
        | .hardware, some c => match nextEvent s with
          | some a => a { s with turn := .thread }
          | none => issue s c
        | _, some c => issue s c

/-- A step that takes an input from outside. A thread's instruction is no such input, and does nothing here. -/
def runInput (i : Instr) (s : State) : Host.Outcome State Fault Refusal := if isCoreWord i then .next s else exec i s

/-! ## Placing an instruction (log 7) -/

/-- The page tables, the page and the PC of a placed program: job 0 of package 0, virtual page 1. -/
def bootTable : Nat := 0x100000
def bootPc : Nat := 0x1000
def bootCode : Nat := 0x105000

/-- The five levels of tables: a pointer entry each, and a leaf that may be read, fetched and reached by threads. -/
def bootTables : List (Nat × Nat) :=
  [(0x100000, 0x101001), (0x101000, 0x102001), (0x102000, 0x103001), (0x103000, 0x104001), (0x104008, bootCode + 0xBB)]

/-- Writes bytes at an address of package 0, whatever stood there: no owner, no failed unit. -/
def placeBytes (s : State) (pa : Nat) (bs : List Byte) : State := mend (homeWrite s (physKey 0 pa) bs) (physKey 0 pa) bs.length

/-- The thread of context 0 of core 0.00.00, at the placed code. -/
def placedCtx (c : Ctx) : Ctx :=
  { c with status := .running, pc := word bootPc, job := 0, handler := none, gload := none, lost := false }

/-- Job 0 of package 0 has the placed tables, and nothing holds its threads back. -/
def placedPkg (p : Pkg) : Pkg :=
  let q : Pkg := { p with ast := kset p.ast 0 (word (bootTable + 1)), power := .run }
  { q with quiet := keyDel q.quiet 0, migs := q.migs.filter (fun m => m.job != 0) }

/-- Instruction bytes stand where the next step fetches. -/
def placeCode (s : State) (bs : List Byte) : State :=
  let s : State := { s with agenda := [], turn := .first, cur := 2 ^ 60, stores := [], nacked := [], partials := [] }
  let s : State := { s with bad := s.bad.filter (fun u => decide (0x106000 ≤ u)) }
  let s := bootTables.foldl (fun s e => placeBytes s e.1 (leBytes 8 e.2)) s
  let s := placeBytes s bootCode bs
  let s := { s with groves := s.groves.map (fun e => (e.1, { e.2 with tlb2 := [] })) }
  let s := modCtx s 0 placedCtx
  let s := modCore s 0 (fun u => { u with icache := [], tlb := [], fenced := none, offMark := false, ptr := 7 })
  modPkg s 0 placedPkg

end Sys2Proof.Machine
end

