-- ==== Sys2Proof/Machine/Step.lean ====
section
/-! DEFINITION. The step of the machine, and the placing of an instruction where it fetches next. -/

namespace Sys2Proof.Machine

open Sys2Proof

/-- One step: a cycle passes, and then an input from outside is taken, or a thread runs one instruction, or one hardware event happens. -/
def step (s : State) : Host.Outcome State Fault Refusal :=
  match s.agenda with
  | i :: rest => runInput i (tick { s with agenda := rest })
  | [] => runChoice (tick s)

/-- The state with the instruction whose bits are w placed where step fetches its next instruction (log 7). -/
def State.withFetchWord (s : State) (nbits w : Nat) : State :=
  placeCode s ((wordBytes (bits w 0 nbits)).map (fun b => BitVec.ofNat 8 b))

end Sys2Proof.Machine
end

