-- ==== Sys2Proof/Laws/PerInstr.lean ====
section
/-! SUPPORT. The family RoundTrip: for each constructor, a well-formed core instruction is what its own word decodes to (06 R149, R152). -/

set_option Elab.async false

namespace Sys2Proof.Laws.RoundTrip

open Sys2Proof

/-- A well-formed instruction that has a word is what its word decodes to. -/
def Statement (i : Instr) : Prop := wellFormed i = true → isCoreWord i = true → decodeWord (encode i) = some i

theorem accept {i : Instr} {w : Nat} (he : encode i = w) (hw : wellFormed i = true) (hp : pick w = some i) :
    decodeWord (encode i) = some i := by
  subst he; simp [decodeWord, hp, hw]

theorem loopi_fields {l kh n kl wd : Nat} (bl : l < 2) (b1 : kh < 32) (bn : n < 1024) (b2 : kl < 1024)
    (e : wd = 0xb0000000 + l * 33554432 + kh * 1048576 + n * 1024 + kl) :
    bits wd 26 6 = 44 ∧ bits wd 25 1 = l ∧ bits wd 20 5 = kh ∧ bits wd 0 10 = kl ∧ bits wd 10 10 = n := by
  unfold bits
  refine ⟨?_, ?_, ?_, ?_, ?_⟩ <;> omega

theorem pick_Alu {w : Nat} (h : bits w 26 6 = 1) : pick w = pickAlu w := by unfold pick; rw [h]; rfl
theorem pick_Shift {w : Nat} (h : bits w 26 6 = 7) : pick w = pickShift w := by unfold pick; rw [h]; rfl
theorem pick_Indexed {w : Nat} (h : bits w 26 6 = 28) : pick w = pickIndexed w := by unfold pick; rw [h]; rfl
theorem pick_FullEmpty {w : Nat} (h : bits w 26 6 = 29) : pick w = pickFullEmpty w := by unfold pick; rw [h]; rfl
theorem pick_Atomic {w : Nat} (h : bits w 26 6 = 30) : pick w = pickAtomic w := by unfold pick; rw [h]; rfl
theorem pick_Jump {w : Nat} (h : bits w 26 6 = 42) : pick w = pickJump w := by unfold pick; rw [h]; rfl
theorem pick_Vector {w : Nat} (h : bits w 26 6 = 48) : pick w = pickVector w := by unfold pick; rw [h]; rfl
theorem pick_VectorMemory {w : Nat} (h : bits w 26 6 = 49) : pick w = pickVectorMemory w := by unfold pick; rw [h]; rfl
theorem pick_Sparse {w : Nat} (h : bits w 26 6 = 50) : pick w = pickSparse w := by unfold pick; rw [h]; rfl
theorem pick_Sync {w : Nat} (h : bits w 26 6 = 57) : pick w = pickSync w := by unfold pick; rw [h]; rfl
theorem pick_Engine {w : Nat} (h : bits w 26 6 = 58) : pick w = pickEngine w := by unfold pick; rw [h]; rfl
theorem pick_System {w : Nat} (h : bits w 26 6 = 59) : pick w = pickSystem w := by unfold pick; rw [h]; rfl

theorem add (d a b : Nat) : Statement (.add d a b) := by
  intro hw _
  have hb : (decide (d < 32) && decide (a < 32) && decide (b < 32)) = true := hw
  simp only [Bool.and_eq_true, decide_eq_true_eq] at hb
  obtain ⟨wd, e⟩ : ∃ wd, wd = 0x4000000 + d * 2097152 + a * 65536 + b * 2048 := ⟨_, rfl⟩
  refine accept (w := wd) e.symm hw ?_
  have h1 : bits wd 26 6 = 1 := by unfold bits; omega
  have h3 : some (Instr.add (bits wd 21 5) (bits wd 16 5) (bits wd 11 5)) = some (Instr.add d a b) := by
    rw [show bits wd 21 5 = d by unfold bits; omega, show bits wd 16 5 = a by unfold bits; omega, show bits wd 11 5 = b by unfold bits; omega]
  have h2 : bits wd 0 11 = 0 := by unfold bits; omega
  rw [← h3, pick_Alu h1]; unfold pickAlu; rw [h2]
  rfl
theorem sub (d a b : Nat) : Statement (.sub d a b) := by
  intro hw _
  have hb : (decide (d < 32) && decide (a < 32) && decide (b < 32)) = true := hw
  simp only [Bool.and_eq_true, decide_eq_true_eq] at hb
  obtain ⟨wd, e⟩ : ∃ wd, wd = 0x4000001 + d * 2097152 + a * 65536 + b * 2048 := ⟨_, rfl⟩
  refine accept (w := wd) e.symm hw ?_
  have h1 : bits wd 26 6 = 1 := by unfold bits; omega
  have h3 : some (Instr.sub (bits wd 21 5) (bits wd 16 5) (bits wd 11 5)) = some (Instr.sub d a b) := by
    rw [show bits wd 21 5 = d by unfold bits; omega, show bits wd 16 5 = a by unfold bits; omega, show bits wd 11 5 = b by unfold bits; omega]
  have h2 : bits wd 0 11 = 1 := by unfold bits; omega
  rw [← h3, pick_Alu h1]; unfold pickAlu; rw [h2]
  rfl
theorem and (d a b : Nat) : Statement (.and d a b) := by
  intro hw _
  have hb : (decide (d < 32) && decide (a < 32) && decide (b < 32)) = true := hw
  simp only [Bool.and_eq_true, decide_eq_true_eq] at hb
  obtain ⟨wd, e⟩ : ∃ wd, wd = 0x4000002 + d * 2097152 + a * 65536 + b * 2048 := ⟨_, rfl⟩
  refine accept (w := wd) e.symm hw ?_
  have h1 : bits wd 26 6 = 1 := by unfold bits; omega
  have h3 : some (Instr.and (bits wd 21 5) (bits wd 16 5) (bits wd 11 5)) = some (Instr.and d a b) := by
    rw [show bits wd 21 5 = d by unfold bits; omega, show bits wd 16 5 = a by unfold bits; omega, show bits wd 11 5 = b by unfold bits; omega]
  have h2 : bits wd 0 11 = 2 := by unfold bits; omega
  rw [← h3, pick_Alu h1]; unfold pickAlu; rw [h2]
  rfl
theorem or (d a b : Nat) : Statement (.or d a b) := by
  intro hw _
  have hb : (decide (d < 32) && decide (a < 32) && decide (b < 32)) = true := hw
  simp only [Bool.and_eq_true, decide_eq_true_eq] at hb
  obtain ⟨wd, e⟩ : ∃ wd, wd = 0x4000003 + d * 2097152 + a * 65536 + b * 2048 := ⟨_, rfl⟩
  refine accept (w := wd) e.symm hw ?_
  have h1 : bits wd 26 6 = 1 := by unfold bits; omega
  have h3 : some (Instr.or (bits wd 21 5) (bits wd 16 5) (bits wd 11 5)) = some (Instr.or d a b) := by
    rw [show bits wd 21 5 = d by unfold bits; omega, show bits wd 16 5 = a by unfold bits; omega, show bits wd 11 5 = b by unfold bits; omega]
  have h2 : bits wd 0 11 = 3 := by unfold bits; omega
  rw [← h3, pick_Alu h1]; unfold pickAlu; rw [h2]
  rfl
theorem xor (d a b : Nat) : Statement (.xor d a b) := by
  intro hw _
  have hb : (decide (d < 32) && decide (a < 32) && decide (b < 32)) = true := hw
  simp only [Bool.and_eq_true, decide_eq_true_eq] at hb
  obtain ⟨wd, e⟩ : ∃ wd, wd = 0x4000004 + d * 2097152 + a * 65536 + b * 2048 := ⟨_, rfl⟩
  refine accept (w := wd) e.symm hw ?_
  have h1 : bits wd 26 6 = 1 := by unfold bits; omega
  have h3 : some (Instr.xor (bits wd 21 5) (bits wd 16 5) (bits wd 11 5)) = some (Instr.xor d a b) := by
    rw [show bits wd 21 5 = d by unfold bits; omega, show bits wd 16 5 = a by unfold bits; omega, show bits wd 11 5 = b by unfold bits; omega]
  have h2 : bits wd 0 11 = 4 := by unfold bits; omega
  rw [← h3, pick_Alu h1]; unfold pickAlu; rw [h2]
  rfl
theorem andn (d a b : Nat) : Statement (.andn d a b) := by
  intro hw _
  have hb : (decide (d < 32) && decide (a < 32) && decide (b < 32)) = true := hw
  simp only [Bool.and_eq_true, decide_eq_true_eq] at hb
  obtain ⟨wd, e⟩ : ∃ wd, wd = 0x4000005 + d * 2097152 + a * 65536 + b * 2048 := ⟨_, rfl⟩
  refine accept (w := wd) e.symm hw ?_
  have h1 : bits wd 26 6 = 1 := by unfold bits; omega
  have h3 : some (Instr.andn (bits wd 21 5) (bits wd 16 5) (bits wd 11 5)) = some (Instr.andn d a b) := by
    rw [show bits wd 21 5 = d by unfold bits; omega, show bits wd 16 5 = a by unfold bits; omega, show bits wd 11 5 = b by unfold bits; omega]
  have h2 : bits wd 0 11 = 5 := by unfold bits; omega
  rw [← h3, pick_Alu h1]; unfold pickAlu; rw [h2]
  rfl
theorem sll (d a b : Nat) : Statement (.sll d a b) := by
  intro hw _
  have hb : (decide (d < 32) && decide (a < 32) && decide (b < 32)) = true := hw
  simp only [Bool.and_eq_true, decide_eq_true_eq] at hb
  obtain ⟨wd, e⟩ : ∃ wd, wd = 0x4000006 + d * 2097152 + a * 65536 + b * 2048 := ⟨_, rfl⟩
  refine accept (w := wd) e.symm hw ?_
  have h1 : bits wd 26 6 = 1 := by unfold bits; omega
  have h3 : some (Instr.sll (bits wd 21 5) (bits wd 16 5) (bits wd 11 5)) = some (Instr.sll d a b) := by
    rw [show bits wd 21 5 = d by unfold bits; omega, show bits wd 16 5 = a by unfold bits; omega, show bits wd 11 5 = b by unfold bits; omega]
  have h2 : bits wd 0 11 = 6 := by unfold bits; omega
  rw [← h3, pick_Alu h1]; unfold pickAlu; rw [h2]
  rfl
theorem srl (d a b : Nat) : Statement (.srl d a b) := by
  intro hw _
  have hb : (decide (d < 32) && decide (a < 32) && decide (b < 32)) = true := hw
  simp only [Bool.and_eq_true, decide_eq_true_eq] at hb
  obtain ⟨wd, e⟩ : ∃ wd, wd = 0x4000007 + d * 2097152 + a * 65536 + b * 2048 := ⟨_, rfl⟩
  refine accept (w := wd) e.symm hw ?_
  have h1 : bits wd 26 6 = 1 := by unfold bits; omega
  have h3 : some (Instr.srl (bits wd 21 5) (bits wd 16 5) (bits wd 11 5)) = some (Instr.srl d a b) := by
    rw [show bits wd 21 5 = d by unfold bits; omega, show bits wd 16 5 = a by unfold bits; omega, show bits wd 11 5 = b by unfold bits; omega]
  have h2 : bits wd 0 11 = 7 := by unfold bits; omega
  rw [← h3, pick_Alu h1]; unfold pickAlu; rw [h2]
  rfl
theorem sra (d a b : Nat) : Statement (.sra d a b) := by
  intro hw _
  have hb : (decide (d < 32) && decide (a < 32) && decide (b < 32)) = true := hw
  simp only [Bool.and_eq_true, decide_eq_true_eq] at hb
  obtain ⟨wd, e⟩ : ∃ wd, wd = 0x4000008 + d * 2097152 + a * 65536 + b * 2048 := ⟨_, rfl⟩
  refine accept (w := wd) e.symm hw ?_
  have h1 : bits wd 26 6 = 1 := by unfold bits; omega
  have h3 : some (Instr.sra (bits wd 21 5) (bits wd 16 5) (bits wd 11 5)) = some (Instr.sra d a b) := by
    rw [show bits wd 21 5 = d by unfold bits; omega, show bits wd 16 5 = a by unfold bits; omega, show bits wd 11 5 = b by unfold bits; omega]
  have h2 : bits wd 0 11 = 8 := by unfold bits; omega
  rw [← h3, pick_Alu h1]; unfold pickAlu; rw [h2]
  rfl
theorem rol (d a b : Nat) : Statement (.rol d a b) := by
  intro hw _
  have hb : (decide (d < 32) && decide (a < 32) && decide (b < 32)) = true := hw
  simp only [Bool.and_eq_true, decide_eq_true_eq] at hb
  obtain ⟨wd, e⟩ : ∃ wd, wd = 0x4000009 + d * 2097152 + a * 65536 + b * 2048 := ⟨_, rfl⟩
  refine accept (w := wd) e.symm hw ?_
  have h1 : bits wd 26 6 = 1 := by unfold bits; omega
  have h3 : some (Instr.rol (bits wd 21 5) (bits wd 16 5) (bits wd 11 5)) = some (Instr.rol d a b) := by
    rw [show bits wd 21 5 = d by unfold bits; omega, show bits wd 16 5 = a by unfold bits; omega, show bits wd 11 5 = b by unfold bits; omega]
  have h2 : bits wd 0 11 = 9 := by unfold bits; omega
  rw [← h3, pick_Alu h1]; unfold pickAlu; rw [h2]
  rfl
theorem mul (d a b : Nat) : Statement (.mul d a b) := by
  intro hw _
  have hb : (decide (d < 32) && decide (a < 32) && decide (b < 32)) = true := hw
  simp only [Bool.and_eq_true, decide_eq_true_eq] at hb
  obtain ⟨wd, e⟩ : ∃ wd, wd = 0x400000a + d * 2097152 + a * 65536 + b * 2048 := ⟨_, rfl⟩
  refine accept (w := wd) e.symm hw ?_
  have h1 : bits wd 26 6 = 1 := by unfold bits; omega
  have h3 : some (Instr.mul (bits wd 21 5) (bits wd 16 5) (bits wd 11 5)) = some (Instr.mul d a b) := by
    rw [show bits wd 21 5 = d by unfold bits; omega, show bits wd 16 5 = a by unfold bits; omega, show bits wd 11 5 = b by unfold bits; omega]
  have h2 : bits wd 0 11 = 10 := by unfold bits; omega
  rw [← h3, pick_Alu h1]; unfold pickAlu; rw [h2]
  rfl
theorem mulh (d a b : Nat) : Statement (.mulh d a b) := by
  intro hw _
  have hb : (decide (d < 32) && decide (a < 32) && decide (b < 32)) = true := hw
  simp only [Bool.and_eq_true, decide_eq_true_eq] at hb
  obtain ⟨wd, e⟩ : ∃ wd, wd = 0x400000b + d * 2097152 + a * 65536 + b * 2048 := ⟨_, rfl⟩
  refine accept (w := wd) e.symm hw ?_
  have h1 : bits wd 26 6 = 1 := by unfold bits; omega
  have h3 : some (Instr.mulh (bits wd 21 5) (bits wd 16 5) (bits wd 11 5)) = some (Instr.mulh d a b) := by
    rw [show bits wd 21 5 = d by unfold bits; omega, show bits wd 16 5 = a by unfold bits; omega, show bits wd 11 5 = b by unfold bits; omega]
  have h2 : bits wd 0 11 = 11 := by unfold bits; omega
  rw [← h3, pick_Alu h1]; unfold pickAlu; rw [h2]
  rfl
theorem mulhu (d a b : Nat) : Statement (.mulhu d a b) := by
  intro hw _
  have hb : (decide (d < 32) && decide (a < 32) && decide (b < 32)) = true := hw
  simp only [Bool.and_eq_true, decide_eq_true_eq] at hb
  obtain ⟨wd, e⟩ : ∃ wd, wd = 0x400000c + d * 2097152 + a * 65536 + b * 2048 := ⟨_, rfl⟩
  refine accept (w := wd) e.symm hw ?_
  have h1 : bits wd 26 6 = 1 := by unfold bits; omega
  have h3 : some (Instr.mulhu (bits wd 21 5) (bits wd 16 5) (bits wd 11 5)) = some (Instr.mulhu d a b) := by
    rw [show bits wd 21 5 = d by unfold bits; omega, show bits wd 16 5 = a by unfold bits; omega, show bits wd 11 5 = b by unfold bits; omega]
  have h2 : bits wd 0 11 = 12 := by unfold bits; omega
  rw [← h3, pick_Alu h1]; unfold pickAlu; rw [h2]
  rfl
theorem div (d a b : Nat) : Statement (.div d a b) := by
  intro hw _
  have hb : (decide (d < 32) && decide (a < 32) && decide (b < 32)) = true := hw
  simp only [Bool.and_eq_true, decide_eq_true_eq] at hb
  obtain ⟨wd, e⟩ : ∃ wd, wd = 0x400000d + d * 2097152 + a * 65536 + b * 2048 := ⟨_, rfl⟩
  refine accept (w := wd) e.symm hw ?_
  have h1 : bits wd 26 6 = 1 := by unfold bits; omega
  have h3 : some (Instr.div (bits wd 21 5) (bits wd 16 5) (bits wd 11 5)) = some (Instr.div d a b) := by
    rw [show bits wd 21 5 = d by unfold bits; omega, show bits wd 16 5 = a by unfold bits; omega, show bits wd 11 5 = b by unfold bits; omega]
  have h2 : bits wd 0 11 = 13 := by unfold bits; omega
  rw [← h3, pick_Alu h1]; unfold pickAlu; rw [h2]
  rfl
theorem divu (d a b : Nat) : Statement (.divu d a b) := by
  intro hw _
  have hb : (decide (d < 32) && decide (a < 32) && decide (b < 32)) = true := hw
  simp only [Bool.and_eq_true, decide_eq_true_eq] at hb
  obtain ⟨wd, e⟩ : ∃ wd, wd = 0x400000e + d * 2097152 + a * 65536 + b * 2048 := ⟨_, rfl⟩
  refine accept (w := wd) e.symm hw ?_
  have h1 : bits wd 26 6 = 1 := by unfold bits; omega
  have h3 : some (Instr.divu (bits wd 21 5) (bits wd 16 5) (bits wd 11 5)) = some (Instr.divu d a b) := by
    rw [show bits wd 21 5 = d by unfold bits; omega, show bits wd 16 5 = a by unfold bits; omega, show bits wd 11 5 = b by unfold bits; omega]
  have h2 : bits wd 0 11 = 14 := by unfold bits; omega
  rw [← h3, pick_Alu h1]; unfold pickAlu; rw [h2]
  rfl
theorem rem (d a b : Nat) : Statement (.rem d a b) := by
  intro hw _
  have hb : (decide (d < 32) && decide (a < 32) && decide (b < 32)) = true := hw
  simp only [Bool.and_eq_true, decide_eq_true_eq] at hb
  obtain ⟨wd, e⟩ : ∃ wd, wd = 0x400000f + d * 2097152 + a * 65536 + b * 2048 := ⟨_, rfl⟩
  refine accept (w := wd) e.symm hw ?_
  have h1 : bits wd 26 6 = 1 := by unfold bits; omega
  have h3 : some (Instr.rem (bits wd 21 5) (bits wd 16 5) (bits wd 11 5)) = some (Instr.rem d a b) := by
    rw [show bits wd 21 5 = d by unfold bits; omega, show bits wd 16 5 = a by unfold bits; omega, show bits wd 11 5 = b by unfold bits; omega]
  have h2 : bits wd 0 11 = 15 := by unfold bits; omega
  rw [← h3, pick_Alu h1]; unfold pickAlu; rw [h2]
  rfl
theorem remu (d a b : Nat) : Statement (.remu d a b) := by
  intro hw _
  have hb : (decide (d < 32) && decide (a < 32) && decide (b < 32)) = true := hw
  simp only [Bool.and_eq_true, decide_eq_true_eq] at hb
  obtain ⟨wd, e⟩ : ∃ wd, wd = 0x4000010 + d * 2097152 + a * 65536 + b * 2048 := ⟨_, rfl⟩
  refine accept (w := wd) e.symm hw ?_
  have h1 : bits wd 26 6 = 1 := by unfold bits; omega
  have h3 : some (Instr.remu (bits wd 21 5) (bits wd 16 5) (bits wd 11 5)) = some (Instr.remu d a b) := by
    rw [show bits wd 21 5 = d by unfold bits; omega, show bits wd 16 5 = a by unfold bits; omega, show bits wd 11 5 = b by unfold bits; omega]
  have h2 : bits wd 0 11 = 16 := by unfold bits; omega
  rw [← h3, pick_Alu h1]; unfold pickAlu; rw [h2]
  rfl
theorem min (d a b : Nat) : Statement (.min d a b) := by
  intro hw _
  have hb : (decide (d < 32) && decide (a < 32) && decide (b < 32)) = true := hw
  simp only [Bool.and_eq_true, decide_eq_true_eq] at hb
  obtain ⟨wd, e⟩ : ∃ wd, wd = 0x4000011 + d * 2097152 + a * 65536 + b * 2048 := ⟨_, rfl⟩
  refine accept (w := wd) e.symm hw ?_
  have h1 : bits wd 26 6 = 1 := by unfold bits; omega
  have h3 : some (Instr.min (bits wd 21 5) (bits wd 16 5) (bits wd 11 5)) = some (Instr.min d a b) := by
    rw [show bits wd 21 5 = d by unfold bits; omega, show bits wd 16 5 = a by unfold bits; omega, show bits wd 11 5 = b by unfold bits; omega]
  have h2 : bits wd 0 11 = 17 := by unfold bits; omega
  rw [← h3, pick_Alu h1]; unfold pickAlu; rw [h2]
  rfl
theorem max (d a b : Nat) : Statement (.max d a b) := by
  intro hw _
  have hb : (decide (d < 32) && decide (a < 32) && decide (b < 32)) = true := hw
  simp only [Bool.and_eq_true, decide_eq_true_eq] at hb
  obtain ⟨wd, e⟩ : ∃ wd, wd = 0x4000012 + d * 2097152 + a * 65536 + b * 2048 := ⟨_, rfl⟩
  refine accept (w := wd) e.symm hw ?_
  have h1 : bits wd 26 6 = 1 := by unfold bits; omega
  have h3 : some (Instr.max (bits wd 21 5) (bits wd 16 5) (bits wd 11 5)) = some (Instr.max d a b) := by
    rw [show bits wd 21 5 = d by unfold bits; omega, show bits wd 16 5 = a by unfold bits; omega, show bits wd 11 5 = b by unfold bits; omega]
  have h2 : bits wd 0 11 = 18 := by unfold bits; omega
  rw [← h3, pick_Alu h1]; unfold pickAlu; rw [h2]
  rfl
theorem minu (d a b : Nat) : Statement (.minu d a b) := by
  intro hw _
  have hb : (decide (d < 32) && decide (a < 32) && decide (b < 32)) = true := hw
  simp only [Bool.and_eq_true, decide_eq_true_eq] at hb
  obtain ⟨wd, e⟩ : ∃ wd, wd = 0x4000013 + d * 2097152 + a * 65536 + b * 2048 := ⟨_, rfl⟩
  refine accept (w := wd) e.symm hw ?_
  have h1 : bits wd 26 6 = 1 := by unfold bits; omega
  have h3 : some (Instr.minu (bits wd 21 5) (bits wd 16 5) (bits wd 11 5)) = some (Instr.minu d a b) := by
    rw [show bits wd 21 5 = d by unfold bits; omega, show bits wd 16 5 = a by unfold bits; omega, show bits wd 11 5 = b by unfold bits; omega]
  have h2 : bits wd 0 11 = 19 := by unfold bits; omega
  rw [← h3, pick_Alu h1]; unfold pickAlu; rw [h2]
  rfl
theorem maxu (d a b : Nat) : Statement (.maxu d a b) := by
  intro hw _
  have hb : (decide (d < 32) && decide (a < 32) && decide (b < 32)) = true := hw
  simp only [Bool.and_eq_true, decide_eq_true_eq] at hb
  obtain ⟨wd, e⟩ : ∃ wd, wd = 0x4000014 + d * 2097152 + a * 65536 + b * 2048 := ⟨_, rfl⟩
  refine accept (w := wd) e.symm hw ?_
  have h1 : bits wd 26 6 = 1 := by unfold bits; omega
  have h3 : some (Instr.maxu (bits wd 21 5) (bits wd 16 5) (bits wd 11 5)) = some (Instr.maxu d a b) := by
    rw [show bits wd 21 5 = d by unfold bits; omega, show bits wd 16 5 = a by unfold bits; omega, show bits wd 11 5 = b by unfold bits; omega]
  have h2 : bits wd 0 11 = 20 := by unfold bits; omega
  rw [← h3, pick_Alu h1]; unfold pickAlu; rw [h2]
  rfl
theorem slt (d a b : Nat) : Statement (.slt d a b) := by
  intro hw _
  have hb : (decide (d < 32) && decide (a < 32) && decide (b < 32)) = true := hw
  simp only [Bool.and_eq_true, decide_eq_true_eq] at hb
  obtain ⟨wd, e⟩ : ∃ wd, wd = 0x4000015 + d * 2097152 + a * 65536 + b * 2048 := ⟨_, rfl⟩
  refine accept (w := wd) e.symm hw ?_
  have h1 : bits wd 26 6 = 1 := by unfold bits; omega
  have h3 : some (Instr.slt (bits wd 21 5) (bits wd 16 5) (bits wd 11 5)) = some (Instr.slt d a b) := by
    rw [show bits wd 21 5 = d by unfold bits; omega, show bits wd 16 5 = a by unfold bits; omega, show bits wd 11 5 = b by unfold bits; omega]
  have h2 : bits wd 0 11 = 21 := by unfold bits; omega
  rw [← h3, pick_Alu h1]; unfold pickAlu; rw [h2]
  rfl
theorem sltu (d a b : Nat) : Statement (.sltu d a b) := by
  intro hw _
  have hb : (decide (d < 32) && decide (a < 32) && decide (b < 32)) = true := hw
  simp only [Bool.and_eq_true, decide_eq_true_eq] at hb
  obtain ⟨wd, e⟩ : ∃ wd, wd = 0x4000016 + d * 2097152 + a * 65536 + b * 2048 := ⟨_, rfl⟩
  refine accept (w := wd) e.symm hw ?_
  have h1 : bits wd 26 6 = 1 := by unfold bits; omega
  have h3 : some (Instr.sltu (bits wd 21 5) (bits wd 16 5) (bits wd 11 5)) = some (Instr.sltu d a b) := by
    rw [show bits wd 21 5 = d by unfold bits; omega, show bits wd 16 5 = a by unfold bits; omega, show bits wd 11 5 = b by unfold bits; omega]
  have h2 : bits wd 0 11 = 22 := by unfold bits; omega
  rw [← h3, pick_Alu h1]; unfold pickAlu; rw [h2]
  rfl
theorem seq (d a b : Nat) : Statement (.seq d a b) := by
  intro hw _
  have hb : (decide (d < 32) && decide (a < 32) && decide (b < 32)) = true := hw
  simp only [Bool.and_eq_true, decide_eq_true_eq] at hb
  obtain ⟨wd, e⟩ : ∃ wd, wd = 0x4000017 + d * 2097152 + a * 65536 + b * 2048 := ⟨_, rfl⟩
  refine accept (w := wd) e.symm hw ?_
  have h1 : bits wd 26 6 = 1 := by unfold bits; omega
  have h3 : some (Instr.seq (bits wd 21 5) (bits wd 16 5) (bits wd 11 5)) = some (Instr.seq d a b) := by
    rw [show bits wd 21 5 = d by unfold bits; omega, show bits wd 16 5 = a by unfold bits; omega, show bits wd 11 5 = b by unfold bits; omega]
  have h2 : bits wd 0 11 = 23 := by unfold bits; omega
  rw [← h3, pick_Alu h1]; unfold pickAlu; rw [h2]
  rfl
theorem clz (d a : Nat) : Statement (.clz d a) := by
  intro hw _
  have hb : (decide (d < 32) && decide (a < 32)) = true := hw
  simp only [Bool.and_eq_true, decide_eq_true_eq] at hb
  obtain ⟨wd, e⟩ : ∃ wd, wd = 0x4000018 + d * 2097152 + a * 65536 := ⟨_, rfl⟩
  refine accept (w := wd) e.symm hw ?_
  have h1 : bits wd 26 6 = 1 := by unfold bits; omega
  have h3 : some (Instr.clz (bits wd 21 5) (bits wd 16 5)) = some (Instr.clz d a) := by
    rw [show bits wd 21 5 = d by unfold bits; omega, show bits wd 16 5 = a by unfold bits; omega]
  have h2 : bits wd 0 11 = 24 := by unfold bits; omega
  rw [← h3, pick_Alu h1]; unfold pickAlu; rw [h2]
  rfl
theorem ctz (d a : Nat) : Statement (.ctz d a) := by
  intro hw _
  have hb : (decide (d < 32) && decide (a < 32)) = true := hw
  simp only [Bool.and_eq_true, decide_eq_true_eq] at hb
  obtain ⟨wd, e⟩ : ∃ wd, wd = 0x4000019 + d * 2097152 + a * 65536 := ⟨_, rfl⟩
  refine accept (w := wd) e.symm hw ?_
  have h1 : bits wd 26 6 = 1 := by unfold bits; omega
  have h3 : some (Instr.ctz (bits wd 21 5) (bits wd 16 5)) = some (Instr.ctz d a) := by
    rw [show bits wd 21 5 = d by unfold bits; omega, show bits wd 16 5 = a by unfold bits; omega]
  have h2 : bits wd 0 11 = 25 := by unfold bits; omega
  rw [← h3, pick_Alu h1]; unfold pickAlu; rw [h2]
  rfl
theorem popc (d a : Nat) : Statement (.popc d a) := by
  intro hw _
  have hb : (decide (d < 32) && decide (a < 32)) = true := hw
  simp only [Bool.and_eq_true, decide_eq_true_eq] at hb
  obtain ⟨wd, e⟩ : ∃ wd, wd = 0x400001a + d * 2097152 + a * 65536 := ⟨_, rfl⟩
  refine accept (w := wd) e.symm hw ?_
  have h1 : bits wd 26 6 = 1 := by unfold bits; omega
  have h3 : some (Instr.popc (bits wd 21 5) (bits wd 16 5)) = some (Instr.popc d a) := by
    rw [show bits wd 21 5 = d by unfold bits; omega, show bits wd 16 5 = a by unfold bits; omega]
  have h2 : bits wd 0 11 = 26 := by unfold bits; omega
  rw [← h3, pick_Alu h1]; unfold pickAlu; rw [h2]
  rfl
theorem brev (d a : Nat) : Statement (.brev d a) := by
  intro hw _
  have hb : (decide (d < 32) && decide (a < 32)) = true := hw
  simp only [Bool.and_eq_true, decide_eq_true_eq] at hb
  obtain ⟨wd, e⟩ : ∃ wd, wd = 0x400001b + d * 2097152 + a * 65536 := ⟨_, rfl⟩
  refine accept (w := wd) e.symm hw ?_
  have h1 : bits wd 26 6 = 1 := by unfold bits; omega
  have h3 : some (Instr.brev (bits wd 21 5) (bits wd 16 5)) = some (Instr.brev d a) := by
    rw [show bits wd 21 5 = d by unfold bits; omega, show bits wd 16 5 = a by unfold bits; omega]
  have h2 : bits wd 0 11 = 27 := by unfold bits; omega
  rw [← h3, pick_Alu h1]; unfold pickAlu; rw [h2]
  rfl
theorem bswap (d a : Nat) : Statement (.bswap d a) := by
  intro hw _
  have hb : (decide (d < 32) && decide (a < 32)) = true := hw
  simp only [Bool.and_eq_true, decide_eq_true_eq] at hb
  obtain ⟨wd, e⟩ : ∃ wd, wd = 0x400001c + d * 2097152 + a * 65536 := ⟨_, rfl⟩
  refine accept (w := wd) e.symm hw ?_
  have h1 : bits wd 26 6 = 1 := by unfold bits; omega
  have h3 : some (Instr.bswap (bits wd 21 5) (bits wd 16 5)) = some (Instr.bswap d a) := by
    rw [show bits wd 21 5 = d by unfold bits; omega, show bits wd 16 5 = a by unfold bits; omega]
  have h2 : bits wd 0 11 = 28 := by unfold bits; omega
  rw [← h3, pick_Alu h1]; unfold pickAlu; rw [h2]
  rfl
theorem sext (d a b : Nat) : Statement (.sext d a b) := by
  intro hw _
  have hb : (decide (d < 32) && decide (a < 32) && decide (b < 32)) = true := hw
  simp only [Bool.and_eq_true, decide_eq_true_eq] at hb
  obtain ⟨wd, e⟩ : ∃ wd, wd = 0x400001d + d * 2097152 + a * 65536 + b * 2048 := ⟨_, rfl⟩
  refine accept (w := wd) e.symm hw ?_
  have h1 : bits wd 26 6 = 1 := by unfold bits; omega
  have h3 : some (Instr.sext (bits wd 21 5) (bits wd 16 5) (bits wd 11 5)) = some (Instr.sext d a b) := by
    rw [show bits wd 21 5 = d by unfold bits; omega, show bits wd 16 5 = a by unfold bits; omega, show bits wd 11 5 = b by unfold bits; omega]
  have h2 : bits wd 0 11 = 29 := by unfold bits; omega
  rw [← h3, pick_Alu h1]; unfold pickAlu; rw [h2]
  rfl
theorem zext (d a b : Nat) : Statement (.zext d a b) := by
  intro hw _
  have hb : (decide (d < 32) && decide (a < 32) && decide (b < 32)) = true := hw
  simp only [Bool.and_eq_true, decide_eq_true_eq] at hb
  obtain ⟨wd, e⟩ : ∃ wd, wd = 0x400001e + d * 2097152 + a * 65536 + b * 2048 := ⟨_, rfl⟩
  refine accept (w := wd) e.symm hw ?_
  have h1 : bits wd 26 6 = 1 := by unfold bits; omega
  have h3 : some (Instr.zext (bits wd 21 5) (bits wd 16 5) (bits wd 11 5)) = some (Instr.zext d a b) := by
    rw [show bits wd 21 5 = d by unfold bits; omega, show bits wd 16 5 = a by unfold bits; omega, show bits wd 11 5 = b by unfold bits; omega]
  have h2 : bits wd 0 11 = 30 := by unfold bits; omega
  rw [← h3, pick_Alu h1]; unfold pickAlu; rw [h2]
  rfl
theorem extr (d a b : Nat) : Statement (.extr d a b) := by
  intro hw _
  have hb : (decide (d < 32) && decide (a < 32) && decide (b < 32)) = true := hw
  simp only [Bool.and_eq_true, decide_eq_true_eq] at hb
  obtain ⟨wd, e⟩ : ∃ wd, wd = 0x400001f + d * 2097152 + a * 65536 + b * 2048 := ⟨_, rfl⟩
  refine accept (w := wd) e.symm hw ?_
  have h1 : bits wd 26 6 = 1 := by unfold bits; omega
  have h3 : some (Instr.extr (bits wd 21 5) (bits wd 16 5) (bits wd 11 5)) = some (Instr.extr d a b) := by
    rw [show bits wd 21 5 = d by unfold bits; omega, show bits wd 16 5 = a by unfold bits; omega, show bits wd 11 5 = b by unfold bits; omega]
  have h2 : bits wd 0 11 = 31 := by unfold bits; omega
  rw [← h3, pick_Alu h1]; unfold pickAlu; rw [h2]
  rfl
theorem insr (d a b : Nat) : Statement (.insr d a b) := by
  intro hw _
  have hb : (decide (d < 32) && decide (a < 32) && decide (b < 32)) = true := hw
  simp only [Bool.and_eq_true, decide_eq_true_eq] at hb
  obtain ⟨wd, e⟩ : ∃ wd, wd = 0x4000020 + d * 2097152 + a * 65536 + b * 2048 := ⟨_, rfl⟩
  refine accept (w := wd) e.symm hw ?_
  have h1 : bits wd 26 6 = 1 := by unfold bits; omega
  have h3 : some (Instr.insr (bits wd 21 5) (bits wd 16 5) (bits wd 11 5)) = some (Instr.insr d a b) := by
    rw [show bits wd 21 5 = d by unfold bits; omega, show bits wd 16 5 = a by unfold bits; omega, show bits wd 11 5 = b by unfold bits; omega]
  have h2 : bits wd 0 11 = 32 := by unfold bits; omega
  rw [← h3, pick_Alu h1]; unfold pickAlu; rw [h2]
  rfl
theorem sel (d a b : Nat) : Statement (.sel d a b) := by
  intro hw _
  have hb : (decide (d < 32) && decide (a < 32) && decide (b < 32)) = true := hw
  simp only [Bool.and_eq_true, decide_eq_true_eq] at hb
  obtain ⟨wd, e⟩ : ∃ wd, wd = 0x4000021 + d * 2097152 + a * 65536 + b * 2048 := ⟨_, rfl⟩
  refine accept (w := wd) e.symm hw ?_
  have h1 : bits wd 26 6 = 1 := by unfold bits; omega
  have h3 : some (Instr.sel (bits wd 21 5) (bits wd 16 5) (bits wd 11 5)) = some (Instr.sel d a b) := by
    rw [show bits wd 21 5 = d by unfold bits; omega, show bits wd 16 5 = a by unfold bits; omega, show bits wd 11 5 = b by unfold bits; omega]
  have h2 : bits wd 0 11 = 33 := by unfold bits; omega
  rw [← h3, pick_Alu h1]; unfold pickAlu; rw [h2]
  rfl
theorem addi (d a i : Nat) : Statement (.addi d a i) := by
  intro hw _
  have hb : (decide (d < 32) && decide (a < 32) && decide (i < 65536)) = true := hw
  simp only [Bool.and_eq_true, decide_eq_true_eq] at hb
  obtain ⟨wd, e⟩ : ∃ wd, wd = 0x8000000 + d * 2097152 + a * 65536 + i := ⟨_, rfl⟩
  refine accept (w := wd) e.symm hw ?_
  have h1 : bits wd 26 6 = 2 := by unfold bits; omega
  have h3 : some (Instr.addi (bits wd 21 5) (bits wd 16 5) (bits wd 0 16)) = some (Instr.addi d a i) := by
    rw [show bits wd 21 5 = d by unfold bits; omega, show bits wd 16 5 = a by unfold bits; omega, show bits wd 0 16 = i by unfold bits; omega]
  rw [← h3]; unfold pick; rw [h1]; rfl
theorem andi (d a i : Nat) : Statement (.andi d a i) := by
  intro hw _
  have hb : (decide (d < 32) && decide (a < 32) && decide (i < 65536)) = true := hw
  simp only [Bool.and_eq_true, decide_eq_true_eq] at hb
  obtain ⟨wd, e⟩ : ∃ wd, wd = 0xc000000 + d * 2097152 + a * 65536 + i := ⟨_, rfl⟩
  refine accept (w := wd) e.symm hw ?_
  have h1 : bits wd 26 6 = 3 := by unfold bits; omega
  have h3 : some (Instr.andi (bits wd 21 5) (bits wd 16 5) (bits wd 0 16)) = some (Instr.andi d a i) := by
    rw [show bits wd 21 5 = d by unfold bits; omega, show bits wd 16 5 = a by unfold bits; omega, show bits wd 0 16 = i by unfold bits; omega]
  rw [← h3]; unfold pick; rw [h1]; rfl
theorem ori (d a i : Nat) : Statement (.ori d a i) := by
  intro hw _
  have hb : (decide (d < 32) && decide (a < 32) && decide (i < 65536)) = true := hw
  simp only [Bool.and_eq_true, decide_eq_true_eq] at hb
  obtain ⟨wd, e⟩ : ∃ wd, wd = 0x10000000 + d * 2097152 + a * 65536 + i := ⟨_, rfl⟩
  refine accept (w := wd) e.symm hw ?_
  have h1 : bits wd 26 6 = 4 := by unfold bits; omega
  have h3 : some (Instr.ori (bits wd 21 5) (bits wd 16 5) (bits wd 0 16)) = some (Instr.ori d a i) := by
    rw [show bits wd 21 5 = d by unfold bits; omega, show bits wd 16 5 = a by unfold bits; omega, show bits wd 0 16 = i by unfold bits; omega]
  rw [← h3]; unfold pick; rw [h1]; rfl
theorem xori (d a i : Nat) : Statement (.xori d a i) := by
  intro hw _
  have hb : (decide (d < 32) && decide (a < 32) && decide (i < 65536)) = true := hw
  simp only [Bool.and_eq_true, decide_eq_true_eq] at hb
  obtain ⟨wd, e⟩ : ∃ wd, wd = 0x14000000 + d * 2097152 + a * 65536 + i := ⟨_, rfl⟩
  refine accept (w := wd) e.symm hw ?_
  have h1 : bits wd 26 6 = 5 := by unfold bits; omega
  have h3 : some (Instr.xori (bits wd 21 5) (bits wd 16 5) (bits wd 0 16)) = some (Instr.xori d a i) := by
    rw [show bits wd 21 5 = d by unfold bits; omega, show bits wd 16 5 = a by unfold bits; omega, show bits wd 0 16 = i by unfold bits; omega]
  rw [← h3]; unfold pick; rw [h1]; rfl
theorem slti (d a i : Nat) : Statement (.slti d a i) := by
  intro hw _
  have hb : (decide (d < 32) && decide (a < 32) && decide (i < 65536)) = true := hw
  simp only [Bool.and_eq_true, decide_eq_true_eq] at hb
  obtain ⟨wd, e⟩ : ∃ wd, wd = 0x18000000 + d * 2097152 + a * 65536 + i := ⟨_, rfl⟩
  refine accept (w := wd) e.symm hw ?_
  have h1 : bits wd 26 6 = 6 := by unfold bits; omega
  have h3 : some (Instr.slti (bits wd 21 5) (bits wd 16 5) (bits wd 0 16)) = some (Instr.slti d a i) := by
    rw [show bits wd 21 5 = d by unfold bits; omega, show bits wd 16 5 = a by unfold bits; omega, show bits wd 0 16 = i by unfold bits; omega]
  rw [← h3]; unfold pick; rw [h1]; rfl
theorem slli (d a s : Nat) : Statement (.slli d a s) := by
  intro hw _
  have hb : (decide (d < 32) && decide (a < 32) && decide (s < 64)) = true := hw
  simp only [Bool.and_eq_true, decide_eq_true_eq] at hb
  obtain ⟨wd, e⟩ : ∃ wd, wd = 0x1c000000 + d * 2097152 + a * 65536 + s := ⟨_, rfl⟩
  refine accept (w := wd) e.symm hw ?_
  have h1 : bits wd 26 6 = 7 := by unfold bits; omega
  have h3 : some (Instr.slli (bits wd 21 5) (bits wd 16 5) (bits wd 0 6)) = some (Instr.slli d a s) := by
    rw [show bits wd 21 5 = d by unfold bits; omega, show bits wd 16 5 = a by unfold bits; omega, show bits wd 0 6 = s by unfold bits; omega]
  have h2 : bits wd 14 2 = 0 := by unfold bits; omega
  rw [← h3, pick_Shift h1]; unfold pickShift; rw [h2]
  rfl
theorem srli (d a s : Nat) : Statement (.srli d a s) := by
  intro hw _
  have hb : (decide (d < 32) && decide (a < 32) && decide (s < 64)) = true := hw
  simp only [Bool.and_eq_true, decide_eq_true_eq] at hb
  obtain ⟨wd, e⟩ : ∃ wd, wd = 0x1c004000 + d * 2097152 + a * 65536 + s := ⟨_, rfl⟩
  refine accept (w := wd) e.symm hw ?_
  have h1 : bits wd 26 6 = 7 := by unfold bits; omega
  have h3 : some (Instr.srli (bits wd 21 5) (bits wd 16 5) (bits wd 0 6)) = some (Instr.srli d a s) := by
    rw [show bits wd 21 5 = d by unfold bits; omega, show bits wd 16 5 = a by unfold bits; omega, show bits wd 0 6 = s by unfold bits; omega]
  have h2 : bits wd 14 2 = 1 := by unfold bits; omega
  rw [← h3, pick_Shift h1]; unfold pickShift; rw [h2]
  rfl
theorem srai (d a s : Nat) : Statement (.srai d a s) := by
  intro hw _
  have hb : (decide (d < 32) && decide (a < 32) && decide (s < 64)) = true := hw
  simp only [Bool.and_eq_true, decide_eq_true_eq] at hb
  obtain ⟨wd, e⟩ : ∃ wd, wd = 0x1c008000 + d * 2097152 + a * 65536 + s := ⟨_, rfl⟩
  refine accept (w := wd) e.symm hw ?_
  have h1 : bits wd 26 6 = 7 := by unfold bits; omega
  have h3 : some (Instr.srai (bits wd 21 5) (bits wd 16 5) (bits wd 0 6)) = some (Instr.srai d a s) := by
    rw [show bits wd 21 5 = d by unfold bits; omega, show bits wd 16 5 = a by unfold bits; omega, show bits wd 0 6 = s by unfold bits; omega]
  have h2 : bits wd 14 2 = 2 := by unfold bits; omega
  rw [← h3, pick_Shift h1]; unfold pickShift; rw [h2]
  rfl
theorem lih (d a i : Nat) : Statement (.lih d a i) := by
  intro hw _
  have hb : (decide (d < 32) && decide (a < 32) && decide (i < 65536)) = true := hw
  simp only [Bool.and_eq_true, decide_eq_true_eq] at hb
  obtain ⟨wd, e⟩ : ∃ wd, wd = 0x20000000 + d * 2097152 + a * 65536 + i := ⟨_, rfl⟩
  refine accept (w := wd) e.symm hw ?_
  have h1 : bits wd 26 6 = 8 := by unfold bits; omega
  have h3 : some (Instr.lih (bits wd 21 5) (bits wd 16 5) (bits wd 0 16)) = some (Instr.lih d a i) := by
    rw [show bits wd 21 5 = d by unfold bits; omega, show bits wd 16 5 = a by unfold bits; omega, show bits wd 0 16 = i by unfold bits; omega]
  rw [← h3]; unfold pick; rw [h1]; rfl
theorem lil (d i : Nat) : Statement (.lil d i) := by
  intro hw _
  have hb : (decide (d < 32) && decide (i < 65536)) = true := hw
  simp only [Bool.and_eq_true, decide_eq_true_eq] at hb
  obtain ⟨wd, e⟩ : ∃ wd, wd = 0x24000000 + d * 2097152 + i := ⟨_, rfl⟩
  refine accept (w := wd) e.symm hw ?_
  have h1 : bits wd 26 6 = 9 := by unfold bits; omega
  have h3 : some (Instr.lil (bits wd 21 5) (bits wd 0 16)) = some (Instr.lil d i) := by
    rw [show bits wd 21 5 = d by unfold bits; omega, show bits wd 0 16 = i by unfold bits; omega]
  rw [← h3]; unfold pick; rw [h1]; rfl
theorem lea (d a i : Nat) : Statement (.lea d a i) := by
  intro hw _
  have hb : (decide (d < 32) && decide (a < 32) && decide (i < 65536)) = true := hw
  simp only [Bool.and_eq_true, decide_eq_true_eq] at hb
  obtain ⟨wd, e⟩ : ∃ wd, wd = 0x28000000 + d * 2097152 + a * 65536 + i := ⟨_, rfl⟩
  refine accept (w := wd) e.symm hw ?_
  have h1 : bits wd 26 6 = 10 := by unfold bits; omega
  have h3 : some (Instr.lea (bits wd 21 5) (bits wd 16 5) (bits wd 0 16)) = some (Instr.lea d a i) := by
    rw [show bits wd 21 5 = d by unfold bits; omega, show bits wd 16 5 = a by unfold bits; omega, show bits wd 0 16 = i by unfold bits; omega]
  rw [← h3]; unfold pick; rw [h1]; rfl
theorem addpc (d i : Nat) : Statement (.addpc d i) := by
  intro hw _
  have hb : (decide (d < 32) && decide (i < 65536)) = true := hw
  simp only [Bool.and_eq_true, decide_eq_true_eq] at hb
  obtain ⟨wd, e⟩ : ∃ wd, wd = 0x2c000000 + d * 2097152 + i := ⟨_, rfl⟩
  refine accept (w := wd) e.symm hw ?_
  have h1 : bits wd 26 6 = 11 := by unfold bits; omega
  have h3 : some (Instr.addpc (bits wd 21 5) (bits wd 0 16)) = some (Instr.addpc d i) := by
    rw [show bits wd 21 5 = d by unfold bits; omega, show bits wd 0 16 = i by unfold bits; omega]
  rw [← h3]; unfold pick; rw [h1]; rfl
theorem ldB (d a i : Nat) : Statement (.ldB d a i) := by
  intro hw _
  have hb : (decide (d < 32) && decide (a < 32) && decide (i < 65536)) = true := hw
  simp only [Bool.and_eq_true, decide_eq_true_eq] at hb
  obtain ⟨wd, e⟩ : ∃ wd, wd = 0x40000000 + d * 2097152 + a * 65536 + i := ⟨_, rfl⟩
  refine accept (w := wd) e.symm hw ?_
  have h1 : bits wd 26 6 = 16 := by unfold bits; omega
  have h3 : some (Instr.ldB (bits wd 21 5) (bits wd 16 5) (bits wd 0 16)) = some (Instr.ldB d a i) := by
    rw [show bits wd 21 5 = d by unfold bits; omega, show bits wd 16 5 = a by unfold bits; omega, show bits wd 0 16 = i by unfold bits; omega]
  rw [← h3]; unfold pick; rw [h1]; rfl
theorem ldH (d a i : Nat) : Statement (.ldH d a i) := by
  intro hw _
  have hb : (decide (d < 32) && decide (a < 32) && decide (i < 65536)) = true := hw
  simp only [Bool.and_eq_true, decide_eq_true_eq] at hb
  obtain ⟨wd, e⟩ : ∃ wd, wd = 0x44000000 + d * 2097152 + a * 65536 + i := ⟨_, rfl⟩
  refine accept (w := wd) e.symm hw ?_
  have h1 : bits wd 26 6 = 17 := by unfold bits; omega
  have h3 : some (Instr.ldH (bits wd 21 5) (bits wd 16 5) (bits wd 0 16)) = some (Instr.ldH d a i) := by
    rw [show bits wd 21 5 = d by unfold bits; omega, show bits wd 16 5 = a by unfold bits; omega, show bits wd 0 16 = i by unfold bits; omega]
  rw [← h3]; unfold pick; rw [h1]; rfl
theorem ldW (d a i : Nat) : Statement (.ldW d a i) := by
  intro hw _
  have hb : (decide (d < 32) && decide (a < 32) && decide (i < 65536)) = true := hw
  simp only [Bool.and_eq_true, decide_eq_true_eq] at hb
  obtain ⟨wd, e⟩ : ∃ wd, wd = 0x48000000 + d * 2097152 + a * 65536 + i := ⟨_, rfl⟩
  refine accept (w := wd) e.symm hw ?_
  have h1 : bits wd 26 6 = 18 := by unfold bits; omega
  have h3 : some (Instr.ldW (bits wd 21 5) (bits wd 16 5) (bits wd 0 16)) = some (Instr.ldW d a i) := by
    rw [show bits wd 21 5 = d by unfold bits; omega, show bits wd 16 5 = a by unfold bits; omega, show bits wd 0 16 = i by unfold bits; omega]
  rw [← h3]; unfold pick; rw [h1]; rfl
theorem ldD (d a i : Nat) : Statement (.ldD d a i) := by
  intro hw _
  have hb : (decide (d < 32) && decide (a < 32) && decide (i < 65536)) = true := hw
  simp only [Bool.and_eq_true, decide_eq_true_eq] at hb
  obtain ⟨wd, e⟩ : ∃ wd, wd = 0x4c000000 + d * 2097152 + a * 65536 + i := ⟨_, rfl⟩
  refine accept (w := wd) e.symm hw ?_
  have h1 : bits wd 26 6 = 19 := by unfold bits; omega
  have h3 : some (Instr.ldD (bits wd 21 5) (bits wd 16 5) (bits wd 0 16)) = some (Instr.ldD d a i) := by
    rw [show bits wd 21 5 = d by unfold bits; omega, show bits wd 16 5 = a by unfold bits; omega, show bits wd 0 16 = i by unfold bits; omega]
  rw [← h3]; unfold pick; rw [h1]; rfl
theorem ldBZ (d a i : Nat) : Statement (.ldBZ d a i) := by
  intro hw _
  have hb : (decide (d < 32) && decide (a < 32) && decide (i < 65536)) = true := hw
  simp only [Bool.and_eq_true, decide_eq_true_eq] at hb
  obtain ⟨wd, e⟩ : ∃ wd, wd = 0x50000000 + d * 2097152 + a * 65536 + i := ⟨_, rfl⟩
  refine accept (w := wd) e.symm hw ?_
  have h1 : bits wd 26 6 = 20 := by unfold bits; omega
  have h3 : some (Instr.ldBZ (bits wd 21 5) (bits wd 16 5) (bits wd 0 16)) = some (Instr.ldBZ d a i) := by
    rw [show bits wd 21 5 = d by unfold bits; omega, show bits wd 16 5 = a by unfold bits; omega, show bits wd 0 16 = i by unfold bits; omega]
  rw [← h3]; unfold pick; rw [h1]; rfl
theorem ldHZ (d a i : Nat) : Statement (.ldHZ d a i) := by
  intro hw _
  have hb : (decide (d < 32) && decide (a < 32) && decide (i < 65536)) = true := hw
  simp only [Bool.and_eq_true, decide_eq_true_eq] at hb
  obtain ⟨wd, e⟩ : ∃ wd, wd = 0x54000000 + d * 2097152 + a * 65536 + i := ⟨_, rfl⟩
  refine accept (w := wd) e.symm hw ?_
  have h1 : bits wd 26 6 = 21 := by unfold bits; omega
  have h3 : some (Instr.ldHZ (bits wd 21 5) (bits wd 16 5) (bits wd 0 16)) = some (Instr.ldHZ d a i) := by
    rw [show bits wd 21 5 = d by unfold bits; omega, show bits wd 16 5 = a by unfold bits; omega, show bits wd 0 16 = i by unfold bits; omega]
  rw [← h3]; unfold pick; rw [h1]; rfl
theorem ldWZ (d a i : Nat) : Statement (.ldWZ d a i) := by
  intro hw _
  have hb : (decide (d < 32) && decide (a < 32) && decide (i < 65536)) = true := hw
  simp only [Bool.and_eq_true, decide_eq_true_eq] at hb
  obtain ⟨wd, e⟩ : ∃ wd, wd = 0x58000000 + d * 2097152 + a * 65536 + i := ⟨_, rfl⟩
  refine accept (w := wd) e.symm hw ?_
  have h1 : bits wd 26 6 = 22 := by unfold bits; omega
  have h3 : some (Instr.ldWZ (bits wd 21 5) (bits wd 16 5) (bits wd 0 16)) = some (Instr.ldWZ d a i) := by
    rw [show bits wd 21 5 = d by unfold bits; omega, show bits wd 16 5 = a by unfold bits; omega, show bits wd 0 16 = i by unfold bits; omega]
  rw [← h3]; unfold pick; rw [h1]; rfl
theorem stB (a b i : Nat) : Statement (.stB a b i) := by
  intro hw _
  have hb : (decide (a < 32) && decide (b < 32) && decide (i < 65536)) = true := hw
  simp only [Bool.and_eq_true, decide_eq_true_eq] at hb
  obtain ⟨wd, e⟩ : ∃ wd, wd = 0x60000000 + a * 2097152 + b * 65536 + i := ⟨_, rfl⟩
  refine accept (w := wd) e.symm hw ?_
  have h1 : bits wd 26 6 = 24 := by unfold bits; omega
  have h3 : some (Instr.stB (bits wd 21 5) (bits wd 16 5) (bits wd 0 16)) = some (Instr.stB a b i) := by
    rw [show bits wd 21 5 = a by unfold bits; omega, show bits wd 16 5 = b by unfold bits; omega, show bits wd 0 16 = i by unfold bits; omega]
  rw [← h3]; unfold pick; rw [h1]; rfl
theorem stH (a b i : Nat) : Statement (.stH a b i) := by
  intro hw _
  have hb : (decide (a < 32) && decide (b < 32) && decide (i < 65536)) = true := hw
  simp only [Bool.and_eq_true, decide_eq_true_eq] at hb
  obtain ⟨wd, e⟩ : ∃ wd, wd = 0x64000000 + a * 2097152 + b * 65536 + i := ⟨_, rfl⟩
  refine accept (w := wd) e.symm hw ?_
  have h1 : bits wd 26 6 = 25 := by unfold bits; omega
  have h3 : some (Instr.stH (bits wd 21 5) (bits wd 16 5) (bits wd 0 16)) = some (Instr.stH a b i) := by
    rw [show bits wd 21 5 = a by unfold bits; omega, show bits wd 16 5 = b by unfold bits; omega, show bits wd 0 16 = i by unfold bits; omega]
  rw [← h3]; unfold pick; rw [h1]; rfl
theorem stW (a b i : Nat) : Statement (.stW a b i) := by
  intro hw _
  have hb : (decide (a < 32) && decide (b < 32) && decide (i < 65536)) = true := hw
  simp only [Bool.and_eq_true, decide_eq_true_eq] at hb
  obtain ⟨wd, e⟩ : ∃ wd, wd = 0x68000000 + a * 2097152 + b * 65536 + i := ⟨_, rfl⟩
  refine accept (w := wd) e.symm hw ?_
  have h1 : bits wd 26 6 = 26 := by unfold bits; omega
  have h3 : some (Instr.stW (bits wd 21 5) (bits wd 16 5) (bits wd 0 16)) = some (Instr.stW a b i) := by
    rw [show bits wd 21 5 = a by unfold bits; omega, show bits wd 16 5 = b by unfold bits; omega, show bits wd 0 16 = i by unfold bits; omega]
  rw [← h3]; unfold pick; rw [h1]; rfl
theorem stD (a b i : Nat) : Statement (.stD a b i) := by
  intro hw _
  have hb : (decide (a < 32) && decide (b < 32) && decide (i < 65536)) = true := hw
  simp only [Bool.and_eq_true, decide_eq_true_eq] at hb
  obtain ⟨wd, e⟩ : ∃ wd, wd = 0x6c000000 + a * 2097152 + b * 65536 + i := ⟨_, rfl⟩
  refine accept (w := wd) e.symm hw ?_
  have h1 : bits wd 26 6 = 27 := by unfold bits; omega
  have h3 : some (Instr.stD (bits wd 21 5) (bits wd 16 5) (bits wd 0 16)) = some (Instr.stD a b i) := by
    rw [show bits wd 21 5 = a by unfold bits; omega, show bits wd 16 5 = b by unfold bits; omega, show bits wd 0 16 = i by unfold bits; omega]
  rw [← h3]; unfold pick; rw [h1]; rfl
theorem ldx (d a b x z w : Nat) : Statement (.ldx d a b x z w) := by
  intro hw _
  have hb : (decide (d < 32) && decide (a < 32) && decide (b < 32) && decide (x < 2) && decide (z < 2) && decide (w < 4) && !(z == 1 && w == 3)) = true := hw
  simp only [Bool.and_eq_true, decide_eq_true_eq] at hb
  obtain ⟨wd, e⟩ : ∃ wd, wd = 0x70000000 + d * 2097152 + a * 65536 + b * 2048 + x * 16 + z * 8 + w := ⟨_, rfl⟩
  refine accept (w := wd) e.symm hw ?_
  have h1 : bits wd 26 6 = 28 := by unfold bits; omega
  have h3 : some (Instr.ldx (bits wd 21 5) (bits wd 16 5) (bits wd 11 5) (bits wd 4 1) (bits wd 3 1) (bits wd 0 2)) = some (Instr.ldx d a b x z w) := by
    rw [show bits wd 21 5 = d by unfold bits; omega, show bits wd 16 5 = a by unfold bits; omega, show bits wd 11 5 = b by unfold bits; omega, show bits wd 4 1 = x by unfold bits; omega, show bits wd 3 1 = z by unfold bits; omega, show bits wd 0 2 = w by unfold bits; omega]
  have h2 : bits wd 2 1 = 0 := by unfold bits; omega
  rw [← h3, pick_Indexed h1]; unfold pickIndexed; rw [h2]
  rfl
theorem stx (d a b x w : Nat) : Statement (.stx d a b x w) := by
  intro hw _
  have hb : (decide (d < 32) && decide (a < 32) && decide (b < 32) && decide (x < 2) && decide (w < 4)) = true := hw
  simp only [Bool.and_eq_true, decide_eq_true_eq] at hb
  obtain ⟨wd, e⟩ : ∃ wd, wd = 0x70000004 + d * 2097152 + a * 65536 + b * 2048 + x * 16 + w := ⟨_, rfl⟩
  refine accept (w := wd) e.symm hw ?_
  have h1 : bits wd 26 6 = 28 := by unfold bits; omega
  have h3 : some (Instr.stx (bits wd 21 5) (bits wd 16 5) (bits wd 11 5) (bits wd 4 1) (bits wd 0 2)) = some (Instr.stx d a b x w) := by
    rw [show bits wd 21 5 = d by unfold bits; omega, show bits wd 16 5 = a by unfold bits; omega, show bits wd 11 5 = b by unfold bits; omega, show bits wd 4 1 = x by unfold bits; omega, show bits wd 0 2 = w by unfold bits; omega]
  have h2 : bits wd 2 1 = 1 := by unfold bits; omega
  rw [← h3, pick_Indexed h1]; unfold pickIndexed; rw [h2]
  rfl
theorem ldfTake (d a : Nat) : Statement (.ldfTake d a) := by
  intro hw _
  have hb : (decide (d < 32) && decide (a < 32)) = true := hw
  simp only [Bool.and_eq_true, decide_eq_true_eq] at hb
  obtain ⟨wd, e⟩ : ∃ wd, wd = 0x74000000 + d * 2097152 + a * 65536 := ⟨_, rfl⟩
  refine accept (w := wd) e.symm hw ?_
  have h1 : bits wd 26 6 = 29 := by unfold bits; omega
  have h3 : some (Instr.ldfTake (bits wd 21 5) (bits wd 16 5)) = some (Instr.ldfTake d a) := by
    rw [show bits wd 21 5 = d by unfold bits; omega, show bits wd 16 5 = a by unfold bits; omega]
  have h2 : bits wd 0 11 = 0 := by unfold bits; omega
  rw [← h3, pick_FullEmpty h1]; unfold pickFullEmpty; rw [h2]
  rfl
theorem ldfPeek (d a : Nat) : Statement (.ldfPeek d a) := by
  intro hw _
  have hb : (decide (d < 32) && decide (a < 32)) = true := hw
  simp only [Bool.and_eq_true, decide_eq_true_eq] at hb
  obtain ⟨wd, e⟩ : ∃ wd, wd = 0x74000001 + d * 2097152 + a * 65536 := ⟨_, rfl⟩
  refine accept (w := wd) e.symm hw ?_
  have h1 : bits wd 26 6 = 29 := by unfold bits; omega
  have h3 : some (Instr.ldfPeek (bits wd 21 5) (bits wd 16 5)) = some (Instr.ldfPeek d a) := by
    rw [show bits wd 21 5 = d by unfold bits; omega, show bits wd 16 5 = a by unfold bits; omega]
  have h2 : bits wd 0 11 = 1 := by unfold bits; omega
  rw [← h3, pick_FullEmpty h1]; unfold pickFullEmpty; rw [h2]
  rfl
theorem ste (a b : Nat) : Statement (.ste a b) := by
  intro hw _
  have hb : (decide (a < 32) && decide (b < 32)) = true := hw
  simp only [Bool.and_eq_true, decide_eq_true_eq] at hb
  obtain ⟨wd, e⟩ : ∃ wd, wd = 0x74000002 + a * 65536 + b * 2048 := ⟨_, rfl⟩
  refine accept (w := wd) e.symm hw ?_
  have h1 : bits wd 26 6 = 29 := by unfold bits; omega
  have h3 : some (Instr.ste (bits wd 16 5) (bits wd 11 5)) = some (Instr.ste a b) := by
    rw [show bits wd 16 5 = a by unfold bits; omega, show bits wd 11 5 = b by unfold bits; omega]
  have h2 : bits wd 0 11 = 2 := by unfold bits; omega
  rw [← h3, pick_FullEmpty h1]; unfold pickFullEmpty; rw [h2]
  rfl
theorem tagset (a b : Nat) : Statement (.tagset a b) := by
  intro hw _
  have hb : (decide (a < 32) && decide (b < 32)) = true := hw
  simp only [Bool.and_eq_true, decide_eq_true_eq] at hb
  obtain ⟨wd, e⟩ : ∃ wd, wd = 0x74000003 + a * 65536 + b * 2048 := ⟨_, rfl⟩
  refine accept (w := wd) e.symm hw ?_
  have h1 : bits wd 26 6 = 29 := by unfold bits; omega
  have h3 : some (Instr.tagset (bits wd 16 5) (bits wd 11 5)) = some (Instr.tagset a b) := by
    rw [show bits wd 16 5 = a by unfold bits; omega, show bits wd 11 5 = b by unfold bits; omega]
  have h2 : bits wd 0 11 = 3 := by unfold bits; omega
  rw [← h3, pick_FullEmpty h1]; unfold pickFullEmpty; rw [h2]
  rfl
theorem tagget (d a : Nat) : Statement (.tagget d a) := by
  intro hw _
  have hb : (decide (d < 32) && decide (a < 32)) = true := hw
  simp only [Bool.and_eq_true, decide_eq_true_eq] at hb
  obtain ⟨wd, e⟩ : ∃ wd, wd = 0x74000004 + d * 2097152 + a * 65536 := ⟨_, rfl⟩
  refine accept (w := wd) e.symm hw ?_
  have h1 : bits wd 26 6 = 29 := by unfold bits; omega
  have h3 : some (Instr.tagget (bits wd 21 5) (bits wd 16 5)) = some (Instr.tagget d a) := by
    rw [show bits wd 21 5 = d by unfold bits; omega, show bits wd 16 5 = a by unfold bits; omega]
  have h2 : bits wd 0 11 = 4 := by unfold bits; omega
  rw [← h3, pick_FullEmpty h1]; unfold pickFullEmpty; rw [h2]
  rfl
theorem acq : Statement (.acq) := by
  intro _ _; decide
theorem rel : Statement (.rel) := by
  intro _ _; decide
theorem fenceE (a b : Nat) : Statement (.fenceE a b) := by
  intro hw _
  have hb : (decide (a < 32) && decide (b < 32)) = true := hw
  simp only [Bool.and_eq_true, decide_eq_true_eq] at hb
  obtain ⟨wd, e⟩ : ∃ wd, wd = 0x74000007 + a * 65536 + b * 2048 := ⟨_, rfl⟩
  refine accept (w := wd) e.symm hw ?_
  have h1 : bits wd 26 6 = 29 := by unfold bits; omega
  have h3 : some (Instr.fenceE (bits wd 16 5) (bits wd 11 5)) = some (Instr.fenceE a b) := by
    rw [show bits wd 16 5 = a by unfold bits; omega, show bits wd 11 5 = b by unfold bits; omega]
  have h2 : bits wd 0 11 = 7 := by unfold bits; omega
  rw [← h3, pick_FullEmpty h1]; unfold pickFullEmpty; rw [h2]
  rfl
theorem pref (a : Nat) : Statement (.pref a) := by
  intro hw _
  have hb : (decide (a < 32)) = true := hw
  simp only [decide_eq_true_eq] at hb
  obtain ⟨wd, e⟩ : ∃ wd, wd = 0x74000008 + a * 65536 := ⟨_, rfl⟩
  refine accept (w := wd) e.symm hw ?_
  have h1 : bits wd 26 6 = 29 := by unfold bits; omega
  have h3 : some (Instr.pref (bits wd 16 5)) = some (Instr.pref a) := by
    rw [show bits wd 16 5 = a by unfold bits; omega]
  have h2 : bits wd 0 11 = 8 := by unfold bits; omega
  rw [← h3, pick_FullEmpty h1]; unfold pickFullEmpty; rw [h2]
  rfl
theorem aadd (d a b w : Nat) : Statement (.aadd d a b w) := by
  intro hw _
  have hb : (decide (d < 32) && decide (a < 32) && decide (b < 32) && decide (w < 4) && decide (2 ≤ w)) = true := hw
  simp only [Bool.and_eq_true, decide_eq_true_eq] at hb
  obtain ⟨wd, e⟩ : ∃ wd, wd = 0x78000000 + d * 2097152 + a * 65536 + b * 2048 + w * 16 := ⟨_, rfl⟩
  refine accept (w := wd) e.symm hw ?_
  have h1 : bits wd 26 6 = 30 := by unfold bits; omega
  have h3 : some (Instr.aadd (bits wd 21 5) (bits wd 16 5) (bits wd 11 5) (bits wd 4 2)) = some (Instr.aadd d a b w) := by
    rw [show bits wd 21 5 = d by unfold bits; omega, show bits wd 16 5 = a by unfold bits; omega, show bits wd 11 5 = b by unfold bits; omega, show bits wd 4 2 = w by unfold bits; omega]
  have h2 : bits wd 0 4 = 0 := by unfold bits; omega
  rw [← h3, pick_Atomic h1]; unfold pickAtomic; rw [h2]
  rfl
theorem amin (d a b u w : Nat) : Statement (.amin d a b u w) := by
  intro hw _
  have hb : (decide (d < 32) && decide (a < 32) && decide (b < 32) && decide (u < 2) && decide (w < 4) && decide (2 ≤ w)) = true := hw
  simp only [Bool.and_eq_true, decide_eq_true_eq] at hb
  obtain ⟨wd, e⟩ : ∃ wd, wd = 0x78000001 + d * 2097152 + a * 65536 + b * 2048 + u * 64 + w * 16 := ⟨_, rfl⟩
  refine accept (w := wd) e.symm hw ?_
  have h1 : bits wd 26 6 = 30 := by unfold bits; omega
  have h3 : some (Instr.amin (bits wd 21 5) (bits wd 16 5) (bits wd 11 5) (bits wd 6 1) (bits wd 4 2)) = some (Instr.amin d a b u w) := by
    rw [show bits wd 21 5 = d by unfold bits; omega, show bits wd 16 5 = a by unfold bits; omega, show bits wd 11 5 = b by unfold bits; omega, show bits wd 6 1 = u by unfold bits; omega, show bits wd 4 2 = w by unfold bits; omega]
  have h2 : bits wd 0 4 = 1 := by unfold bits; omega
  rw [← h3, pick_Atomic h1]; unfold pickAtomic; rw [h2]
  rfl
theorem amax (d a b u w : Nat) : Statement (.amax d a b u w) := by
  intro hw _
  have hb : (decide (d < 32) && decide (a < 32) && decide (b < 32) && decide (u < 2) && decide (w < 4) && decide (2 ≤ w)) = true := hw
  simp only [Bool.and_eq_true, decide_eq_true_eq] at hb
  obtain ⟨wd, e⟩ : ∃ wd, wd = 0x78000002 + d * 2097152 + a * 65536 + b * 2048 + u * 64 + w * 16 := ⟨_, rfl⟩
  refine accept (w := wd) e.symm hw ?_
  have h1 : bits wd 26 6 = 30 := by unfold bits; omega
  have h3 : some (Instr.amax (bits wd 21 5) (bits wd 16 5) (bits wd 11 5) (bits wd 6 1) (bits wd 4 2)) = some (Instr.amax d a b u w) := by
    rw [show bits wd 21 5 = d by unfold bits; omega, show bits wd 16 5 = a by unfold bits; omega, show bits wd 11 5 = b by unfold bits; omega, show bits wd 6 1 = u by unfold bits; omega, show bits wd 4 2 = w by unfold bits; omega]
  have h2 : bits wd 0 4 = 2 := by unfold bits; omega
  rw [← h3, pick_Atomic h1]; unfold pickAtomic; rw [h2]
  rfl
theorem aand (d a b w : Nat) : Statement (.aand d a b w) := by
  intro hw _
  have hb : (decide (d < 32) && decide (a < 32) && decide (b < 32) && decide (w < 4) && decide (2 ≤ w)) = true := hw
  simp only [Bool.and_eq_true, decide_eq_true_eq] at hb
  obtain ⟨wd, e⟩ : ∃ wd, wd = 0x78000003 + d * 2097152 + a * 65536 + b * 2048 + w * 16 := ⟨_, rfl⟩
  refine accept (w := wd) e.symm hw ?_
  have h1 : bits wd 26 6 = 30 := by unfold bits; omega
  have h3 : some (Instr.aand (bits wd 21 5) (bits wd 16 5) (bits wd 11 5) (bits wd 4 2)) = some (Instr.aand d a b w) := by
    rw [show bits wd 21 5 = d by unfold bits; omega, show bits wd 16 5 = a by unfold bits; omega, show bits wd 11 5 = b by unfold bits; omega, show bits wd 4 2 = w by unfold bits; omega]
  have h2 : bits wd 0 4 = 3 := by unfold bits; omega
  rw [← h3, pick_Atomic h1]; unfold pickAtomic; rw [h2]
  rfl
theorem aor (d a b w : Nat) : Statement (.aor d a b w) := by
  intro hw _
  have hb : (decide (d < 32) && decide (a < 32) && decide (b < 32) && decide (w < 4) && decide (2 ≤ w)) = true := hw
  simp only [Bool.and_eq_true, decide_eq_true_eq] at hb
  obtain ⟨wd, e⟩ : ∃ wd, wd = 0x78000004 + d * 2097152 + a * 65536 + b * 2048 + w * 16 := ⟨_, rfl⟩
  refine accept (w := wd) e.symm hw ?_
  have h1 : bits wd 26 6 = 30 := by unfold bits; omega
  have h3 : some (Instr.aor (bits wd 21 5) (bits wd 16 5) (bits wd 11 5) (bits wd 4 2)) = some (Instr.aor d a b w) := by
    rw [show bits wd 21 5 = d by unfold bits; omega, show bits wd 16 5 = a by unfold bits; omega, show bits wd 11 5 = b by unfold bits; omega, show bits wd 4 2 = w by unfold bits; omega]
  have h2 : bits wd 0 4 = 4 := by unfold bits; omega
  rw [← h3, pick_Atomic h1]; unfold pickAtomic; rw [h2]
  rfl
theorem axor (d a b w : Nat) : Statement (.axor d a b w) := by
  intro hw _
  have hb : (decide (d < 32) && decide (a < 32) && decide (b < 32) && decide (w < 4) && decide (2 ≤ w)) = true := hw
  simp only [Bool.and_eq_true, decide_eq_true_eq] at hb
  obtain ⟨wd, e⟩ : ∃ wd, wd = 0x78000005 + d * 2097152 + a * 65536 + b * 2048 + w * 16 := ⟨_, rfl⟩
  refine accept (w := wd) e.symm hw ?_
  have h1 : bits wd 26 6 = 30 := by unfold bits; omega
  have h3 : some (Instr.axor (bits wd 21 5) (bits wd 16 5) (bits wd 11 5) (bits wd 4 2)) = some (Instr.axor d a b w) := by
    rw [show bits wd 21 5 = d by unfold bits; omega, show bits wd 16 5 = a by unfold bits; omega, show bits wd 11 5 = b by unfold bits; omega, show bits wd 4 2 = w by unfold bits; omega]
  have h2 : bits wd 0 4 = 5 := by unfold bits; omega
  rw [← h3, pick_Atomic h1]; unfold pickAtomic; rw [h2]
  rfl
theorem aswp (d a b w : Nat) : Statement (.aswp d a b w) := by
  intro hw _
  have hb : (decide (d < 32) && decide (a < 32) && decide (b < 32) && decide (w < 4) && decide (2 ≤ w)) = true := hw
  simp only [Bool.and_eq_true, decide_eq_true_eq] at hb
  obtain ⟨wd, e⟩ : ∃ wd, wd = 0x78000006 + d * 2097152 + a * 65536 + b * 2048 + w * 16 := ⟨_, rfl⟩
  refine accept (w := wd) e.symm hw ?_
  have h1 : bits wd 26 6 = 30 := by unfold bits; omega
  have h3 : some (Instr.aswp (bits wd 21 5) (bits wd 16 5) (bits wd 11 5) (bits wd 4 2)) = some (Instr.aswp d a b w) := by
    rw [show bits wd 21 5 = d by unfold bits; omega, show bits wd 16 5 = a by unfold bits; omega, show bits wd 11 5 = b by unfold bits; omega, show bits wd 4 2 = w by unfold bits; omega]
  have h2 : bits wd 0 4 = 6 := by unfold bits; omega
  rw [← h3, pick_Atomic h1]; unfold pickAtomic; rw [h2]
  rfl
theorem acas (d a b w : Nat) : Statement (.acas d a b w) := by
  intro hw _
  have hb : (decide (d < 32) && decide (a < 32) && decide (b < 32) && decide (w < 4) && decide (2 ≤ w)) = true := hw
  simp only [Bool.and_eq_true, decide_eq_true_eq] at hb
  obtain ⟨wd, e⟩ : ∃ wd, wd = 0x78000007 + d * 2097152 + a * 65536 + b * 2048 + w * 16 := ⟨_, rfl⟩
  refine accept (w := wd) e.symm hw ?_
  have h1 : bits wd 26 6 = 30 := by unfold bits; omega
  have h3 : some (Instr.acas (bits wd 21 5) (bits wd 16 5) (bits wd 11 5) (bits wd 4 2)) = some (Instr.acas d a b w) := by
    rw [show bits wd 21 5 = d by unfold bits; omega, show bits wd 16 5 = a by unfold bits; omega, show bits wd 11 5 = b by unfold bits; omega, show bits wd 4 2 = w by unfold bits; omega]
  have h2 : bits wd 0 4 = 7 := by unfold bits; omega
  rw [← h3, pick_Atomic h1]; unfold pickAtomic; rw [h2]
  rfl
theorem afadd (d a b : Nat) : Statement (.afadd d a b) := by
  intro hw _
  have hb : (decide (d < 32) && decide (a < 32) && decide (b < 32)) = true := hw
  simp only [Bool.and_eq_true, decide_eq_true_eq] at hb
  obtain ⟨wd, e⟩ : ∃ wd, wd = 0x78000028 + d * 2097152 + a * 65536 + b * 2048 := ⟨_, rfl⟩
  refine accept (w := wd) e.symm hw ?_
  have h1 : bits wd 26 6 = 30 := by unfold bits; omega
  have h3 : some (Instr.afadd (bits wd 21 5) (bits wd 16 5) (bits wd 11 5)) = some (Instr.afadd d a b) := by
    rw [show bits wd 21 5 = d by unfold bits; omega, show bits wd 16 5 = a by unfold bits; omega, show bits wd 11 5 = b by unfold bits; omega]
  have h2 : bits wd 0 4 = 8 := by unfold bits; omega
  rw [← h3, pick_Atomic h1]; unfold pickAtomic; rw [h2]
  rfl
theorem aupd (a b o u w : Nat) : Statement (.aupd a b o u w) := by
  intro hw _
  have hb : (decide (a < 32) && decide (b < 32) && decide (o < 8) && decide (u < 2) && decide (w < 4) && decide (2 ≤ w) && decide (o ≤ 6) && !(u == 1 && !(o == 1 || o == 2)) && !(o == 6 && w == 3)) = true := hw
  simp only [Bool.and_eq_true, decide_eq_true_eq] at hb
  obtain ⟨wd, e⟩ : ∃ wd, wd = 0x78000009 + a * 65536 + b * 2048 + o * 128 + u * 64 + w * 16 := ⟨_, rfl⟩
  refine accept (w := wd) e.symm hw ?_
  have h1 : bits wd 26 6 = 30 := by unfold bits; omega
  have h3 : some (Instr.aupd (bits wd 16 5) (bits wd 11 5) (bits wd 7 3) (bits wd 6 1) (bits wd 4 2)) = some (Instr.aupd a b o u w) := by
    rw [show bits wd 16 5 = a by unfold bits; omega, show bits wd 11 5 = b by unfold bits; omega, show bits wd 7 3 = o by unfold bits; omega, show bits wd 6 1 = u by unfold bits; omega, show bits wd 4 2 = w by unfold bits; omega]
  have h2 : bits wd 0 4 = 9 := by unfold bits; omega
  rw [← h3, pick_Atomic h1]; unfold pickAtomic; rw [h2]
  rfl
theorem beq (a b i : Nat) : Statement (.beq a b i) := by
  intro hw _
  have hb : (decide (a < 32) && decide (b < 32) && decide (i < 65536)) = true := hw
  simp only [Bool.and_eq_true, decide_eq_true_eq] at hb
  obtain ⟨wd, e⟩ : ∃ wd, wd = 0x80000000 + a * 2097152 + b * 65536 + i := ⟨_, rfl⟩
  refine accept (w := wd) e.symm hw ?_
  have h1 : bits wd 26 6 = 32 := by unfold bits; omega
  have h3 : some (Instr.beq (bits wd 21 5) (bits wd 16 5) (bits wd 0 16)) = some (Instr.beq a b i) := by
    rw [show bits wd 21 5 = a by unfold bits; omega, show bits wd 16 5 = b by unfold bits; omega, show bits wd 0 16 = i by unfold bits; omega]
  rw [← h3]; unfold pick; rw [h1]; rfl
theorem bne (a b i : Nat) : Statement (.bne a b i) := by
  intro hw _
  have hb : (decide (a < 32) && decide (b < 32) && decide (i < 65536)) = true := hw
  simp only [Bool.and_eq_true, decide_eq_true_eq] at hb
  obtain ⟨wd, e⟩ : ∃ wd, wd = 0x84000000 + a * 2097152 + b * 65536 + i := ⟨_, rfl⟩
  refine accept (w := wd) e.symm hw ?_
  have h1 : bits wd 26 6 = 33 := by unfold bits; omega
  have h3 : some (Instr.bne (bits wd 21 5) (bits wd 16 5) (bits wd 0 16)) = some (Instr.bne a b i) := by
    rw [show bits wd 21 5 = a by unfold bits; omega, show bits wd 16 5 = b by unfold bits; omega, show bits wd 0 16 = i by unfold bits; omega]
  rw [← h3]; unfold pick; rw [h1]; rfl
theorem blt (a b i : Nat) : Statement (.blt a b i) := by
  intro hw _
  have hb : (decide (a < 32) && decide (b < 32) && decide (i < 65536)) = true := hw
  simp only [Bool.and_eq_true, decide_eq_true_eq] at hb
  obtain ⟨wd, e⟩ : ∃ wd, wd = 0x88000000 + a * 2097152 + b * 65536 + i := ⟨_, rfl⟩
  refine accept (w := wd) e.symm hw ?_
  have h1 : bits wd 26 6 = 34 := by unfold bits; omega
  have h3 : some (Instr.blt (bits wd 21 5) (bits wd 16 5) (bits wd 0 16)) = some (Instr.blt a b i) := by
    rw [show bits wd 21 5 = a by unfold bits; omega, show bits wd 16 5 = b by unfold bits; omega, show bits wd 0 16 = i by unfold bits; omega]
  rw [← h3]; unfold pick; rw [h1]; rfl
theorem bge (a b i : Nat) : Statement (.bge a b i) := by
  intro hw _
  have hb : (decide (a < 32) && decide (b < 32) && decide (i < 65536)) = true := hw
  simp only [Bool.and_eq_true, decide_eq_true_eq] at hb
  obtain ⟨wd, e⟩ : ∃ wd, wd = 0x8c000000 + a * 2097152 + b * 65536 + i := ⟨_, rfl⟩
  refine accept (w := wd) e.symm hw ?_
  have h1 : bits wd 26 6 = 35 := by unfold bits; omega
  have h3 : some (Instr.bge (bits wd 21 5) (bits wd 16 5) (bits wd 0 16)) = some (Instr.bge a b i) := by
    rw [show bits wd 21 5 = a by unfold bits; omega, show bits wd 16 5 = b by unfold bits; omega, show bits wd 0 16 = i by unfold bits; omega]
  rw [← h3]; unfold pick; rw [h1]; rfl
theorem bltu (a b i : Nat) : Statement (.bltu a b i) := by
  intro hw _
  have hb : (decide (a < 32) && decide (b < 32) && decide (i < 65536)) = true := hw
  simp only [Bool.and_eq_true, decide_eq_true_eq] at hb
  obtain ⟨wd, e⟩ : ∃ wd, wd = 0x90000000 + a * 2097152 + b * 65536 + i := ⟨_, rfl⟩
  refine accept (w := wd) e.symm hw ?_
  have h1 : bits wd 26 6 = 36 := by unfold bits; omega
  have h3 : some (Instr.bltu (bits wd 21 5) (bits wd 16 5) (bits wd 0 16)) = some (Instr.bltu a b i) := by
    rw [show bits wd 21 5 = a by unfold bits; omega, show bits wd 16 5 = b by unfold bits; omega, show bits wd 0 16 = i by unfold bits; omega]
  rw [← h3]; unfold pick; rw [h1]; rfl
theorem bgeu (a b i : Nat) : Statement (.bgeu a b i) := by
  intro hw _
  have hb : (decide (a < 32) && decide (b < 32) && decide (i < 65536)) = true := hw
  simp only [Bool.and_eq_true, decide_eq_true_eq] at hb
  obtain ⟨wd, e⟩ : ∃ wd, wd = 0x94000000 + a * 2097152 + b * 65536 + i := ⟨_, rfl⟩
  refine accept (w := wd) e.symm hw ?_
  have h1 : bits wd 26 6 = 37 := by unfold bits; omega
  have h3 : some (Instr.bgeu (bits wd 21 5) (bits wd 16 5) (bits wd 0 16)) = some (Instr.bgeu a b i) := by
    rw [show bits wd 21 5 = a by unfold bits; omega, show bits wd 16 5 = b by unfold bits; omega, show bits wd 0 16 = i by unfold bits; omega]
  rw [← h3]; unfold pick; rw [h1]; rfl
theorem bz (a i : Nat) : Statement (.bz a i) := by
  intro hw _
  have hb : (decide (a < 32) && decide (i < 65536)) = true := hw
  simp only [Bool.and_eq_true, decide_eq_true_eq] at hb
  obtain ⟨wd, e⟩ : ∃ wd, wd = 0x98000000 + a * 2097152 + i := ⟨_, rfl⟩
  refine accept (w := wd) e.symm hw ?_
  have h1 : bits wd 26 6 = 38 := by unfold bits; omega
  have h3 : some (Instr.bz (bits wd 21 5) (bits wd 0 16)) = some (Instr.bz a i) := by
    rw [show bits wd 21 5 = a by unfold bits; omega, show bits wd 0 16 = i by unfold bits; omega]
  rw [← h3]; unfold pick; rw [h1]; rfl
theorem bnz (a i : Nat) : Statement (.bnz a i) := by
  intro hw _
  have hb : (decide (a < 32) && decide (i < 65536)) = true := hw
  simp only [Bool.and_eq_true, decide_eq_true_eq] at hb
  obtain ⟨wd, e⟩ : ∃ wd, wd = 0x9c000000 + a * 2097152 + i := ⟨_, rfl⟩
  refine accept (w := wd) e.symm hw ?_
  have h1 : bits wd 26 6 = 39 := by unfold bits; omega
  have h3 : some (Instr.bnz (bits wd 21 5) (bits wd 0 16)) = some (Instr.bnz a i) := by
    rw [show bits wd 21 5 = a by unfold bits; omega, show bits wd 0 16 = i by unfold bits; omega]
  rw [← h3]; unfold pick; rw [h1]; rfl
theorem jmp (j : Nat) : Statement (.jmp j) := by
  intro hw _
  have hb : (decide (j < 67108864)) = true := hw
  simp only [decide_eq_true_eq] at hb
  obtain ⟨wd, e⟩ : ∃ wd, wd = 0xa0000000 + j := ⟨_, rfl⟩
  refine accept (w := wd) e.symm hw ?_
  have h1 : bits wd 26 6 = 40 := by unfold bits; omega
  have h3 : some (Instr.jmp (bits wd 0 26)) = some (Instr.jmp j) := by
    rw [show bits wd 0 26 = j by unfold bits; omega]
  rw [← h3]; unfold pick; rw [h1]; rfl
theorem jal (j : Nat) : Statement (.jal j) := by
  intro hw _
  have hb : (decide (j < 67108864)) = true := hw
  simp only [decide_eq_true_eq] at hb
  obtain ⟨wd, e⟩ : ∃ wd, wd = 0xa4000000 + j := ⟨_, rfl⟩
  refine accept (w := wd) e.symm hw ?_
  have h1 : bits wd 26 6 = 41 := by unfold bits; omega
  have h3 : some (Instr.jal (bits wd 0 26)) = some (Instr.jal j) := by
    rw [show bits wd 0 26 = j by unfold bits; omega]
  rw [← h3]; unfold pick; rw [h1]; rfl
theorem jr (a : Nat) : Statement (.jr a) := by
  intro hw _
  have hb : (decide (a < 32)) = true := hw
  simp only [decide_eq_true_eq] at hb
  obtain ⟨wd, e⟩ : ∃ wd, wd = 0xa8000000 + a * 65536 := ⟨_, rfl⟩
  refine accept (w := wd) e.symm hw ?_
  have h1 : bits wd 26 6 = 42 := by unfold bits; omega
  have h3 : some (Instr.jr (bits wd 16 5)) = some (Instr.jr a) := by
    rw [show bits wd 16 5 = a by unfold bits; omega]
  have h2 : bits wd 0 11 = 0 := by unfold bits; omega
  rw [← h3, pick_Jump h1]; unfold pickJump; rw [h2]
  rfl
theorem jalr (d a : Nat) : Statement (.jalr d a) := by
  intro hw _
  have hb : (decide (d < 32) && decide (a < 32)) = true := hw
  simp only [Bool.and_eq_true, decide_eq_true_eq] at hb
  obtain ⟨wd, e⟩ : ∃ wd, wd = 0xa8000001 + d * 2097152 + a * 65536 := ⟨_, rfl⟩
  refine accept (w := wd) e.symm hw ?_
  have h1 : bits wd 26 6 = 42 := by unfold bits; omega
  have h3 : some (Instr.jalr (bits wd 21 5) (bits wd 16 5)) = some (Instr.jalr d a) := by
    rw [show bits wd 21 5 = d by unfold bits; omega, show bits wd 16 5 = a by unfold bits; omega]
  have h2 : bits wd 0 11 = 1 := by unfold bits; omega
  rw [← h3, pick_Jump h1]; unfold pickJump; rw [h2]
  rfl
theorem loop (l c n : Nat) : Statement (.loop l c n) := by
  intro hw _
  have hb : (decide (l < 2) && decide (c < 32) && decide (n < 1024) && decide (1 ≤ n)) = true := hw
  simp only [Bool.and_eq_true, decide_eq_true_eq] at hb
  obtain ⟨wd, e⟩ : ∃ wd, wd = 0xac000000 + l * 33554432 + c * 1048576 + n * 1024 := ⟨_, rfl⟩
  refine accept (w := wd) e.symm hw ?_
  have h1 : bits wd 26 6 = 43 := by unfold bits; omega
  have h3 : some (Instr.loop (bits wd 25 1) (bits wd 20 5) (bits wd 10 10)) = some (Instr.loop l c n) := by
    rw [show bits wd 25 1 = l by unfold bits; omega, show bits wd 20 5 = c by unfold bits; omega, show bits wd 10 10 = n by unfold bits; omega]
  rw [← h3]; unfold pick; rw [h1]; rfl
theorem loopi (l k n : Nat) : Statement (.loopi l k n) := by
  intro hw _
  have hb : (decide (l < 2) && decide (k < 32768) && decide (n < 1024) && decide (1 ≤ n)) = true := hw
  simp only [Bool.and_eq_true, decide_eq_true_eq] at hb
  obtain ⟨kh, hkh⟩ : ∃ kh, kh = k / 1024 := ⟨_, rfl⟩
  obtain ⟨kl, hkl⟩ : ∃ kl, kl = k % 1024 := ⟨_, rfl⟩
  have hk : k = kh * 1024 + kl := by omega
  have b1 : kh < 32 := by omega
  have b2 : kl < 1024 := by omega
  obtain ⟨wd, e⟩ : ∃ wd, wd = 0xb0000000 + l * 33554432 + kh * 1048576 + n * 1024 + kl := ⟨_, rfl⟩
  refine accept (w := wd) (by rw [e, hkh, hkl]; rfl) hw ?_
  clear hw hkh hkl
  have bl : l < 2 := by omega
  have bn : n < 1024 := by omega
  obtain ⟨h1, h5, h6, h7, h8⟩ := loopi_fields bl b1 bn b2 e
  unfold pick; rw [h1]; simp only [h5, h6, h7, h8, hk]
theorem vadd (d a b m : Nat) : Statement (.vadd d a b m) := by
  intro hw _
  have hb : (decide (d < 32) && decide (a < 32) && decide (b < 32) && decide (m < 8)) = true := hw
  simp only [Bool.and_eq_true, decide_eq_true_eq] at hb
  obtain ⟨wd, e⟩ : ∃ wd, wd = 0xc0000000 + d * 2097152 + a * 65536 + b * 2048 + m * 256 := ⟨_, rfl⟩
  refine accept (w := wd) e.symm hw ?_
  have h1 : bits wd 26 6 = 48 := by unfold bits; omega
  have h3 : some (Instr.vadd (bits wd 21 5) (bits wd 16 5) (bits wd 11 5) (bits wd 8 3)) = some (Instr.vadd d a b m) := by
    rw [show bits wd 21 5 = d by unfold bits; omega, show bits wd 16 5 = a by unfold bits; omega, show bits wd 11 5 = b by unfold bits; omega, show bits wd 8 3 = m by unfold bits; omega]
  have h2 : bits wd 0 8 = 0 := by unfold bits; omega
  rw [← h3, pick_Vector h1]; unfold pickVector; rw [h2]
  rfl
theorem vsub (d a b m : Nat) : Statement (.vsub d a b m) := by
  intro hw _
  have hb : (decide (d < 32) && decide (a < 32) && decide (b < 32) && decide (m < 8)) = true := hw
  simp only [Bool.and_eq_true, decide_eq_true_eq] at hb
  obtain ⟨wd, e⟩ : ∃ wd, wd = 0xc0000001 + d * 2097152 + a * 65536 + b * 2048 + m * 256 := ⟨_, rfl⟩
  refine accept (w := wd) e.symm hw ?_
  have h1 : bits wd 26 6 = 48 := by unfold bits; omega
  have h3 : some (Instr.vsub (bits wd 21 5) (bits wd 16 5) (bits wd 11 5) (bits wd 8 3)) = some (Instr.vsub d a b m) := by
    rw [show bits wd 21 5 = d by unfold bits; omega, show bits wd 16 5 = a by unfold bits; omega, show bits wd 11 5 = b by unfold bits; omega, show bits wd 8 3 = m by unfold bits; omega]
  have h2 : bits wd 0 8 = 1 := by unfold bits; omega
  rw [← h3, pick_Vector h1]; unfold pickVector; rw [h2]
  rfl
theorem vmul (d a b m : Nat) : Statement (.vmul d a b m) := by
  intro hw _
  have hb : (decide (d < 32) && decide (a < 32) && decide (b < 32) && decide (m < 8)) = true := hw
  simp only [Bool.and_eq_true, decide_eq_true_eq] at hb
  obtain ⟨wd, e⟩ : ∃ wd, wd = 0xc0000002 + d * 2097152 + a * 65536 + b * 2048 + m * 256 := ⟨_, rfl⟩
  refine accept (w := wd) e.symm hw ?_
  have h1 : bits wd 26 6 = 48 := by unfold bits; omega
  have h3 : some (Instr.vmul (bits wd 21 5) (bits wd 16 5) (bits wd 11 5) (bits wd 8 3)) = some (Instr.vmul d a b m) := by
    rw [show bits wd 21 5 = d by unfold bits; omega, show bits wd 16 5 = a by unfold bits; omega, show bits wd 11 5 = b by unfold bits; omega, show bits wd 8 3 = m by unfold bits; omega]
  have h2 : bits wd 0 8 = 2 := by unfold bits; omega
  rw [← h3, pick_Vector h1]; unfold pickVector; rw [h2]
  rfl
theorem vfma (d a b m : Nat) : Statement (.vfma d a b m) := by
  intro hw _
  have hb : (decide (d < 32) && decide (a < 32) && decide (b < 32) && decide (m < 8)) = true := hw
  simp only [Bool.and_eq_true, decide_eq_true_eq] at hb
  obtain ⟨wd, e⟩ : ∃ wd, wd = 0xc0000003 + d * 2097152 + a * 65536 + b * 2048 + m * 256 := ⟨_, rfl⟩
  refine accept (w := wd) e.symm hw ?_
  have h1 : bits wd 26 6 = 48 := by unfold bits; omega
  have h3 : some (Instr.vfma (bits wd 21 5) (bits wd 16 5) (bits wd 11 5) (bits wd 8 3)) = some (Instr.vfma d a b m) := by
    rw [show bits wd 21 5 = d by unfold bits; omega, show bits wd 16 5 = a by unfold bits; omega, show bits wd 11 5 = b by unfold bits; omega, show bits wd 8 3 = m by unfold bits; omega]
  have h2 : bits wd 0 8 = 3 := by unfold bits; omega
  rw [← h3, pick_Vector h1]; unfold pickVector; rw [h2]
  rfl
theorem vfms (d a b m : Nat) : Statement (.vfms d a b m) := by
  intro hw _
  have hb : (decide (d < 32) && decide (a < 32) && decide (b < 32) && decide (m < 8)) = true := hw
  simp only [Bool.and_eq_true, decide_eq_true_eq] at hb
  obtain ⟨wd, e⟩ : ∃ wd, wd = 0xc0000004 + d * 2097152 + a * 65536 + b * 2048 + m * 256 := ⟨_, rfl⟩
  refine accept (w := wd) e.symm hw ?_
  have h1 : bits wd 26 6 = 48 := by unfold bits; omega
  have h3 : some (Instr.vfms (bits wd 21 5) (bits wd 16 5) (bits wd 11 5) (bits wd 8 3)) = some (Instr.vfms d a b m) := by
    rw [show bits wd 21 5 = d by unfold bits; omega, show bits wd 16 5 = a by unfold bits; omega, show bits wd 11 5 = b by unfold bits; omega, show bits wd 8 3 = m by unfold bits; omega]
  have h2 : bits wd 0 8 = 4 := by unfold bits; omega
  rw [← h3, pick_Vector h1]; unfold pickVector; rw [h2]
  rfl
theorem vmin (d a b m : Nat) : Statement (.vmin d a b m) := by
  intro hw _
  have hb : (decide (d < 32) && decide (a < 32) && decide (b < 32) && decide (m < 8)) = true := hw
  simp only [Bool.and_eq_true, decide_eq_true_eq] at hb
  obtain ⟨wd, e⟩ : ∃ wd, wd = 0xc0000005 + d * 2097152 + a * 65536 + b * 2048 + m * 256 := ⟨_, rfl⟩
  refine accept (w := wd) e.symm hw ?_
  have h1 : bits wd 26 6 = 48 := by unfold bits; omega
  have h3 : some (Instr.vmin (bits wd 21 5) (bits wd 16 5) (bits wd 11 5) (bits wd 8 3)) = some (Instr.vmin d a b m) := by
    rw [show bits wd 21 5 = d by unfold bits; omega, show bits wd 16 5 = a by unfold bits; omega, show bits wd 11 5 = b by unfold bits; omega, show bits wd 8 3 = m by unfold bits; omega]
  have h2 : bits wd 0 8 = 5 := by unfold bits; omega
  rw [← h3, pick_Vector h1]; unfold pickVector; rw [h2]
  rfl
theorem vmax (d a b m : Nat) : Statement (.vmax d a b m) := by
  intro hw _
  have hb : (decide (d < 32) && decide (a < 32) && decide (b < 32) && decide (m < 8)) = true := hw
  simp only [Bool.and_eq_true, decide_eq_true_eq] at hb
  obtain ⟨wd, e⟩ : ∃ wd, wd = 0xc0000006 + d * 2097152 + a * 65536 + b * 2048 + m * 256 := ⟨_, rfl⟩
  refine accept (w := wd) e.symm hw ?_
  have h1 : bits wd 26 6 = 48 := by unfold bits; omega
  have h3 : some (Instr.vmax (bits wd 21 5) (bits wd 16 5) (bits wd 11 5) (bits wd 8 3)) = some (Instr.vmax d a b m) := by
    rw [show bits wd 21 5 = d by unfold bits; omega, show bits wd 16 5 = a by unfold bits; omega, show bits wd 11 5 = b by unfold bits; omega, show bits wd 8 3 = m by unfold bits; omega]
  have h2 : bits wd 0 8 = 6 := by unfold bits; omega
  rw [← h3, pick_Vector h1]; unfold pickVector; rw [h2]
  rfl
theorem vabs (d a m : Nat) : Statement (.vabs d a m) := by
  intro hw _
  have hb : (decide (d < 32) && decide (a < 32) && decide (m < 8)) = true := hw
  simp only [Bool.and_eq_true, decide_eq_true_eq] at hb
  obtain ⟨wd, e⟩ : ∃ wd, wd = 0xc0000007 + d * 2097152 + a * 65536 + m * 256 := ⟨_, rfl⟩
  refine accept (w := wd) e.symm hw ?_
  have h1 : bits wd 26 6 = 48 := by unfold bits; omega
  have h3 : some (Instr.vabs (bits wd 21 5) (bits wd 16 5) (bits wd 8 3)) = some (Instr.vabs d a m) := by
    rw [show bits wd 21 5 = d by unfold bits; omega, show bits wd 16 5 = a by unfold bits; omega, show bits wd 8 3 = m by unfold bits; omega]
  have h2 : bits wd 0 8 = 7 := by unfold bits; omega
  rw [← h3, pick_Vector h1]; unfold pickVector; rw [h2]
  rfl
theorem vneg (d a m : Nat) : Statement (.vneg d a m) := by
  intro hw _
  have hb : (decide (d < 32) && decide (a < 32) && decide (m < 8)) = true := hw
  simp only [Bool.and_eq_true, decide_eq_true_eq] at hb
  obtain ⟨wd, e⟩ : ∃ wd, wd = 0xc0000008 + d * 2097152 + a * 65536 + m * 256 := ⟨_, rfl⟩
  refine accept (w := wd) e.symm hw ?_
  have h1 : bits wd 26 6 = 48 := by unfold bits; omega
  have h3 : some (Instr.vneg (bits wd 21 5) (bits wd 16 5) (bits wd 8 3)) = some (Instr.vneg d a m) := by
    rw [show bits wd 21 5 = d by unfold bits; omega, show bits wd 16 5 = a by unfold bits; omega, show bits wd 8 3 = m by unfold bits; omega]
  have h2 : bits wd 0 8 = 8 := by unfold bits; omega
  rw [← h3, pick_Vector h1]; unfold pickVector; rw [h2]
  rfl
theorem vand (d a b m : Nat) : Statement (.vand d a b m) := by
  intro hw _
  have hb : (decide (d < 32) && decide (a < 32) && decide (b < 32) && decide (m < 8)) = true := hw
  simp only [Bool.and_eq_true, decide_eq_true_eq] at hb
  obtain ⟨wd, e⟩ : ∃ wd, wd = 0xc0000009 + d * 2097152 + a * 65536 + b * 2048 + m * 256 := ⟨_, rfl⟩
  refine accept (w := wd) e.symm hw ?_
  have h1 : bits wd 26 6 = 48 := by unfold bits; omega
  have h3 : some (Instr.vand (bits wd 21 5) (bits wd 16 5) (bits wd 11 5) (bits wd 8 3)) = some (Instr.vand d a b m) := by
    rw [show bits wd 21 5 = d by unfold bits; omega, show bits wd 16 5 = a by unfold bits; omega, show bits wd 11 5 = b by unfold bits; omega, show bits wd 8 3 = m by unfold bits; omega]
  have h2 : bits wd 0 8 = 9 := by unfold bits; omega
  rw [← h3, pick_Vector h1]; unfold pickVector; rw [h2]
  rfl
theorem vor (d a b m : Nat) : Statement (.vor d a b m) := by
  intro hw _
  have hb : (decide (d < 32) && decide (a < 32) && decide (b < 32) && decide (m < 8)) = true := hw
  simp only [Bool.and_eq_true, decide_eq_true_eq] at hb
  obtain ⟨wd, e⟩ : ∃ wd, wd = 0xc000000a + d * 2097152 + a * 65536 + b * 2048 + m * 256 := ⟨_, rfl⟩
  refine accept (w := wd) e.symm hw ?_
  have h1 : bits wd 26 6 = 48 := by unfold bits; omega
  have h3 : some (Instr.vor (bits wd 21 5) (bits wd 16 5) (bits wd 11 5) (bits wd 8 3)) = some (Instr.vor d a b m) := by
    rw [show bits wd 21 5 = d by unfold bits; omega, show bits wd 16 5 = a by unfold bits; omega, show bits wd 11 5 = b by unfold bits; omega, show bits wd 8 3 = m by unfold bits; omega]
  have h2 : bits wd 0 8 = 10 := by unfold bits; omega
  rw [← h3, pick_Vector h1]; unfold pickVector; rw [h2]
  rfl
theorem vxor (d a b m : Nat) : Statement (.vxor d a b m) := by
  intro hw _
  have hb : (decide (d < 32) && decide (a < 32) && decide (b < 32) && decide (m < 8)) = true := hw
  simp only [Bool.and_eq_true, decide_eq_true_eq] at hb
  obtain ⟨wd, e⟩ : ∃ wd, wd = 0xc000000b + d * 2097152 + a * 65536 + b * 2048 + m * 256 := ⟨_, rfl⟩
  refine accept (w := wd) e.symm hw ?_
  have h1 : bits wd 26 6 = 48 := by unfold bits; omega
  have h3 : some (Instr.vxor (bits wd 21 5) (bits wd 16 5) (bits wd 11 5) (bits wd 8 3)) = some (Instr.vxor d a b m) := by
    rw [show bits wd 21 5 = d by unfold bits; omega, show bits wd 16 5 = a by unfold bits; omega, show bits wd 11 5 = b by unfold bits; omega, show bits wd 8 3 = m by unfold bits; omega]
  have h2 : bits wd 0 8 = 11 := by unfold bits; omega
  rw [← h3, pick_Vector h1]; unfold pickVector; rw [h2]
  rfl
theorem vshl (d a b m : Nat) : Statement (.vshl d a b m) := by
  intro hw _
  have hb : (decide (d < 32) && decide (a < 32) && decide (b < 32) && decide (m < 8)) = true := hw
  simp only [Bool.and_eq_true, decide_eq_true_eq] at hb
  obtain ⟨wd, e⟩ : ∃ wd, wd = 0xc000000c + d * 2097152 + a * 65536 + b * 2048 + m * 256 := ⟨_, rfl⟩
  refine accept (w := wd) e.symm hw ?_
  have h1 : bits wd 26 6 = 48 := by unfold bits; omega
  have h3 : some (Instr.vshl (bits wd 21 5) (bits wd 16 5) (bits wd 11 5) (bits wd 8 3)) = some (Instr.vshl d a b m) := by
    rw [show bits wd 21 5 = d by unfold bits; omega, show bits wd 16 5 = a by unfold bits; omega, show bits wd 11 5 = b by unfold bits; omega, show bits wd 8 3 = m by unfold bits; omega]
  have h2 : bits wd 0 8 = 12 := by unfold bits; omega
  rw [← h3, pick_Vector h1]; unfold pickVector; rw [h2]
  rfl
theorem vshr (d a b m : Nat) : Statement (.vshr d a b m) := by
  intro hw _
  have hb : (decide (d < 32) && decide (a < 32) && decide (b < 32) && decide (m < 8)) = true := hw
  simp only [Bool.and_eq_true, decide_eq_true_eq] at hb
  obtain ⟨wd, e⟩ : ∃ wd, wd = 0xc000000d + d * 2097152 + a * 65536 + b * 2048 + m * 256 := ⟨_, rfl⟩
  refine accept (w := wd) e.symm hw ?_
  have h1 : bits wd 26 6 = 48 := by unfold bits; omega
  have h3 : some (Instr.vshr (bits wd 21 5) (bits wd 16 5) (bits wd 11 5) (bits wd 8 3)) = some (Instr.vshr d a b m) := by
    rw [show bits wd 21 5 = d by unfold bits; omega, show bits wd 16 5 = a by unfold bits; omega, show bits wd 11 5 = b by unfold bits; omega, show bits wd 8 3 = m by unfold bits; omega]
  have h2 : bits wd 0 8 = 13 := by unfold bits; omega
  rw [← h3, pick_Vector h1]; unfold pickVector; rw [h2]
  rfl
theorem vcmp (d a b m c : Nat) : Statement (.vcmp d a b m c) := by
  intro hw _
  have hb : (decide (d < 8) && decide (a < 32) && decide (b < 32) && decide (m < 8) && decide (c < 8) && decide (c ≤ 5)) = true := hw
  simp only [Bool.and_eq_true, decide_eq_true_eq] at hb
  obtain ⟨wd, e⟩ : ∃ wd, wd = 0xc0000010 + d * 2097152 + a * 65536 + b * 2048 + m * 256 + c := ⟨_, rfl⟩
  refine accept (w := wd) e.symm hw ?_
  have h1 : bits wd 26 6 = 48 := by unfold bits; omega
  have h3 : some (Instr.vcmp (bits wd 21 3) (bits wd 16 5) (bits wd 11 5) (bits wd 8 3) (bits wd 0 3)) = some (Instr.vcmp d a b m c) := by
    rw [show bits wd 21 3 = d by unfold bits; omega, show bits wd 16 5 = a by unfold bits; omega, show bits wd 11 5 = b by unfold bits; omega, show bits wd 8 3 = m by unfold bits; omega, show bits wd 0 3 = c by unfold bits; omega]
  have h2 : bits wd 0 8 = 16 + c := by unfold bits; omega
  rw [← h3, pick_Vector h1]; unfold pickVector; rw [h2]
  have hlo : 0 ≤ c := by omega
  have hup : c ≤ 5 := by omega
  clear h3 h2 h1 e hw hb
  interval_cases c <;> rfl
theorem vsel (d a b m : Nat) : Statement (.vsel d a b m) := by
  intro hw _
  have hb : (decide (d < 32) && decide (a < 32) && decide (b < 32) && decide (m < 8)) = true := hw
  simp only [Bool.and_eq_true, decide_eq_true_eq] at hb
  obtain ⟨wd, e⟩ : ∃ wd, wd = 0xc0000016 + d * 2097152 + a * 65536 + b * 2048 + m * 256 := ⟨_, rfl⟩
  refine accept (w := wd) e.symm hw ?_
  have h1 : bits wd 26 6 = 48 := by unfold bits; omega
  have h3 : some (Instr.vsel (bits wd 21 5) (bits wd 16 5) (bits wd 11 5) (bits wd 8 3)) = some (Instr.vsel d a b m) := by
    rw [show bits wd 21 5 = d by unfold bits; omega, show bits wd 16 5 = a by unfold bits; omega, show bits wd 11 5 = b by unfold bits; omega, show bits wd 8 3 = m by unfold bits; omega]
  have h2 : bits wd 0 8 = 22 := by unfold bits; omega
  rw [← h3, pick_Vector h1]; unfold pickVector; rw [h2]
  rfl
theorem vrcp (d a m : Nat) : Statement (.vrcp d a m) := by
  intro hw _
  have hb : (decide (d < 32) && decide (a < 32) && decide (m < 8)) = true := hw
  simp only [Bool.and_eq_true, decide_eq_true_eq] at hb
  obtain ⟨wd, e⟩ : ∃ wd, wd = 0xc0000018 + d * 2097152 + a * 65536 + m * 256 := ⟨_, rfl⟩
  refine accept (w := wd) e.symm hw ?_
  have h1 : bits wd 26 6 = 48 := by unfold bits; omega
  have h3 : some (Instr.vrcp (bits wd 21 5) (bits wd 16 5) (bits wd 8 3)) = some (Instr.vrcp d a m) := by
    rw [show bits wd 21 5 = d by unfold bits; omega, show bits wd 16 5 = a by unfold bits; omega, show bits wd 8 3 = m by unfold bits; omega]
  have h2 : bits wd 0 8 = 24 := by unfold bits; omega
  rw [← h3, pick_Vector h1]; unfold pickVector; rw [h2]
  rfl
theorem vrsq (d a m : Nat) : Statement (.vrsq d a m) := by
  intro hw _
  have hb : (decide (d < 32) && decide (a < 32) && decide (m < 8)) = true := hw
  simp only [Bool.and_eq_true, decide_eq_true_eq] at hb
  obtain ⟨wd, e⟩ : ∃ wd, wd = 0xc0000019 + d * 2097152 + a * 65536 + m * 256 := ⟨_, rfl⟩
  refine accept (w := wd) e.symm hw ?_
  have h1 : bits wd 26 6 = 48 := by unfold bits; omega
  have h3 : some (Instr.vrsq (bits wd 21 5) (bits wd 16 5) (bits wd 8 3)) = some (Instr.vrsq d a m) := by
    rw [show bits wd 21 5 = d by unfold bits; omega, show bits wd 16 5 = a by unfold bits; omega, show bits wd 8 3 = m by unfold bits; omega]
  have h2 : bits wd 0 8 = 25 := by unfold bits; omega
  rw [← h3, pick_Vector h1]; unfold pickVector; rw [h2]
  rfl
theorem vexp2 (d a m : Nat) : Statement (.vexp2 d a m) := by
  intro hw _
  have hb : (decide (d < 32) && decide (a < 32) && decide (m < 8)) = true := hw
  simp only [Bool.and_eq_true, decide_eq_true_eq] at hb
  obtain ⟨wd, e⟩ : ∃ wd, wd = 0xc000001a + d * 2097152 + a * 65536 + m * 256 := ⟨_, rfl⟩
  refine accept (w := wd) e.symm hw ?_
  have h1 : bits wd 26 6 = 48 := by unfold bits; omega
  have h3 : some (Instr.vexp2 (bits wd 21 5) (bits wd 16 5) (bits wd 8 3)) = some (Instr.vexp2 d a m) := by
    rw [show bits wd 21 5 = d by unfold bits; omega, show bits wd 16 5 = a by unfold bits; omega, show bits wd 8 3 = m by unfold bits; omega]
  have h2 : bits wd 0 8 = 26 := by unfold bits; omega
  rw [← h3, pick_Vector h1]; unfold pickVector; rw [h2]
  rfl
theorem vlog2 (d a m : Nat) : Statement (.vlog2 d a m) := by
  intro hw _
  have hb : (decide (d < 32) && decide (a < 32) && decide (m < 8)) = true := hw
  simp only [Bool.and_eq_true, decide_eq_true_eq] at hb
  obtain ⟨wd, e⟩ : ∃ wd, wd = 0xc000001b + d * 2097152 + a * 65536 + m * 256 := ⟨_, rfl⟩
  refine accept (w := wd) e.symm hw ?_
  have h1 : bits wd 26 6 = 48 := by unfold bits; omega
  have h3 : some (Instr.vlog2 (bits wd 21 5) (bits wd 16 5) (bits wd 8 3)) = some (Instr.vlog2 d a m) := by
    rw [show bits wd 21 5 = d by unfold bits; omega, show bits wd 16 5 = a by unfold bits; omega, show bits wd 8 3 = m by unfold bits; omega]
  have h2 : bits wd 0 8 = 27 := by unfold bits; omega
  rw [← h3, pick_Vector h1]; unfold pickVector; rw [h2]
  rfl
theorem vpack (d a b : Nat) : Statement (.vpack d a b) := by
  intro hw _
  have hb : (decide (d < 32) && decide (a < 32) && decide (b < 32)) = true := hw
  simp only [Bool.and_eq_true, decide_eq_true_eq] at hb
  obtain ⟨wd, e⟩ : ∃ wd, wd = 0xc0000020 + d * 2097152 + a * 65536 + b * 2048 := ⟨_, rfl⟩
  refine accept (w := wd) e.symm hw ?_
  have h1 : bits wd 26 6 = 48 := by unfold bits; omega
  have h3 : some (Instr.vpack (bits wd 21 5) (bits wd 16 5) (bits wd 11 5)) = some (Instr.vpack d a b) := by
    rw [show bits wd 21 5 = d by unfold bits; omega, show bits wd 16 5 = a by unfold bits; omega, show bits wd 11 5 = b by unfold bits; omega]
  have h2 : bits wd 0 8 = 32 := by unfold bits; omega
  rw [← h3, pick_Vector h1]; unfold pickVector; rw [h2]
  rfl
theorem vunpk (d a h : Nat) : Statement (.vunpk d a h) := by
  intro hw _
  have hb : (decide (d < 32) && decide (a < 32) && decide (h < 2)) = true := hw
  simp only [Bool.and_eq_true, decide_eq_true_eq] at hb
  obtain ⟨wd, e⟩ : ∃ wd, wd = 0xc0000021 + d * 2097152 + a * 65536 + h * 2048 := ⟨_, rfl⟩
  refine accept (w := wd) e.symm hw ?_
  have h1 : bits wd 26 6 = 48 := by unfold bits; omega
  have h3 : some (Instr.vunpk (bits wd 21 5) (bits wd 16 5) (bits wd 11 1)) = some (Instr.vunpk d a h) := by
    rw [show bits wd 21 5 = d by unfold bits; omega, show bits wd 16 5 = a by unfold bits; omega, show bits wd 11 1 = h by unfold bits; omega]
  have h2 : bits wd 0 8 = 33 := by unfold bits; omega
  rw [← h3, pick_Vector h1]; unfold pickVector; rw [h2]
  rfl
theorem vsplat (d a t m : Nat) : Statement (.vsplat d a t m) := by
  intro hw _
  have hb : (decide (d < 32) && decide (a < 32) && decide (t < 16) && decide (m < 8) && decide (1 ≤ t) && (decide (t ≤ 7) || t == 9 || t == 10)) = true := hw
  simp only [Bool.and_eq_true, decide_eq_true_eq] at hb
  obtain ⟨wd, e⟩ : ∃ wd, wd = 0xc0000022 + d * 2097152 + a * 65536 + t * 2048 + m * 256 := ⟨_, rfl⟩
  refine accept (w := wd) e.symm hw ?_
  have h1 : bits wd 26 6 = 48 := by unfold bits; omega
  have h3 : some (Instr.vsplat (bits wd 21 5) (bits wd 16 5) (bits wd 11 4) (bits wd 8 3)) = some (Instr.vsplat d a t m) := by
    rw [show bits wd 21 5 = d by unfold bits; omega, show bits wd 16 5 = a by unfold bits; omega, show bits wd 11 4 = t by unfold bits; omega, show bits wd 8 3 = m by unfold bits; omega]
  have h2 : bits wd 0 8 = 34 := by unfold bits; omega
  rw [← h3, pick_Vector h1]; unfold pickVector; rw [h2]
  rfl
theorem vext (d a b : Nat) : Statement (.vext d a b) := by
  intro hw _
  have hb : (decide (d < 32) && decide (a < 32) && decide (b < 32)) = true := hw
  simp only [Bool.and_eq_true, decide_eq_true_eq] at hb
  obtain ⟨wd, e⟩ : ∃ wd, wd = 0xc0000023 + d * 2097152 + a * 65536 + b * 2048 := ⟨_, rfl⟩
  refine accept (w := wd) e.symm hw ?_
  have h1 : bits wd 26 6 = 48 := by unfold bits; omega
  have h3 : some (Instr.vext (bits wd 21 5) (bits wd 16 5) (bits wd 11 5)) = some (Instr.vext d a b) := by
    rw [show bits wd 21 5 = d by unfold bits; omega, show bits wd 16 5 = a by unfold bits; omega, show bits wd 11 5 = b by unfold bits; omega]
  have h2 : bits wd 0 8 = 35 := by unfold bits; omega
  rw [← h3, pick_Vector h1]; unfold pickVector; rw [h2]
  rfl
theorem vins (d a b : Nat) : Statement (.vins d a b) := by
  intro hw _
  have hb : (decide (d < 32) && decide (a < 32) && decide (b < 32)) = true := hw
  simp only [Bool.and_eq_true, decide_eq_true_eq] at hb
  obtain ⟨wd, e⟩ : ∃ wd, wd = 0xc0000024 + d * 2097152 + a * 65536 + b * 2048 := ⟨_, rfl⟩
  refine accept (w := wd) e.symm hw ?_
  have h1 : bits wd 26 6 = 48 := by unfold bits; omega
  have h3 : some (Instr.vins (bits wd 21 5) (bits wd 16 5) (bits wd 11 5)) = some (Instr.vins d a b) := by
    rw [show bits wd 21 5 = d by unfold bits; omega, show bits wd 16 5 = a by unfold bits; omega, show bits wd 11 5 = b by unfold bits; omega]
  have h2 : bits wd 0 8 = 36 := by unfold bits; omega
  rw [← h3, pick_Vector h1]; unfold pickVector; rw [h2]
  rfl
theorem vperm (d a b m : Nat) : Statement (.vperm d a b m) := by
  intro hw _
  have hb : (decide (d < 32) && decide (a < 32) && decide (b < 32) && decide (m < 8)) = true := hw
  simp only [Bool.and_eq_true, decide_eq_true_eq] at hb
  obtain ⟨wd, e⟩ : ∃ wd, wd = 0xc0000025 + d * 2097152 + a * 65536 + b * 2048 + m * 256 := ⟨_, rfl⟩
  refine accept (w := wd) e.symm hw ?_
  have h1 : bits wd 26 6 = 48 := by unfold bits; omega
  have h3 : some (Instr.vperm (bits wd 21 5) (bits wd 16 5) (bits wd 11 5) (bits wd 8 3)) = some (Instr.vperm d a b m) := by
    rw [show bits wd 21 5 = d by unfold bits; omega, show bits wd 16 5 = a by unfold bits; omega, show bits wd 11 5 = b by unfold bits; omega, show bits wd 8 3 = m by unfold bits; omega]
  have h2 : bits wd 0 8 = 37 := by unfold bits; omega
  rw [← h3, pick_Vector h1]; unfold pickVector; rw [h2]
  rfl
theorem vred (d a m o : Nat) : Statement (.vred d a m o) := by
  intro hw _
  have hb : (decide (d < 32) && decide (a < 32) && decide (m < 8) && decide (o < 8) && decide (o ≤ 5)) = true := hw
  simp only [Bool.and_eq_true, decide_eq_true_eq] at hb
  obtain ⟨wd, e⟩ : ∃ wd, wd = 0xc0000028 + d * 2097152 + a * 65536 + m * 256 + o := ⟨_, rfl⟩
  refine accept (w := wd) e.symm hw ?_
  have h1 : bits wd 26 6 = 48 := by unfold bits; omega
  have h3 : some (Instr.vred (bits wd 21 5) (bits wd 16 5) (bits wd 8 3) (bits wd 0 3)) = some (Instr.vred d a m o) := by
    rw [show bits wd 21 5 = d by unfold bits; omega, show bits wd 16 5 = a by unfold bits; omega, show bits wd 8 3 = m by unfold bits; omega, show bits wd 0 3 = o by unfold bits; omega]
  have h2 : bits wd 0 8 = 40 + o := by unfold bits; omega
  rw [← h3, pick_Vector h1]; unfold pickVector; rw [h2]
  have hlo : 0 ≤ o := by omega
  have hup : o ≤ 5 := by omega
  clear h3 h2 h1 e hw hb
  interval_cases o <;> rfl
theorem vscan (d a m o : Nat) : Statement (.vscan d a m o) := by
  intro hw _
  have hb : (decide (d < 32) && decide (a < 32) && decide (m < 8) && decide (o < 4) && decide (o ≤ 2)) = true := hw
  simp only [Bool.and_eq_true, decide_eq_true_eq] at hb
  obtain ⟨wd, e⟩ : ∃ wd, wd = 0xc0000030 + d * 2097152 + a * 65536 + m * 256 + o := ⟨_, rfl⟩
  refine accept (w := wd) e.symm hw ?_
  have h1 : bits wd 26 6 = 48 := by unfold bits; omega
  have h3 : some (Instr.vscan (bits wd 21 5) (bits wd 16 5) (bits wd 8 3) (bits wd 0 2)) = some (Instr.vscan d a m o) := by
    rw [show bits wd 21 5 = d by unfold bits; omega, show bits wd 16 5 = a by unfold bits; omega, show bits wd 8 3 = m by unfold bits; omega, show bits wd 0 2 = o by unfold bits; omega]
  have h2 : bits wd 0 8 = 48 + o := by unfold bits; omega
  rw [← h3, pick_Vector h1]; unfold pickVector; rw [h2]
  have hlo : 0 ≤ o := by omega
  have hup : o ≤ 2 := by omega
  clear h3 h2 h1 e hw hb
  interval_cases o <;> rfl
theorem vcvt (d a r m t : Nat) : Statement (.vcvt d a r m t) := by
  intro hw _
  have hb : (decide (d < 32) && decide (a < 32) && decide (r < 8) && decide (m < 8) && decide (t < 16) && decide (1 ≤ t) && decide (t ≤ 8) && decide (r ≤ 4)) = true := hw
  simp only [Bool.and_eq_true, decide_eq_true_eq] at hb
  obtain ⟨wd, e⟩ : ∃ wd, wd = 0xc0000040 + d * 2097152 + a * 65536 + r * 2048 + m * 256 + t := ⟨_, rfl⟩
  refine accept (w := wd) e.symm hw ?_
  have h1 : bits wd 26 6 = 48 := by unfold bits; omega
  have h3 : some (Instr.vcvt (bits wd 21 5) (bits wd 16 5) (bits wd 11 3) (bits wd 8 3) (bits wd 0 4)) = some (Instr.vcvt d a r m t) := by
    rw [show bits wd 21 5 = d by unfold bits; omega, show bits wd 16 5 = a by unfold bits; omega, show bits wd 11 3 = r by unfold bits; omega, show bits wd 8 3 = m by unfold bits; omega, show bits wd 0 4 = t by unfold bits; omega]
  have h2 : bits wd 0 8 = 64 + t := by unfold bits; omega
  rw [← h3, pick_Vector h1]; unfold pickVector; rw [h2]
  have hlo : 1 ≤ t := by omega
  have hup : t ≤ 8 := by omega
  clear h3 h2 h1 e hw hb
  interval_cases t <;> rfl
theorem vld (d a m t : Nat) : Statement (.vld d a m t) := by
  intro hw _
  have hb : (decide (d < 32) && decide (a < 32) && decide (m < 8) && decide (t < 16) && (decide (t ≤ 7) || t == 9 || t == 10)) = true := hw
  simp only [Bool.and_eq_true, decide_eq_true_eq] at hb
  obtain ⟨wd, e⟩ : ∃ wd, wd = 0xc4000000 + d * 2097152 + a * 65536 + m * 256 + t := ⟨_, rfl⟩
  refine accept (w := wd) e.symm hw ?_
  have h1 : bits wd 26 6 = 49 := by unfold bits; omega
  have h3 : some (Instr.vld (bits wd 21 5) (bits wd 16 5) (bits wd 8 3) (bits wd 0 4)) = some (Instr.vld d a m t) := by
    rw [show bits wd 21 5 = d by unfold bits; omega, show bits wd 16 5 = a by unfold bits; omega, show bits wd 8 3 = m by unfold bits; omega, show bits wd 0 4 = t by unfold bits; omega]
  have h2 : bits wd 4 4 = 0 := by unfold bits; omega
  rw [← h3, pick_VectorMemory h1]; unfold pickVectorMemory; rw [h2]
  rfl
theorem vst (d a m t : Nat) : Statement (.vst d a m t) := by
  intro hw _
  have hb : (decide (d < 32) && decide (a < 32) && decide (m < 8) && decide (t < 16) && (decide (t ≤ 7) || t == 9 || t == 10)) = true := hw
  simp only [Bool.and_eq_true, decide_eq_true_eq] at hb
  obtain ⟨wd, e⟩ : ∃ wd, wd = 0xc4000010 + d * 2097152 + a * 65536 + m * 256 + t := ⟨_, rfl⟩
  refine accept (w := wd) e.symm hw ?_
  have h1 : bits wd 26 6 = 49 := by unfold bits; omega
  have h3 : some (Instr.vst (bits wd 21 5) (bits wd 16 5) (bits wd 8 3) (bits wd 0 4)) = some (Instr.vst d a m t) := by
    rw [show bits wd 21 5 = d by unfold bits; omega, show bits wd 16 5 = a by unfold bits; omega, show bits wd 8 3 = m by unfold bits; omega, show bits wd 0 4 = t by unfold bits; omega]
  have h2 : bits wd 4 4 = 1 := by unfold bits; omega
  rw [← h3, pick_VectorMemory h1]; unfold pickVectorMemory; rw [h2]
  rfl
theorem vlds (d a b m t : Nat) : Statement (.vlds d a b m t) := by
  intro hw _
  have hb : (decide (d < 32) && decide (a < 32) && decide (b < 32) && decide (m < 8) && decide (t < 16) && (decide (t ≤ 7) || t == 9 || t == 10)) = true := hw
  simp only [Bool.and_eq_true, decide_eq_true_eq] at hb
  obtain ⟨wd, e⟩ : ∃ wd, wd = 0xc4000020 + d * 2097152 + a * 65536 + b * 2048 + m * 256 + t := ⟨_, rfl⟩
  refine accept (w := wd) e.symm hw ?_
  have h1 : bits wd 26 6 = 49 := by unfold bits; omega
  have h3 : some (Instr.vlds (bits wd 21 5) (bits wd 16 5) (bits wd 11 5) (bits wd 8 3) (bits wd 0 4)) = some (Instr.vlds d a b m t) := by
    rw [show bits wd 21 5 = d by unfold bits; omega, show bits wd 16 5 = a by unfold bits; omega, show bits wd 11 5 = b by unfold bits; omega, show bits wd 8 3 = m by unfold bits; omega, show bits wd 0 4 = t by unfold bits; omega]
  have h2 : bits wd 4 4 = 2 := by unfold bits; omega
  rw [← h3, pick_VectorMemory h1]; unfold pickVectorMemory; rw [h2]
  rfl
theorem vsts (d a b m t : Nat) : Statement (.vsts d a b m t) := by
  intro hw _
  have hb : (decide (d < 32) && decide (a < 32) && decide (b < 32) && decide (m < 8) && decide (t < 16) && (decide (t ≤ 7) || t == 9 || t == 10)) = true := hw
  simp only [Bool.and_eq_true, decide_eq_true_eq] at hb
  obtain ⟨wd, e⟩ : ∃ wd, wd = 0xc4000030 + d * 2097152 + a * 65536 + b * 2048 + m * 256 + t := ⟨_, rfl⟩
  refine accept (w := wd) e.symm hw ?_
  have h1 : bits wd 26 6 = 49 := by unfold bits; omega
  have h3 : some (Instr.vsts (bits wd 21 5) (bits wd 16 5) (bits wd 11 5) (bits wd 8 3) (bits wd 0 4)) = some (Instr.vsts d a b m t) := by
    rw [show bits wd 21 5 = d by unfold bits; omega, show bits wd 16 5 = a by unfold bits; omega, show bits wd 11 5 = b by unfold bits; omega, show bits wd 8 3 = m by unfold bits; omega, show bits wd 0 4 = t by unfold bits; omega]
  have h2 : bits wd 4 4 = 3 := by unfold bits; omega
  rw [← h3, pick_VectorMemory h1]; unfold pickVectorMemory; rw [h2]
  rfl
theorem vldi (d a b m t : Nat) : Statement (.vldi d a b m t) := by
  intro hw _
  have hb : (decide (d < 32) && decide (a < 32) && decide (b < 32) && decide (m < 8) && decide (t < 16) && (decide (t ≤ 7) || t == 9 || t == 10)) = true := hw
  simp only [Bool.and_eq_true, decide_eq_true_eq] at hb
  obtain ⟨wd, e⟩ : ∃ wd, wd = 0xc4000040 + d * 2097152 + a * 65536 + b * 2048 + m * 256 + t := ⟨_, rfl⟩
  refine accept (w := wd) e.symm hw ?_
  have h1 : bits wd 26 6 = 49 := by unfold bits; omega
  have h3 : some (Instr.vldi (bits wd 21 5) (bits wd 16 5) (bits wd 11 5) (bits wd 8 3) (bits wd 0 4)) = some (Instr.vldi d a b m t) := by
    rw [show bits wd 21 5 = d by unfold bits; omega, show bits wd 16 5 = a by unfold bits; omega, show bits wd 11 5 = b by unfold bits; omega, show bits wd 8 3 = m by unfold bits; omega, show bits wd 0 4 = t by unfold bits; omega]
  have h2 : bits wd 4 4 = 4 := by unfold bits; omega
  rw [← h3, pick_VectorMemory h1]; unfold pickVectorMemory; rw [h2]
  rfl
theorem vsti (d a b m t : Nat) : Statement (.vsti d a b m t) := by
  intro hw _
  have hb : (decide (d < 32) && decide (a < 32) && decide (b < 32) && decide (m < 8) && decide (t < 16) && (decide (t ≤ 7) || t == 9 || t == 10)) = true := hw
  simp only [Bool.and_eq_true, decide_eq_true_eq] at hb
  obtain ⟨wd, e⟩ : ∃ wd, wd = 0xc4000050 + d * 2097152 + a * 65536 + b * 2048 + m * 256 + t := ⟨_, rfl⟩
  refine accept (w := wd) e.symm hw ?_
  have h1 : bits wd 26 6 = 49 := by unfold bits; omega
  have h3 : some (Instr.vsti (bits wd 21 5) (bits wd 16 5) (bits wd 11 5) (bits wd 8 3) (bits wd 0 4)) = some (Instr.vsti d a b m t) := by
    rw [show bits wd 21 5 = d by unfold bits; omega, show bits wd 16 5 = a by unfold bits; omega, show bits wd 11 5 = b by unfold bits; omega, show bits wd 8 3 = m by unfold bits; omega, show bits wd 0 4 = t by unfold bits; omega]
  have h2 : bits wd 4 4 = 5 := by unfold bits; omega
  rw [← h3, pick_VectorMemory h1]; unfold pickVectorMemory; rw [h2]
  rfl
theorem vldp (d a m n : Nat) : Statement (.vldp d a m n) := by
  intro hw _
  have hb : (decide (d < 32) && decide (a < 32) && decide (m < 8) && decide (n < 16) && decide (2 ≤ n) && decide (n ≤ 8)) = true := hw
  simp only [Bool.and_eq_true, decide_eq_true_eq] at hb
  obtain ⟨wd, e⟩ : ∃ wd, wd = 0xc4000060 + d * 2097152 + a * 65536 + m * 256 + n := ⟨_, rfl⟩
  refine accept (w := wd) e.symm hw ?_
  have h1 : bits wd 26 6 = 49 := by unfold bits; omega
  have h3 : some (Instr.vldp (bits wd 21 5) (bits wd 16 5) (bits wd 8 3) (bits wd 0 4)) = some (Instr.vldp d a m n) := by
    rw [show bits wd 21 5 = d by unfold bits; omega, show bits wd 16 5 = a by unfold bits; omega, show bits wd 8 3 = m by unfold bits; omega, show bits wd 0 4 = n by unfold bits; omega]
  have h2 : bits wd 4 4 = 6 := by unfold bits; omega
  rw [← h3, pick_VectorMemory h1]; unfold pickVectorMemory; rw [h2]
  rfl
theorem vstp (d a m : Nat) : Statement (.vstp d a m) := by
  intro hw _
  have hb : (decide (d < 32) && decide (a < 32) && decide (m < 8)) = true := hw
  simp only [Bool.and_eq_true, decide_eq_true_eq] at hb
  obtain ⟨wd, e⟩ : ∃ wd, wd = 0xc4000070 + d * 2097152 + a * 65536 + m * 256 := ⟨_, rfl⟩
  refine accept (w := wd) e.symm hw ?_
  have h1 : bits wd 26 6 = 49 := by unfold bits; omega
  have h3 : some (Instr.vstp (bits wd 21 5) (bits wd 16 5) (bits wd 8 3)) = some (Instr.vstp d a m) := by
    rw [show bits wd 21 5 = d by unfold bits; omega, show bits wd 16 5 = a by unfold bits; omega, show bits wd 8 3 = m by unfold bits; omega]
  have h2 : bits wd 4 4 = 7 := by unfold bits; omega
  rw [← h3, pick_VectorMemory h1]; unfold pickVectorMemory; rw [h2]
  rfl
theorem vnzs (d a m : Nat) : Statement (.vnzs d a m) := by
  intro hw _
  have hb : (decide (d < 32) && decide (a < 32) && decide (m < 8)) = true := hw
  simp only [Bool.and_eq_true, decide_eq_true_eq] at hb
  obtain ⟨wd, e⟩ : ∃ wd, wd = 0xc8000000 + d * 2097152 + a * 65536 + m * 256 := ⟨_, rfl⟩
  refine accept (w := wd) e.symm hw ?_
  have h1 : bits wd 26 6 = 50 := by unfold bits; omega
  have h3 : some (Instr.vnzs (bits wd 21 5) (bits wd 16 5) (bits wd 8 3)) = some (Instr.vnzs d a m) := by
    rw [show bits wd 21 5 = d by unfold bits; omega, show bits wd 16 5 = a by unfold bits; omega, show bits wd 8 3 = m by unfold bits; omega]
  have h2 : bits wd 0 8 = 0 := by unfold bits; omega
  rw [← h3, pick_Sparse h1]; unfold pickSparse; rw [h2]
  rfl
theorem vband (d a b m : Nat) : Statement (.vband d a b m) := by
  intro hw _
  have hb : (decide (d < 32) && decide (a < 32) && decide (b < 32) && decide (m < 8)) = true := hw
  simp only [Bool.and_eq_true, decide_eq_true_eq] at hb
  obtain ⟨wd, e⟩ : ∃ wd, wd = 0xc8000001 + d * 2097152 + a * 65536 + b * 2048 + m * 256 := ⟨_, rfl⟩
  refine accept (w := wd) e.symm hw ?_
  have h1 : bits wd 26 6 = 50 := by unfold bits; omega
  have h3 : some (Instr.vband (bits wd 21 5) (bits wd 16 5) (bits wd 11 5) (bits wd 8 3)) = some (Instr.vband d a b m) := by
    rw [show bits wd 21 5 = d by unfold bits; omega, show bits wd 16 5 = a by unfold bits; omega, show bits wd 11 5 = b by unfold bits; omega, show bits wd 8 3 = m by unfold bits; omega]
  have h2 : bits wd 0 8 = 1 := by unfold bits; omega
  rw [← h3, pick_Sparse h1]; unfold pickSparse; rw [h2]
  rfl
theorem vpopp (d a m : Nat) : Statement (.vpopp d a m) := by
  intro hw _
  have hb : (decide (d < 32) && decide (a < 32) && decide (m < 8)) = true := hw
  simp only [Bool.and_eq_true, decide_eq_true_eq] at hb
  obtain ⟨wd, e⟩ : ∃ wd, wd = 0xc8000002 + d * 2097152 + a * 65536 + m * 256 := ⟨_, rfl⟩
  refine accept (w := wd) e.symm hw ?_
  have h1 : bits wd 26 6 = 50 := by unfold bits; omega
  have h3 : some (Instr.vpopp (bits wd 21 5) (bits wd 16 5) (bits wd 8 3)) = some (Instr.vpopp d a m) := by
    rw [show bits wd 21 5 = d by unfold bits; omega, show bits wd 16 5 = a by unfold bits; omega, show bits wd 8 3 = m by unfold bits; omega]
  have h2 : bits wd 0 8 = 2 := by unfold bits; omega
  rw [← h3, pick_Sparse h1]; unfold pickSparse; rw [h2]
  rfl
theorem visect (d a b m : Nat) : Statement (.visect d a b m) := by
  intro hw _
  have hb : (decide (d < 32) && decide (a < 32) && decide (b < 32) && decide (m < 8)) = true := hw
  simp only [Bool.and_eq_true, decide_eq_true_eq] at hb
  obtain ⟨wd, e⟩ : ∃ wd, wd = 0xc8000003 + d * 2097152 + a * 65536 + b * 2048 + m * 256 := ⟨_, rfl⟩
  refine accept (w := wd) e.symm hw ?_
  have h1 : bits wd 26 6 = 50 := by unfold bits; omega
  have h3 : some (Instr.visect (bits wd 21 5) (bits wd 16 5) (bits wd 11 5) (bits wd 8 3)) = some (Instr.visect d a b m) := by
    rw [show bits wd 21 5 = d by unfold bits; omega, show bits wd 16 5 = a by unfold bits; omega, show bits wd 11 5 = b by unfold bits; omega, show bits wd 8 3 = m by unfold bits; omega]
  have h2 : bits wd 0 8 = 3 := by unfold bits; omega
  rw [← h3, pick_Sparse h1]; unfold pickSparse; rw [h2]
  rfl
theorem vmovmMaskToVector (d a : Nat) : Statement (.vmovmMaskToVector d a) := by
  intro hw _
  have hb : (decide (d < 32) && decide (a < 8)) = true := hw
  simp only [Bool.and_eq_true, decide_eq_true_eq] at hb
  obtain ⟨wd, e⟩ : ∃ wd, wd = 0xc8000008 + d * 2097152 + a * 65536 := ⟨_, rfl⟩
  refine accept (w := wd) e.symm hw ?_
  have h1 : bits wd 26 6 = 50 := by unfold bits; omega
  have h3 : some (Instr.vmovmMaskToVector (bits wd 21 5) (bits wd 16 3)) = some (Instr.vmovmMaskToVector d a) := by
    rw [show bits wd 21 5 = d by unfold bits; omega, show bits wd 16 3 = a by unfold bits; omega]
  have h2 : bits wd 0 8 = 8 := by unfold bits; omega
  rw [← h3, pick_Sparse h1]; unfold pickSparse; rw [h2]
  rfl
theorem mand (d a b : Nat) : Statement (.mand d a b) := by
  intro hw _
  have hb : (decide (d < 8) && decide (a < 8) && decide (b < 8)) = true := hw
  simp only [Bool.and_eq_true, decide_eq_true_eq] at hb
  obtain ⟨wd, e⟩ : ∃ wd, wd = 0xc8000009 + d * 2097152 + a * 65536 + b * 2048 := ⟨_, rfl⟩
  refine accept (w := wd) e.symm hw ?_
  have h1 : bits wd 26 6 = 50 := by unfold bits; omega
  have h3 : some (Instr.mand (bits wd 21 3) (bits wd 16 3) (bits wd 11 3)) = some (Instr.mand d a b) := by
    rw [show bits wd 21 3 = d by unfold bits; omega, show bits wd 16 3 = a by unfold bits; omega, show bits wd 11 3 = b by unfold bits; omega]
  have h2 : bits wd 0 8 = 9 := by unfold bits; omega
  rw [← h3, pick_Sparse h1]; unfold pickSparse; rw [h2]
  rfl
theorem mor (d a b : Nat) : Statement (.mor d a b) := by
  intro hw _
  have hb : (decide (d < 8) && decide (a < 8) && decide (b < 8)) = true := hw
  simp only [Bool.and_eq_true, decide_eq_true_eq] at hb
  obtain ⟨wd, e⟩ : ∃ wd, wd = 0xc800000a + d * 2097152 + a * 65536 + b * 2048 := ⟨_, rfl⟩
  refine accept (w := wd) e.symm hw ?_
  have h1 : bits wd 26 6 = 50 := by unfold bits; omega
  have h3 : some (Instr.mor (bits wd 21 3) (bits wd 16 3) (bits wd 11 3)) = some (Instr.mor d a b) := by
    rw [show bits wd 21 3 = d by unfold bits; omega, show bits wd 16 3 = a by unfold bits; omega, show bits wd 11 3 = b by unfold bits; omega]
  have h2 : bits wd 0 8 = 10 := by unfold bits; omega
  rw [← h3, pick_Sparse h1]; unfold pickSparse; rw [h2]
  rfl
theorem mnot (d a : Nat) : Statement (.mnot d a) := by
  intro hw _
  have hb : (decide (d < 8) && decide (a < 8)) = true := hw
  simp only [Bool.and_eq_true, decide_eq_true_eq] at hb
  obtain ⟨wd, e⟩ : ∃ wd, wd = 0xc800000b + d * 2097152 + a * 65536 := ⟨_, rfl⟩
  refine accept (w := wd) e.symm hw ?_
  have h1 : bits wd 26 6 = 50 := by unfold bits; omega
  have h3 : some (Instr.mnot (bits wd 21 3) (bits wd 16 3)) = some (Instr.mnot d a) := by
    rw [show bits wd 21 3 = d by unfold bits; omega, show bits wd 16 3 = a by unfold bits; omega]
  have h2 : bits wd 0 8 = 11 := by unfold bits; omega
  rw [← h3, pick_Sparse h1]; unfold pickSparse; rw [h2]
  rfl
theorem mpop (d a : Nat) : Statement (.mpop d a) := by
  intro hw _
  have hb : (decide (d < 32) && decide (a < 8)) = true := hw
  simp only [Bool.and_eq_true, decide_eq_true_eq] at hb
  obtain ⟨wd, e⟩ : ∃ wd, wd = 0xc800000c + d * 2097152 + a * 65536 := ⟨_, rfl⟩
  refine accept (w := wd) e.symm hw ?_
  have h1 : bits wd 26 6 = 50 := by unfold bits; omega
  have h3 : some (Instr.mpop (bits wd 21 5) (bits wd 16 3)) = some (Instr.mpop d a) := by
    rw [show bits wd 21 5 = d by unfold bits; omega, show bits wd 16 3 = a by unfold bits; omega]
  have h2 : bits wd 0 8 = 12 := by unfold bits; omega
  rw [← h3, pick_Sparse h1]; unfold pickSparse; rw [h2]
  rfl
theorem vmovmVectorToMask (d a : Nat) : Statement (.vmovmVectorToMask d a) := by
  intro hw _
  have hb : (decide (d < 8) && decide (a < 32)) = true := hw
  simp only [Bool.and_eq_true, decide_eq_true_eq] at hb
  obtain ⟨wd, e⟩ : ∃ wd, wd = 0xc800000d + d * 2097152 + a * 65536 := ⟨_, rfl⟩
  refine accept (w := wd) e.symm hw ?_
  have h1 : bits wd 26 6 = 50 := by unfold bits; omega
  have h3 : some (Instr.vmovmVectorToMask (bits wd 21 3) (bits wd 16 5)) = some (Instr.vmovmVectorToMask d a) := by
    rw [show bits wd 21 3 = d by unfold bits; omega, show bits wd 16 5 = a by unfold bits; omega]
  have h2 : bits wd 0 8 = 13 := by unfold bits; omega
  rw [← h3, pick_Sparse h1]; unfold pickSparse; rw [h2]
  rfl
theorem send (a b p h : Nat) : Statement (.send a b p h) := by
  intro hw _
  have hb : (decide (a < 32) && decide (b < 32) && decide (p < 4) && decide (h < 4096) && decide (1 ≤ b) && decide (b ≤ 29)) = true := hw
  simp only [Bool.and_eq_true, decide_eq_true_eq] at hb
  obtain ⟨wd, e⟩ : ∃ wd, wd = 0xd0000000 + a * 2097152 + b * 65536 + p * 4096 + h := ⟨_, rfl⟩
  refine accept (w := wd) e.symm hw ?_
  have h1 : bits wd 26 6 = 52 := by unfold bits; omega
  have h3 : some (Instr.send (bits wd 21 5) (bits wd 16 5) (bits wd 12 2) (bits wd 0 12)) = some (Instr.send a b p h) := by
    rw [show bits wd 21 5 = a by unfold bits; omega, show bits wd 16 5 = b by unfold bits; omega, show bits wd 12 2 = p by unfold bits; omega, show bits wd 0 12 = h by unfold bits; omega]
  rw [← h3]; unfold pick; rw [h1]; rfl
theorem sendi (a b p h : Nat) : Statement (.sendi a b p h) := by
  intro hw _
  have hb : (decide (a < 32) && decide (b < 32) && decide (p < 4) && decide (h < 4096) && decide (1 ≤ b) && decide (b ≤ 30)) = true := hw
  simp only [Bool.and_eq_true, decide_eq_true_eq] at hb
  obtain ⟨wd, e⟩ : ∃ wd, wd = 0xd4000000 + a * 2097152 + b * 65536 + p * 4096 + h := ⟨_, rfl⟩
  refine accept (w := wd) e.symm hw ?_
  have h1 : bits wd 26 6 = 53 := by unfold bits; omega
  have h3 : some (Instr.sendi (bits wd 21 5) (bits wd 16 5) (bits wd 12 2) (bits wd 0 12)) = some (Instr.sendi a b p h) := by
    rw [show bits wd 21 5 = a by unfold bits; omega, show bits wd 16 5 = b by unfold bits; omega, show bits wd 12 2 = p by unfold bits; omega, show bits wd 0 12 = h by unfold bits; omega]
  rw [← h3]; unfold pick; rw [h1]; rfl
theorem sendm (a b r p h : Nat) : Statement (.sendm a b r p h) := by
  intro hw _
  have hb : (decide (a < 32) && decide (b < 32) && decide (r < 4) && decide (p < 4) && decide (h < 4096) && decide (1 ≤ b) && decide (b ≤ 29)) = true := hw
  simp only [Bool.and_eq_true, decide_eq_true_eq] at hb
  obtain ⟨wd, e⟩ : ∃ wd, wd = 0xd8000000 + a * 2097152 + b * 65536 + r * 16384 + p * 4096 + h := ⟨_, rfl⟩
  refine accept (w := wd) e.symm hw ?_
  have h1 : bits wd 26 6 = 54 := by unfold bits; omega
  have h3 : some (Instr.sendm (bits wd 21 5) (bits wd 16 5) (bits wd 14 2) (bits wd 12 2) (bits wd 0 12)) = some (Instr.sendm a b r p h) := by
    rw [show bits wd 21 5 = a by unfold bits; omega, show bits wd 16 5 = b by unfold bits; omega, show bits wd 14 2 = r by unfold bits; omega, show bits wd 12 2 = p by unfold bits; omega, show bits wd 0 12 = h by unfold bits; omega]
  rw [← h3]; unfold pick; rw [h1]; rfl
theorem spawn (a b p h : Nat) : Statement (.spawn a b p h) := by
  intro hw _
  have hb : (decide (a < 32) && decide (b < 32) && decide (p < 4) && decide (h < 4096) && decide (1 ≤ a) && decide (a ≤ 30) && decide (1 ≤ b) && decide (b ≤ 30)) = true := hw
  simp only [Bool.and_eq_true, decide_eq_true_eq] at hb
  obtain ⟨wd, e⟩ : ∃ wd, wd = 0xdc000000 + a * 2097152 + b * 65536 + p * 4096 + h := ⟨_, rfl⟩
  refine accept (w := wd) e.symm hw ?_
  have h1 : bits wd 26 6 = 55 := by unfold bits; omega
  have h3 : some (Instr.spawn (bits wd 21 5) (bits wd 16 5) (bits wd 12 2) (bits wd 0 12)) = some (Instr.spawn a b p h) := by
    rw [show bits wd 21 5 = a by unfold bits; omega, show bits wd 16 5 = b by unfold bits; omega, show bits wd 12 2 = p by unfold bits; omega, show bits wd 0 12 = h by unfold bits; omega]
  rw [← h3]; unfold pick; rw [h1]; rfl
theorem xdsp (a b p h : Nat) : Statement (.xdsp a b p h) := by
  intro hw _
  have hb : (decide (a < 32) && decide (b < 32) && decide (p < 4) && decide (h < 4096) && decide (1 ≤ a) && decide (a ≤ 30) && decide (1 ≤ b) && decide (b ≤ 29)) = true := hw
  simp only [Bool.and_eq_true, decide_eq_true_eq] at hb
  obtain ⟨wd, e⟩ : ∃ wd, wd = 0xe0000000 + a * 2097152 + b * 65536 + p * 4096 + h := ⟨_, rfl⟩
  refine accept (w := wd) e.symm hw ?_
  have h1 : bits wd 26 6 = 56 := by unfold bits; omega
  have h3 : some (Instr.xdsp (bits wd 21 5) (bits wd 16 5) (bits wd 12 2) (bits wd 0 12)) = some (Instr.xdsp a b p h) := by
    rw [show bits wd 21 5 = a by unfold bits; omega, show bits wd 16 5 = b by unfold bits; omega, show bits wd 12 2 = p by unfold bits; omega, show bits wd 0 12 = h by unfold bits; omega]
  rw [← h3]; unfold pick; rw [h1]; rfl
theorem endThread : Statement (.endThread) := by
  intro _ _; decide
theorem yield : Statement (.yield) := by
  intro _ _; decide
theorem suspend (a b : Nat) : Statement (.suspend a b) := by
  intro hw _
  have hb : (decide (a < 32) && decide (b < 32)) = true := hw
  simp only [Bool.and_eq_true, decide_eq_true_eq] at hb
  obtain ⟨wd, e⟩ : ∃ wd, wd = 0xe4000002 + a * 65536 + b * 2048 := ⟨_, rfl⟩
  refine accept (w := wd) e.symm hw ?_
  have h1 : bits wd 26 6 = 57 := by unfold bits; omega
  have h3 : some (Instr.suspend (bits wd 16 5) (bits wd 11 5)) = some (Instr.suspend a b) := by
    rw [show bits wd 16 5 = a by unfold bits; omega, show bits wd 11 5 = b by unfold bits; omega]
  have h2 : bits wd 0 6 = 2 := by unfold bits; omega
  rw [← h3, pick_Sync h1]; unfold pickSync; rw [h2]
  rfl
theorem resume (d a b : Nat) : Statement (.resume d a b) := by
  intro hw _
  have hb : (decide (d < 32) && decide (a < 32) && decide (b < 32)) = true := hw
  simp only [Bool.and_eq_true, decide_eq_true_eq] at hb
  obtain ⟨wd, e⟩ : ∃ wd, wd = 0xe4000003 + d * 2097152 + a * 65536 + b * 2048 := ⟨_, rfl⟩
  refine accept (w := wd) e.symm hw ?_
  have h1 : bits wd 26 6 = 57 := by unfold bits; omega
  have h3 : some (Instr.resume (bits wd 21 5) (bits wd 16 5) (bits wd 11 5)) = some (Instr.resume d a b) := by
    rw [show bits wd 21 5 = d by unfold bits; omega, show bits wd 16 5 = a by unfold bits; omega, show bits wd 11 5 = b by unfold bits; omega]
  have h2 : bits wd 0 6 = 3 := by unfold bits; omega
  rw [← h3, pick_Sync h1]; unfold pickSync; rw [h2]
  rfl
theorem hbeat : Statement (.hbeat) := by
  intro _ _; decide
theorem cnti (a b : Nat) : Statement (.cnti a b) := by
  intro hw _
  have hb : (decide (a < 32) && decide (b < 32)) = true := hw
  simp only [Bool.and_eq_true, decide_eq_true_eq] at hb
  obtain ⟨wd, e⟩ : ∃ wd, wd = 0xe4000008 + a * 65536 + b * 2048 := ⟨_, rfl⟩
  refine accept (w := wd) e.symm hw ?_
  have h1 : bits wd 26 6 = 57 := by unfold bits; omega
  have h3 : some (Instr.cnti (bits wd 16 5) (bits wd 11 5)) = some (Instr.cnti a b) := by
    rw [show bits wd 16 5 = a by unfold bits; omega, show bits wd 11 5 = b by unfold bits; omega]
  have h2 : bits wd 0 6 = 8 := by unfold bits; omega
  rw [← h3, pick_Sync h1]; unfold pickSync; rw [h2]
  rfl
theorem cnta (d a b : Nat) : Statement (.cnta d a b) := by
  intro hw _
  have hb : (decide (d < 32) && decide (a < 32) && decide (b < 32)) = true := hw
  simp only [Bool.and_eq_true, decide_eq_true_eq] at hb
  obtain ⟨wd, e⟩ : ∃ wd, wd = 0xe4000009 + d * 2097152 + a * 65536 + b * 2048 := ⟨_, rfl⟩
  refine accept (w := wd) e.symm hw ?_
  have h1 : bits wd 26 6 = 57 := by unfold bits; omega
  have h3 : some (Instr.cnta (bits wd 21 5) (bits wd 16 5) (bits wd 11 5)) = some (Instr.cnta d a b) := by
    rw [show bits wd 21 5 = d by unfold bits; omega, show bits wd 16 5 = a by unfold bits; omega, show bits wd 11 5 = b by unfold bits; omega]
  have h2 : bits wd 0 6 = 9 := by unfold bits; omega
  rw [← h3, pick_Sync h1]; unfold pickSync; rw [h2]
  rfl
theorem cntaRel (d a b : Nat) : Statement (.cntaRel d a b) := by
  intro hw _
  have hb : (decide (d < 32) && decide (a < 32) && decide (b < 32)) = true := hw
  simp only [Bool.and_eq_true, decide_eq_true_eq] at hb
  obtain ⟨wd, e⟩ : ∃ wd, wd = 0xe400000a + d * 2097152 + a * 65536 + b * 2048 := ⟨_, rfl⟩
  refine accept (w := wd) e.symm hw ?_
  have h1 : bits wd 26 6 = 57 := by unfold bits; omega
  have h3 : some (Instr.cntaRel (bits wd 21 5) (bits wd 16 5) (bits wd 11 5)) = some (Instr.cntaRel d a b) := by
    rw [show bits wd 21 5 = d by unfold bits; omega, show bits wd 16 5 = a by unfold bits; omega, show bits wd 11 5 = b by unfold bits; omega]
  have h2 : bits wd 0 6 = 10 := by unfold bits; omega
  rw [← h3, pick_Sync h1]; unfold pickSync; rw [h2]
  rfl
theorem cntw (d a b : Nat) : Statement (.cntw d a b) := by
  intro hw _
  have hb : (decide (d < 32) && decide (a < 32) && decide (b < 32)) = true := hw
  simp only [Bool.and_eq_true, decide_eq_true_eq] at hb
  obtain ⟨wd, e⟩ : ∃ wd, wd = 0xe400000b + d * 2097152 + a * 65536 + b * 2048 := ⟨_, rfl⟩
  refine accept (w := wd) e.symm hw ?_
  have h1 : bits wd 26 6 = 57 := by unfold bits; omega
  have h3 : some (Instr.cntw (bits wd 21 5) (bits wd 16 5) (bits wd 11 5)) = some (Instr.cntw d a b) := by
    rw [show bits wd 21 5 = d by unfold bits; omega, show bits wd 16 5 = a by unfold bits; omega, show bits wd 11 5 = b by unfold bits; omega]
  have h2 : bits wd 0 6 = 11 := by unfold bits; omega
  rw [← h3, pick_Sync h1]; unfold pickSync; rw [h2]
  rfl
theorem cntt (d a b : Nat) : Statement (.cntt d a b) := by
  intro hw _
  have hb : (decide (d < 32) && decide (a < 32) && decide (b < 32) && decide (1 ≤ d) && decide (d ≤ 29)) = true := hw
  simp only [Bool.and_eq_true, decide_eq_true_eq] at hb
  obtain ⟨wd, e⟩ : ∃ wd, wd = 0xe400000c + d * 2097152 + a * 65536 + b * 2048 := ⟨_, rfl⟩
  refine accept (w := wd) e.symm hw ?_
  have h1 : bits wd 26 6 = 57 := by unfold bits; omega
  have h3 : some (Instr.cntt (bits wd 21 5) (bits wd 16 5) (bits wd 11 5)) = some (Instr.cntt d a b) := by
    rw [show bits wd 21 5 = d by unfold bits; omega, show bits wd 16 5 = a by unfold bits; omega, show bits wd 11 5 = b by unfold bits; omega]
  have h2 : bits wd 0 6 = 12 := by unfold bits; omega
  rw [← h3, pick_Sync h1]; unfold pickSync; rw [h2]
  rfl
theorem barinit (a b : Nat) : Statement (.barinit a b) := by
  intro hw _
  have hb : (decide (a < 32) && decide (b < 32)) = true := hw
  simp only [Bool.and_eq_true, decide_eq_true_eq] at hb
  obtain ⟨wd, e⟩ : ∃ wd, wd = 0xe4000010 + a * 65536 + b * 2048 := ⟨_, rfl⟩
  refine accept (w := wd) e.symm hw ?_
  have h1 : bits wd 26 6 = 57 := by unfold bits; omega
  have h3 : some (Instr.barinit (bits wd 16 5) (bits wd 11 5)) = some (Instr.barinit a b) := by
    rw [show bits wd 16 5 = a by unfold bits; omega, show bits wd 11 5 = b by unfold bits; omega]
  have h2 : bits wd 0 6 = 16 := by unfold bits; omega
  rw [← h3, pick_Sync h1]; unfold pickSync; rw [h2]
  rfl
theorem bararv (d a : Nat) : Statement (.bararv d a) := by
  intro hw _
  have hb : (decide (d < 32) && decide (a < 32)) = true := hw
  simp only [Bool.and_eq_true, decide_eq_true_eq] at hb
  obtain ⟨wd, e⟩ : ∃ wd, wd = 0xe4000011 + d * 2097152 + a * 65536 := ⟨_, rfl⟩
  refine accept (w := wd) e.symm hw ?_
  have h1 : bits wd 26 6 = 57 := by unfold bits; omega
  have h3 : some (Instr.bararv (bits wd 21 5) (bits wd 16 5)) = some (Instr.bararv d a) := by
    rw [show bits wd 21 5 = d by unfold bits; omega, show bits wd 16 5 = a by unfold bits; omega]
  have h2 : bits wd 0 6 = 17 := by unfold bits; omega
  rw [← h3, pick_Sync h1]; unfold pickSync; rw [h2]
  rfl
theorem bardrop (a : Nat) : Statement (.bardrop a) := by
  intro hw _
  have hb : (decide (a < 32)) = true := hw
  simp only [decide_eq_true_eq] at hb
  obtain ⟨wd, e⟩ : ∃ wd, wd = 0xe4000012 + a * 65536 := ⟨_, rfl⟩
  refine accept (w := wd) e.symm hw ?_
  have h1 : bits wd 26 6 = 57 := by unfold bits; omega
  have h3 : some (Instr.bardrop (bits wd 16 5)) = some (Instr.bardrop a) := by
    rw [show bits wd 16 5 = a by unfold bits; omega]
  have h2 : bits wd 0 6 = 18 := by unfold bits; omega
  rw [← h3, pick_Sync h1]; unfold pickSync; rw [h2]
  rfl
theorem barwait (a b : Nat) : Statement (.barwait a b) := by
  intro hw _
  have hb : (decide (a < 32) && decide (b < 32)) = true := hw
  simp only [Bool.and_eq_true, decide_eq_true_eq] at hb
  obtain ⟨wd, e⟩ : ∃ wd, wd = 0xe4000013 + a * 65536 + b * 2048 := ⟨_, rfl⟩
  refine accept (w := wd) e.symm hw ?_
  have h1 : bits wd 26 6 = 57 := by unfold bits; omega
  have h3 : some (Instr.barwait (bits wd 16 5) (bits wd 11 5)) = some (Instr.barwait a b) := by
    rw [show bits wd 16 5 = a by unfold bits; omega, show bits wd 11 5 = b by unfold bits; omega]
  have h2 : bits wd 0 6 = 19 := by unfold bits; omega
  rw [← h3, pick_Sync h1]; unfold pickSync; rw [h2]
  rfl
theorem bartx (a b : Nat) : Statement (.bartx a b) := by
  intro hw _
  have hb : (decide (a < 32) && decide (b < 32)) = true := hw
  simp only [Bool.and_eq_true, decide_eq_true_eq] at hb
  obtain ⟨wd, e⟩ : ∃ wd, wd = 0xe4000014 + a * 65536 + b * 2048 := ⟨_, rfl⟩
  refine accept (w := wd) e.symm hw ?_
  have h1 : bits wd 26 6 = 57 := by unfold bits; omega
  have h3 : some (Instr.bartx (bits wd 16 5) (bits wd 11 5)) = some (Instr.bartx a b) := by
    rw [show bits wd 16 5 = a by unfold bits; omega, show bits wd 11 5 = b by unfold bits; omega]
  have h2 : bits wd 0 6 = 20 := by unfold bits; omega
  rw [← h3, pick_Sync h1]; unfold pickSync; rw [h2]
  rfl
theorem gjoin (d b : Nat) : Statement (.gjoin d b) := by
  intro hw _
  have hb : (decide (d < 32) && decide (b < 32)) = true := hw
  simp only [Bool.and_eq_true, decide_eq_true_eq] at hb
  obtain ⟨wd, e⟩ : ∃ wd, wd = 0xe4000018 + d * 2097152 + b * 2048 := ⟨_, rfl⟩
  refine accept (w := wd) e.symm hw ?_
  have h1 : bits wd 26 6 = 57 := by unfold bits; omega
  have h3 : some (Instr.gjoin (bits wd 21 5) (bits wd 11 5)) = some (Instr.gjoin d b) := by
    rw [show bits wd 21 5 = d by unfold bits; omega, show bits wd 11 5 = b by unfold bits; omega]
  have h2 : bits wd 0 6 = 24 := by unfold bits; omega
  rw [← h3, pick_Sync h1]; unfold pickSync; rw [h2]
  rfl
theorem gleave (d b : Nat) : Statement (.gleave d b) := by
  intro hw _
  have hb : (decide (d < 32) && decide (b < 32)) = true := hw
  simp only [Bool.and_eq_true, decide_eq_true_eq] at hb
  obtain ⟨wd, e⟩ : ∃ wd, wd = 0xe4000019 + d * 2097152 + b * 2048 := ⟨_, rfl⟩
  refine accept (w := wd) e.symm hw ?_
  have h1 : bits wd 26 6 = 57 := by unfold bits; omega
  have h3 : some (Instr.gleave (bits wd 21 5) (bits wd 11 5)) = some (Instr.gleave d b) := by
    rw [show bits wd 21 5 = d by unfold bits; omega, show bits wd 11 5 = b by unfold bits; omega]
  have h2 : bits wd 0 6 = 25 := by unfold bits; omega
  rw [← h3, pick_Sync h1]; unfold pickSync; rw [h2]
  rfl
theorem gld (d a t o : Nat) : Statement (.gld d a t o) := by
  intro hw _
  have hb : (decide (d < 32) && decide (a < 32) && decide (t < 4) && decide (o < 8) && decide (t ≤ 2) && decide (o ≤ 5) && !(t == 2 && decide (3 ≤ o))) = true := hw
  simp only [Bool.and_eq_true, decide_eq_true_eq] at hb
  obtain ⟨wd, e⟩ : ∃ wd, wd = 0xe400001a + d * 2097152 + a * 65536 + t * 512 + o * 64 := ⟨_, rfl⟩
  refine accept (w := wd) e.symm hw ?_
  have h1 : bits wd 26 6 = 57 := by unfold bits; omega
  have h3 : some (Instr.gld (bits wd 21 5) (bits wd 16 5) (bits wd 9 2) (bits wd 6 3)) = some (Instr.gld d a t o) := by
    rw [show bits wd 21 5 = d by unfold bits; omega, show bits wd 16 5 = a by unfold bits; omega, show bits wd 9 2 = t by unfold bits; omega, show bits wd 6 3 = o by unfold bits; omega]
  have h2 : bits wd 0 6 = 26 := by unfold bits; omega
  rw [← h3, pick_Sync h1]; unfold pickSync; rw [h2]
  rfl
theorem gldf (d a t o : Nat) : Statement (.gldf d a t o) := by
  intro hw _
  have hb : (decide (d < 32) && decide (a < 32) && decide (t < 4) && decide (o < 8) && decide (t ≤ 2) && decide (o ≤ 5) && !(t == 2 && decide (3 ≤ o))) = true := hw
  simp only [Bool.and_eq_true, decide_eq_true_eq] at hb
  obtain ⟨wd, e⟩ : ∃ wd, wd = 0xe400001b + d * 2097152 + a * 65536 + t * 512 + o * 64 := ⟨_, rfl⟩
  refine accept (w := wd) e.symm hw ?_
  have h1 : bits wd 26 6 = 57 := by unfold bits; omega
  have h3 : some (Instr.gldf (bits wd 21 5) (bits wd 16 5) (bits wd 9 2) (bits wd 6 3)) = some (Instr.gldf d a t o) := by
    rw [show bits wd 21 5 = d by unfold bits; omega, show bits wd 16 5 = a by unfold bits; omega, show bits wd 9 2 = t by unfold bits; omega, show bits wd 6 3 = o by unfold bits; omega]
  have h2 : bits wd 0 6 = 27 := by unfold bits; omega
  rw [← h3, pick_Sync h1]; unfold pickSync; rw [h2]
  rfl
theorem gbar (d b : Nat) : Statement (.gbar d b) := by
  intro hw _
  have hb : (decide (d < 32) && decide (b < 32) && decide (1 ≤ d)) = true := hw
  simp only [Bool.and_eq_true, decide_eq_true_eq] at hb
  obtain ⟨wd, e⟩ : ∃ wd, wd = 0xe400001c + d * 2097152 + b * 2048 := ⟨_, rfl⟩
  refine accept (w := wd) e.symm hw ?_
  have h1 : bits wd 26 6 = 57 := by unfold bits; omega
  have h3 : some (Instr.gbar (bits wd 21 5) (bits wd 11 5)) = some (Instr.gbar d b) := by
    rw [show bits wd 21 5 = d by unfold bits; omega, show bits wd 11 5 = b by unfold bits; omega]
  have h2 : bits wd 0 6 = 28 := by unfold bits; omega
  rw [← h3, pick_Sync h1]; unfold pickSync; rw [h2]
  rfl
theorem ginfo (d b : Nat) : Statement (.ginfo d b) := by
  intro hw _
  have hb : (decide (d < 32) && decide (b < 32)) = true := hw
  simp only [Bool.and_eq_true, decide_eq_true_eq] at hb
  obtain ⟨wd, e⟩ : ∃ wd, wd = 0xe400001d + d * 2097152 + b * 2048 := ⟨_, rfl⟩
  refine accept (w := wd) e.symm hw ?_
  have h1 : bits wd 26 6 = 57 := by unfold bits; omega
  have h3 : some (Instr.ginfo (bits wd 21 5) (bits wd 11 5)) = some (Instr.ginfo d b) := by
    rw [show bits wd 21 5 = d by unfold bits; omega, show bits wd 11 5 = b by unfold bits; omega]
  have h2 : bits wd 0 6 = 29 := by unfold bits; omega
  rw [← h3, pick_Sync h1]; unfold pickSync; rw [h2]
  rfl
theorem gbarRelease (pkg grp core : Nat) : Statement (.gbarRelease pkg grp core) := fun _ h => absurd h Bool.false_ne_true
theorem fork (a b : Nat) : Statement (.fork a b) := by
  intro hw _
  have hb : (decide (a < 32) && decide (b < 32)) = true := hw
  simp only [Bool.and_eq_true, decide_eq_true_eq] at hb
  obtain ⟨wd, e⟩ : ∃ wd, wd = 0xe4000020 + a * 65536 + b * 2048 := ⟨_, rfl⟩
  refine accept (w := wd) e.symm hw ?_
  have h1 : bits wd 26 6 = 57 := by unfold bits; omega
  have h3 : some (Instr.fork (bits wd 16 5) (bits wd 11 5)) = some (Instr.fork a b) := by
    rw [show bits wd 16 5 = a by unfold bits; omega, show bits wd 11 5 = b by unfold bits; omega]
  have h2 : bits wd 0 6 = 32 := by unfold bits; omega
  rw [← h3, pick_Sync h1]; unfold pickSync; rw [h2]
  rfl
theorem join (a : Nat) : Statement (.join a) := by
  intro hw _
  have hb : (decide (a < 32)) = true := hw
  simp only [decide_eq_true_eq] at hb
  obtain ⟨wd, e⟩ : ∃ wd, wd = 0xe4000021 + a * 65536 := ⟨_, rfl⟩
  refine accept (w := wd) e.symm hw ?_
  have h1 : bits wd 26 6 = 57 := by unfold bits; omega
  have h3 : some (Instr.join (bits wd 16 5)) = some (Instr.join a) := by
    rw [show bits wd 16 5 = a by unfold bits; omega]
  have h2 : bits wd 0 6 = 33 := by unfold bits; omega
  rw [← h3, pick_Sync h1]; unfold pickSync; rw [h2]
  rfl
theorem dqpush (d a : Nat) : Statement (.dqpush d a) := by
  intro hw _
  have hb : (decide (d < 32) && decide (a < 32)) = true := hw
  simp only [Bool.and_eq_true, decide_eq_true_eq] at hb
  obtain ⟨wd, e⟩ : ∃ wd, wd = 0xe4000022 + d * 2097152 + a * 65536 := ⟨_, rfl⟩
  refine accept (w := wd) e.symm hw ?_
  have h1 : bits wd 26 6 = 57 := by unfold bits; omega
  have h3 : some (Instr.dqpush (bits wd 21 5) (bits wd 16 5)) = some (Instr.dqpush d a) := by
    rw [show bits wd 21 5 = d by unfold bits; omega, show bits wd 16 5 = a by unfold bits; omega]
  have h2 : bits wd 0 6 = 34 := by unfold bits; omega
  rw [← h3, pick_Sync h1]; unfold pickSync; rw [h2]
  rfl
theorem dqpop (d a : Nat) : Statement (.dqpop d a) := by
  intro hw _
  have hb : (decide (d < 32) && decide (a < 32)) = true := hw
  simp only [Bool.and_eq_true, decide_eq_true_eq] at hb
  obtain ⟨wd, e⟩ : ∃ wd, wd = 0xe4000023 + d * 2097152 + a * 65536 := ⟨_, rfl⟩
  refine accept (w := wd) e.symm hw ?_
  have h1 : bits wd 26 6 = 57 := by unfold bits; omega
  have h3 : some (Instr.dqpop (bits wd 21 5) (bits wd 16 5)) = some (Instr.dqpop d a) := by
    rw [show bits wd 21 5 = d by unfold bits; omega, show bits wd 16 5 = a by unfold bits; omega]
  have h2 : bits wd 0 6 = 35 := by unfold bits; omega
  rw [← h3, pick_Sync h1]; unfold pickSync; rw [h2]
  rfl
theorem rget (d a : Nat) : Statement (.rget d a) := by
  intro hw _
  have hb : (decide (d < 32) && decide (a < 32)) = true := hw
  simp only [Bool.and_eq_true, decide_eq_true_eq] at hb
  obtain ⟨wd, e⟩ : ∃ wd, wd = 0xe4000028 + d * 2097152 + a * 65536 := ⟨_, rfl⟩
  refine accept (w := wd) e.symm hw ?_
  have h1 : bits wd 26 6 = 57 := by unfold bits; omega
  have h3 : some (Instr.rget (bits wd 21 5) (bits wd 16 5)) = some (Instr.rget d a) := by
    rw [show bits wd 21 5 = d by unfold bits; omega, show bits wd 16 5 = a by unfold bits; omega]
  have h2 : bits wd 0 6 = 40 := by unfold bits; omega
  rw [← h3, pick_Sync h1]; unfold pickSync; rw [h2]
  rfl
theorem rput (a b : Nat) : Statement (.rput a b) := by
  intro hw _
  have hb : (decide (a < 32) && decide (b < 32)) = true := hw
  simp only [Bool.and_eq_true, decide_eq_true_eq] at hb
  obtain ⟨wd, e⟩ : ∃ wd, wd = 0xe4000029 + a * 65536 + b * 2048 := ⟨_, rfl⟩
  refine accept (w := wd) e.symm hw ?_
  have h1 : bits wd 26 6 = 57 := by unfold bits; omega
  have h3 : some (Instr.rput (bits wd 16 5) (bits wd 11 5)) = some (Instr.rput a b) := by
    rw [show bits wd 16 5 = a by unfold bits; omega, show bits wd 11 5 = b by unfold bits; omega]
  have h2 : bits wd 0 6 = 41 := by unfold bits; omega
  rw [← h3, pick_Sync h1]; unfold pickSync; rw [h2]
  rfl
theorem rtake (d a b : Nat) : Statement (.rtake d a b) := by
  intro hw _
  have hb : (decide (d < 32) && decide (a < 32) && decide (b < 32)) = true := hw
  simp only [Bool.and_eq_true, decide_eq_true_eq] at hb
  obtain ⟨wd, e⟩ : ∃ wd, wd = 0xe400002a + d * 2097152 + a * 65536 + b * 2048 := ⟨_, rfl⟩
  refine accept (w := wd) e.symm hw ?_
  have h1 : bits wd 26 6 = 57 := by unfold bits; omega
  have h3 : some (Instr.rtake (bits wd 21 5) (bits wd 16 5) (bits wd 11 5)) = some (Instr.rtake d a b) := by
    rw [show bits wd 21 5 = d by unfold bits; omega, show bits wd 16 5 = a by unfold bits; omega, show bits wd 11 5 = b by unfold bits; omega]
  have h2 : bits wd 0 6 = 42 := by unfold bits; omega
  rw [← h3, pick_Sync h1]; unfold pickSync; rw [h2]
  rfl
theorem rfree (d a b : Nat) : Statement (.rfree d a b) := by
  intro hw _
  have hb : (decide (d < 32) && decide (a < 32) && decide (b < 32)) = true := hw
  simp only [Bool.and_eq_true, decide_eq_true_eq] at hb
  obtain ⟨wd, e⟩ : ∃ wd, wd = 0xe400002b + d * 2097152 + a * 65536 + b * 2048 := ⟨_, rfl⟩
  refine accept (w := wd) e.symm hw ?_
  have h1 : bits wd 26 6 = 57 := by unfold bits; omega
  have h3 : some (Instr.rfree (bits wd 21 5) (bits wd 16 5) (bits wd 11 5)) = some (Instr.rfree d a b) := by
    rw [show bits wd 21 5 = d by unfold bits; omega, show bits wd 16 5 = a by unfold bits; omega, show bits wd 11 5 = b by unfold bits; omega]
  have h2 : bits wd 0 6 = 43 := by unfold bits; omega
  rw [← h3, pick_Sync h1]; unfold pickSync; rw [h2]
  rfl
theorem ecopy (a b s : Nat) : Statement (.ecopy a b s) := by
  intro hw _
  have hb : (decide (a < 32) && decide (b < 32) && decide (s < 8) && decide (s + 4 ≤ 8)) = true := hw
  simp only [Bool.and_eq_true, decide_eq_true_eq] at hb
  obtain ⟨wd, e⟩ : ∃ wd, wd = 0xe8000000 + a * 2048 + b * 64 + s * 8 := ⟨_, rfl⟩
  refine accept (w := wd) e.symm hw ?_
  have h1 : bits wd 26 6 = 58 := by unfold bits; omega
  have h3 : some (Instr.ecopy (bits wd 11 5) (bits wd 6 5) (bits wd 3 3)) = some (Instr.ecopy a b s) := by
    rw [show bits wd 11 5 = a by unfold bits; omega, show bits wd 6 5 = b by unfold bits; omega, show bits wd 3 3 = s by unfold bits; omega]
  have h2 : bits wd 16 10 = 0 := by unfold bits; omega
  rw [← h3, pick_Engine h1]; unfold pickEngine; rw [h2]
  rfl
theorem egath (a b s o : Nat) : Statement (.egath a b s o) := by
  intro hw _
  have hb : (decide (a < 32) && decide (b < 32) && decide (s < 8) && decide (o < 8) && decide (s + 2 ≤ 8)) = true := hw
  simp only [Bool.and_eq_true, decide_eq_true_eq] at hb
  obtain ⟨wd, e⟩ : ∃ wd, wd = 0xe8400000 + a * 2048 + b * 64 + s * 8 + o := ⟨_, rfl⟩
  refine accept (w := wd) e.symm hw ?_
  have h1 : bits wd 26 6 = 58 := by unfold bits; omega
  have h3 : some (Instr.egath (bits wd 11 5) (bits wd 6 5) (bits wd 3 3) (bits wd 0 3)) = some (Instr.egath a b s o) := by
    rw [show bits wd 11 5 = a by unfold bits; omega, show bits wd 6 5 = b by unfold bits; omega, show bits wd 3 3 = s by unfold bits; omega, show bits wd 0 3 = o by unfold bits; omega]
  have h2 : bits wd 16 10 = 64 := by unfold bits; omega
  rw [← h3, pick_Engine h1]; unfold pickEngine; rw [h2]
  rfl
theorem escat (a b s o : Nat) : Statement (.escat a b s o) := by
  intro hw _
  have hb : (decide (a < 32) && decide (b < 32) && decide (s < 8) && decide (o < 4) && decide (s + 2 ≤ 8)) = true := hw
  simp only [Bool.and_eq_true, decide_eq_true_eq] at hb
  obtain ⟨wd, e⟩ : ∃ wd, wd = 0xe8410000 + a * 2048 + b * 64 + s * 8 + o := ⟨_, rfl⟩
  refine accept (w := wd) e.symm hw ?_
  have h1 : bits wd 26 6 = 58 := by unfold bits; omega
  have h3 : some (Instr.escat (bits wd 11 5) (bits wd 6 5) (bits wd 3 3) (bits wd 0 2)) = some (Instr.escat a b s o) := by
    rw [show bits wd 11 5 = a by unfold bits; omega, show bits wd 6 5 = b by unfold bits; omega, show bits wd 3 3 = s by unfold bits; omega, show bits wd 0 2 = o by unfold bits; omega]
  have h2 : bits wd 16 10 = 65 := by unfold bits; omega
  rw [← h3, pick_Engine h1]; unfold pickEngine; rw [h2]
  rfl
theorem esub (a b : Nat) : Statement (.esub a b) := by
  intro hw _
  have hb : (decide (a < 32) && decide (b < 32)) = true := hw
  simp only [Bool.and_eq_true, decide_eq_true_eq] at hb
  obtain ⟨wd, e⟩ : ∃ wd, wd = 0xe8800000 + a * 2048 + b * 64 := ⟨_, rfl⟩
  refine accept (w := wd) e.symm hw ?_
  have h1 : bits wd 26 6 = 58 := by unfold bits; omega
  have h3 : some (Instr.esub (bits wd 11 5) (bits wd 6 5)) = some (Instr.esub a b) := by
    rw [show bits wd 11 5 = a by unfold bits; omega, show bits wd 6 5 = b by unfold bits; omega]
  have h2 : bits wd 16 10 = 128 := by unfold bits; omega
  rw [← h3, pick_Engine h1]; unfold pickEngine; rw [h2]
  rfl
theorem ebind (a b s : Nat) : Statement (.ebind a b s) := by
  intro hw _
  have hb : (decide (a < 32) && decide (b < 32) && decide (s < 8) && decide (s + 1 ≤ 8)) = true := hw
  simp only [Bool.and_eq_true, decide_eq_true_eq] at hb
  obtain ⟨wd, e⟩ : ∃ wd, wd = 0xe8810000 + a * 2048 + b * 64 + s * 8 := ⟨_, rfl⟩
  refine accept (w := wd) e.symm hw ?_
  have h1 : bits wd 26 6 = 58 := by unfold bits; omega
  have h3 : some (Instr.ebind (bits wd 11 5) (bits wd 6 5) (bits wd 3 3)) = some (Instr.ebind a b s) := by
    rw [show bits wd 11 5 = a by unfold bits; omega, show bits wd 6 5 = b by unfold bits; omega, show bits wd 3 3 = s by unfold bits; omega]
  have h2 : bits wd 16 10 = 129 := by unfold bits; omega
  rw [← h3, pick_Engine h1]; unfold pickEngine; rw [h2]
  rfl
theorem enear (a b s : Nat) : Statement (.enear a b s) := by
  intro hw _
  have hb : (decide (a < 32) && decide (b < 32) && decide (s < 8) && decide (s + 2 ≤ 8)) = true := hw
  simp only [Bool.and_eq_true, decide_eq_true_eq] at hb
  obtain ⟨wd, e⟩ : ∃ wd, wd = 0xe8820000 + a * 2048 + b * 64 + s * 8 := ⟨_, rfl⟩
  refine accept (w := wd) e.symm hw ?_
  have h1 : bits wd 26 6 = 58 := by unfold bits; omega
  have h3 : some (Instr.enear (bits wd 11 5) (bits wd 6 5) (bits wd 3 3)) = some (Instr.enear a b s) := by
    rw [show bits wd 11 5 = a by unfold bits; omega, show bits wd 6 5 = b by unfold bits; omega, show bits wd 3 3 = s by unfold bits; omega]
  have h2 : bits wd 16 10 = 130 := by unfold bits; omega
  rw [← h3, pick_Engine h1]; unfold pickEngine; rw [h2]
  rfl
theorem eqry (a s : Nat) : Statement (.eqry a s) := by
  intro hw _
  have hb : (decide (a < 32) && decide (s < 8) && decide (s + 1 ≤ 8)) = true := hw
  simp only [Bool.and_eq_true, decide_eq_true_eq] at hb
  obtain ⟨wd, e⟩ : ∃ wd, wd = 0xe8c00000 + a * 2048 + s * 8 := ⟨_, rfl⟩
  refine accept (w := wd) e.symm hw ?_
  have h1 : bits wd 26 6 = 58 := by unfold bits; omega
  have h3 : some (Instr.eqry (bits wd 11 5) (bits wd 3 3)) = some (Instr.eqry a s) := by
    rw [show bits wd 11 5 = a by unfold bits; omega, show bits wd 3 3 = s by unfold bits; omega]
  have h2 : bits wd 16 10 = 192 := by unfold bits; omega
  rw [← h3, pick_Engine h1]; unfold pickEngine; rw [h2]
  rfl
theorem qload (a b s : Nat) : Statement (.qload a b s) := by
  intro hw _
  have hb : (decide (a < 32) && decide (b < 32) && decide (s < 8) && decide (s + 1 ≤ 8)) = true := hw
  simp only [Bool.and_eq_true, decide_eq_true_eq] at hb
  obtain ⟨wd, e⟩ : ∃ wd, wd = 0xe9000000 + a * 2048 + b * 64 + s * 8 := ⟨_, rfl⟩
  refine accept (w := wd) e.symm hw ?_
  have h1 : bits wd 26 6 = 58 := by unfold bits; omega
  have h3 : some (Instr.qload (bits wd 11 5) (bits wd 6 5) (bits wd 3 3)) = some (Instr.qload a b s) := by
    rw [show bits wd 11 5 = a by unfold bits; omega, show bits wd 6 5 = b by unfold bits; omega, show bits wd 3 3 = s by unfold bits; omega]
  have h2 : bits wd 16 10 = 256 := by unfold bits; omega
  rw [← h3, pick_Engine h1]; unfold pickEngine; rw [h2]
  rfl
theorem qplay (a s : Nat) : Statement (.qplay a s) := by
  intro hw _
  have hb : (decide (a < 32) && decide (s < 8) && decide (s + 2 ≤ 8)) = true := hw
  simp only [Bool.and_eq_true, decide_eq_true_eq] at hb
  obtain ⟨wd, e⟩ : ∃ wd, wd = 0xe9010000 + a * 2048 + s * 8 := ⟨_, rfl⟩
  refine accept (w := wd) e.symm hw ?_
  have h1 : bits wd 26 6 = 58 := by unfold bits; omega
  have h3 : some (Instr.qplay (bits wd 11 5) (bits wd 3 3)) = some (Instr.qplay a s) := by
    rw [show bits wd 11 5 = a by unfold bits; omega, show bits wd 3 3 = s by unfold bits; omega]
  have h2 : bits wd 16 10 = 257 := by unfold bits; omega
  rw [← h3, pick_Engine h1]; unfold pickEngine; rw [h2]
  rfl
theorem nsend (a b : Nat) : Statement (.nsend a b) := by
  intro hw _
  have hb : (decide (a < 32) && decide (b < 32)) = true := hw
  simp only [Bool.and_eq_true, decide_eq_true_eq] at hb
  obtain ⟨wd, e⟩ : ∃ wd, wd = 0xe9400000 + a * 2048 + b * 64 := ⟨_, rfl⟩
  refine accept (w := wd) e.symm hw ?_
  have h1 : bits wd 26 6 = 58 := by unfold bits; omega
  have h3 : some (Instr.nsend (bits wd 11 5) (bits wd 6 5)) = some (Instr.nsend a b) := by
    rw [show bits wd 11 5 = a by unfold bits; omega, show bits wd 6 5 = b by unfold bits; omega]
  have h2 : bits wd 16 10 = 320 := by unfold bits; omega
  rw [← h3, pick_Engine h1]; unfold pickEngine; rw [h2]
  rfl
theorem nrecv (a b : Nat) : Statement (.nrecv a b) := by
  intro hw _
  have hb : (decide (a < 32) && decide (b < 32)) = true := hw
  simp only [Bool.and_eq_true, decide_eq_true_eq] at hb
  obtain ⟨wd, e⟩ : ∃ wd, wd = 0xe9410000 + a * 2048 + b * 64 := ⟨_, rfl⟩
  refine accept (w := wd) e.symm hw ?_
  have h1 : bits wd 26 6 = 58 := by unfold bits; omega
  have h3 : some (Instr.nrecv (bits wd 11 5) (bits wd 6 5)) = some (Instr.nrecv a b) := by
    rw [show bits wd 11 5 = a by unfold bits; omega, show bits wd 6 5 = b by unfold bits; omega]
  have h2 : bits wd 16 10 = 321 := by unfold bits; omega
  rw [← h3, pick_Engine h1]; unfold pickEngine; rw [h2]
  rfl
theorem npoll (a b s : Nat) : Statement (.npoll a b s) := by
  intro hw _
  have hb : (decide (a < 32) && decide (b < 32) && decide (s < 8) && decide (s + 1 ≤ 8)) = true := hw
  simp only [Bool.and_eq_true, decide_eq_true_eq] at hb
  obtain ⟨wd, e⟩ : ∃ wd, wd = 0xe9420000 + a * 2048 + b * 64 + s * 8 := ⟨_, rfl⟩
  refine accept (w := wd) e.symm hw ?_
  have h1 : bits wd 26 6 = 58 := by unfold bits; omega
  have h3 : some (Instr.npoll (bits wd 11 5) (bits wd 6 5) (bits wd 3 3)) = some (Instr.npoll a b s) := by
    rw [show bits wd 11 5 = a by unfold bits; omega, show bits wd 6 5 = b by unfold bits; omega, show bits wd 3 3 = s by unfold bits; omega]
  have h2 : bits wd 16 10 = 322 := by unfold bits; omega
  rw [← h3, pick_Engine h1]; unfold pickEngine; rw [h2]
  rfl
theorem migr (a b s : Nat) : Statement (.migr a b s) := by
  intro hw _
  have hb : (decide (a < 32) && decide (b < 32) && decide (s < 8) && decide (s + 1 ≤ 8)) = true := hw
  simp only [Bool.and_eq_true, decide_eq_true_eq] at hb
  obtain ⟨wd, e⟩ : ∃ wd, wd = 0xe9800000 + a * 2048 + b * 64 + s * 8 := ⟨_, rfl⟩
  refine accept (w := wd) e.symm hw ?_
  have h1 : bits wd 26 6 = 58 := by unfold bits; omega
  have h3 : some (Instr.migr (bits wd 11 5) (bits wd 6 5) (bits wd 3 3)) = some (Instr.migr a b s) := by
    rw [show bits wd 11 5 = a by unfold bits; omega, show bits wd 6 5 = b by unfold bits; omega, show bits wd 3 3 = s by unfold bits; omega]
  have h2 : bits wd 16 10 = 384 := by unfold bits; omega
  rw [← h3, pick_Engine h1]; unfold pickEngine; rw [h2]
  rfl
theorem mzero (m t : Nat) : Statement (.mzero m t) := by
  intro hw _
  have hb : (decide (m < 4) && decide (t < 8) && decide (m ≤ 2)) = true := hw
  simp only [Bool.and_eq_true, decide_eq_true_eq] at hb
  obtain ⟨wd, e⟩ : ∃ wd, wd = 0xe9c00000 + m * 8 + t := ⟨_, rfl⟩
  refine accept (w := wd) e.symm hw ?_
  have h1 : bits wd 26 6 = 58 := by unfold bits; omega
  have h3 : some (Instr.mzero (bits wd 3 2) (bits wd 0 3)) = some (Instr.mzero m t) := by
    rw [show bits wd 3 2 = m by unfold bits; omega, show bits wd 0 3 = t by unfold bits; omega]
  have h2 : bits wd 16 10 = 448 := by unfold bits; omega
  rw [← h3, pick_Engine h1]; unfold pickEngine; rw [h2]
  rfl
theorem mlda (a b : Nat) : Statement (.mlda a b) := by
  intro hw _
  have hb : (decide (a < 32) && decide (b < 32)) = true := hw
  simp only [Bool.and_eq_true, decide_eq_true_eq] at hb
  obtain ⟨wd, e⟩ : ∃ wd, wd = 0xe9c10000 + a * 2048 + b * 64 := ⟨_, rfl⟩
  refine accept (w := wd) e.symm hw ?_
  have h1 : bits wd 26 6 = 58 := by unfold bits; omega
  have h3 : some (Instr.mlda (bits wd 11 5) (bits wd 6 5)) = some (Instr.mlda a b) := by
    rw [show bits wd 11 5 = a by unfold bits; omega, show bits wd 6 5 = b by unfold bits; omega]
  have h2 : bits wd 16 10 = 449 := by unfold bits; omega
  rw [← h3, pick_Engine h1]; unfold pickEngine; rw [h2]
  rfl
theorem mldb (a b : Nat) : Statement (.mldb a b) := by
  intro hw _
  have hb : (decide (a < 32) && decide (b < 32)) = true := hw
  simp only [Bool.and_eq_true, decide_eq_true_eq] at hb
  obtain ⟨wd, e⟩ : ∃ wd, wd = 0xe9c20000 + a * 2048 + b * 64 := ⟨_, rfl⟩
  refine accept (w := wd) e.symm hw ?_
  have h1 : bits wd 26 6 = 58 := by unfold bits; omega
  have h3 : some (Instr.mldb (bits wd 11 5) (bits wd 6 5)) = some (Instr.mldb a b) := by
    rw [show bits wd 11 5 = a by unfold bits; omega, show bits wd 6 5 = b by unfold bits; omega]
  have h2 : bits wd 16 10 = 450 := by unfold bits; omega
  rw [← h3, pick_Engine h1]; unfold pickEngine; rw [h2]
  rfl
theorem mpost (a b : Nat) : Statement (.mpost a b) := by
  intro hw _
  have hb : (decide (a < 32) && decide (b < 32) && decide (1 ≤ b) && decide (b ≤ 30)) = true := hw
  simp only [Bool.and_eq_true, decide_eq_true_eq] at hb
  obtain ⟨wd, e⟩ : ∃ wd, wd = 0xe9c30000 + a * 2048 + b * 64 := ⟨_, rfl⟩
  refine accept (w := wd) e.symm hw ?_
  have h1 : bits wd 26 6 = 58 := by unfold bits; omega
  have h3 : some (Instr.mpost (bits wd 11 5) (bits wd 6 5)) = some (Instr.mpost a b) := by
    rw [show bits wd 11 5 = a by unfold bits; omega, show bits wd 6 5 = b by unfold bits; omega]
  have h2 : bits wd 16 10 = 451 := by unfold bits; omega
  rw [← h3, pick_Engine h1]; unfold pickEngine; rw [h2]
  rfl
theorem mop (a b s : Nat) : Statement (.mop a b s) := by
  intro hw _
  have hb : (decide (a < 32) && decide (b < 32) && decide (s < 8)) = true := hw
  simp only [Bool.and_eq_true, decide_eq_true_eq] at hb
  obtain ⟨wd, e⟩ : ∃ wd, wd = 0xe9c40000 + a * 2048 + b * 64 + s := ⟨_, rfl⟩
  refine accept (w := wd) e.symm hw ?_
  have h1 : bits wd 26 6 = 58 := by unfold bits; omega
  have h3 : some (Instr.mop (bits wd 11 5) (bits wd 6 5) (bits wd 0 3)) = some (Instr.mop a b s) := by
    rw [show bits wd 11 5 = a by unfold bits; omega, show bits wd 6 5 = b by unfold bits; omega, show bits wd 0 3 = s by unfold bits; omega]
  have h2 : bits wd 16 10 = 452 := by unfold bits; omega
  rw [← h3, pick_Engine h1]; unfold pickEngine; rw [h2]
  rfl
theorem mopm (a b k s : Nat) : Statement (.mopm a b k s) := by
  intro hw _
  have hb : (decide (a < 32) && decide (b < 32) && decide (k < 4) && decide (s < 8)) = true := hw
  simp only [Bool.and_eq_true, decide_eq_true_eq] at hb
  obtain ⟨wd, e⟩ : ∃ wd, wd = 0xe9c50000 + a * 2048 + b * 64 + k * 8 + s := ⟨_, rfl⟩
  refine accept (w := wd) e.symm hw ?_
  have h1 : bits wd 26 6 = 58 := by unfold bits; omega
  have h3 : some (Instr.mopm (bits wd 11 5) (bits wd 6 5) (bits wd 3 2) (bits wd 0 3)) = some (Instr.mopm a b k s) := by
    rw [show bits wd 11 5 = a by unfold bits; omega, show bits wd 6 5 = b by unfold bits; omega, show bits wd 3 2 = k by unfold bits; omega, show bits wd 0 3 = s by unfold bits; omega]
  have h2 : bits wd 16 10 = 453 := by unfold bits; omega
  rw [← h3, pick_Engine h1]; unfold pickEngine; rw [h2]
  rfl
theorem mst (a b s : Nat) : Statement (.mst a b s) := by
  intro hw _
  have hb : (decide (a < 32) && decide (b < 32) && decide (s < 8)) = true := hw
  simp only [Bool.and_eq_true, decide_eq_true_eq] at hb
  obtain ⟨wd, e⟩ : ∃ wd, wd = 0xe9c60000 + a * 2048 + b * 64 + s := ⟨_, rfl⟩
  refine accept (w := wd) e.symm hw ?_
  have h1 : bits wd 26 6 = 58 := by unfold bits; omega
  have h3 : some (Instr.mst (bits wd 11 5) (bits wd 6 5) (bits wd 0 3)) = some (Instr.mst a b s) := by
    rw [show bits wd 11 5 = a by unfold bits; omega, show bits wd 6 5 = b by unfold bits; omega, show bits wd 0 3 = s by unfold bits; omega]
  have h2 : bits wd 16 10 = 454 := by unfold bits; omega
  rw [← h3, pick_Engine h1]; unfold pickEngine; rw [h2]
  rfl
theorem mrd (a b t : Nat) : Statement (.mrd a b t) := by
  intro hw _
  have hb : (decide (a < 32) && decide (b < 32) && decide (t < 8)) = true := hw
  simp only [Bool.and_eq_true, decide_eq_true_eq] at hb
  obtain ⟨wd, e⟩ : ∃ wd, wd = 0xe9c70000 + a * 2048 + b * 64 + t := ⟨_, rfl⟩
  refine accept (w := wd) e.symm hw ?_
  have h1 : bits wd 26 6 = 58 := by unfold bits; omega
  have h3 : some (Instr.mrd (bits wd 11 5) (bits wd 6 5) (bits wd 0 3)) = some (Instr.mrd a b t) := by
    rw [show bits wd 11 5 = a by unfold bits; omega, show bits wd 6 5 = b by unfold bits; omega, show bits wd 0 3 = t by unfold bits; omega]
  have h2 : bits wd 16 10 = 455 := by unfold bits; omega
  rw [← h3, pick_Engine h1]; unfold pickEngine; rw [h2]
  rfl
theorem mscale (a b p t : Nat) : Statement (.mscale a b p t) := by
  intro hw _
  have hb : (decide (a < 32) && decide (b < 32) && decide (p < 2) && decide (t < 8)) = true := hw
  simp only [Bool.and_eq_true, decide_eq_true_eq] at hb
  obtain ⟨wd, e⟩ : ∃ wd, wd = 0xe9c80000 + a * 2048 + b * 64 + p * 8 + t := ⟨_, rfl⟩
  refine accept (w := wd) e.symm hw ?_
  have h1 : bits wd 26 6 = 58 := by unfold bits; omega
  have h3 : some (Instr.mscale (bits wd 11 5) (bits wd 6 5) (bits wd 3 1) (bits wd 0 3)) = some (Instr.mscale a b p t) := by
    rw [show bits wd 11 5 = a by unfold bits; omega, show bits wd 6 5 = b by unfold bits; omega, show bits wd 3 1 = p by unfold bits; omega, show bits wd 0 3 = t by unfold bits; omega]
  have h2 : bits wd 16 10 = 456 := by unfold bits; omega
  rw [← h3, pick_Engine h1]; unfold pickEngine; rw [h2]
  rfl
theorem mstat (a c t : Nat) : Statement (.mstat a c t) := by
  intro hw _
  have hb : (decide (a < 32) && decide (c < 2) && decide (t < 8) && !(c == 1 && decide (1 ≤ t))) = true := hw
  simp only [Bool.and_eq_true, decide_eq_true_eq] at hb
  obtain ⟨wd, e⟩ : ∃ wd, wd = 0xe9c90000 + a * 2048 + c * 8 + t := ⟨_, rfl⟩
  refine accept (w := wd) e.symm hw ?_
  have h1 : bits wd 26 6 = 58 := by unfold bits; omega
  have h3 : some (Instr.mstat (bits wd 11 5) (bits wd 3 1) (bits wd 0 3)) = some (Instr.mstat a c t) := by
    rw [show bits wd 11 5 = a by unfold bits; omega, show bits wd 3 1 = c by unfold bits; omega, show bits wd 0 3 = t by unfold bits; omega]
  have h2 : bits wd 16 10 = 457 := by unfold bits; omega
  rw [← h3, pick_Engine h1]; unfold pickEngine; rw [h2]
  rfl
theorem cruise (a b s : Nat) : Statement (.cruise a b s) := by
  intro hw _
  have hb : (decide (a < 32) && decide (b < 32) && decide (s < 8)) = true := hw
  simp only [Bool.and_eq_true, decide_eq_true_eq] at hb
  obtain ⟨wd, e⟩ : ∃ wd, wd = 0xea000000 + a * 2048 + b * 64 + s := ⟨_, rfl⟩
  refine accept (w := wd) e.symm hw ?_
  have h1 : bits wd 26 6 = 58 := by unfold bits; omega
  have h3 : some (Instr.cruise (bits wd 11 5) (bits wd 6 5) (bits wd 0 3)) = some (Instr.cruise a b s) := by
    rw [show bits wd 11 5 = a by unfold bits; omega, show bits wd 6 5 = b by unfold bits; omega, show bits wd 0 3 = s by unfold bits; omega]
  have h2 : bits wd 16 10 = 512 := by unfold bits; omega
  rw [← h3, pick_Engine h1]; unfold pickEngine; rw [h2]
  rfl
theorem blaze (a b m d : Nat) : Statement (.blaze a b m d) := by
  intro hw _
  have hb : (decide (a < 32) && decide (b < 32) && decide (m < 2) && decide (d < 4)) = true := hw
  simp only [Bool.and_eq_true, decide_eq_true_eq] at hb
  obtain ⟨wd, e⟩ : ∃ wd, wd = 0xea010000 + a * 2048 + b * 64 + m * 4 + d := ⟨_, rfl⟩
  refine accept (w := wd) e.symm hw ?_
  have h1 : bits wd 26 6 = 58 := by unfold bits; omega
  have h3 : some (Instr.blaze (bits wd 11 5) (bits wd 6 5) (bits wd 2 1) (bits wd 0 2)) = some (Instr.blaze a b m d) := by
    rw [show bits wd 11 5 = a by unfold bits; omega, show bits wd 6 5 = b by unfold bits; omega, show bits wd 2 1 = m by unfold bits; omega, show bits wd 0 2 = d by unfold bits; omega]
  have h2 : bits wd 16 10 = 513 := by unfold bits; omega
  rw [← h3, pick_Engine h1]; unfold pickEngine; rw [h2]
  rfl
theorem blzmov (s d : Nat) : Statement (.blzmov s d) := by
  intro hw _
  have hb : (decide (s < 4) && decide (d < 4)) = true := hw
  simp only [Bool.and_eq_true, decide_eq_true_eq] at hb
  obtain ⟨wd, e⟩ : ∃ wd, wd = 0xea020000 + s * 16 + d := ⟨_, rfl⟩
  refine accept (w := wd) e.symm hw ?_
  have h1 : bits wd 26 6 = 58 := by unfold bits; omega
  have h3 : some (Instr.blzmov (bits wd 4 2) (bits wd 0 2)) = some (Instr.blzmov s d) := by
    rw [show bits wd 4 2 = s by unfold bits; omega, show bits wd 0 2 = d by unfold bits; omega]
  have h2 : bits wd 16 10 = 514 := by unfold bits; omega
  rw [← h3, pick_Engine h1]; unfold pickEngine; rw [h2]
  have h4 : bits wd 2 2 = 0 := by unfold bits; omega
  simp only [h4]
theorem blzmovStore (a s : Nat) : Statement (.blzmovStore a s) := by
  intro hw _
  have hb : (decide (a < 32) && decide (s < 4)) = true := hw
  simp only [Bool.and_eq_true, decide_eq_true_eq] at hb
  obtain ⟨wd, e⟩ : ∃ wd, wd = 0xea020004 + a * 2048 + s * 16 := ⟨_, rfl⟩
  refine accept (w := wd) e.symm hw ?_
  have h1 : bits wd 26 6 = 58 := by unfold bits; omega
  have h3 : some (Instr.blzmovStore (bits wd 11 5) (bits wd 4 2)) = some (Instr.blzmovStore a s) := by
    rw [show bits wd 11 5 = a by unfold bits; omega, show bits wd 4 2 = s by unfold bits; omega]
  have h2 : bits wd 16 10 = 514 := by unfold bits; omega
  rw [← h3, pick_Engine h1]; unfold pickEngine; rw [h2]
  have h4 : bits wd 2 2 = 1 := by unfold bits; omega
  simp only [h4]
theorem blzmovLoad (a b d : Nat) : Statement (.blzmovLoad a b d) := by
  intro hw _
  have hb : (decide (a < 32) && decide (b < 32) && decide (d < 4)) = true := hw
  simp only [Bool.and_eq_true, decide_eq_true_eq] at hb
  obtain ⟨wd, e⟩ : ∃ wd, wd = 0xea020008 + a * 2048 + b * 64 + d := ⟨_, rfl⟩
  refine accept (w := wd) e.symm hw ?_
  have h1 : bits wd 26 6 = 58 := by unfold bits; omega
  have h3 : some (Instr.blzmovLoad (bits wd 11 5) (bits wd 6 5) (bits wd 0 2)) = some (Instr.blzmovLoad a b d) := by
    rw [show bits wd 11 5 = a by unfold bits; omega, show bits wd 6 5 = b by unfold bits; omega, show bits wd 0 2 = d by unfold bits; omega]
  have h2 : bits wd 16 10 = 514 := by unfold bits; omega
  rw [← h3, pick_Engine h1]; unfold pickEngine; rw [h2]
  have h4 : bits wd 2 2 = 2 := by unfold bits; omega
  simp only [h4]
theorem blzmovAnd (s d : Nat) : Statement (.blzmovAnd s d) := by
  intro hw _
  have hb : (decide (s < 4) && decide (d < 4)) = true := hw
  simp only [Bool.and_eq_true, decide_eq_true_eq] at hb
  obtain ⟨wd, e⟩ : ∃ wd, wd = 0xea02000c + s * 16 + d := ⟨_, rfl⟩
  refine accept (w := wd) e.symm hw ?_
  have h1 : bits wd 26 6 = 58 := by unfold bits; omega
  have h3 : some (Instr.blzmovAnd (bits wd 4 2) (bits wd 0 2)) = some (Instr.blzmovAnd s d) := by
    rw [show bits wd 4 2 = s by unfold bits; omega, show bits wd 0 2 = d by unfold bits; omega]
  have h2 : bits wd 16 10 = 514 := by unfold bits; omega
  rw [← h3, pick_Engine h1]; unfold pickEngine; rw [h2]
  have h4 : bits wd 2 2 = 3 := by unfold bits; omega
  simp only [h4]
theorem blzpop (a b s : Nat) : Statement (.blzpop a b s) := by
  intro hw _
  have hb : (decide (a < 32) && decide (b < 32) && decide (s < 4)) = true := hw
  simp only [Bool.and_eq_true, decide_eq_true_eq] at hb
  obtain ⟨wd, e⟩ : ∃ wd, wd = 0xea030000 + a * 2048 + b * 64 + s := ⟨_, rfl⟩
  refine accept (w := wd) e.symm hw ?_
  have h1 : bits wd 26 6 = 58 := by unfold bits; omega
  have h3 : some (Instr.blzpop (bits wd 11 5) (bits wd 6 5) (bits wd 0 2)) = some (Instr.blzpop a b s) := by
    rw [show bits wd 11 5 = a by unfold bits; omega, show bits wd 6 5 = b by unfold bits; omega, show bits wd 0 2 = s by unfold bits; omega]
  have h2 : bits wd 16 10 = 515 := by unfold bits; omega
  rw [← h3, pick_Engine h1]; unfold pickEngine; rw [h2]
  rfl
theorem ewr (a n : Nat) : Statement (.ewr a n) := by
  intro hw _
  have hb : (decide (a < 32) && decide (n < 64)) = true := hw
  simp only [Bool.and_eq_true, decide_eq_true_eq] at hb
  obtain ⟨wd, e⟩ : ∃ wd, wd = 0xea400000 + a * 2048 + n := ⟨_, rfl⟩
  refine accept (w := wd) e.symm hw ?_
  have h1 : bits wd 26 6 = 58 := by unfold bits; omega
  have h3 : some (Instr.ewr (bits wd 11 5) (bits wd 0 6)) = some (Instr.ewr a n) := by
    rw [show bits wd 11 5 = a by unfold bits; omega, show bits wd 0 6 = n by unfold bits; omega]
  have h2 : bits wd 16 10 = 576 := by unfold bits; omega
  rw [← h3, pick_Engine h1]; unfold pickEngine; rw [h2]
  rfl
theorem erd (a n : Nat) : Statement (.erd a n) := by
  intro hw _
  have hb : (decide (a < 32) && decide (n < 64)) = true := hw
  simp only [Bool.and_eq_true, decide_eq_true_eq] at hb
  obtain ⟨wd, e⟩ : ∃ wd, wd = 0xea410000 + a * 2048 + n := ⟨_, rfl⟩
  refine accept (w := wd) e.symm hw ?_
  have h1 : bits wd 26 6 = 58 := by unfold bits; omega
  have h3 : some (Instr.erd (bits wd 11 5) (bits wd 0 6)) = some (Instr.erd a n) := by
    rw [show bits wd 11 5 = a by unfold bits; omega, show bits wd 0 6 = n by unfold bits; omega]
  have h2 : bits wd 16 10 = 577 := by unfold bits; omega
  rw [← h3, pick_Engine h1]; unfold pickEngine; rw [h2]
  rfl
theorem nop : Statement (.nop) := by
  intro _ _; decide
theorem trap (d a : Nat) : Statement (.trap d a) := by
  intro hw _
  have hb : (decide (d < 32) && decide (a < 32)) = true := hw
  simp only [Bool.and_eq_true, decide_eq_true_eq] at hb
  obtain ⟨wd, e⟩ : ∃ wd, wd = 0xec000001 + d * 2097152 + a * 65536 := ⟨_, rfl⟩
  refine accept (w := wd) e.symm hw ?_
  have h1 : bits wd 26 6 = 59 := by unfold bits; omega
  have h3 : some (Instr.trap (bits wd 21 5) (bits wd 16 5)) = some (Instr.trap d a) := by
    rw [show bits wd 21 5 = d by unfold bits; omega, show bits wd 16 5 = a by unfold bits; omega]
  have h2 : bits wd 0 11 = 1 := by unfold bits; omega
  rw [← h3, pick_System h1]; unfold pickSystem; rw [h2]
  rfl
theorem eret : Statement (.eret) := by
  intro _ _; decide
theorem wfe : Statement (.wfe) := by
  intro _ _; decide
theorem synci : Statement (.synci) := by
  intro _ _; decide
theorem tlbinvPage (a : Nat) : Statement (.tlbinvPage a) := by
  intro hw _
  have hb : (decide (a < 32)) = true := hw
  simp only [decide_eq_true_eq] at hb
  obtain ⟨wd, e⟩ : ∃ wd, wd = 0xec000005 + a * 65536 := ⟨_, rfl⟩
  refine accept (w := wd) e.symm hw ?_
  have h1 : bits wd 26 6 = 59 := by unfold bits; omega
  have h3 : some (Instr.tlbinvPage (bits wd 16 5)) = some (Instr.tlbinvPage a) := by
    rw [show bits wd 16 5 = a by unfold bits; omega]
  have h2 : bits wd 0 11 = 5 := by unfold bits; omega
  rw [← h3, pick_System h1]; unfold pickSystem; rw [h2]
  have h4 : ¬ bits wd 21 5 = 1 := by unfold bits; omega
  simp only [h4, if_false]
theorem tlbinvJob : Statement (.tlbinvJob) := by
  intro _ _; decide
theorem brk (d : Nat) : Statement (.brk d) := by
  intro hw _
  have hb : (decide (d < 32)) = true := hw
  simp only [decide_eq_true_eq] at hb
  obtain ⟨wd, e⟩ : ∃ wd, wd = 0xec000006 + d * 2097152 := ⟨_, rfl⟩
  refine accept (w := wd) e.symm hw ?_
  have h1 : bits wd 26 6 = 59 := by unfold bits; omega
  have h3 : some (Instr.brk (bits wd 21 5)) = some (Instr.brk d) := by
    rw [show bits wd 21 5 = d by unfold bits; omega]
  have h2 : bits wd 0 11 = 6 := by unfold bits; omega
  rw [← h3, pick_System h1]; unfold pickSystem; rw [h2]
  rfl
theorem crd (d i : Nat) : Statement (.crd d i) := by
  intro hw _
  have hb : (decide (d < 32) && decide (i < 4096) && crdIndex i) = true := hw
  simp only [Bool.and_eq_true, decide_eq_true_eq] at hb
  obtain ⟨wd, e⟩ : ∃ wd, wd = 0xf0000000 + d * 2097152 + i := ⟨_, rfl⟩
  refine accept (w := wd) e.symm hw ?_
  have h1 : bits wd 26 6 = 60 := by unfold bits; omega
  have h3 : some (Instr.crd (bits wd 21 5) (bits wd 0 12)) = some (Instr.crd d i) := by
    rw [show bits wd 21 5 = d by unfold bits; omega, show bits wd 0 12 = i by unfold bits; omega]
  rw [← h3]; unfold pick; rw [h1]; rfl
theorem cwr (a i : Nat) : Statement (.cwr a i) := by
  intro hw _
  have hb : (decide (a < 32) && decide (i < 4096) && cwrIndex i) = true := hw
  simp only [Bool.and_eq_true, decide_eq_true_eq] at hb
  obtain ⟨wd, e⟩ : ∃ wd, wd = 0xf4000000 + a * 65536 + i := ⟨_, rfl⟩
  refine accept (w := wd) e.symm hw ?_
  have h1 : bits wd 26 6 = 61 := by unfold bits; omega
  have h3 : some (Instr.cwr (bits wd 16 5) (bits wd 0 12)) = some (Instr.cwr a i) := by
    rw [show bits wd 16 5 = a by unfold bits; omega, show bits wd 0 12 = i by unfold bits; omega]
  rw [← h3]; unfold pick; rw [h1]; rfl
theorem safept (i : Nat) : Statement (.safept i) := by
  intro hw _
  have hb : (decide (i < 65536)) = true := hw
  simp only [decide_eq_true_eq] at hb
  obtain ⟨wd, e⟩ : ∃ wd, wd = 0xf8000000 + i := ⟨_, rfl⟩
  refine accept (w := wd) e.symm hw ?_
  have h1 : bits wd 26 6 = 62 := by unfold bits; omega
  have h3 : some (Instr.safept (bits wd 0 16)) = some (Instr.safept i) := by
    rw [show bits wd 0 16 = i by unfold bits; omega]
  rw [← h3]; unfold pick; rw [h1]; rfl
theorem kadd (pkg stk slot el isl : Nat) : Statement (.kadd pkg stk slot el isl) := fun _ h => absurd h Bool.false_ne_true
theorem ksub (pkg stk slot el isl : Nat) : Statement (.ksub pkg stk slot el isl) := fun _ h => absurd h Bool.false_ne_true
theorem kmul (pkg stk slot el isl : Nat) : Statement (.kmul pkg stk slot el isl) := fun _ h => absurd h Bool.false_ne_true
theorem kmac (pkg stk slot el isl : Nat) : Statement (.kmac pkg stk slot el isl) := fun _ h => absurd h Bool.false_ne_true
theorem kand (pkg stk slot el isl : Nat) : Statement (.kand pkg stk slot el isl) := fun _ h => absurd h Bool.false_ne_true
theorem kor (pkg stk slot el isl : Nat) : Statement (.kor pkg stk slot el isl) := fun _ h => absurd h Bool.false_ne_true
theorem kxor (pkg stk slot el isl : Nat) : Statement (.kxor pkg stk slot el isl) := fun _ h => absurd h Bool.false_ne_true
theorem kshl (pkg stk slot el isl : Nat) : Statement (.kshl pkg stk slot el isl) := fun _ h => absurd h Bool.false_ne_true
theorem kshr (pkg stk slot el isl : Nat) : Statement (.kshr pkg stk slot el isl) := fun _ h => absurd h Bool.false_ne_true
theorem kcmp (pkg stk slot el isl : Nat) : Statement (.kcmp pkg stk slot el isl) := fun _ h => absurd h Bool.false_ne_true
theorem ksel (pkg stk slot el isl : Nat) : Statement (.ksel pkg stk slot el isl) := fun _ h => absurd h Bool.false_ne_true
theorem kmin (pkg stk slot el isl : Nat) : Statement (.kmin pkg stk slot el isl) := fun _ h => absurd h Bool.false_ne_true
theorem kmax (pkg stk slot el isl : Nat) : Statement (.kmax pkg stk slot el isl) := fun _ h => absurd h Bool.false_ne_true
theorem kcvt (pkg stk slot el isl : Nat) : Statement (.kcvt pkg stk slot el isl) := fun _ h => absurd h Bool.false_ne_true
theorem kpopc (pkg stk slot el isl : Nat) : Statement (.kpopc pkg stk slot el isl) := fun _ h => absurd h Bool.false_ne_true
theorem kpass (pkg stk slot el isl : Nat) : Statement (.kpass pkg stk slot el isl) := fun _ h => absurd h Bool.false_ne_true
theorem kred (pkg stk slot el isl : Nat) : Statement (.kred pkg stk slot el isl) := fun _ h => absurd h Bool.false_ne_true
theorem kend (pkg stk slot el isl : Nat) : Statement (.kend pkg stk slot el isl) := fun _ h => absurd h Bool.false_ne_true
theorem ksetp (pkg stk slot el isl : Nat) : Statement (.ksetp pkg stk slot el isl) := fun _ h => absurd h Bool.false_ne_true
theorem kclrp (pkg stk slot el isl : Nat) : Statement (.kclrp pkg stk slot el isl) := fun _ h => absurd h Bool.false_ne_true
theorem kdeq (pkg stk slot el isl : Nat) : Statement (.kdeq pkg stk slot el isl) := fun _ h => absurd h Bool.false_ne_true
theorem kenq (pkg stk slot el isl : Nat) : Statement (.kenq pkg stk slot el isl) := fun _ h => absurd h Bool.false_ne_true
theorem klgen (pkg stk slot el isl : Nat) : Statement (.klgen pkg stk slot el isl) := fun _ h => absurd h Bool.false_ne_true
theorem kmrd (pkg stk slot el isl : Nat) : Statement (.kmrd pkg stk slot el isl) := fun _ h => absurd h Bool.false_ne_true
theorem kmwr (pkg stk slot el isl : Nat) : Statement (.kmwr pkg stk slot el isl) := fun _ h => absurd h Bool.false_ne_true
theorem wave (pkg stk slot el : Nat) : Statement (.wave pkg stk slot el) := fun _ h => absurd h Bool.false_ne_true
theorem knbadd (pkg stk slot el isl : Nat) : Statement (.knbadd pkg stk slot el isl) := fun _ h => absurd h Bool.false_ne_true
theorem knbscl (pkg stk slot el isl : Nat) : Statement (.knbscl pkg stk slot el isl) := fun _ h => absurd h Bool.false_ne_true
theorem knbsum (pkg stk slot el isl : Nat) : Statement (.knbsum pkg stk slot el isl) := fun _ h => absurd h Bool.false_ne_true
theorem packetArrival (n : Nat) : Statement (.packetArrival n) := fun _ h => absurd h Bool.false_ne_true
theorem packetResend (n : Nat) : Statement (.packetResend n) := fun _ h => absurd h Bool.false_ne_true
theorem messageAcceptance (core num : Nat) : Statement (.messageAcceptance core num) := fun _ h => absurd h Bool.false_ne_true
theorem deckRefill (core prio : Nat) : Statement (.deckRefill core prio) := fun _ h => absurd h Bool.false_ne_true
theorem recordAging (core prio n : Nat) : Statement (.recordAging core prio n) := fun _ h => absurd h Bool.false_ne_true
theorem recordStart (core : Nat) : Statement (.recordStart core) := fun _ h => absurd h Bool.false_ne_true
theorem hardwareSuspension (ctx : Nat) : Statement (.hardwareSuspension ctx) := fun _ h => absurd h Bool.false_ne_true
theorem spawnSequencerSend (core : Nat) : Statement (.spawnSequencerSend core) := fun _ h => absurd h Bool.false_ne_true
theorem engineOperationStart (core n : Nat) : Statement (.engineOperationStart core n) := fun _ h => absurd h Bool.false_ne_true
theorem engineOperationCompletion (core n : Nat) : Statement (.engineOperationCompletion core n) := fun _ h => absurd h Bool.false_ne_true
theorem sawmillQueueEntry (grove n : Nat) : Statement (.sawmillQueueEntry grove n) := fun _ h => absurd h Bool.false_ne_true
theorem sawmillStart (grove : Nat) : Statement (.sawmillStart grove) := fun _ h => absurd h Bool.false_ne_true
theorem sawmillCompletion (grove : Nat) : Statement (.sawmillCompletion grove) := fun _ h => absurd h Bool.false_ne_true
theorem cruiseStart (grove : Nat) : Statement (.cruiseStart grove) := fun _ h => absurd h Bool.false_ne_true
theorem cruiseCompletion (grove : Nat) : Statement (.cruiseCompletion grove) := fun _ h => absurd h Bool.false_ne_true
theorem tlbMissRequest (core job va : Nat) : Statement (.tlbMissRequest core job va) := fun _ h => absurd h Bool.false_ne_true
theorem walkRetry (grove n : Nat) : Statement (.walkRetry grove n) := fun _ h => absurd h Bool.false_ne_true
theorem walkCompletion (grove n : Nat) : Statement (.walkCompletion grove n) := fun _ h => absurd h Bool.false_ne_true
theorem tlbinvCompletion (pkg n : Nat) : Statement (.tlbinvCompletion pkg n) := fun _ h => absurd h Bool.false_ne_true
theorem storeRegistration (n : Nat) : Statement (.storeRegistration n) := fun _ h => absurd h Bool.false_ne_true
theorem ownedWordEviction (core key : Nat) : Statement (.ownedWordEviction core key) := fun _ h => absurd h Bool.false_ne_true
theorem updateOnlyFlush (grove line : Nat) : Statement (.updateOnlyFlush grove line) := fun _ h => absurd h Bool.false_ne_true
theorem landingRetry (ctx : Nat) : Statement (.landingRetry ctx) := fun _ h => absurd h Bool.false_ne_true
theorem pageRequestEntry (pkg : Nat) : Statement (.pageRequestEntry pkg) := fun _ h => absurd h Bool.false_ne_true
theorem pageRequestAnswer (pkg value : Nat) : Statement (.pageRequestAnswer pkg value) := fun _ h => absurd h Bool.false_ne_true
theorem faultDelivery (ctx : Nat) : Statement (.faultDelivery ctx) := fun _ h => absurd h Bool.false_ne_true
theorem faultDeliveryRetry (ctx : Nat) : Statement (.faultDeliveryRetry ctx) := fun _ h => absurd h Bool.false_ne_true
theorem heartbeatMiss (ctx : Nat) : Statement (.heartbeatMiss ctx) := fun _ h => absurd h Bool.false_ne_true
theorem spareTakeover (core : Nat) : Statement (.spareTakeover core) := fun _ h => absurd h Bool.false_ne_true
theorem partialMessageDiscard (core n : Nat) : Statement (.partialMessageDiscard core n) := fun _ h => absurd h Bool.false_ne_true
theorem wfeTimeout (ctx : Nat) : Statement (.wfeTimeout ctx) := fun _ h => absurd h Bool.false_ne_true
theorem hostActiveMessage (pkg page ofs size data : Nat) : Statement (.hostActiveMessage pkg page ofs size data) := fun _ h => absurd h Bool.false_ne_true
theorem hostMessageRetry (pkg : Nat) : Statement (.hostMessageRetry pkg) := fun _ h => absurd h Bool.false_ne_true
theorem install (pkg : Nat) : Statement (.install pkg) := fun _ h => absurd h Bool.false_ne_true
theorem remove (pkg : Nat) : Statement (.remove pkg) := fun _ h => absurd h Bool.false_ne_true
theorem aset (pkg : Nat) : Statement (.aset pkg) := fun _ h => absurd h Bool.false_ne_true
theorem shoot (pkg : Nat) : Statement (.shoot pkg) := fun _ h => absurd h Bool.false_ne_true
theorem bind (pkg : Nat) : Statement (.bind pkg) := fun _ h => absurd h Bool.false_ne_true
theorem grant (pkg : Nat) : Statement (.grant pkg) := fun _ h => absurd h Bool.false_ne_true
theorem hotread (pkg : Nat) : Statement (.hotread pkg) := fun _ h => absurd h Bool.false_ne_true
theorem region (pkg : Nat) : Statement (.region pkg) := fun _ h => absurd h Bool.false_ne_true
theorem qpset (pkg : Nat) : Statement (.qpset pkg) := fun _ h => absurd h Bool.false_ne_true
theorem govctlWrite (pkg value : Nat) : Statement (.govctlWrite pkg value) := fun _ h => absurd h Bool.false_ne_true
theorem registerWrite (pkg ofs value fw : Nat) : Statement (.registerWrite pkg ofs value fw) := fun _ h => absurd h Bool.false_ne_true
theorem hotnessHalving (pkg : Nat) : Statement (.hotnessHalving pkg) := fun _ h => absurd h Bool.false_ne_true
theorem monitorRefresh (pkg n temp vcore : Nat) : Statement (.monitorRefresh pkg n temp vcore) := fun _ h => absurd h Bool.false_ne_true
theorem currentLimit (pkg : Nat) : Statement (.currentLimit pkg) := fun _ h => absurd h Bool.false_ne_true
theorem thermalTrip (pkg : Nat) : Statement (.thermalTrip pkg) := fun _ h => absurd h Bool.false_ne_true
theorem boot (pkg image : Nat) : Statement (.boot pkg image) := fun _ h => absurd h Bool.false_ne_true
theorem recoveryImageWrite (pkg image : Nat) : Statement (.recoveryImageWrite pkg image) := fun _ h => absurd h Bool.false_ne_true
theorem fuseWrite (pkg kind value : Nat) : Statement (.fuseWrite pkg kind value) := fun _ h => absurd h Bool.false_ne_true
theorem getVersion (pkg : Nat) : Statement (.getVersion pkg) := fun _ h => absurd h Bool.false_ne_true
theorem getCapabilities (pkg : Nat) : Statement (.getCapabilities pkg) := fun _ h => absurd h Bool.false_ne_true
theorem negotiateAlgorithms (pkg asym hash : Nat) : Statement (.negotiateAlgorithms pkg asym hash) := fun _ h => absurd h Bool.false_ne_true
theorem getDigests (pkg : Nat) : Statement (.getDigests pkg) := fun _ h => absurd h Bool.false_ne_true
theorem getCertificate (pkg slot ofs len : Nat) : Statement (.getCertificate pkg slot ofs len) := fun _ h => absurd h Bool.false_ne_true
theorem challenge (pkg slot nonce : Nat) : Statement (.challenge pkg slot nonce) := fun _ h => absurd h Bool.false_ne_true
theorem getMeasurements (pkg index : Nat) : Statement (.getMeasurements pkg index) := fun _ h => absurd h Bool.false_ne_true
theorem spdmOtherRequest (pkg code : Nat) : Statement (.spdmOtherRequest pkg code) := fun _ h => absurd h Bool.false_ne_true
theorem debugToken (pkg level token : Nat) : Statement (.debugToken pkg level token) := fun _ h => absurd h Bool.false_ne_true
theorem lifecycleChange (pkg next : Nat) : Statement (.lifecycleChange pkg next) := fun _ h => absurd h Bool.false_ne_true
theorem powerStateChange (pkg next : Nat) : Statement (.powerStateChange pkg next) := fun _ h => absurd h Bool.false_ne_true
theorem deviceReset : Statement (.deviceReset) := fun _ h => absurd h Bool.false_ne_true
theorem preEmption (pkg job : Nat) : Statement (.preEmption pkg job) := fun _ h => absurd h Bool.false_ne_true
theorem restoration (pkg job : Nat) : Statement (.restoration pkg job) := fun _ h => absurd h Bool.false_ne_true
theorem safePointModeSet (pkg job : Nat) : Statement (.safePointModeSet pkg job) := fun _ h => absurd h Bool.false_ne_true
theorem safePointTimeout (ctx : Nat) : Statement (.safePointTimeout ctx) := fun _ h => absurd h Bool.false_ne_true
theorem safePointRelease (pkg job : Nat) : Statement (.safePointRelease pkg job) := fun _ h => absurd h Bool.false_ne_true
theorem chunkStart (play chunk : Nat) : Statement (.chunkStart play chunk) := fun _ h => absurd h Bool.false_ne_true
theorem chunkCompletion (play chunk : Nat) : Statement (.chunkCompletion play chunk) := fun _ h => absurd h Bool.false_ne_true
theorem chunkRedo (play chunk : Nat) : Statement (.chunkRedo play chunk) := fun _ h => absurd h Bool.false_ne_true
theorem playAbort (play cause : Nat) : Statement (.playAbort play cause) := fun _ h => absurd h Bool.false_ne_true
theorem linkRetransmission (pkg port : Nat) : Statement (.linkRetransmission pkg port) := fun _ h => absurd h Bool.false_ne_true
theorem laneDown (pkg port lane : Nat) : Statement (.laneDown pkg port lane) := fun _ h => absurd h Bool.false_ne_true
theorem routerUncorrectable (pkg : Nat) : Statement (.routerUncorrectable pkg) := fun _ h => absurd h Bool.false_ne_true
theorem unreachableTimeout (kind n : Nat) : Statement (.unreachableTimeout kind n) := fun _ h => absurd h Bool.false_ne_true
theorem ucieLaneRepair (pkg link : Nat) : Statement (.ucieLaneRepair pkg link) := fun _ h => absurd h Bool.false_ne_true
theorem ucieLinkDown (pkg link : Nat) : Statement (.ucieLinkDown pkg link) := fun _ h => absurd h Bool.false_ne_true
theorem cxlPortFailure (pkg port tmo : Nat) : Statement (.cxlPortFailure pkg port tmo) := fun _ h => absurd h Bool.false_ne_true
theorem cxlPortRecovery (pkg port : Nat) : Statement (.cxlPortRecovery pkg port) := fun _ h => absurd h Bool.false_ne_true
theorem ethReceive (pkg qp len data imm iv : Nat) : Statement (.ethReceive pkg qp len data imm iv) := fun _ h => absurd h Bool.false_ne_true
theorem ethSendCompletion (pkg qp : Nat) : Statement (.ethSendCompletion pkg qp) := fun _ h => absurd h Bool.false_ne_true
theorem rnrRetry (pkg qp : Nat) : Statement (.rnrRetry pkg qp) := fun _ h => absurd h Bool.false_ne_true
theorem ethPortDown (pkg port : Nat) : Statement (.ethPortDown pkg port) := fun _ h => absurd h Bool.false_ne_true
theorem patrolScrub (pkg block : Nat) : Statement (.patrolScrub pkg block) := fun _ h => absurd h Bool.false_ne_true
theorem hostHdmAccess (pkg wr ofs size value : Nat) : Statement (.hostHdmAccess pkg wr ofs size value) := fun _ h => absurd h Bool.false_ne_true
theorem remoteStoreAcknowledgement (n : Nat) : Statement (.remoteStoreAcknowledgement n) := fun _ h => absurd h Bool.false_ne_true
theorem currentFallsBelowLimit (pkg : Nat) : Statement (.currentFallsBelowLimit pkg) := fun _ h => absurd h Bool.false_ne_true
theorem laneDisable (pkg port lane : Nat) : Statement (.laneDisable pkg port lane) := fun _ h => absurd h Bool.false_ne_true
theorem corePoweredDown (core : Nat) : Statement (.corePoweredDown core) := fun _ h => absurd h Bool.false_ne_true
theorem debugAccess (pkg wr space addr size value : Nat) : Statement (.debugAccess pkg wr space addr size value) := fun _ h => absurd h Bool.false_ne_true
theorem workEntryReached (pkg qp snd : Nat) : Statement (.workEntryReached pkg qp snd) := fun _ h => absurd h Bool.false_ne_true
theorem softError (kind key : Nat) : Statement (.softError kind key) := fun _ h => absurd h Bool.false_ne_true

end Sys2Proof.Laws.RoundTrip
end

