-- ==== Sys2Proof/Safety.lean ====
section
/-! DEFINITION. The terms in which claims about the machine are stated: how an instruction completes, what its loads and stores give, and the
invariant of the machine. -/

namespace Sys2Proof.Machine

open Sys2Proof

/-! ## How an instruction completes -/

/-- Every register of the list can be read by the running thread (18 R409). -/
def SrcsGood (s : State) (l : List Nat) : Prop := l.any (regBad (cx s)) = false

/-- Where the thread goes on after an instruction begun in s whose own effect gives t and that branches nowhere: PC + 4, unless a loop level
loops back there (02 R63). -/
def nextPc (s t : State) : Word := (loopEnd (cx t) (cx s).pc ((cx s).pc + 4)).2

/-- The state t with the thread past the instruction begun in s: its loop levels, its PC, and its wait ended. -/
def advance (s t : State) : State := goOn t (loopEnd (cx t) (cx s).pc ((cx s).pc + 4)).1 (nextPc s t)

/-- The next instruction's address is one that a fetch can use (07 R202). -/
def Goes (s t : State) : Prop := badTarget (nextPc s t) = false

/-- The instruction i, with readable source registers, has the effect t on s, and the thread goes on to the next instruction. -/
def Completes (i : Instr) (srcs : List Nat) (s t : State) : Prop :=
  SrcsGood s srcs → Goes s t → exec i s = .next (advance s t)

/-- The instruction i, with readable source registers, waits for o in the state t; one that would go on at an address that no fetch can use traps
first (07 R202; 17 R380). -/
def Waits (i : Instr) (srcs : List Nat) (s t : State) (o : Obj) : Prop :=
  SrcsGood s srcs → (Goes s s → exec i s = .next (waitOn t o)) ∧
    (badTarget (nextPc s s) = true → exec i s = .next (takeTrap s i cInsnAddr (nextPc s s) 0))

/-- The thread at n after a taken branch or jump begun in s whose own effect gives t: a loop level whose body it leaves, or whose last
instruction it is, ends (02 R63). -/
def jumpTo (s t : State) (n : Word) : State :=
  goOn t { cx t with l0 := levelBranch (cx t).l0 (cx s).pc n, l1 := levelBranch (cx t).l1 (cx s).pc n } n

/-- The running context without an instruction that it holds: it fetches its next one. -/
def unheld (s : State) : State := modCx s (fun c => { c with insn := none })

/-- A thread issues next in the state s, from the state u: the context c that the scan chooses, when the turn is its own and no fence is due and no
waiting request has become performable; or a context whose waiting request has (log 3). -/
def IssuesNext (s : State) (c : Nat) (u : State) : Prop :=
  (u = selectCtx { s with turn := .hardware } c ∧ chooseCtx s = some c ∧
    (s.turn = .first ∨ (fenceNow s = none ∧ served s = none ∧ (s.turn = .thread ∨ (s.turn = .hardware ∧ nextEvent s = none))))) ∨
  (u = { s with cur := c } ∧ s.turn ≠ .first ∧ fenceNow s = none ∧ served s = some c)

/-- A conditional branch on the condition c with distance n: the next instruction when c fails; the target when c holds; and the trap of
07 R202 when c holds and no fetch can use the target. -/
def BranchGives (i : Instr) (srcs : List Nat) (s : State) (c : Prop) (n : Word) : Prop :=
  SrcsGood s srcs →
    (¬ c → Goes s s → exec i s = .next (advance s s)) ∧
    (c → badTarget ((cx s).pc + n) = false → exec i s = .next (jumpTo s s ((cx s).pc + n))) ∧
    (c → badTarget ((cx s).pc + n) = true → exec i s = .next (takeTrap s i cInsnAddr ((cx s).pc + n) 0))

/-- The first and the last address of the body of n instructions after the PC of s, each of 48 bits (02 R62; 06 R145). -/
def bodyStart (s : State) : Word := low48 ((cx s).pc + 4)
def bodyEnd (s : State) (n : Nat) : Word := low48 (bodyStart s + word (4 * (n - 1)))

/-- A loop level set up by an instruction at the PC of s with a body of n instructions (02 R62). -/
def bodyLevel (s : State) (n : Nat) (count : Word) : LoopLevel :=
  { cnt := count, sta := bodyStart s, fin := bodyEnd s n, org := bodyStart s, cur := bodyEnd s n, act := count != 0 }

/-- The state after LOOP or LOOPI on level 1, and on level 0, where level 1 ends if it was active (02 R62, R63). -/
def loopOne (s : State) (n : Nat) (count : Word) : State :=
  modCx s (fun c => { c with l1 := bodyLevel s n count, badRegs := loopGood c.badRegs 3 })
def loopZero (s : State) (n : Nat) (count : Word) : State :=
  modCx s (fun c => { c with l0 := bodyLevel s n count, l1 := if c.l1.act then { c.l1 with cnt := 0, act := false } else c.l1,
                             badRegs := loopGood c.badRegs 0 })

/-- The thread past the body of a loop with count 0: execution continues at LEND + 4 (02 R62; of all 64 bits, log 84). -/
def skipBody (s t : State) (n : Nat) : Ctx × Word := loopEnd (cx t) (cx s).pc ((cx s).pc + 4 + word (4 * n))

/-- The loop instruction i in s, whose own effect is t and whose count is 0, skips its body of n instructions, or traps when no fetch can use the
address past it (07 R202). -/
def Skips (i : Instr) (s t : State) (n : Nat) : Prop :=
  (badTarget (skipBody s t n).2 = false → exec i s = .next (goOn t (skipBody s t n).1 (skipBody s t n).2)) ∧
  (badTarget (skipBody s t n).2 = true → exec i s = .next (takeTrap s i cInsnAddr (skipBody s t n).2 0))

/-! ## Vectors (08 R205) -/

/-- Element e of a vector register in its own format. -/
def vel (v : VReg) (e : Nat) : Nat := elemAt (tagWidth v.tag) (vnat v) e

/-- Element e of an element-wise result, and its flags: an inactive element keeps its bits and sets no flag. -/
def laneOf (s : State) (d w : Nat) (mask : Nat → Bool) (f : Nat → Nat × Nat) (e : Nat) : Nat × Nat :=
  if mask e then f e else (elemAt w (vnat (regV s d)) e, 0)

/-- The state after Vd takes n elements of width w, its tag and its plane count, and STAT the flags of the active elements. -/
def laneResult (s : State) (d w n : Nat) (mask : Nat → Bool) (tag planes : Nat) (f : Nat → Nat × Nat) : State :=
  orFlags (setVPart s d (mkV (packElems w (((List.range n).map (laneOf s d w mask f)).map Prod.fst)) tag planes) (laneDwords w n mask))
    (((List.range n).map (laneOf s d w mask f)).foldl (fun a p => a ||| p.2) 0)

/-- Element-wise results in Va's format, of one, two and three sources; the third is Vd. -/
def lanes1 (s : State) (d a m : Nat) (f : Nat → Nat → Nat × Nat) : State :=
  laneResult s d (tagWidth (regV s a).tag) (tagCount (regV s a).tag) (maskBit s m) (regV s a).tag 0 (fun e => f (regV s a).tag (vel (regV s a) e))
def lanes2 (s : State) (d a b m : Nat) (f : Nat → Nat → Nat → Nat × Nat) : State :=
  laneResult s d (tagWidth (regV s a).tag) (tagCount (regV s a).tag) (maskBit s m) (regV s a).tag 0
    (fun e => f (regV s a).tag (vel (regV s a) e) (elemAt (tagWidth (regV s a).tag) (vnat (regV s b)) e))
def lanes3 (s : State) (d a b m : Nat) (f : Nat → Nat → Nat → Nat → Nat × Nat) : State :=
  laneResult s d (tagWidth (regV s a).tag) (tagCount (regV s a).tag) (maskBit s m) (regV s a).tag 0
    (fun e => f (regV s a).tag (vel (regV s a) e) (elemAt (tagWidth (regV s a).tag) (vnat (regV s b)) e)
      (elemAt (tagWidth (regV s a).tag) (vnat (regV s d)) e))

/-- The tag of a bitwise operation: the sources' common one, or 0 (08 R209). -/
def logicTag (x y : VReg) : Nat := if sameFormat x y then x.tag else 0
def logicLanes (s : State) (d a b m : Nat) (f : Nat → Nat → Nat) : State :=
  laneResult s d (tagWidth (logicTag (regV s a) (regV s b))) (tagCount (logicTag (regV s a) (regV s b))) (maskBit s m)
    (logicTag (regV s a) (regV s b)) (if sameFormat (regV s a) (regV s b) then (regV s a).planes else 0)
    (fun e => (f (elemAt (tagWidth (logicTag (regV s a) (regV s b))) (vnat (regV s a)) e)
      (elemAt (tagWidth (logicTag (regV s a) (regV s b))) (vnat (regV s b)) e), 0))

/-- The comparison of element e of Va and Vb under a mask (08 R211). -/
def compareOf (s : State) (a b m c e : Nat) : Bool × Nat :=
  if maskBit s m e then cmpElem c (regV s a).tag (vel (regV s a) e) (elemAt (tagWidth (regV s a).tag) (vnat (regV s b)) e) else (false, 0)

def compareResult (s : State) (d a b m c : Nat) : State :=
  orFlags (setM s d (BitVec.ofNat 128 (packElems 1 (((List.range (tagCount (regV s a).tag)).map (compareOf s a b m c)).map (fun p => p.1.toNat)))))
    (((List.range (tagCount (regV s a).tag)).map (compareOf s a b m c)).foldl (fun f p => f ||| p.2) 0)

/-- The active elements below lim of a vector access (08 R221, R224). -/
def activeElems (s : State) (m t lim : Nat) : List Nat := (List.range (tagCount t)).filter (fun e => decide (e < lim) && maskBit s m e)

/-- Vd after a vector load whose active elements got the bytes bs: elements from lim on are zero, other inactive ones keep their bits. -/
def vectorLoaded (s u : State) (d m t lim : Nat) (bs : List (List Byte)) : VReg :=
  mkV (packElems (tagWidth t) ((List.range (tagCount t)).map (fun e =>
    if lim ≤ e then 0
    else match kfind ((activeElems s m t lim).zip bs) e with
      | some b => leNat b
      | none => elemAt (tagWidth t) (vnat (regV u d)) e))) t 0

/-- The dwords of Vd that a vector load writes (18 R409). -/
def loadedDwords (u : State) (m t lim : Nat) : Nat → Bool :=
  laneDwords (tagWidth t) (tagCount t) (fun e => decide (lim ≤ e) || maskBit u m e)

/-- The accesses of a vector load and of a vector store. -/
def vloadList (s : State) (m t lim : Nat) (addr : Nat → Word) : List (Word × Nat) :=
  (activeElems s m t lim).map (fun e => (addr e, tagWidth t / 8))
def vstoreList (s : State) (d m t lim : Nat) (addr : Nat → Word) : List (Word × List Byte) :=
  (activeElems s m t lim).map (fun e => (addr e, leBytes (tagWidth t / 8) (elemAt (tagWidth t) (vnat (regV s d)) e)))

/-! ## What loads and stores give -/

/-- The loads of an instruction, when every byte passes its checks, is readable and is there: the state after them and the bytes. -/
def loadResult (s : State) (ap : Bool) (l : List (Word × Nat)) : Option (State × List (List Byte)) :=
  match checkMany s (thr s) .read ap l [] with
  | (s1, cs) =>
    if (chkRes s1 false cs).isSome then none
    else match recallMany s1 l cs with
      | (_, some _) => none
      | (s2, none) =>
        if (badMany s2 false l cs).isSome then none
        else match readMany s2 (thr s) s2.cur l cs with
          | (t, .ok bs) => some (t, bs)
          | (_, .error _) => none

/-- The stores of an instruction, when every byte passes its checks: the state after them. -/
def storeResult (s : State) (ap : Bool) (l : List (Word × List Byte)) : Option State :=
  match checkMany s (thr s) .write ap (l.map (fun e => (e.1, e.2.length))) [] with
  | (s1, cs) =>
    if (chkRes s1 true cs).isSome then none
    else match recallMany s1 (l.map (fun e => (e.1, e.2.length))) cs with
      | (_, some _) => none
      | (s2, none) =>
        if (badMany s2 true (l.map (fun e => (e.1, e.2.length))) cs).isSome then none
        else some (writeMany s2 (thr s) s2.cur (l.map (fun e => e.2)) cs)

/-- The state after a prefetch of the line at a key into a core's L1 (07 R199); a line that a CXL port delivers counts (03 R90). -/
def prefetched (u : State) (core pa key : Nat) : State :=
  fillLine (cxlLines u false (fun _ => lineHeld (getCore u core).l1 key) pa key 64) core key 8

/-- The value of 2^w bytes at their home. -/
def homeValue (s : State) (key w : Nat) : Nat := leNat (homeRead s key (2 ^ w))

/-- The state after an atomic on 2^w bytes at a key of s2, with the operand Ab of s1 and the comparand c (09 R260). -/
def atomicAfter (s1 s2 : State) (b key w op : Nat) (uns : Bool) (c : Word) : State :=
  dropL1 (mend (homeWrite s2 key (leBytes (2 ^ w) (atomicNew op uns (8 * 2 ^ w) (homeValue s2 key w)
    ((regA s1 b).toNat % 2 ^ (8 * 2 ^ w)) (c.toNat % 2 ^ (8 * 2 ^ w))))) key (2 ^ w)) (cxCore s2) key (2 ^ w)

/-- The state after an update-only atomic in global memory: it joins or starts a partial of the core's grove slice (04 R114). -/
def partialAfter (s : State) (b key w op : Nat) (uns : Bool) : State :=
  { s with partials := addPartial (coreGrove (cxCore s)) key (2 ^ w) op uns ((regA s b).toNat % 2 ^ (8 * 2 ^ w)) s.partials }

/-! ## Objects that instructions find -/

/-- The counter of an instruction: its key, and the state u in which the thread's earlier stores to that core are performed; it can be read. -/
def CounterHere (s : State) (va : Word) (key : Nat) (u : State) : Prop :=
  counterObj s (thr s) va 8 = .key key ∧ u = drainTo s s.cur (keyCore key) ∧ firstBad u key 8 = none

/-- The barrier of an instruction, with its fields (09 R247). -/
def BarrierHere (s : State) (va : Word) (key : Nat) (o : Barrier) (u : State) : Prop :=
  counterObj s (thr s) va 16 = .key key ∧ u = drainTo s s.cur (keyCore key) ∧ firstBad u key 16 = none ∧ readBarrier u key = some o

/-- The ring of an instruction (09 R257). -/
def RingHere (s : State) (va : Word) (r : Ring) (u : State) : Prop :=
  ∃ key, scratchObj s (thr s) va 64 cRing = .key key ∧ u = drainTo s s.cur (keyCore key) ∧ firstBad u key 64 = none ∧ readRing u key = some r

/-- The record of 64 bytes at an address, at its home, in the state u after the accesses before it (09 R244). -/
def RecordHere (s : State) (va : Word) (acc : Acc) (key : Nat) (u : State) : Prop :=
  va.toNat % 64 = 0 ∧ ∃ s1 n v, check s (thr s) acc false va 64 = (s1, .ok [(key, n)]) ∧
    recallLines (settleBytes (if keyIsScratch key then drainTo s1 s1.cur (keyCore key) else s1) key 64) key 64 = (v, none) ∧
    firstBad v key 64 = none ∧ u = cxlDelivers v (thr v) va.toNat (fun _ => false) key 64

/-- The triggers armed on a counter, and the records parked on it. -/
def trigsOn (s : State) (key : Nat) : List Trig := (getCore s (keyCore key)).trigs.filter (fun t => t.key == key)
def parkedOn (s : State) (key : Nat) : List Parked := (getCore s (keyCore key)).park.filter (fun p => p.obj == .counter key)

/-- A counter after an update, before its trigger is tested: the value, the event bits of its core, and the records that were parked on it released (02
R32, R54). -/
def updated (s : State) (key : Nat) (v : Word) : State :=
  wake (eventsWhere (mend (memWrite s key (leBytes 8 v.toNat)) key 8) (fun c => c == keyCore key)) (keyCore key) (fun o => o == .counter key)

/-- A core with a trigger more, in the place of the counter's own, and with the counter's trigger taken away (02 R55, R56). -/
def armed (s : State) (t : Trig) : State :=
  modCore s (keyCore t.key) (fun u => { u with trigs := u.trigs.filter (fun x => x.key != t.key) ++ [t] })
def disarmed (s : State) (key : Nat) : State := modCore s (keyCore key) (fun u => { u with trigs := u.trigs.filter (fun x => x.key != key) })

/-- The payload of a send, when its bytes pass their checks and the injector has room: the state after the waits of a release and the reads. -/
def sendReady (s : State) (payload : Word) (len : Nat) : Option (State × List Byte) :=
  match checkMany s (thr s) .read false [(payload, len)] [] with
  | (s1, cs) =>
    if (chkRes s1 false cs).isSome || !hasRoom s1 (cxCore s1) then none
    else (loadResult (releaseWaits s1 s1.cur) false [(payload, len)]).map (fun r => (r.1, r.2.headD []))

/-- What RESUME of the record r at key finds beside it, in the state w: the HOLD dword of a fault-ring entry whose record has no frame, read at its home,
the core's own copy dropped; nothing for any other record (02 R30; 17 R381). -/
def HoldHere (w : State) (addr : Word) (key : Nat) (r : Rec) (v : State) (hold : Option Word) : Prop :=
  ((r.ff = true ∨ entryIndex (jobD w (cxPkg w) (cx w).job) addr = none) ∧ v = w ∧ hold = none) ∨
  (r.ff = false ∧ (entryIndex (jobD w (cxPkg w) (cx w).job) addr).isSome = true ∧
    ∃ x, recallLines (settleBytes w (key + 0x60) 8) (key + 0x60) 8 = (x, none) ∧ firstBad x (key + 0x60) 8 = none ∧
      v = dropL1 x (cxCore x) (key + 0x60) 8 ∧ hold = some (word (leNat (homeRead x (key + 0x60) 8))))

/-- The state after RESUME takes the record at key: the record is zeroed, what HOLD names is ended and HOLD zeroed, and a fault-ring entry is freed. -/
def recordTaken (v : State) (pkg job : Nat) (addr : Word) (key : Nat) (hold : Option Word) : State :=
  let y := homeWrite v key (leBytes 8 0)
  let z := match hold with
    | none => y
    | some h => homeWrite (endHold y (thr y) h) (key + 0x60) (leBytes 8 0)
  if (entryIndex (jobD z pkg job) addr).isSome then freeEntry z pkg job addr else z

/-- The number of points of a SPAWN, and the sequencer that it starts, in the state v after the arming (09 R239). -/
def spawnPoints (s : State) (a : Nat) : Nat := fld (regA s a) 0 21 * fld (regA s a) 21 21 * fld (regA s a) 42 21
def spawnOf (s v : State) (a b p h key : Nat) : SpawnSeq :=
  { n0 := fld (regA s a) 0 21, n1 := fld (regA s a) 21 21, n2 := fld (regA s a) 42 21, c0 := fld (regA s (a + 1)) 0 13,
    count := fld (regA s (a + 1)) 16 13, handler := h, prio := capped v p, job := (cx v).job, arg0 := regA v b,
    ctr := windowAddr (keyCore key) (keyOfs key), next := 0 }

/-- The thread whose frame YIELD writes: as the loop check leaves it, or, when a register cannot be read and the thread goes to the fault handler, as it
was (02 R64). -/
def yieldFrame (s : State) : Ctx :=
  if (frameBadOfs (loopEnd (cx s) (cx s).pc ((cx s).pc + 4)).1).isSome then cx s else (loopEnd (cx s) (cx s).pc ((cx s).pc + 4)).1

/-- The record that a context's thread leaves without a frame. -/
def bareRec (c : Ctx) (pc w1 : Word) (rs : Bool) : Rec :=
  { pc := pc, job := c.job, prio := c.prio, ff := false, fc := false, st := c.st, rs := rs, w1 := w1, args := ctxArgs c }

/-- The group of a register operand is good, and its number stands in range (09 R249). -/
def GroupOk (s : State) (x : Word) : Prop := fld x 16 48 = 0 ∧ s.bad.contains (markOf (cxPkg s) (cx s).job x.toNat) = false

/-- A member list in which the core's entry is changed. -/
def withMember (g : Group) (core : Nat) (f : Member → Member) : Group := { g with members := g.members.map (fun x => if x.core == core then f x else x) }

/-! ## What issue instructions find -/

/-- An optional counter address of an operation: 0 for none, or a counter (11 R291). -/
def OptKey (s : State) (va : Word) (o : Option Nat) : Prop := (va = 0 ∧ o = none) ∨ (va ≠ 0 ∧ ∃ k, counterObj s (thr s) va 8 = .key k ∧ o = some k)

/-- The registers that every engine operation shares pass their checks (11 R291). -/
def HeaderOk (s : State) (l : List Word) : Prop :=
  (l.getD 4 0).toNat % 16 = 0 ∧ (∃ o, OptKey s (l.getD 1 0) o) ∧ (∃ o, OptKey s (l.getD 3 0) o) ∧
    (l.getD 5 0 = 0 ∨ ∃ k, counterObj s (thr s) (l.getD 5 0) 16 = .key k)

/-- An operation's place in a queue, where no other of its core stands before it, or outside it for its "after" counter (10 R265). -/
def QueueRoom (s : State) (o : Obj) (wait queue : List SawOp) (op : SawOp) : Prop :=
  if op.after.isSome then (wait.filter (fun p => p.core == op.core && p.after.isSome)).length < 16
  else queue.length < 32 ∧ behindOther s o wait queue op.core (lineTime s o) = false
def SawRoom (s : State) (op : SawOp) : Prop :=
  QueueRoom s (.sawmill (coreGrove op.core)) (getGrove s (coreGrove op.core)).sawWait (getGrove s (coreGrove op.core)).saw op
def CruRoom (s : State) (op : SawOp) : Prop :=
  QueueRoom s (.cruise (coreGrove op.core)) (getGrove s (coreGrove op.core)).cruWait (getGrove s (coreGrove op.core)).cru op
def sawQueued (s : State) (op : SawOp) : State :=
  if op.after.isSome then modGrove s (coreGrove op.core) (fun u => { u with sawWait := u.sawWait ++ [op] })
  else modGrove s (coreGrove op.core) (fun u => { u with saw := u.saw ++ [op] })
def cruQueued (s : State) (op : SawOp) : State :=
  if op.after.isSome then modGrove s (coreGrove op.core) (fun u => { u with cruWait := u.cruWait ++ [op] })
  else modGrove s (coreGrove op.core) (fun u => { u with cru := u.cru ++ [op] })

/-- An operation with its counters (10 R278). -/
def withKeys (op : SawOp) (l : List Word) (after done : Option Nat) : SawOp := { op with after := after, target := l.getD 2 0, done := done }

/-- The bytes of a panel and its scales. -/
def sideBytes (x : Word) (t : Nat) : Nat := panelBytes t (ctlK x) + (if ctlSC x then scaleBytes (ctlK x) else 0)

/-- The scale arrays of MSCALE, and their elements. -/
def scalePart (va : Word) : List (Word × Nat) := if va = 0 then [] else [(va, 128)]
def scaleWords (l : List Byte) : List Word := (List.range 64).map (fun i => word (bfld l (2 * i) 2))

/-- The score rows of BLAZE, the bits it keeps of one, and Bd (10 R286, R287). -/
def blazeRows (base : Word) (desc : Nat) : List (Word × Nat) := (List.range (descRows desc)).map (fun r => (base + word (64 * r), 4 * descCols desc))
def blazeBits (m desc : Nat) (p : Word) (bs : List Byte) : Nat :=
  if m = 0 then keepAtLeast ((List.range (descCols desc)).map (fun c => toSigned 32 (bfld bs (4 * c) 4))) (toSigned 32 (fld p 32 32))
  else keepTop ((List.range (descCols desc)).map (fun c => toSigned 32 (bfld bs (4 * c) 4))) (fld p 32 32)
def blazeWord (m desc : Nat) (p : Word) (rows : List (List Byte)) : Nat := (rows.map (blazeBits m desc p)).foldr (fun x acc => x + 2 ^ 16 * acc) 0

/-- The completion queue of NPOLL, the entries that it takes, and the state after they are taken (11 R308). -/
def pollCq (l : List Word) : Nat := fld (l.getD 0 0) 0 8
def pollGot (s : State) (l : List Word) : List CqEntry := (kget (getPkg s (cxPkg s)).cqs [] (pollCq l)).take (fld (l.getD 0 0) 16 7)
def pollTaken (u : State) (pkg cq n : Nat) : State := modPkg u pkg (fun p => { p with cqs := kset p.cqs cq ((kget p.cqs [] cq).drop n) })

/-- A fault-ring entry is claimed, with the identity that it keeps for its thread (17 R382). -/
def keptSet (m : KMap Handler) (k : Nat) (o : Option Handler) : KMap Handler :=
  match o with
  | some h => kset m k h
  | none => kdel m k
def claimEntry (v : State) (pkg job i : Nat) (used : List Nat) (kept : Option Handler) : State :=
  modPkg v pkg (fun p => { p with claims := kset p.claims job (i :: used), carried := keptSet p.carried (job * 512 + i) kept })

/-- A context with another handler identity. -/
def withHandler (c : Ctx) (h : Option Handler) : Ctx := { c with handler := h }

/-- An EBIND's stream before its start (11 R298). -/
def boundStream (s : State) (b : Nat) (l : List Word) : Stream :=
  { job := (cx s).job, core := cxCore s, op := s.nextOp, dir := (l.getD 0 0).getLsbD 9, base := regA s b, len := (l.getD 6 0).toNat,
    tile := (l.getD 7 0).toNat, started := false, elems := [], edges := [], passThrough := true, sport := 0, rings := [], pos := 0, part := [],
    wrote := 0, taking := none, deqDone := false, complete := false }

/-- The set of engine register n, zeroed and claimed for a job (06 R171). -/
def claimedSet (w : Core) (n job : Nat) : Core := { w with owner := kset w.owner (n / 8) job, e := w.e.filter (fun x => x.1 / 8 != n / 8) }
def withEng (w : Core) (n : Nat) (v : Word) : Core := { w with e := kset w.e n v }

/-! ## Skidder slots (12 R324) -/

/-- The numbers that a slot's sources hold in its format. -/
def kNumA (e : Elem) (w : Nat) : Nat := (kSource e (kSA w)).data.toNat % 2 ^ kWidth (kFMT w)
def kNumB (e : Elem) (w : Nat) : Nat := (kSource e (kSB w)).data.toNat % 2 ^ kWidth (kFMT w)
def kNumL (e : Elem) (w : Nat) : Nat := (e.l.getD (kLD w) 0).toNat % 2 ^ kWidth (kFMT w)

/-- The stream as an element's step leaves it; a stream that ends closes with its cycle (12 R346). -/
def kSet (s : State) (pkg key : Nat) (st : Stream) : State := kClose pkg key (passIdle pkg key (setStream s pkg key st))

/-- The state after a slot with result r: heads dequeued, r enqueued on OUT, L[LD] written where WL is set, P[PI] as PU says. -/
def kDone (s : State) (pkg key el : Nat) (st : Stream) (e : Elem) (w : Nat) (r : Token) : State :=
  kSet s pkg key (kEffect st el e w r.data (some r) (if kWL w then some r.data else none))

/-- The state after a slot whose result the spec does not state, and that enqueues nothing. -/
def kSilent (s : State) (pkg key el : Nat) (st : Stream) (e : Elem) (w : Nat) (l : Option (BitVec 32)) : State :=
  kSet (freeStep s) pkg key (kEffect st el e w (freeResult s) none l)

/-- An element with other predicates. -/
def withPreds (e : Elem) (p : Nat) : Elem := { e with preds := p }

/-- A stream after n more bytes are read, or written; after it delivered its end; and with bytes in hand. -/
def movedOn (st : Stream) (n : Nat) : Stream := { st with pos := st.pos + n }
def wroteOn (st : Stream) (n : Nat) : Stream := { st with wrote := st.wrote + n }
def dequeuedAll (st : Stream) : Stream := { st with deqDone := true }
def withPart (st : Stream) (bs : List Byte) : Stream := { st with part := bs }

/-- A write stream after it freed n of the slots it had taken. -/
def leftPassing (st : Stream) (n : Nat) : Stream := { st with passing := st.passing.drop n }

/-- A stream that ends with an error code at an address, once its cycle is over. -/
def kEnds (s : State) (pkg key : Nat) (st : Stream) (code : Nat) (at_ : Word) : State :=
  kClose pkg key (passIdle pkg key (endStream s pkg key st code 0 at_))

/-- A stream whose element el is e. -/
def withElem (st : Stream) (el : Nat) (e : Elem) : Stream := { st with elems := kset st.elems el e }

/-- A KLGEN that starts on a bound. -/
def genNew (isl w n : Nat) : GenState := { slot := isl, frames := [(kf w 0 3, n, 0)], mode := kf w 3 1, c := 0, depth := kf w 0 3 }
def withGen (e : Elem) (g : Option GenState) : Elem := { e with gen := g }
/-- A KLGEN's element after a step that leaves these frames. -/
def genLeft (e : Elem) (g : GenState) (frames : List (Nat × Nat × Nat)) (c : Nat) : Elem :=
  withGen e (if frames.isEmpty then none else some { g with frames := frames, c := c })

/-- The heads' levels and the channels of a wave, and its stream after the wave. -/
def waveLevels (e : Elem) : List Nat :=
  (sortOrd (ordSlots e)).flatMap (fun w => (setBits 4 (kNEED w)).map (fun k => ((headOf e k).getD (marker 0)).level))
def waveChans (e : Elem) : Nat := (sortOrd (ordSlots e)).foldl (fun m w => m ||| kNEED w) 0
/-- A wave that performs an access takes the element's own turn of the cycle too (12 R333). -/
def waveKept (st : Stream) (el : Nat) (e : Elem) : Stream :=
  if waveAccesses e (sortOrd (ordSlots e)) then { st with acted := keyAdd st.acted el } else st
def waveDone (s : State) (pkg key el : Nat) (st : Stream) (e : Elem) (out : List (Nat × Token)) : State :=
  kSet s pkg key (out.foldl (fun st o => enqueueOn st el (kOUT o.1) o.2)
    (withElem st el (out.foldl (fun e o => ordEffect e o.1 o.2.data) { dequeue e (waveChans e) with wave := e.wave + 1 })))

/-! ## Engine and Sawmill events (10 R265, R272; 11 R293, R294) -/

/-- The state in which an operation has started: its phase, and a play's member has begun. -/
def opStarted (s : State) (core : Nat) (o : EngOp) : State :=
  if o.unit = 4 ∧ o.word / 2 ^ 16 % 32 = 1 then rerouteThePlays (beginPlay (setOpPhase s core o.id .running) (corePkg core) core o.id)
  else setOpPhase s core o.id .running

/-- An operation leaves its core, and its completion counter rises. -/
def opLeft (s : State) (core : Nat) (o : EngOp) : State :=
  bumpDone (dropOp s core o) (opWho core o) (if o.sets.getD 3 0 = 0 then none else some (sawKey core (o.sets.getD 3 0)))

/-- The reads of ECOPY, and its writes of the bytes read. -/
def copyLen (o : EngOp) : Nat := fld (o.sets.getD 0 0) 0 13
def copyPlaces (o : EngOp) : List (Word × Word) := copyOffsets o.sets (fld (o.sets.getD 0 0) 13 4)
def copyMoves (o : EngOp) : List (Word × Word × Nat) := (copyPlaces o).map (fun e => (o.a + e.1, o.b + e.2, copyLen o))
def copyReads (o : EngOp) : List (Word × Nat) := (copyMoves o).map (fun e => (e.1, copyLen o))
def copyWrites (o : EngOp) (bs : List (List Byte)) : List (Word × List Byte) := ((copyMoves o).zip bs).map (fun e => (e.1.2.1, e.2))

/-- The head of a Sawmill queue starts, its panels read and checked; an uncorrectable one is counted. -/
def sawBegun (s : State) (g : Nat) (op : SawOp) (rest : List SawOp) : State :=
  countStart (modGrove (if (sawStage s op).any (fun r => r.err == 5) then uncBump s (grovePkg g) 1 else s) g
    (fun u => { u with saw := rest, sawRun := some { op := op, runs := sawStage s op } })) (grovePkg g)

/-- A Sawmill operation completes: the Sawmill is free, and the completion counter rises. -/
def sawDone (s : State) (g : Nat) (op : SawOp) : State := bumpDone (modGrove s g (fun u => { u with sawRun := none })) (hwWho op.core op.job) op.done

/-- The scores of CRUISE (10 R284): their places and what is stored there. -/
def cruEntries (x : Word) : List (Nat × Nat) := (List.range (geoR x * geoC x)).map (fun e => (e / geoC x, e % geoC x))
def cruPlace (key : Nat) (e : Nat × Nat) : Nat := key + 4 * (16 * e.1 + e.2)
def cruStored (s : State) (key q k : Nat) (x : Word) : State :=
  (cruEntries x).foldl (fun s e => memWrite s (cruPlace key e) (leBytes 4 (ofSigned 32 (cruScore q k x e.1 e.2)))) s
/-- A CRUISE completes with an error code in CRST. -/
def cruDone (s : State) (g : Nat) (op : SawOp) (err : Nat) : State :=
  bumpDone (modGrove (modCore s op.core (fun u => { u with crst := crstNext u.crst err })) g (fun u => { u with cruRun := none })) (hwWho op.core op.job) op.done

/-! ## Message and record events (02 R19-R50) -/

/-- The network without packet n. -/
def netWithout (s : State) (n : Nat) : State := { s with net := s.net.eraseIdx n }

/-- The claim that the first packet of a message makes on a landing slot. -/
def claimNew (s : State) (p : Packet) (m : Msg) (slot pc : Nat) : Claim :=
  { msg := { m with payload := [] }, len := m.payload.length, src := p.src, num := p.num, slot := slot, pc := pc, received := 0, last := s.cycle }
def claimSlot (s : State) (core : Nat) (p : Packet) (m : Msg) (slot pc : Nat) : State :=
  modCore s core (fun u => { u with slots := slot :: u.slots, claims := u.claims ++ [claimNew s p m slot pc] })

/-- A refused packet goes back to the network. -/
def resent (s : State) (n : Nat) (r : Refused) : State := { s with refused := s.refused.eraseIdx n, net := s.net ++ [r.pkt] }

/-- An accepted message leaves the injector. -/
def heldWithout (s : State) (core num : Nat) : State := modCore s core (fun u => { u with held := u.held.filter (fun x => x.num != num) })

/-- The oldest deck record of a priority is taken. -/
def deckTaken (s : State) (core prio job : Nat) (rest : List Nat) : State :=
  modCore (setDeck s core job prio { deckOf s core job prio with
      head := (deckOf s core job prio).head + 1, kept := (deckOf s core job prio).kept.drop 1 }) core
    (fun u => { u with deckOrder := kset u.deckOrder prio rest })

/-- A landing queue without its record n; a record one priority up. -/
def queueWithout (s : State) (core prio n : Nat) : State := modCore s core (fun u => { u with q := kset u.q prio ((queueOf u prio).eraseIdx n) })
def raised (q : QRec) (prio : Nat) : QRec := { q with r := { q.r with prio := prio - 1 } }

/-- A record leaves the head of a landing queue, the bottom of a deque, or the top of a victim's. -/
def queueTaken (s : State) (core p : Nat) : State := modCore s core (fun u => { u with q := kset u.q p ((queueOf u p).drop 1) })
def dequeTaken (s : State) (core : Nat) (rest : List QRec) : State := modCore s core (fun u => { u with deque := rest })
def dequeStolen (s : State) (v : Nat) : State := modCore s v (fun u => { u with deque := u.deque.dropLast })
def stolen (q : QRec) : QRec := { q with r := { q.r with st := true } }

/-- A thread suspended by hardware: its record is parked at the object's core, and its context becomes dormant. -/
def parkedAt (t : State) (ctx home : Nat) (c : Ctx) (o : Obj) (addr : Word) : State :=
  dormant (noteGroup (modCore t home (fun u => { u with
    park := u.park ++ [{ obj := o, qrec := { r := suspRec c c.pc addr, age := 0, handler := c.handler, lost := c.lost }, seen := seenAt t o }] })) (ctxCore ctx) o) ctx

/-! ## Events of home slices, translation and pages (03 R82-R87, 04 R105-R107, 13 R354-R356) -/

/-- The notice of a store that a fenced core turned away (17 R387, R390). -/
def turnedAway (s : State) (i : Nat) (p : PendingStore) : State :=
  memNotice { s with nacked := s.nacked.eraseIdx i } (corePkg (ctxCore p.ctx)) p.job (coreId (ctxCore p.ctx)) cFenced
    (windowAddr (keyCore p.key) (keyOfs p.key)) 0

/-- Byte i of the dword at key k is owned by a core; the dword goes home; the core's lost words leave its L1. -/
def ownsByte (s : State) (core k i : Nat) : Bool := kfind s.owner (k + i) == some core
def dwordHome (s : State) (core k : Nat) : State :=
  (List.range 8).foldl (fun t i => if ownsByte s core k i = true then unownByte t (k + i) else t) s
def dropL1Word (s : State) (core k : Nat) : State := modCore s core (fun u => { u with l1 := u.l1.filter (fun e => e.1 / 8 != k / 8) })

/-- The oldest partial of a grove on a line, and the state without partial i. -/
def partialAt (g line : Nat) (p : Partial) : Bool := p.grove == g && p.key / 64 == line / 64
def partialsWithout (s : State) (i : Nat) : State := { s with partials := s.partials.eraseIdx i }

/-- A slice after the walk of a page is done: its requesters leave, the queue moves up. -/
def walkDone (s : State) (g : Nat) (m : Miss) : State :=
  modGrove s g (fun u => moveUp u.walkQ.length { u with walks := u.walks.filter (fun x => !samePage m x) })
def installAll (s : State) (g : Nat) (l : List Miss) (e : TlbEntry) : State := l.foldl (fun s x => installAt s x.core g e) s
def walkAgain (s : State) (g n : Nat) (m : Miss) : State := missArrives (modGrove s g (fun u => { u with walkRef := u.walkRef.eraseIdx n })) g m

/-- A shootdown that has been performed. -/
def shotDown (s : State) (pkg n : Nat) (x : Shoot) : State :=
  modPkg (shootdown s pkg x) pkg (fun p => { p with shoots := p.shoots.eraseIdx n, busy := !(p.shoots.eraseIdx n).isEmpty })

/-- A waiting context runs again. -/
def runsAgain (s : State) (ctx : Nat) : State := modCtx s ctx (fun c => { c with status := .running, hbMark := s.cycle })

def nextEntryAt (p : Pkg) : Nat := 2 ^ 51 + (p.ringBase.toNat + 32 * (p.ringHead % p.ringCount.toNat)) % 2 ^ 51
/-- The ring has taken the entry of landing slot i. -/
def entryWritten (s : State) (pkg i gen : Nat) (q : PageReq) : State :=
  modPkg (homeWrite s (physKey pkg (nextEntryAt (getPkg s pkg))) (pageEntry i gen q)) pkg (fun p => { p with
    msi := p.msi + 1, ringHead := (p.ringHead + 1) % 2 ^ 64, landing := kset p.landing i { gen := gen, req := some { q with written := true } } })
def staleAnswer (s : State) (pkg : Nat) : State := modPkg s pkg (fun p => { p with stale := (p.stale + 1) % 2 ^ 64 })
def answerHeld (s : State) (pkg value : Nat) : State :=
  modPkg s pkg (fun p => { p with hostHeld := p.hostHeld ++ [{ core := 0, qrec := plainRec (zeroRec 0 0), answer := some value }] })
def refuseOps (s : State) (pkg : Nat) (q : PageReq) : State :=
  modPkg s pkg (fun p => { p with refusedOps := q.waiters.foldl (fun m e => kset m e.1 e.2) p.refusedOps })

/-! ## Fault and fence events (17 R387-R392) -/

/-- A WFE's thread goes on after its time-out. -/
def wfeOver (s : State) (ctx : Nat) : State := { settle .wfe { s with cur := ctx } (.ok (wfeDone { s with cur := ctx })) with cur := s.cur }

/-- The notice of a spare's takeover to a job. -/
def spareNotice (s : State) (core : Nat) (lost : KMap Nat) (j : Nat) : State :=
  report s (corePkg core)
    { job := j, r := zeroRec j (jobD s (corePkg core) j).cap, cause := cHeartbeat, fpc := 0, faddr := windowAddr core 0, finfo := word (kget lost 0 j),
      hold := 0, coreId := coreId core, about := some (fenceTag s core), kept := none }

/-- The core's id stands for spare k, its scratchpad zero. -/
def spareCore (s : State) (core k : Nat) : State :=
  modCore (zeroScratch s core) core (fun u => { Core.reset with
    spm := (jobsOn s core).any (fun j => (getPkg s (corePkg core)).spmJobs.contains j), nextNum := u.nextNum, held := u.held, sendQ := u.sendQ,
    deckOrder := u.deckOrder, ops := u.ops, phys := k, unrepaired := (jobsOn s core).foldl keyAdd u.unrepaired,
    fences := u.fences })
def spareTaken (s : State) (core k : Nat) : State :=
  flushLaunches ((jobsOn s core).foldl (fun t j => spareNotice t core (getCore s core).lost j) (spareCore s core k)) core

/-- A core that is powered down; a package's counter of corrected errors. -/
def poweredDown (s : State) (core : Nat) : State := settleGroupsOf (modCore s core (fun u => { u with offMark := true })) core
def corrBump (s : State) (pkg c : Nat) : State :=
  modPkg s pkg (fun p => { p with corr := kset p.corr c ((kget p.corr 0 c + 1) % 2 ^ 32) })
def partialSpoiled (s : State) (n : Nat) : State := { s with partials := s.partials.modify n (fun p => { p with bad := true }) }
def unitSpoiled (s : State) (key : Nat) : State := { s with bad := keyAdd s.bad (unitOf (key % 2 ^ 65)) }
def sliceSpoiled (s : State) (key : Nat) : State := { s with bad := keyAdd s.bad (sliceMark (key % 2 ^ 65)) }
def tlbLost (s : State) (core : Nat) : State := modCore s core (fun u => { u with tlb := [], icache := [] })

/-! ## Host events (02 R34-R36; 13 R347-R353) -/

/-- The state in which a command of the job-table interface runs. -/
def withOp (s : State) (pkg op : Nat) : State := modPkg s pkg (fun p => { p with op := op })

/-- What HOTREAD accepts. -/
def HotreadOk (s : State) (pkg src pa x first n : Nat) : Prop :=
  src = jta s pkg 0 ∧ pa = jta s pkg 1 ∧ x = jta s pkg 2 ∧ first = x % 4096 ∧ n = x / 2 ^ 16 % 2 ^ 13 ∧
    src < 12 ∧ pa % 16 = 0 ∧ x / 2 ^ 12 % 16 = 0 ∧ x < 2 ^ 29 ∧ 0 < n ∧ first + n ≤ 4096 ∧ pa + 16 * n - 1 < 2 ^ 52 ∧
    paRange pa ≠ 1 ∧ paRange pa ≠ 3 ∧ paRange (pa + 16 * n - 1) = paRange pa ∧
    physAnswers s pkg pa (16 * n) = true

/-- The region of REGION's registers. -/
def regionOf (s : State) (pkg : Nat) : Region :=
  { job := jta s pkg 0 / 2 ^ 32 % 4096, pd := jta s pkg 0 / 2 ^ 44 % 64, rd := (jta s pkg 0).testBit 50, wr := (jta s pkg 0).testBit 51,
    base := jta s pkg 1, len := jta s pkg 2 }

/-- Tables of a package after a command. -/
def jobSet (s : State) (pkg job : Nat) (j : Job) : State := modPkg s pkg (fun p => { p with jobs := kset p.jobs job j })
def astSet (s : State) (pkg job : Nat) (v : Word) : State := modPkg s pkg (fun p => { p with ast := kset p.ast job v })
def bindSet (s : State) (pkg page : Nat) (o : Option Nat) : State :=
  modPkg s pkg (fun p => { p with binds := match o with
    | some j => kset p.binds page j
    | none => kdel p.binds page })
def grantSet (s : State) (pkg job : Nat) (l : List (Nat × Nat)) : State :=
  modPkg s pkg (fun p => { p with grants := if l.isEmpty then kdel p.grants job else kset p.grants job l })
def regionSet (s : State) (pkg key : Nat) (r : Region) : State := modPkg s pkg (fun p => { p with regions := kset p.regions key r })
def qpSet (s : State) (pkg qp : Nat) (o : Option QueuePair) : State :=
  modPkg (leavePages s pkg qp) pkg (fun p => { p with qps := match o with
    | some q => kset p.qps qp q
    | none => kdel p.qps qp })
def shootSet (s : State) (pkg : Nat) : State :=
  modPkg (result s pkg 0) pkg (fun p => { p with
    busy := true, shoots := p.shoots ++ [{ scope := jta s pkg 0, job := jta s pkg 1, va := jta s pkg 2 }] })

/-- An active message is held. -/
def hostHold (s : State) (pkg core : Nat) (r : Rec) : State :=
  modPkg s pkg (fun p => { p with hostHeld := p.hostHeld ++ [{ core := core, qrec := plainRec r }] })
def heldRest (s : State) (pkg : Nat) (l : List HostHeld) : State := modPkg s pkg (fun p => { p with hostHeld := l })

/-! ## Platform events (16 R369-R376) -/

/-- A package with other governor limits, monitors, a current limit, an SPDM answer, a lifecycle, a debug level, a power state. -/
def governed (s : State) (pkg n c : Nat) : State := modPkg s pkg (fun p => { p with govn := n, govc := c })
def monitored (s : State) (pkg n : Nat) (v : Word) : State := modPkg s pkg (fun p => { p with monitors := kset p.monitors n v })
def limited (s : State) (pkg : Nat) : State := modPkg s pkg (fun p => { p with limit := true })
def unlimited (s : State) (pkg : Nat) : State := modPkg s pkg (fun p => { p with limit := false })
def recovering (s : State) (pkg : Nat) : State := modPkg s pkg (fun p => { p with recovery := true, booted := false })
def withRevoked (s : State) (pkg k : Nat) : State := modPkg s pkg (fun p => { p with revoked := keyAdd p.revoked k })
def withRollback (s : State) (pkg n : Nat) : State := modPkg s pkg (fun p => { p with rollback := max p.rollback n })
def answered (s : State) (pkg code value : Nat) : State := modPkg s pkg (fun p => { p with spdm := kset (kset p.spdm 0 code) 1 value })
def chosen (s : State) (pkg v : Nat) : State := modPkg s pkg (fun p => { p with spdm := kset p.spdm 2 v })
def nextLifeOf (s : State) (pkg : Nat) (x : Lifecycle) : State := modPkg s pkg (fun p => { p with nextLife := x })
def unlocked (s : State) (pkg level : Nat) : State := modPkg s pkg (fun p => { p with debug := max p.debug level })
def inPower (s : State) (pkg : Nat) (x : Power) : State := modPkg s pkg (fun p => { p with power := x })
/-- The algorithms that NEGOTIATE_ALGORITHMS chooses. -/
def algorithms (asym hash : Nat) : Nat := (if asym.testBit 7 then 0x80 else 0) + (if hash.testBit 1 then 0x02 else 0) * 2 ^ 32
/-- A monitor record is read: the read gives it, and its ILIM is cleared. -/
def monitorRead (s : State) (pkg n : Nat) : State :=
  modPkg s pkg (fun p => { p with
    readValue := kget p.monitors 0 n, monitors := kset p.monitors n (kget p.monitors 0 n &&& ~~~(word (2 ^ 41))) })
/-- Every unit of every package at reset; fuses, lifecycle, power and what the root has verified stay, and so does memory. -/
def deviceReset (s : State) : State :=
  { State.reset with
    mem := s.mem.filter (fun c => (pooledAt (keyPkg c.1) c.1).isNone), free := s.free, pkgs := s.pkgs.map (fun e => (e.1, resetPkg s e.1 e.2)) }

/-! ## Pre-emption and safe points (17 R394-R401) -/

/-- The images of jobs that are saved together; the first one's holds the cores. -/
def imagesOf (s : State) (pkg : Nat) (jobs : List Nat) (pool : List (Nat × QRec)) (cores : List Nat) : List (Nat × SavedJob) :=
  (List.range jobs.length).map (fun i =>
    (jobs.getD i 0, saveJob s pkg (jobs.getD i 0) jobs pool (if i = 0 then cores.map (saveCore s jobs) else [])))
/-- The jobs are saved, after the deck refills that have a place reserved (17 R400), with the pool records that were taken out, and released. -/
def savedOf (s : State) (pkg : Nat) (jobs cores : List Nat) (pool : List (Nat × QRec)) : State :=
  modPkg (clearJobs s pkg jobs cores) pkg (fun p => { p with
    preempted := (imagesOf s pkg jobs pool cores).foldl (fun m e => kset m e.1 e.2) p.preempted, preempting := p.preempting.filter (fun l => l != jobs) })
def preempted (s : State) (pkg : Nat) (jobs : List Nat) : State :=
  let t := takePools (refillCores s (coresOf s pkg jobs)) pkg jobs
  savedOf t.1 pkg jobs (coresOf s pkg jobs) t.2
/-- A pre-emption that waits for what has started. -/
def preemptLater (s : State) (pkg : Nat) (jobs : List Nat) : State :=
  modPkg s pkg (fun p => { p with preempting := if p.preempting.contains jobs then p.preempting else p.preempting ++ [jobs] })
def savedWith (s : State) (pkg : Nat) (v : SavedJob) : List SavedJob := v.jobs.filterMap (fun j => kfind (getPkg s pkg).preempted j)
def unquiet (s : State) (pkg : Nat) (jobs : List Nat) : State :=
  modPkg s pkg (fun p => { p with quiet := p.quiet.filter (fun j => !jobs.contains j), preempted := p.preempted.filter (fun e => !jobs.contains e.1) })
/-- Safe-point mode of a job: its cores, its threads' marks, and its end. -/
def spmCores (s : State) (pkg job : Nat) : State :=
  (coresOf s pkg [job]).foldl (fun t c => modCore t c (fun u => { u with spm := true })) s
def spmMarked (s : State) (pkg job : Nat) : State :=
  { s with ctxs := s.ctxs.map (fun e => if ctxOf pkg [job] e then (e.1, { e.2 with spMark := s.cycle }) else e) }
def spmJob (s : State) (pkg job : Nat) : State := modPkg s pkg (fun p => { p with spmJobs := keyAdd p.spmJobs job })
def spmLeft (s : State) (pkg job : Nat) : State := modPkg s pkg (fun p => { p with spmJobs := keyDel p.spmJobs job })
def spmCoresLeft (s : State) (pkg job : Nat) : State :=
  (coresOf s pkg [job]).foldl (fun t c => modCore t c (fun u => { u with
    spm := (jobsOn s c).any (fun j => (getPkg s pkg).spmJobs.contains j) })) s

/-- The held records that the end of a job's safe-point mode places: the job's own, and another job's, once neither its mode nor SPM of its core holds
it; and the package without them. -/
def Placed (s : State) (pkg job : Nat) (r : SafeRec) : Bool :=
  r.job == job || (!(getPkg s pkg).spmJobs.contains r.job && !(getCore s r.core).spm)
def heldRecs (s : State) (pkg job : Nat) : List SafeRec := (getPkg s pkg).safe.filter (Placed s pkg job)
def safeTaken (s : State) (pkg job : Nat) : State :=
  modPkg s pkg (fun p => { p with safe := p.safe.filter (fun r => !Placed s pkg job r) })

/-! ## Plays, links and Ethernet (13 R358-R364; 19 R426-R435) -/

/-- A chunk of a play starts over the edges of its primary tree, or runs again over those of the alternate tree. -/
def chunkStarted (s : State) (play chunk : Nat) (c : Chunk) (x : ChunkState) : State :=
  modPlay s play (fun y => setChunk y chunk { x with started := true, startedAt := s.cycle, edges := chunkEdges s y c false })
def chunkRedone (s : State) (play chunk : Nat) (c : Chunk) (x : ChunkState) : State :=
  modPlay s play (fun y => setChunk y chunk { x with alt := true, startedAt := s.cycle, edges := chunkEdges s y c true })
/-- The root keeps a chunk's result; it goes to every receiver; the chunk that all have acknowledged is finished, and its counter rises. -/
def chunkKept (s : State) (play chunk : Nat) (x : ChunkState) (held : List (Nat × List Byte)) : State :=
  modPlay s play (fun y => setChunk y chunk { x with held := some held })
def delivered (s : State) (play chunk : Nat) (c : Chunk) (alt : Bool) (held : List (Nat × List Byte)) (l : List Nat) : State :=
  l.foldl (fun t m => deliverTo t play chunk c alt (heldFor c held m) m) s
def chunkFinished (s : State) (play chunk : Nat) (c : Chunk) (x : ChunkState) : State :=
  modPlay s play (fun z => { setChunk z chunk { x with finished := true } with
    ctrs := if c.sigc = 0xFF then z.ctrs else kset z.ctrs c.sigc (kget z.ctrs 0 c.sigc + 1) })

/-- The lane on which a flit failed: a free choice among those that work (log 52). -/
def failedLane (s : State) (pkg port : Nat) : Option Nat :=
  (linkLanes s pkg port)[(freeNow s).toNat % (linkLanes s pkg port).length]?
/-- The failures in a row of a lane after one more; whether it follows one before it is a free choice too. -/
def laneRuns (s : State) (run : KMap Nat) : Option Nat → KMap Nat
  | some lane => kset run lane ((if (freeNow s).getLsbD 8 then kget run 0 lane else 0) + 1)
  | none => run
/-- One more retransmission of a link. -/
def retransmitted (s : State) (pkg port : Nat) : State :=
  modLink (freeStep s) pkg port (fun l => { l with retry := (l.retry + 1) % 2 ^ 16, run := laneRuns s l.run (failedLane s pkg port) })
def degraded (s : State) (pkg k : Nat) : State := modLink s pkg k (fun l => { l with degr := true })
/-- A link's UP clears, and the management processor hears of the change. -/
def dropLink (s : State) (pkg k : Nat) : State := signalUp s (modLink s pkg k Link.drop) pkg k
/-- The router fails, which counts in class 6; every port that is up goes down with it, at both ends (19 R428, R436). -/
def routerLost (s : State) (pkg : Nat) : State := modPkg (uncBump s pkg 6) pkg (fun p => { p with routerDown := true })
def portsDropped (s : State) (pkg : Nat) : State :=
  (List.range 128).foldl (fun t k => if (getLink t pkg k).up then dropBoth t pkg k else t) s
def isolatedDies (s : State) (pkg : Nat) (l : List Nat) : State := modPkg s pkg (fun p => { p with isolated := l.foldl keyAdd p.isolated })
def portFailed (s : State) (pkg port n : Nat) : State :=
  modPkg (modPort s pkg port (fun x => { up := false, fail := true, tmo := (x.tmo + n) % 2 ^ 32 })) pkg (fun p => { p with mgmt := p.mgmt + 1 })
def portBack (s : State) (pkg port : Nat) : State := modPort s pkg port (fun x => { x with up := true })

/-- A context's access to an unreachable package fails. -/
def awayFault (s : State) (ctx : Nat) (va : Nat) : State :=
  deliverTrap s ctx { cause := cFenced, fpc := (getCtx s ctx).pc, faddr := word va, finfo := word (wordAt s ctx), pc := (getCtx s ctx).pc }
def awayLost (s : State) (n : Nat) (p : PendingStore) : State :=
  memNotice { s with stores := s.stores.eraseIdx n } (corePkg (ctxCore p.ctx)) p.job (coreId (ctxCore p.ctx)) cFenced
    (windowAddr (keyCore p.key) (keyOfs p.key)) 0
def awayMsg (s : State) (core : Nat) (m : Msg) : State :=
  memNotice (purgeMsg s core m.num) (corePkg core) m.job (coreId core) cFenced (windowAddr m.dst 0) (m.handler % 4096)

/-- A send is tried again after a receiver-not-ready NAK. -/
def rnrAgain (s : State) (pkg qp : Nat) : State := modQp s pkg qp (fun q => { q with rnr := q.rnr + 1, rnrAt := s.cycle })
def portGone (s : State) (pkg port : Nat) : State := (getPkg s pkg).qps.foldl (portDown port pkg) (dropLink s pkg (ethKey port))

/-! ## The invariant -/

/-- The memory is in its canonical form. -/
def Inv (s : State) : Prop := Memory.wf s.mem

end Sys2Proof.Machine
end

