-- ==== Sys2Proof/Certificates/Slice0/Obligations.lean ====
section
/-! DEFINITION. The statements for the provers. -/

open Sys2Proof Sys2Proof.Machine

/-! ## Encoding and fetching -/

/-- 06 R147-R182: for every core instruction whose fields lie in their ranges, the decoder reads the instruction from the word that the encoder writes for
it, with every operand at every value that the encoding admits. -/
def Obligations.DecodeEncodeRoundTrip : Prop :=
  ∀ i : Instr, WellFormed i → isCoreWord i = true → decodeWord (encode i) = some i

/-- Each word has one meaning: a word that decodes is the encoding of the well-formed core instruction it decodes to, so a nonzero bit in a field that
must be zero makes the word decode to nothing (06 R149, R153). -/
def Obligations.DecodedWordsAreEncodings : Prop :=
  ∀ (w : Nat) (i : Instr), decodeWord w = some i → WellFormed i ∧ encode i = w

/-- Words written out from the encodings of 06 stand for these instructions; the last three words stand for none. -/
def Obligations.DecodeWords : Prop :=
  decodeWord 0x04432800 = some (.add 2 3 5) ∧
  decodeWord 0x08640005 = some (.addi 3 4 5) ∧
  decodeWord 0xE840298E = some (.egath 5 6 1 6) ∧
  decodeWord 0xE8803A00 = some (.esub 7 8) ∧
  decodeWord 0xE9014820 = some (.qplay 9 4) ∧
  decodeWord 0xE9402140 = some (.nsend 4 5) ∧
  decodeWord 0xED240001 = some (.trap 9 4) ∧
  decodeWord 0xF0A00048 = some (.crd 5 0x48) ∧
  decodeWord 0xF4060047 = some (.cwr 6 0x47) ∧
  decodeWord 0xF8000003 = some (.safept 3) ∧
  decodeWord 0xEA40380D = some (.ewr 7 13) ∧
  decodeWord 0x00000000 = none ∧ decodeWord 0xFFFFFFFF = none ∧ decodeWord 0x04432FFF = none

/-- A step without an input from outside in which a thread issues runs the instruction that the fetched word of that thread decodes to: a cycle passes,
the access of the fetch is performed, and exec runs. A thread that waits in an instruction runs the one that it holds, without a fetch (log 18). The
thread is the chosen context, to which the core's pointer moves; or the context whose waiting request has become performable, which keeps its place
(whose turn it is: log 3). -/
def Obligations.StepRunsDecoded : Prop :=
  ∀ (s u t : State) (c w : Nat) (i : Instr),
    s.agenda = [] → IssuesNext (tick s) c u → decodeWord w = some i →
      (heldWord u = none → fetchWord (unheld u) = .word t w → step s = exec i (begun t w)) ∧
      (heldWord u = some w → step s = exec i u)

/-- A step on a word that encodes no instruction takes the illegal-instruction trap: the thread's context reports cause 0x01 with the word in FINFO (06
R152; 17 R379, R381). A step takes an input from outside first: the head of the agenda, when it is no thread instruction (the model's own order, log
3). -/
def Obligations.StepOtherwise : Prop :=
  (∀ (s u t : State) (c w : Nat),
    s.agenda = [] → IssuesNext (tick s) c u → heldWord u = none → fetchWord (unheld u) = .word t w → decodeWord w = none →
    step s = .next (deliverTrap (begun t w) t.cur { cause := cIllegal, fpc := (cx t).pc, faddr := 0, finfo := word w, pc := (cx t).pc })) ∧
  (∀ (s : State) (i : Instr) (rest : List Instr), s.agenda = i :: rest → isCoreWord i = false → step s = exec i (tick { s with agenda := rest }))

/-! ## The invariant -/

/-- The memory of the state after reset is in its canonical form, which is the model's own (log 2, DESIGN CHOICE: a byte that nothing has written reads 0,
and no cell is listed that holds 0). -/
def Obligations.ResetHasInvariant : Prop :=
  Inv State.reset

/-- Every step keeps the memory in its canonical form, which is the model's own (log 2, DESIGN CHOICE: a byte that nothing has written reads 0, and no
cell is listed that holds 0): keys strictly rising, and no cell that holds what an unlisted key reads as. -/
def Obligations.StepKeepsInvariant : Prop :=
  ∀ s t : State, Inv s → step s = .next t → Inv t

/-- 07 R192: at device reset every full/empty bit is empty; an installation and an ordinary store leave the bits unchanged. -/
def Obligations.ResetFullEmpty : Prop :=
  State.reset.full = [] ∧ (∀ s t : State, exec .deviceReset s = .next t → t.full = [])
    ∧ (∀ (s t : State) (p : Nat), exec (.install p) s = .next t → t.full = s.full)
    ∧ (∀ (s t : State) (ap : Bool) (l : List (Word × List Byte)), storeResult s ap l = some t → t.full = s.full)

/-- What device reset leaves: no loop level is active (11 R316), the governor admits 64 starts of each kind (16 R370), and no tile of any grove is owned
(10 R264). That no context runs, no group exists and nothing is installed no rule states: these are the model's values (log 1, DESIGN CHOICE). -/
def Obligations.ResetUnits : Prop :=
  ∀ n m : Nat, (getCtx State.reset n).status = .dormant ∧ (getCtx State.reset n).l0.act = false ∧ (getCtx State.reset n).l1.act = false
    ∧ (getPkg State.reset n).govn = 64 ∧ (getPkg State.reset n).govc = 64 ∧ (getTile State.reset n m).owner = none
    ∧ (getGrove State.reset n).groups = [] ∧ (getPkg State.reset n).jobs = []

/-! ## Registers and immediates (07 R184-R187) -/

/-- 07 R184-R186: each register operation writes its result to Ad, and the thread goes on (a write to A0 is discarded: 06 R145). The bit counts and
reversals of 07 R184, bit by bit. -/
def Obligations.RegisterResults : Prop :=
  (∀ (s : State) (d a b : Nat),
    (SrcsGood s [rA a, rA b] → Goes s s → exec (.add d a b) s = .next (advance s (setA s d (word ((regA s a).toNat + (regA s b).toNat))))) ∧
    (SrcsGood s [rA a, rA b] → Goes s s → exec (.sub d a b) s = .next (advance s (setA s d (BitVec.ofInt 64 ((regA s a).toInt - (regA s b).toInt))))) ∧
    (SrcsGood s [rA a, rA b] → Goes s s → exec (.and d a b) s = .next (advance s (setA s d (regA s a &&& regA s b)))) ∧
    (SrcsGood s [rA a, rA b] → Goes s s → exec (.or d a b) s = .next (advance s (setA s d (regA s a ||| regA s b)))) ∧
    (SrcsGood s [rA a, rA b] → Goes s s → exec (.xor d a b) s = .next (advance s (setA s d (regA s a ^^^ regA s b)))) ∧
    (SrcsGood s [rA a, rA b] → Goes s s → exec (.andn d a b) s = .next (advance s (setA s d (regA s a &&& ~~~(regA s b))))) ∧
    (SrcsGood s [rA a, rA b] → Goes s s → exec (.sll d a b) s = .next (advance s (setA s d (word ((regA s a).toNat * 2 ^ ((regA s b).toNat % 64)))))) ∧
    (SrcsGood s [rA a, rA b] → Goes s s → exec (.srl d a b) s = .next (advance s (setA s d (word ((regA s a).toNat / 2 ^ ((regA s b).toNat % 64)))))) ∧
    (SrcsGood s [rA a, rA b] → Goes s s → exec (.sra d a b) s = .next (advance s (setA s d (BitVec.ofInt 64 ((regA s a).toInt / 2 ^ ((regA s b).toNat % 64)))))) ∧
    (SrcsGood s [rA a, rA b] → Goes s s → exec (.rol d a b) s = .next (advance s (setA s d ((regA s a).rotateLeft ((regA s b).toNat % 64))))) ∧
    (SrcsGood s [rA a, rA b] → Goes s s → exec (.mul d a b) s = .next (advance s (setA s d (word ((regA s a).toNat * (regA s b).toNat))))) ∧
    (SrcsGood s [rA a, rA b] → Goes s s → exec (.mulh d a b) s = .next (advance s (setA s d (BitVec.ofInt 64 ((regA s a).toInt * (regA s b).toInt / 2 ^ 64))))) ∧
    (SrcsGood s [rA a, rA b] → Goes s s → exec (.mulhu d a b) s = .next (advance s (setA s d (word ((regA s a).toNat * (regA s b).toNat / 2 ^ 64))))) ∧
    (SrcsGood s [rA a, rA b] → Goes s s → exec (.min d a b) s = .next (advance s (setA s d (if (regA s a).toInt ≤ (regA s b).toInt then regA s a else regA s b)))) ∧
    (SrcsGood s [rA a, rA b] → Goes s s → exec (.max d a b) s = .next (advance s (setA s d (if (regA s a).toInt ≤ (regA s b).toInt then regA s b else regA s a)))) ∧
    (SrcsGood s [rA a, rA b] → Goes s s → exec (.minu d a b) s = .next (advance s (setA s d (if (regA s a).toNat ≤ (regA s b).toNat then regA s a else regA s b)))) ∧
    (SrcsGood s [rA a, rA b] → Goes s s → exec (.maxu d a b) s = .next (advance s (setA s d (if (regA s a).toNat ≤ (regA s b).toNat then regA s b else regA s a)))) ∧
    (SrcsGood s [rA a, rA b] → Goes s s → exec (.slt d a b) s = .next (advance s (setA s d (if (regA s a).toInt < (regA s b).toInt then 1 else 0)))) ∧
    (SrcsGood s [rA a, rA b] → Goes s s → exec (.sltu d a b) s = .next (advance s (setA s d (if (regA s a).toNat < (regA s b).toNat then 1 else 0)))) ∧
    (SrcsGood s [rA a, rA b] → Goes s s → exec (.seq d a b) s = .next (advance s (setA s d (if regA s a = regA s b then 1 else 0)))) ∧
    (SrcsGood s [rA a] → Goes s s → exec (.clz d a) s = .next (advance s (setA s d (clzW (regA s a))))) ∧
    (SrcsGood s [rA a] → Goes s s → exec (.ctz d a) s = .next (advance s (setA s d (ctzW (regA s a))))) ∧
    (SrcsGood s [rA a] → Goes s s → exec (.popc d a) s = .next (advance s (setA s d (popcW (regA s a))))) ∧
    (SrcsGood s [rA a] → Goes s s → exec (.brev d a) s = .next (advance s (setA s d (brevW (regA s a))))) ∧
    (SrcsGood s [rA a] → Goes s s → exec (.bswap d a) s = .next (advance s (setA s d (word (leNat (leBytes 8 (regA s a).toNat).reverse))))) ∧
    (SrcsGood s [rA a, rA b] → Goes s s → exec (.sext d a b) s = .next (advance s (setA s d (signExt (regA s a).toNat (fieldLen (regA s b).toNat))))) ∧
    (SrcsGood s [rA a, rA b] → Goes s s → exec (.zext d a b) s = .next (advance s (setA s d (word ((regA s a).toNat % 2 ^ fieldLen (regA s b).toNat))))) ∧
    (SrcsGood s [rA a, rA b] → Goes s s →
      exec (.extr d a b) s = .next (advance s (setA s d (word ((regA s a).toNat / 2 ^ ((regA s b).toNat % 64) % 2 ^ fieldLen (fld (regA s b) 8 6)))))) ∧
    (SrcsGood s [rA d, rA a, rA b] → Goes s s → exec (.insr d a b) s = .next (advance s (setA s d (insrW (regA s d) (regA s a) (regA s b))))) ∧
    (SrcsGood s [rA d, rA a, rA b] → Goes s s → exec (.sel d a b) s = .next (advance s (setA s d (if regA s d = 0 then regA s b else regA s a))))) ∧
  (∀ x : Word,
    ((clzW x).toNat ≤ 64 ∧ (∀ i, i < (clzW x).toNat → x.getLsbD (63 - i) = false) ∧ ((clzW x).toNat < 64 → x.getLsbD (63 - (clzW x).toNat) = true)) ∧
    (∀ i, i < 64 → (brevW x).getLsbD i = x.getLsbD (63 - i)) ∧
    (popcW x).toNat = ((List.range 64).filter (fun i => x.getLsbD i)).length)

/-- 07 R186: division by zero and the overflow of the signed division; no case traps. -/
def Obligations.DivisionResults : Prop :=
  ∀ (s : State) (d a b : Nat),
    (regA s b = 0 →
      (SrcsGood s [rA a, rA b] → Goes s s → exec (.div d a b) s = .next (advance s (setA s d (BitVec.allOnes 64)))) ∧ (SrcsGood s [rA a, rA b] → Goes s s →
        exec (.divu d a b) s = .next (advance s (setA s d (BitVec.allOnes 64)))) ∧
      (SrcsGood s [rA a, rA b] → Goes s s → exec (.rem d a b) s = .next (advance s (setA s d (regA s a)))) ∧ (SrcsGood s [rA a, rA b] → Goes s s →
        exec (.remu d a b) s = .next (advance s (setA s d (regA s a))))) ∧
    (regA s b ≠ 0 →
      (SrcsGood s [rA a, rA b] → Goes s s → exec (.div d a b) s = .next (advance s (setA s d (BitVec.ofInt 64 ((regA s a).toInt.tdiv (regA s b).toInt))))) ∧
      (SrcsGood s [rA a, rA b] → Goes s s → exec (.divu d a b) s = .next (advance s (setA s d (word ((regA s a).toNat / (regA s b).toNat))))) ∧
      (SrcsGood s [rA a, rA b] → Goes s s → exec (.rem d a b) s = .next (advance s (setA s d (BitVec.ofInt 64 ((regA s a).toInt.tmod (regA s b).toInt))))) ∧
      (SrcsGood s [rA a, rA b] → Goes s s → exec (.remu d a b) s = .next (advance s (setA s d (word ((regA s a).toNat % (regA s b).toNat)))))) ∧
    (regA s a = BitVec.intMin 64 → regA s b = BitVec.allOnes 64 →
      (SrcsGood s [rA a, rA b] → Goes s s → exec (.div d a b) s = .next (advance s (setA s d (BitVec.intMin 64)))) ∧ (SrcsGood s [rA a, rA b] → Goes s s →
        exec (.rem d a b) s = .next (advance s (setA s d 0))))

/-- 07 R187 with the extensions of 06 R150. -/
def Obligations.ImmediateResults : Prop :=
  ∀ (s : State) (d a i n : Nat), i < 65536 → n < 64 →
    (SrcsGood s [rA a] → Goes s s → exec (.addi d a i) s = .next (advance s (setA s d (BitVec.ofInt 64 ((regA s a).toInt + toSigned 16 i))))) ∧
    (SrcsGood s [rA a] → Goes s s → exec (.andi d a i) s = .next (advance s (setA s d (regA s a &&& word i)))) ∧
    (SrcsGood s [rA a] → Goes s s → exec (.ori d a i) s = .next (advance s (setA s d (regA s a ||| word i)))) ∧
    (SrcsGood s [rA a] → Goes s s → exec (.xori d a i) s = .next (advance s (setA s d (regA s a ^^^ word i)))) ∧
    (SrcsGood s [rA a] → Goes s s → exec (.slti d a i) s = .next (advance s (setA s d (if (regA s a).toInt < toSigned 16 i then 1 else 0)))) ∧
    (SrcsGood s [rA a] → Goes s s → exec (.slli d a n) s = .next (advance s (setA s d (word ((regA s a).toNat * 2 ^ n))))) ∧
    (SrcsGood s [rA a] → Goes s s → exec (.srli d a n) s = .next (advance s (setA s d (word ((regA s a).toNat / 2 ^ n))))) ∧
    (SrcsGood s [rA a] → Goes s s → exec (.srai d a n) s = .next (advance s (setA s d (BitVec.ofInt 64 ((regA s a).toInt / 2 ^ n))))) ∧
    (SrcsGood s [rA a] → Goes s s → exec (.lih d a i) s = .next (advance s (setA s d (word ((regA s a).toNat * 65536 + i))))) ∧
    (SrcsGood s [] → Goes s s → exec (.lil d i) s = .next (advance s (setA s d (word i)))) ∧
    (SrcsGood s [rA a] → Goes s s → exec (.lea d a i) s = .next (advance s (setA s d (BitVec.ofInt 64 ((regA s a).toInt + toSigned 16 i * 65536))))) ∧
    (SrcsGood s [] → Goes s s → exec (.addpc d i) s = .next (advance s (setA s d (BitVec.ofInt 64 ((cx s).pc.toInt + 4 * toSigned 16 i)))))

/-- The frame of an instruction whose effect is one write of Ad: every other A register, every V, M and B register, STAT, every other context, core, grove
and package, and every byte of memory are unchanged. -/
def Obligations.RegisterWriteFrame : Prop :=
  ∀ (s : State) (d : Nat) (v : Word),
    (∀ j, j ≠ d → regA (advance s (setA s d v)) j = regA s j) ∧ (regA (advance s (setA s d v)) d = if d = 0 then 0 else v) ∧
    (∀ j, regV (advance s (setA s d v)) j = regV s j) ∧ (∀ j, regM (advance s (setA s d v)) j = regM s j) ∧
    (∀ j, regB (advance s (setA s d v)) j = regB s j) ∧ (cx (advance s (setA s d v))).stat = (cx s).stat ∧
    (∀ c, c ≠ s.cur → getCtx (advance s (setA s d v)) c = getCtx s c) ∧
    (advance s (setA s d v)).cores = s.cores ∧ (advance s (setA s d v)).groves = s.groves ∧ (advance s (setA s d v)).pkgs = s.pkgs ∧
    (∀ k, cellRead (advance s (setA s d v)).mem k = cellRead s.mem k) ∧ (advance s (setA s d v)).full = s.full

/-! ## Branches and loops (02 R62-R64; 07 R200-R204) -/

/-- 07 R200, R202: the conditional branches, taken and not taken. -/
def Obligations.ConditionalBranches : Prop :=
  ∀ (s : State) (a b i : Nat),
    BranchGives (.beq a b i) [rA a, rA b] s (regA s a = regA s b) (signExt i 16 * 4) ∧
    BranchGives (.bne a b i) [rA a, rA b] s (regA s a ≠ regA s b) (signExt i 16 * 4) ∧
    BranchGives (.blt a b i) [rA a, rA b] s ((regA s a).toInt < (regA s b).toInt) (signExt i 16 * 4) ∧
    BranchGives (.bge a b i) [rA a, rA b] s ((regA s b).toInt ≤ (regA s a).toInt) (signExt i 16 * 4) ∧
    BranchGives (.bltu a b i) [rA a, rA b] s ((regA s a).toNat < (regA s b).toNat) (signExt i 16 * 4) ∧
    BranchGives (.bgeu a b i) [rA a, rA b] s ((regA s b).toNat ≤ (regA s a).toNat) (signExt i 16 * 4) ∧
    BranchGives (.bz a i) [rA a, rA 0] s (regA s a = 0) (signExt i 16 * 4) ∧
    BranchGives (.bnz a i) [rA a, rA 0] s (regA s a ≠ 0) (signExt i 16 * 4)

/-- 07 R201, R202: the jumps, and the trap of each on an address that no fetch can use. That a jump ends a loop level as a taken branch does (jumpTo; 02
R62, R63 speak of branches only) is the model's choice: log 34, DESIGN CHOICE. -/
def Obligations.Jumps : Prop :=
  ∀ (s : State) (d a j : Nat),
    (badTarget ((cx s).pc + signExt j 26 * 4) = false →
      exec (.jmp j) s = .next (jumpTo s s ((cx s).pc + signExt j 26 * 4)) ∧
      exec (.jal j) s = .next (jumpTo s (setA s 31 ((cx s).pc + 4)) ((cx s).pc + signExt j 26 * 4))) ∧
    (badTarget ((cx s).pc + signExt j 26 * 4) = true →
      exec (.jmp j) s = .next (takeTrap s (.jmp j) cInsnAddr ((cx s).pc + signExt j 26 * 4) 0) ∧
      exec (.jal j) s = .next (takeTrap s (.jal j) cInsnAddr ((cx s).pc + signExt j 26 * 4) 0)) ∧
    (SrcsGood s [rA a] → badTarget (regA s a) = false → (regA s a).toNat % 4 = 0 →
      exec (.jr a) s = .next (jumpTo s s (regA s a)) ∧
      exec (.jalr d a) s = .next (jumpTo s (setA s d ((cx s).pc + 4)) (regA s a))) ∧
    (SrcsGood s [rA a] → badTarget (regA s a) = true ∨ (regA s a).toNat % 4 ≠ 0 →
      exec (.jr a) s = .next (takeTrap s (.jr a) cInsnAddr (regA s a) 0) ∧
      exec (.jalr d a) s = .next (takeTrap s (.jalr d a) cInsnAddr (regA s a) 0))

/-- 02 R62, R63; 07 R202: LOOP and LOOPI set up a level; a count of 0 leaves it inactive and execution continues past the body, or traps, with no register
changed, when no fetch can use the address there. For a body that reaches 2^48 a level keeps the low 48 bits, and the skip takes the whole 64-bit sum:
the model's choice (log 84, DESIGN CHOICE). 02 R62-R64: the end-of-body check of one level after its last instruction: it loops back while the count
is above 1, and otherwise the level ends with a count of 0; a write of LEND governs the next iteration. -/
def Obligations.HardwareLoops : Prop :=
  (∀ (s : State) (c k n : Nat),
    (regA s c ≠ 0 → (SrcsGood s [rA c] → Goes s (loopZero s n (regA s c)) → exec (.loop 0 c n) s = .next (advance s (loopZero s n (regA s c)))) ∧ (SrcsGood s [rA c] → Goes s (loopOne s n (regA s c)) →
      exec (.loop 1 c n) s = .next (advance s (loopOne s n (regA s c))))) ∧
    (word k ≠ 0 → (SrcsGood s [] → Goes s (loopZero s n (word k)) → exec (.loopi 0 k n) s = .next (advance s (loopZero s n (word k)))) ∧ (SrcsGood s [] → Goes s (loopOne s n (word k)) →
      exec (.loopi 1 k n) s = .next (advance s (loopOne s n (word k))))) ∧
    (regA s c = 0 → SrcsGood s [rA c] → Skips (.loop 0 c n) s (loopZero s n 0) n ∧ Skips (.loop 1 c n) s (loopOne s n 0) n) ∧
    (word k = 0 → Skips (.loopi 0 k n) s (loopZero s n 0) n ∧ Skips (.loopi 1 k n) s (loopOne s n 0) n)) ∧
  (∀ (l : LoopLevel) (pc : Word),
    (l.act = true → l.cur = pc → 1 < l.cnt.toNat → levelEnd l pc = ({ l with cnt := l.cnt - 1, org := l.sta, cur := l.fin }, some l.sta)) ∧
    (l.act = true → l.cur = pc → l.cnt.toNat ≤ 1 → levelEnd l pc = ({ l with cnt := 0, act := false }, none)) ∧
    (l.act = false ∨ l.cur ≠ pc → levelEnd l pc = (l, none)))

/-! ## Memory (07 R188-R199; 09 R259, R260) -/

/-- 07 R188, R189: the loads write Ad with the sign- or zero-extended bytes that the access reads at Aa + imm16, or at Aa plus Ab, scaled or not. 07 R188,
R189: the stores write the low bytes of their register, lowest first. -/
def Obligations.ScalarAccesses : Prop :=
  (∀ (s t : State) (d a b i x z w : Nat) (bs : List Byte),
    (loadResult s false [(regA s a + signExt i 16, 1)] = some (t, [bs]) →
      (SrcsGood s [rA a] → Goes s (setA t d (signExt (leNat bs) 8)) → exec (.ldB d a i) s = .next (advance s (setA t d (signExt (leNat bs) 8)))) ∧ (SrcsGood s [rA a] → Goes s (setA t d (word (leNat bs))) →
        exec (.ldBZ d a i) s = .next (advance s (setA t d (word (leNat bs)))))) ∧
    (loadResult s false [(regA s a + signExt i 16, 2)] = some (t, [bs]) →
      (SrcsGood s [rA a] → Goes s (setA t d (signExt (leNat bs) 16)) → exec (.ldH d a i) s = .next (advance s (setA t d (signExt (leNat bs) 16)))) ∧ (SrcsGood s [rA a] → Goes s (setA t d (word (leNat bs))) →
        exec (.ldHZ d a i) s = .next (advance s (setA t d (word (leNat bs)))))) ∧
    (loadResult s false [(regA s a + signExt i 16, 4)] = some (t, [bs]) →
      (SrcsGood s [rA a] → Goes s (setA t d (signExt (leNat bs) 32)) → exec (.ldW d a i) s = .next (advance s (setA t d (signExt (leNat bs) 32)))) ∧ (SrcsGood s [rA a] → Goes s (setA t d (word (leNat bs))) →
        exec (.ldWZ d a i) s = .next (advance s (setA t d (word (leNat bs)))))) ∧
    (loadResult s ((regA s a + signExt i 16).toNat % 8 == 0) [(regA s a + signExt i 16, 8)] = some (t, [bs]) →
      (SrcsGood s [rA a] → Goes s (setA t d (word (leNat bs))) → exec (.ldD d a i) s = .next (advance s (setA t d (word (leNat bs)))))) ∧
    (loadResult s false [(regA s a + (if x = 1 then regA s b * word (2 ^ w) else regA s b), 2 ^ w)] = some (t, [bs]) →
      (SrcsGood s [rA a, rA b] → Goes s (setA t d (if z = 1 then word (leNat bs) else signExt (leNat bs) (8 * 2 ^ w))) →
        exec (.ldx d a b x z w) s = .next (advance s (setA t d (if z = 1 then word (leNat bs) else signExt (leNat bs) (8 * 2 ^ w))))))) ∧
  (∀ (s t : State) (d a b i x w : Nat),
    (storeResult s false [(regA s a + signExt i 16, leBytes 1 (regA s b).toNat)] = some t → (SrcsGood s [rA a, rA b] → Goes s t →
      exec (.stB a b i) s = .next (advance s t))) ∧
    (storeResult s false [(regA s a + signExt i 16, leBytes 2 (regA s b).toNat)] = some t → (SrcsGood s [rA a, rA b] → Goes s t →
      exec (.stH a b i) s = .next (advance s t))) ∧
    (storeResult s false [(regA s a + signExt i 16, leBytes 4 (regA s b).toNat)] = some t → (SrcsGood s [rA a, rA b] → Goes s t →
      exec (.stW a b i) s = .next (advance s t))) ∧
    (storeResult s ((regA s a + signExt i 16).toNat % 8 == 0) [(regA s a + signExt i 16, leBytes 8 (regA s b).toNat)] = some t →
      (SrcsGood s [rA a, rA b] → Goes s t → exec (.stD a b i) s = .next (advance s t))) ∧
    (storeResult s false [(regA s a + (if x = 1 then regA s b * word (2 ^ w) else regA s b), leBytes (2 ^ w) (regA s d).toNat)] = some t →
      (SrcsGood s [rA d, rA a, rA b] → Goes s t → exec (.stx d a b x w) s = .next (advance s t))))

/-- 03 R66, R70: an access of n bytes through the local alias to offsets below 128 KiB, by a thread whose job has the core in CORES, reads and writes the
issuing core's scratchpad; a write changes exactly the bytes stored, and nothing else of the state (with no failed unit and nothing in flight). That
an ordinary store to a counter's dword tests no trigger and sets no event bit is the model's choice (log 87, DESIGN CHOICE). -/
def Obligations.LocalScratchpad : Prop :=
  ∀ (s : State) (ap : Bool) (va : Word) (bs : List Byte),
    addrClass va = .localWin → fld va 17 35 = 0 → inCores s (cxCore s) (cx s).job = true → 1 ≤ bs.length → fld va 0 17 + bs.length ≤ 2 ^ 17 →
    s.partials = [] → s.bad = [] → s.stores = [] →
      loadResult s ap [(va, bs.length)] = some (s, [cellsRead s.mem (scratchKey (cxCore s) (fld va 0 17)) bs.length]) ∧
      storeResult s ap [(va, bs)] = some (memWrite s (scratchKey (cxCore s) (fld va 0 17)) bs) ∧
      (∀ k, cellRead (memWrite s (scratchKey (cxCore s) (fld va 0 17)) bs).mem k =
        if scratchKey (cxCore s) (fld va 0 17) ≤ k ∧ k < scratchKey (cxCore s) (fld va 0 17) + bs.length
        then bs.getD (k - scratchKey (cxCore s) (fld va 0 17)) 0 else cellRead s.mem k)

/-- 04 R103-R105: a store to global memory whose check gives one place (and no failed unit, no partial update) is held for its home slice: the memory is
unchanged, an access of any m bytes at a by the storing core reads the stored bytes there, and every other byte as before. -/
def Obligations.GlobalStores : Prop :=
  ∀ (s t : State) (ap : Bool) (va : Word) (bs : List Byte) (k : Nat),
    check s (thr s) .write ap va bs.length = (s, .ok [(k, bs.length)]) → keyIsScratch k = false → s.partials = [] → s.bad = [] →
    storeResult s ap [(va, bs)] = some t →
      t.mem = s.mem ∧ t.ctxs = s.ctxs ∧
      (∀ a m j, k ≤ j → j < k + bs.length → viewByte t (cxCore s) a m j = bs.getD (j - k) 0) ∧
      (∀ a m j, j < k ∨ k + bs.length ≤ j → viewByte t (cxCore s) a m j = viewByte s (cxCore s) a m j)

/-- 07 R192-R196: LDF takes or peeks a full dword and is an acquire, STE fills an empty one and is a release, TAGSET and TAGGET set and read the bit; an
LDF of an empty dword and an STE of a full one wait, an STE only once its thread's stores are acknowledged (04 R106), and an STE to a dword that fails
its check traps (18 R409). -/
def Obligations.FullEmptyAccesses : Prop :=
  ∀ (s : State) (d a b key : Nat),
    scratchObj s (thr s) (regA s a) 8 cFullEmpty = .key key →
    (∀ u : State, u = drainTo s s.cur (keyCore key) → firstBad s key 8 = none →
      (u.full.contains key = true → firstInLine u (.dword key true) = true →
        (SrcsGood s [rA a] → Goes s (setA (acquire (setFull u key false) (cxCore (setFull u key false))) d (counterRead u key)) →
          exec (.ldfTake d a) s = .next (advance s (setA (acquire (setFull u key false) (cxCore (setFull u key false))) d (counterRead u key)))) ∧
        (SrcsGood s [rA a] → Goes s (setA (acquire u (cxCore u)) d (counterRead u key)) →
          exec (.ldfPeek d a) s = .next (advance s (setA (acquire u (cxCore u)) d (counterRead u key))))) ∧
      (u.full.contains key = false →
        Waits (.ldfTake d a) [rA a] s u (.dword key true) ∧ Waits (.ldfPeek d a) [rA a] s u (.dword key true)) ∧
      (SrcsGood s [rA a, rA b] → Goes s (setFull u key ((regA u b).getLsbD 0)) → exec (.tagset a b) s = .next (advance s (setFull u key ((regA u b).getLsbD 0)))) ∧
      (SrcsGood s [rA a] → Goes s (setA u d (if u.full.contains key then 1 else 0)) →
        exec (.tagget d a) s = .next (advance s (setA u d (if u.full.contains key then 1 else 0))))) ∧
    (∀ u : State, u = releaseWaits s s.cur → firstBad s key 8 = none →
      (unacked s s.cur = none → u.full.contains key = false → firstInLine u (.dword key false) = true →
        (SrcsGood s [rA a, rA b] → Goes s (setFull (memWrite u key (leBytes 8 (regA u b).toNat)) key true) →
          exec (.ste a b) s = .next (advance s (setFull (memWrite u key (leBytes 8 (regA u b).toNat)) key true)))) ∧
      (unacked s s.cur = none → u.full.contains key = true → Waits (.ste a b) [rA a, rA b] s u (.dword key false)) ∧
      ((unacked s s.cur).isSome = true → Waits (.ste a b) [rA a, rA b] s s (.acks (cxCore s)))) ∧
    (∀ x : Nat, firstBad s key 8 = some x → SrcsGood s [rA a, rA b] →
      exec (.ste a b) s = .next (takeTrap s (.ste a b) cUncorrectable (regA s a + word (x - key)) 0))

/-- 07 R197-R199; 04 R106, R107, R114: ACQ discards every word of the core's L1 that the core does not own, REL completes the waits of a release and waits
while a store of its thread is not acknowledged, FENCE.E performs its thread's earlier stores to the counter's core and is an acquire when the counter
has reached its target. PREF of a translated address combines the line's updates and fills it when it can be read (what the L1 then holds is log 8,
DESIGN CHOICE), and is dropped and counted when it would fault, meets uncorrectable data, or finds its page in migration (log 71, DESIGN CHOICE); one
of a group, scratch, local or aperture address has no effect. -/
def Obligations.FencesAndPrefetch : Prop :=
  ∀ (s : State) (a b key pa n : Nat),
    (SrcsGood s [] → Goes s (modCore s (cxCore s) (fun u => { u with l1 := u.l1.filter (fun e => kfind s.owner e.1 == some (cxCore s)) })) →
      exec .acq s = .next (advance s (modCore s (cxCore s) (fun u => { u with l1 := u.l1.filter (fun e => kfind s.owner e.1 == some (cxCore s)) })))) ∧
    (unacked s s.cur = none → (SrcsGood s [] → Goes s (releaseWaits s s.cur) → exec .rel s = .next (advance s (releaseWaits s s.cur)))) ∧
    ((unacked s s.cur).isSome = true → Waits .rel [] s s (.acks (cxCore s))) ∧
    (∀ u : State, counterObj s (thr s) (regA s a) 8 = .key key → firstBad s key 8 = none → u = drainTo s s.cur (keyCore key) →
      ((regA u b).toNat ≤ (counterRead u key).toNat → (SrcsGood s [rA a, rA b] → Goes s (acquire u (cxCore u)) →
        exec (.fenceE a b) s = .next (advance s (acquire u (cxCore u))))) ∧
      ((counterRead u key).toNat < (regA u b).toNat → Waits (.fenceE a b) [rA a, rA b] s u (.fence key))) ∧
    (∀ u : State, addrClass (regA s a) = .translated → peek s (thr s) ((regA s a).toNat / 64 * 64) = some pa → key = paKey s (cxPkg s) pa →
      (recallLines s key 64 = (u, none) → firstBad u key 64 = none → (SrcsGood s [rA a] → Goes s (prefetched u (cxCore s) pa key) →
        exec (.pref a) s = .next (advance s (prefetched u (cxCore s) pa key)))) ∧
      (recallLines s key 64 = (u, some n) ∨ (recallLines s key 64 = (u, none) ∧ (firstBad u key 64).isSome = true) →
        (SrcsGood s [rA a] → Goes s (dropSpec u (cxCore s)) → exec (.pref a) s = .next (advance s (dropSpec u (cxCore s)))))) ∧
    ((addrClass (regA s a) = .translated ∧ peek s (thr s) ((regA s a).toNat / 64 * 64) = none) ∨ addrClass (regA s a) = .nonCanonical →
      (SrcsGood s [rA a] → Goes s (dropSpec s (cxCore s)) → exec (.pref a) s = .next (advance s (dropSpec s (cxCore s))))) ∧
    (∀ u : State, dropSpec u (cxCore s) = modCore u (cxCore s) (fun w => { w with dspec := w.dspec + 1 })) ∧
    (addrClass (regA s a) = .group ∨ addrClass (regA s a) = .scratch ∨ addrClass (regA s a) = .localWin ∨ addrClass (regA s a) = .aperture →
      (SrcsGood s [rA a] → Goes s s → exec (.pref a) s = .next (advance s s)))

/-- 09 R260: an atomic on an aligned place writes the new value and returns the old one, sign-extended (an FP32 one zero-extended); AUPD returns nothing,
and in global memory joins a partial result at the core's grove slice (04 R114). One on a misaligned address traps (09 R259). That an atomic on a
counter's dword in a scratchpad is no counter update is the model's choice (log 87, DESIGN CHOICE). 09 R260: the new values of the atomics on words
and dwords: wrapping addition, the compare and swap. -/
def Obligations.Atomics : Prop :=
  (∀ (s s1 s2 v : State) (d a b u w o key n : Nat),
    ((regA s a).toNat % 2 ^ w ≠ 0 → SrcsGood s [rA d, rA a, rA b] →
      ∀ i ∈ [Instr.aadd d a b w, .amin d a b u w, .amax d a b u w, .aand d a b w, .aor d a b w, .axor d a b w, .aswp d a b w, .acas d a b w, .aupd a b o u w],
        exec i s = .next (takeTrap s i cAtomicAlign (regA s a) 0)) ∧
    ((regA s a).toNat % 4 ≠ 0 → SrcsGood s [rA a, rA b] → exec (.afadd d a b) s = .next (takeTrap s (.afadd d a b) cAtomicAlign (regA s a) 0)) ∧
    ((regA s a).toNat % 2 ^ w = 0 → check s (thr s) .both false (regA s a) (2 ^ w) = (s1, .ok [(key, n)]) →
    (firstBad s1 key (2 ^ w) = none → recallLines (settleBytes (drainTo s1 s1.cur (keyCore key)) key (2 ^ w)) key (2 ^ w) = (v, none) →
      s2 = cxlDelivers v (thr v) (regA s a).toNat (fun _ => false) key (2 ^ w) →
      (SrcsGood s [rA a, rA b] → Goes s (setA (atomicAfter s1 s2 b key w 0 false (regA s1 d)) d (signExt (homeValue s2 key w) (8 * 2 ^ w))) →
        exec (.aadd d a b w) s = .next (advance s (setA (atomicAfter s1 s2 b key w 0 false (regA s1 d)) d (signExt (homeValue s2 key w) (8 * 2 ^ w))))) ∧
      (SrcsGood s [rA a, rA b] → Goes s (setA (atomicAfter s1 s2 b key w 1 (u == 1) (regA s1 d)) d (signExt (homeValue s2 key w) (8 * 2 ^ w))) →
        exec (.amin d a b u w) s = .next (advance s (setA (atomicAfter s1 s2 b key w 1 (u == 1) (regA s1 d)) d (signExt (homeValue s2 key w) (8 * 2 ^ w))))) ∧
      (SrcsGood s [rA a, rA b] → Goes s (setA (atomicAfter s1 s2 b key w 2 (u == 1) (regA s1 d)) d (signExt (homeValue s2 key w) (8 * 2 ^ w))) →
        exec (.amax d a b u w) s = .next (advance s (setA (atomicAfter s1 s2 b key w 2 (u == 1) (regA s1 d)) d (signExt (homeValue s2 key w) (8 * 2 ^ w))))) ∧
      (SrcsGood s [rA a, rA b] → Goes s (setA (atomicAfter s1 s2 b key w 3 false (regA s1 d)) d (signExt (homeValue s2 key w) (8 * 2 ^ w))) →
        exec (.aand d a b w) s = .next (advance s (setA (atomicAfter s1 s2 b key w 3 false (regA s1 d)) d (signExt (homeValue s2 key w) (8 * 2 ^ w))))) ∧
      (SrcsGood s [rA a, rA b] → Goes s (setA (atomicAfter s1 s2 b key w 4 false (regA s1 d)) d (signExt (homeValue s2 key w) (8 * 2 ^ w))) →
        exec (.aor d a b w) s = .next (advance s (setA (atomicAfter s1 s2 b key w 4 false (regA s1 d)) d (signExt (homeValue s2 key w) (8 * 2 ^ w))))) ∧
      (SrcsGood s [rA a, rA b] → Goes s (setA (atomicAfter s1 s2 b key w 5 false (regA s1 d)) d (signExt (homeValue s2 key w) (8 * 2 ^ w))) →
        exec (.axor d a b w) s = .next (advance s (setA (atomicAfter s1 s2 b key w 5 false (regA s1 d)) d (signExt (homeValue s2 key w) (8 * 2 ^ w))))) ∧
      (SrcsGood s [rA a, rA b] → Goes s (setA (atomicAfter s1 s2 b key w 6 false (regA s1 d)) d (signExt (homeValue s2 key w) (8 * 2 ^ w))) →
        exec (.aswp d a b w) s = .next (advance s (setA (atomicAfter s1 s2 b key w 6 false (regA s1 d)) d (signExt (homeValue s2 key w) (8 * 2 ^ w))))) ∧
      (SrcsGood s [rA d, rA a, rA b] → Goes s (setA (atomicAfter s1 s2 b key w 7 false (regA s1 d)) d (signExt (homeValue s2 key w) (8 * 2 ^ w))) →
        exec (.acas d a b w) s = .next (advance s (setA (atomicAfter s1 s2 b key w 7 false (regA s1 d)) d (signExt (homeValue s2 key w) (8 * 2 ^ w))))) ∧
      (w = 2 → (SrcsGood s [rA a, rA b] → Goes s (setA (atomicAfter s1 s2 b key w 8 false (regA s1 d)) d (word (homeValue s2 key w))) →
        exec (.afadd d a b) s = .next (advance s (setA (atomicAfter s1 s2 b key w 8 false (regA s1 d)) d (word (homeValue s2 key w)))))) ∧
      (keyIsScratch key = true → (SrcsGood s [rA a, rA b] → Goes s (atomicAfter s1 s2 b key w (updOp o) (u == 1) 0) →
        exec (.aupd a b o u w) s = .next (advance s (atomicAfter s1 s2 b key w (updOp o) (u == 1) 0))))) ∧
    (keyIsScratch key = false →
      (SrcsGood s [rA a, rA b] → Goes s (partialAfter (settleBytes s1 key (2 ^ w)) b key w (updOp o) (u == 1)) →
        exec (.aupd a b o u w) s = .next (advance s (partialAfter (settleBytes s1 key (2 ^ w)) b key w (updOp o) (u == 1))))))) ∧
  (∀ (w old v c : Nat), old < 2 ^ w → v < 2 ^ w →
    atomicNew 0 false w old v c = (old + v) % 2 ^ w ∧ atomicNew 6 false w old v c = v ∧
    atomicNew 7 false w old v c = (if old = c then v else old) ∧ atomicNew 1 true w old v c = min old v ∧ atomicNew 2 true w old v c = max old v ∧
    (atomicNew 1 false w old v c = old ∨ atomicNew 1 false w old v c = v) ∧
    toSigned w (atomicNew 1 false w old v c) ≤ toSigned w old ∧ toSigned w (atomicNew 1 false w old v c) ≤ toSigned w v ∧
    toSigned w old ≤ toSigned w (atomicNew 2 false w old v c) ∧ toSigned w v ≤ toSigned w (atomicNew 2 false w old v c))

/-! ## Vectors (08) -/

/-- 08 R205, R206: the result of an element-wise operation, element by element: active elements take their value, inactive ones keep their bits, Vd takes
the result tag, the flags of active elements accumulate in STAT, and nothing else changes. -/
def Obligations.VectorLanes : Prop :=
  ∀ (s t : State) (d w n tag planes : Nat) (mask : Nat → Bool) (f : Nat → Nat × Nat),
    w * n ≤ 1024 → (∀ e, e < n → (f e).1 < 2 ^ w ∧ (f e).2 < 64) → t = laneResult s d w n mask tag planes f →
      (∀ e, e < n → elemAt w (vnat (regV t d)) e = if mask e then (f e).1 else elemAt w (vnat (regV s d)) e) ∧
      (regV t d).tag = tag ∧ (regV t d).planes = planes ∧ (∀ j, j ≠ d → regV t j = regV s j) ∧
      (∀ i, i < 6 → ((cx t).stat.getLsbD i = true ↔ (cx s).stat.getLsbD i = true ∨ ∃ e, e < n ∧ mask e = true ∧ (f e).2.testBit i = true)) ∧
      (∀ i, 6 ≤ i → (cx t).stat.getLsbD i = (cx s).stat.getLsbD i) ∧
      (∀ j, regA t j = regA s j ∧ regM t j = regM s j ∧ regB t j = regB s j) ∧ (∀ c, c ≠ s.cur → getCtx t c = getCtx s c) ∧
      t.mem = s.mem ∧ t.full = s.full ∧ t.stores = s.stores ∧ t.cores = s.cores ∧ t.groves = s.groves ∧ t.pkgs = s.pkgs

/-- 08 R207-R210, R213, R214: the element-wise operations on the tags they accept, and the trap "format tag mismatch", which names the operand and the tag
and plane count found (05 R142; 17 R379); where Va's own tag is not accepted, that is what it names (log 66, DEDUCED). 08 R207, R210; 05 R121: the
integer element functions wrap in the element width, compare by the tag's signedness, and a shift by the width or more leaves zeros or the sign. -/
def Obligations.VectorArithmetic : Prop :=
  (∀ (s : State) (d a b m : Nat),
    (arithTags (regV s a).tag = true → sameFormat (regV s a) (regV s b) = true →
      (SrcsGood s [rV a, rV b, rM m] → Goes s (lanes2 s d a b m addElem) → exec (.vadd d a b m) s = .next (advance s (lanes2 s d a b m addElem))) ∧
      (SrcsGood s [rV a, rV b, rM m] → Goes s (lanes2 s d a b m subElem) → exec (.vsub d a b m) s = .next (advance s (lanes2 s d a b m subElem))) ∧
      (SrcsGood s [rV a, rV b, rM m] → Goes s (lanes2 s d a b m minElem) → exec (.vmin d a b m) s = .next (advance s (lanes2 s d a b m minElem))) ∧
      (SrcsGood s [rV a, rV b, rM m] → Goes s (lanes2 s d a b m maxElem) → exec (.vmax d a b m) s = .next (advance s (lanes2 s d a b m maxElem)))) ∧
    (mulTags (regV s a).tag = true → sameFormat (regV s a) (regV s b) = true →
      (SrcsGood s [rV a, rV b, rM m] → Goes s (lanes2 s d a b m mulElem) → exec (.vmul d a b m) s = .next (advance s (lanes2 s d a b m mulElem))) ∧
      (sameFormat (regV s a) (regV s d) = true →
        (SrcsGood s [rV d, rV a, rV b, rM m] → Goes s (lanes3 s d a b m fmaElem) → exec (.vfma d a b m) s = .next (advance s (lanes3 s d a b m fmaElem))) ∧
        (SrcsGood s [rV d, rV a, rV b, rM m] → Goes s (lanes3 s d a b m fmsElem) → exec (.vfms d a b m) s = .next (advance s (lanes3 s d a b m fmsElem))))) ∧
    (shiftTags (regV s a).tag = true → sameFormat (regV s a) (regV s b) = true →
      (SrcsGood s [rV a, rV b, rM m] → Goes s (lanes2 s d a b m shlElem) → exec (.vshl d a b m) s = .next (advance s (lanes2 s d a b m shlElem))) ∧
      (SrcsGood s [rV a, rV b, rM m] → Goes s (lanes2 s d a b m shrElem) → exec (.vshr d a b m) s = .next (advance s (lanes2 s d a b m shrElem)))) ∧
    (signTags (regV s a).tag = true →
      (SrcsGood s [rV a, rM m] → Goes s (lanes1 s d a m (signElem false)) → exec (.vabs d a m) s = .next (advance s (lanes1 s d a m (signElem false)))) ∧
      (SrcsGood s [rV a, rM m] → Goes s (lanes1 s d a m (signElem true)) → exec (.vneg d a m) s = .next (advance s (lanes1 s d a m (signElem true))))) ∧
    (isFloatTag (regV s a).tag = true →
      (SrcsGood s [rV a, rM m] → Goes s (lanes1 s d a m (fun t => vrcpElem (fmtOf t))) →
        exec (.vrcp d a m) s = .next (advance s (lanes1 s d a m (fun t => vrcpElem (fmtOf t))))) ∧
      (SrcsGood s [rV a, rM m] → Goes s (lanes1 s d a m (fun t => vrsqElem (fmtOf t))) →
        exec (.vrsq d a m) s = .next (advance s (lanes1 s d a m (fun t => vrsqElem (fmtOf t))))) ∧
      (SrcsGood s [rV a, rM m] → Goes s (lanes1 s d a m (fun t => vexp2Elem (fmtOf t))) →
        exec (.vexp2 d a m) s = .next (advance s (lanes1 s d a m (fun t => vexp2Elem (fmtOf t))))) ∧
      (SrcsGood s [rV a, rM m] → Goes s (lanes1 s d a m (fun t => vlog2Elem (fmtOf t))) →
        exec (.vlog2 d a m) s = .next (advance s (lanes1 s d a m (fun t => vlog2Elem (fmtOf t)))))) ∧
    (SrcsGood s [rV a, rV b, rM m] → Goes s (logicLanes s d a b m (fun x y => x &&& y)) →
      exec (.vand d a b m) s = .next (advance s (logicLanes s d a b m (fun x y => x &&& y)))) ∧
    (SrcsGood s [rV a, rV b, rM m] → Goes s (logicLanes s d a b m (fun x y => x ||| y)) →
      exec (.vor d a b m) s = .next (advance s (logicLanes s d a b m (fun x y => x ||| y)))) ∧
    (SrcsGood s [rV a, rV b, rM m] → Goes s (logicLanes s d a b m (fun x y => x ^^^ y)) →
      exec (.vxor d a b m) s = .next (advance s (logicLanes s d a b m (fun x y => x ^^^ y)))) ∧
    (∀ p ∈ [(Instr.vadd d a b m, arithTags), (.vsub d a b m, arithTags), (.vmin d a b m, arithTags), (.vmax d a b m, arithTags),
        (.vmul d a b m, mulTags), (.vshl d a b m, shiftTags), (.vshr d a b m, shiftTags)],
      SrcsGood s [rV a, rV b, rM m] →
        (p.2 (regV s a).tag = false → exec p.1 s = .next (takeTrap s p.1 cTag 0 (1 + (regV s a).tag * 16 + (regV s a).planes * 256))) ∧
        (p.2 (regV s a).tag = true → sameFormat (regV s a) (regV s b) = false →
          exec p.1 s = .next (takeTrap s p.1 cTag 0 (2 + (regV s b).tag * 16 + (regV s b).planes * 256)))) ∧
    (∀ i ∈ [Instr.vfma d a b m, .vfms d a b m], SrcsGood s [rV d, rV a, rV b, rM m] →
      (mulTags (regV s a).tag = false → exec i s = .next (takeTrap s i cTag 0 (1 + (regV s a).tag * 16 + (regV s a).planes * 256))) ∧
      (mulTags (regV s a).tag = true → sameFormat (regV s a) (regV s b) = false →
        exec i s = .next (takeTrap s i cTag 0 (2 + (regV s b).tag * 16 + (regV s b).planes * 256))) ∧
      (mulTags (regV s a).tag = true → sameFormat (regV s a) (regV s b) = true → sameFormat (regV s a) (regV s d) = false →
        exec i s = .next (takeTrap s i cTag 0 (0 + (regV s d).tag * 16 + (regV s d).planes * 256)))) ∧
    (∀ p ∈ [(Instr.vabs d a m, signTags), (.vneg d a m, signTags), (.vrcp d a m, floatTags), (.vrsq d a m, floatTags), (.vexp2 d a m, floatTags),
        (.vlog2 d a m, floatTags)],
      SrcsGood s [rV a, rM m] → p.2 (regV s a).tag = false →
        exec p.1 s = .next (takeTrap s p.1 cTag 0 (1 + (regV s a).tag * 16 + (regV s a).planes * 256)))) ∧
  (∀ (t x y z n : Nat), isFloatTag t = false → x < 2 ^ tagWidth t → y < 2 ^ tagWidth t → z < 2 ^ tagWidth t →
    addElem t x y = ((x + y) % 2 ^ tagWidth t, 0) ∧ subElem t x y = ((x + 2 ^ tagWidth t - y) % 2 ^ tagWidth t, 0) ∧
    mulElem t x y = (x * y % 2 ^ tagWidth t, 0) ∧ fmaElem t x y z = ((x * y + z) % 2 ^ tagWidth t, 0) ∧
    ((fmsElem t x y z).1 + x * y) % 2 ^ tagWidth t = z ∧ (fmsElem t x y z).2 = 0 ∧
    elemInt t (minElem t x y).1 = min (elemInt t x) (elemInt t y) ∧ elemInt t (maxElem t x y).1 = max (elemInt t x) (elemInt t y) ∧
    (signElem true t x).1 = (2 ^ tagWidth t - x) % 2 ^ tagWidth t ∧
    (signElem false t x).1 = (if 0 ≤ elemInt t x then x else 2 ^ tagWidth t - x) ∧
    shlElem t x n = (x * 2 ^ n % 2 ^ tagWidth t, 0) ∧ elemInt t (shrElem t x n).1 = elemInt t x / 2 ^ n)

/-- 05 R117, R131; 08 R209: an operation with a NaN operand gives the default NaN of its format, a multiply-add whichever operand it is, VABS and VNEG
too, a conversion the default NaN of its target or, to an integer, zero, and a reduction one of whose leaves is a NaN the NaN of its format. 05 R120:
the minimum and the maximum order −0.0 below +0.0. -/
def Obligations.NanResults : Prop :=
  ∀ (t x y z : Nat), isFloatTag t = true →
    ((unpack (fmtOf t) x).isNan = true →
      (addElem t x y).1 = nanBits (fmtOf t) ∧ (addElem t y x).1 = nanBits (fmtOf t) ∧ (subElem t x y).1 = nanBits (fmtOf t) ∧
      (subElem t y x).1 = nanBits (fmtOf t) ∧ (mulElem t x y).1 = nanBits (fmtOf t) ∧ (mulElem t y x).1 = nanBits (fmtOf t) ∧
      (minElem t x y).1 = nanBits (fmtOf t) ∧ (minElem t y x).1 = nanBits (fmtOf t) ∧ (maxElem t x y).1 = nanBits (fmtOf t) ∧
      (maxElem t y x).1 = nanBits (fmtOf t) ∧ (fmaElem t x y z).1 = nanBits (fmtOf t) ∧ (fmaElem t y x z).1 = nanBits (fmtOf t) ∧
      (fmaElem t y z x).1 = nanBits (fmtOf t) ∧ (fmsElem t x y z).1 = nanBits (fmtOf t) ∧ (fmsElem t y x z).1 = nanBits (fmtOf t) ∧
      (fmsElem t y z x).1 = nanBits (fmtOf t) ∧ (signElem false t x).1 = nanBits (fmtOf t) ∧ (signElem true t x).1 = nanBits (fmtOf t) ∧
      (∀ p t' mode rnd, isFloatTag t' = true → x < 2 ^ tagWidth t → (convertElem t p t' mode rnd x).1 = nanBits (fmtOf t')) ∧
      (∀ p t' mode rnd, isFloatTag t' = false → x < 2 ^ tagWidth t → (convertElem t p t' mode rnd x).1 = 0) ∧
      (∀ o, (opBits o t x y).1 = nanBits (fmtOf t) ∧ (opBits o t y x).1 = nanBits (fmtOf t)) ∧
      (∀ o n l, x ∈ l → l.length = 2 ^ (n + 1) → (treeReduce o t (n + 1) l).1 = nanBits (fmtOf t)) ∧
      (unpack fp32 (redLeaf t 5 x).1).isNan = true ∧ (vrcpElem (fmtOf t) x).1 = nanBits (fmtOf t) ∧
      (vrsqElem (fmtOf t) x).1 = nanBits (fmtOf t) ∧ (vexp2Elem (fmtOf t) x).1 = nanBits (fmtOf t) ∧ (vlog2Elem (fmtOf t) x).1 = nanBits (fmtOf t) ∧
      (∀ c, cmpElem c t x y = (c == 1, if (unpack (fmtOf t) x).isSig = true ∨ (unpack (fmtOf t) y).isSig = true ∨ 2 ≤ c then 1 else 0))) ∧
    (unpack (fmtOf t) x).isNan = (decide (x / 2 ^ (fmtOf t).mb % 2 ^ (fmtOf t).eb = 2 ^ (fmtOf t).eb - 1) && x % 2 ^ (fmtOf t).mb != 0) ∧
    (minElem t (2 ^ (tagWidth t - 1)) 0).1 = 2 ^ (tagWidth t - 1) ∧ (minElem t 0 (2 ^ (tagWidth t - 1))).1 = 2 ^ (tagWidth t - 1) ∧
    (maxElem t (2 ^ (tagWidth t - 1)) 0).1 = 0 ∧ (maxElem t 0 (2 ^ (tagWidth t - 1))).1 = 0

/-- 05 R120: floating-point minimum and maximum order −0.0 below +0.0, in every format: of elements, and in the reductions of VRED and KRED and in a
chunk's combination, which take their minimum and maximum by the operators 1 and 2. -/
def Obligations.ZeroOrder : Prop :=
  ∀ t : Nat, isFloatTag t = true →
    (minElem t (2 ^ (tagWidth t - 1)) 0).1 = 2 ^ (tagWidth t - 1) ∧ (minElem t 0 (2 ^ (tagWidth t - 1))).1 = 2 ^ (tagWidth t - 1) ∧
    (maxElem t (2 ^ (tagWidth t - 1)) 0).1 = 0 ∧ (maxElem t 0 (2 ^ (tagWidth t - 1))).1 = 0 ∧
    (opBits 1 t (2 ^ (tagWidth t - 1)) 0).1 = 2 ^ (tagWidth t - 1) ∧ (opBits 1 t 0 (2 ^ (tagWidth t - 1))).1 = 2 ^ (tagWidth t - 1) ∧
    (opBits 2 t (2 ^ (tagWidth t - 1)) 0).1 = 0 ∧ (opBits 2 t 0 (2 ^ (tagWidth t - 1))).1 = 0

/-- 08 R211, R212, R216-R218: comparison, selection and rearrangement. 08 R211: what VCMP leaves in Md: a bit for each active element whose comparison
holds, zeros elsewhere; M0 stays all ones. -/
def Obligations.VectorSelection : Prop :=
  (∀ (s : State) (d a b m c h t : Nat),
    (arithTags (regV s a).tag = true → sameFormat (regV s a) (regV s b) = true →
      (SrcsGood s [rV a, rV b, rM m] → Goes s (compareResult s d a b m c) → exec (.vcmp d a b m c) s = .next (advance s (compareResult s d a b m c)))) ∧
    (sameFormat (regV s a) (regV s b) = true → (SrcsGood s [rV a, rV b, rM m] → Goes s (laneResult s d (tagWidth (regV s a).tag) (tagCount (regV s a).tag) (fun _ => true) (regV s a).tag (regV s a).planes
        (fun e => (if maskBit s m e then vel (regV s a) e else elemAt (tagWidth (regV s a).tag) (vnat (regV s b)) e, 0))) →
          exec (.vsel d a b m) s = .next (advance s (laneResult s d (tagWidth (regV s a).tag) (tagCount (regV s a).tag) (fun _ => true) (regV s a).tag (regV s a).planes
        (fun e => (if maskBit s m e then vel (regV s a) e else elemAt (tagWidth (regV s a).tag) (vnat (regV s b)) e, 0)))))) ∧
    (fullTags (regV s a).tag = true → sameFormat (regV s a) (regV s b) = true → (SrcsGood s [rV a, rV b] → Goes s (setV s d (mkV (vnat (regV s a) % 2 ^ 512 + vnat (regV s b) % 2 ^ 512 * 2 ^ 512) (regV s a).tag (regV s a).planes)) →
      exec (.vpack d a b) s = .next (advance s (setV s d (mkV (vnat (regV s a) % 2 ^ 512 + vnat (regV s b) % 2 ^ 512 * 2 ^ 512) (regV s a).tag (regV s a).planes))))) ∧
    (SrcsGood s [rV a] → Goes s (setV s d (mkV (vnat (regV s a) / 2 ^ (512 * h) % 2 ^ 512) (regV s a).tag (regV s a).planes)) →
      exec (.vunpk d a h) s = .next (advance s (setV s d (mkV (vnat (regV s a) / 2 ^ (512 * h) % 2 ^ 512) (regV s a).tag (regV s a).planes)))) ∧
    (SrcsGood s [rA a, rM m] → Goes s (laneResult s d (tagWidth t) (tagCount t) (maskBit s m) t 0 (fun _ => ((regA s a).toNat % 2 ^ tagWidth t, 0))) →
      exec (.vsplat d a t m) s = .next (advance s (laneResult s d (tagWidth t) (tagCount t) (maskBit s m) t 0 (fun _ => ((regA s a).toNat % 2 ^ tagWidth t, 0))))) ∧
    ((regA s b).toNat < tagCount (regV s a).tag → (SrcsGood s [rV a, rA b] → Goes s s →
      exec (.vext d a b) s = .next (advance s (setA s d (if tagSigned (regV s a).tag then signExt (vel (regV s a) (regA s b).toNat) (tagWidth (regV s a).tag)
        else word (vel (regV s a) (regA s b).toNat)))))) ∧
    (tagCount (regV s a).tag ≤ (regA s b).toNat → (SrcsGood s [rV a, rA b] → Goes s s → exec (.vext d a b) s = .next (advance s (setA s d 0)))) ∧
    ((regA s b).toNat < tagCount (regV s d).tag → (SrcsGood s [rV d, rA a, rA b] → Goes s (laneResult s d (tagWidth (regV s d).tag) (tagCount (regV s d).tag) (fun e => e == (regA s b).toNat) (regV s d).tag (regV s d).planes
        (fun _ => ((regA s a).toNat % 2 ^ tagWidth (regV s d).tag, 0))) →
          exec (.vins d a b) s = .next (advance s (laneResult s d (tagWidth (regV s d).tag) (tagCount (regV s d).tag) (fun e => e == (regA s b).toNat) (regV s d).tag (regV s d).planes
        (fun _ => ((regA s a).toNat % 2 ^ tagWidth (regV s d).tag, 0)))))) ∧
    (tagCount (regV s d).tag ≤ (regA s b).toNat → (SrcsGood s [rV d, rA a, rA b] → Goes s s → exec (.vins d a b) s = .next (advance s s))) ∧
    ((regV s b).tag = 1 ∨ ((regV s b).tag = 10 ∧ tagCount (regV s a).tag ≤ 32) → (SrcsGood s [rV a, rV b, rM m] → Goes s (laneResult s d (tagWidth (regV s a).tag) (tagCount (regV s a).tag) (maskBit s m) (regV s a).tag (regV s a).planes
        (fun e => (if tagCount (regV s a).tag ≤ vel (regV s b) e then 0 else vel (regV s a) (vel (regV s b) e), 0))) →
          exec (.vperm d a b m) s = .next (advance s (laneResult s d (tagWidth (regV s a).tag) (tagCount (regV s a).tag) (maskBit s m) (regV s a).tag (regV s a).planes
        (fun e => (if tagCount (regV s a).tag ≤ vel (regV s b) e then 0 else vel (regV s a) (vel (regV s b) e), 0))))))) ∧
  (∀ (s : State) (d a b m c : Nat),
    (∀ e, e < 128 → (regM (compareResult s d a b m c) d).getLsbD e =
      (d == 0 || (decide (e < tagCount (regV s a).tag) && (compareOf s a b m c e).1))) ∧
    (∀ j, j ≠ d → regM (compareResult s d a b m c) j = regM s j) ∧ (∀ j, regV (compareResult s d a b m c) j = regV s j) ∧
    (∀ j, regA (compareResult s d a b m c) j = regA s j) ∧ (compareResult s d a b m c).mem = s.mem)

/-- 08 R215, R219, R220: conversions, reductions and scans. 05 R135, R137; 08 R219: a tree reduction of integers by addition is the sum of the leaves in
the element width, and one by and, or and exclusive or is that of the leaves. -/
def Obligations.VectorConversion : Prop :=
  (∀ (s : State) (d a r m t o fl v fv : Nat) (vs : List Nat) (seed : Word),
    (fullTags (regV s a).tag = true →
      convertLanes (regV s a).tag (regV s a).planes t r (vnat (regV s a)) (vnat (regV s d)) (maskBit s m) (min (tagCount (regV s a).tag) (tagCount t))
        (List.range (tagCount t)) (cx s).seed = (vs, fl, seed) →
      (SrcsGood s [rV a, rM m] → Goes s (orFlags (modCx (setV s d (mkV (packElems (tagWidth t) vs) t (if t = 8 then 7 else 0))) (fun c => { c with seed := seed })) fl) →
        exec (.vcvt d a r m t) s = .next (advance s (orFlags (modCx (setV s d (mkV (packElems (tagWidth t) vs) t (if t = 8 then 7 else 0))) (fun c => { c with seed := seed })) fl)))) ∧
    (redAccepts o (regV s a).tag = true →
      treeReduce o (redTag o (regV s a).tag) (bitLen (tagCount (regV s a).tag) - 1) ((List.range (tagCount (regV s a).tag)).map (fun e =>
        (if maskBit s m e then redLeaf (regV s a).tag (redTag o (regV s a).tag) (vel (regV s a) e)
          else (identityBits o (redTag o (regV s a).tag), 0)).1)) = (v, fv) →
      (SrcsGood s [rV a, rM m] → Goes s (orFlags (setV s d (mkV v (redTag o (regV s a).tag) 0)) (((List.range (tagCount (regV s a).tag)).map (fun e =>
          if maskBit s m e then redLeaf (regV s a).tag (redTag o (regV s a).tag) (vel (regV s a) e)
            else (identityBits o (redTag o (regV s a).tag), 0))).foldl (fun f p => f ||| p.2) fv)) →
              exec (.vred d a m o) s = .next (advance s (orFlags (setV s d (mkV v (redTag o (regV s a).tag) 0)) (((List.range (tagCount (regV s a).tag)).map (fun e =>
          if maskBit s m e then redLeaf (regV s a).tag (redTag o (regV s a).tag) (vel (regV s a) e)
            else (identityBits o (redTag o (regV s a).tag), 0))).foldl (fun f p => f ||| p.2) fv))))) ∧
    ((signTags (regV s a).tag || ((regV s a).tag == 10 && o != 0)) = true →
      scanLanes o (regV s a).tag (tagWidth (regV s a).tag) (vnat (regV s a)) (maskBit s m) (List.range (tagCount (regV s a).tag))
        (identityBits o (regV s a).tag) = (vs, fl) →
      (SrcsGood s [rV a, rM m] → Goes s (orFlags (setV s d (mkV (packElems (tagWidth (regV s a).tag) vs) (regV s a).tag 0)) fl) →
        exec (.vscan d a m o) s = .next (advance s (orFlags (setV s d (mkV (packElems (tagWidth (regV s a).tag) vs) (regV s a).tag 0)) fl))))) ∧
  (∀ (t n : Nat) (l : List Nat), isFloatTag t = false → l.length = 2 ^ n → (∀ x, x ∈ l → x < 2 ^ tagWidth t) →
    treeReduce 0 t n l = (l.sum % 2 ^ tagWidth t, 0) ∧ treeReduce 4 t n l = (l.foldl (fun a b => a ||| b) 0, 0) ∧
    treeReduce 5 t n l = (l.foldl (fun a b => a ^^^ b) 0, 0) ∧ treeReduce 3 t n l = (l.foldl (fun a b => a &&& b) (2 ^ tagWidth t - 1), 0))

/-- 08 R221-R224: vector loads and stores of consecutive, strided and indexed elements. 08 R225, R226: bit-plane loads and stores at an address whose bits
[3:0] and [9:7] are zero. -/
def Obligations.VectorMemory : Prop :=
  (∀ (s u : State) (d a b m t : Nat) (bs : List (List Byte)),
    (loadResult s ((regA s a).toNat % 8 == 0) (vloadList s m t 128 (fun e => regA s a + word (e * (tagWidth t / 8)))) = some (u, bs) →
      (SrcsGood s [rA a, rM m] → Goes s (setVPart u d (vectorLoaded s u d m t 128 bs) (loadedDwords u m t 128)) →
        exec (.vld d a m t) s = .next (advance s (setVPart u d (vectorLoaded s u d m t 128 bs) (loadedDwords u m t 128))))) ∧
    (loadResult s false (vloadList s m t 128 (fun e => regA s a + word e * regA s b)) = some (u, bs) →
      (SrcsGood s [rA a, rA b, rM m] → Goes s (setVPart u d (vectorLoaded s u d m t 128 bs) (loadedDwords u m t 128)) →
        exec (.vlds d a b m t) s = .next (advance s (setVPart u d (vectorLoaded s u d m t 128 bs) (loadedDwords u m t 128))))) ∧
    ((regV s b).tag = 10 →
      loadResult s false (vloadList s m t 32 (fun e => regA s a + word (elemAt 32 (vnat (regV s b)) e * (tagWidth t / 8)))) = some (u, bs) →
      (SrcsGood s [rA a, rV b, rM m] → Goes s (setVPart u d (vectorLoaded s u d m t 32 bs) (loadedDwords u m t 32)) →
        exec (.vldi d a b m t) s = .next (advance s (setVPart u d (vectorLoaded s u d m t 32 bs) (loadedDwords u m t 32))))) ∧
    (t = 0 ∨ (regV s d).tag = t →
      (storeResult s ((regA s a).toNat % 8 == 0) (vstoreList s d m t 128 (fun e => regA s a + word (e * (tagWidth t / 8)))) = some u →
        (SrcsGood s [rA a, rV d, rM m] → Goes s u → exec (.vst d a m t) s = .next (advance s u))) ∧
      (storeResult s false (vstoreList s d m t 128 (fun e => regA s a + word e * regA s b)) = some u →
        (SrcsGood s [rA a, rA b, rV d, rM m] → Goes s u → exec (.vsts d a b m t) s = .next (advance s u))) ∧
      ((regV s b).tag = 10 →
        storeResult s false (vstoreList s d m t 32 (fun e => regA s a + word (elemAt 32 (vnat (regV s b)) e * (tagWidth t / 8)))) = some u →
        (SrcsGood s [rA a, rV b, rV d, rM m] → Goes s u → exec (.vsti d a b m t) s = .next (advance s u))))) ∧
  (∀ (s u v w : State) (d a m n : Nat) (bs : List (List Byte)) (cs : List Chk),
    bpiAligned (regA s a) = true →
    (loadResult s false ((List.range n).map (fun j => (planeAddr (regA s a) (7 - j), 16))) = some (u, bs) →
      (SrcsGood s [rA a, rM m] → Goes s (laneResult u d 8 128 (maskBit u m) 8 (n - 1) (fun e => (planeElem (bs.map leNat) n e, 0))) →
        exec (.vldp d a m n) s = .next (advance s (laneResult u d 8 128 (maskBit u m) 8 (n - 1) (fun e => (planeElem (bs.map leNat) n e, 0)))))) ∧
    ((regV s d).tag = 8 →
      storeResult s false ((List.range 8).map (fun j => (planeAddr (regA s a) (7 - j), leBytes 16 (planeOf (regV s d) (7 - j))))) = some u →
      (SrcsGood s [rA a, rV d, rM 0] → Goes s u → exec (.vstp d a 0) s = .next (advance s u))) ∧
    ((regV s d).tag = 8 → m ≠ 0 →
      checkMany s (thr s) .write false ((List.range 8).map (fun j => (planeAddr (regA s a) (7 - j), 16))) [] = (v, cs) →
      chkRes v true cs = none → recallMany v ((List.range 8).map (fun j => (planeAddr (regA s a) (7 - j), 16))) cs = (w, none) →
      badMany w false ((List.range 8).map (fun j => (planeAddr (regA s a) (7 - j), 16))) cs = none →
      (SrcsGood s [rA a, rV d, rM m] → Goes s (mergePlanes w (regM w m).toNat
        ((List.range 8).map (fun j => (planeAddr (regA s a) (7 - j), planeOf (regV s d) (7 - j)))) cs) →
          exec (.vstp d a m) s = .next (advance s (mergePlanes w (regM w m).toNat
        ((List.range 8).map (fun j => (planeAddr (regA s a) (7 - j), planeOf (regV s d) (7 - j)))) cs)))))

/-- 08 R227-R232: bitmaps and masks. -/
def Obligations.SparseAndMasks : Prop :=
  ∀ (s : State) (d a b m : Nat),
    (fullTags (regV s a).tag = true → (SrcsGood s [rV a, rM m] → Goes s (setV s d (mkV (indexWords
      (((List.range (tagCount (regV s a).tag)).filter (fun e => maskBit s m e && nonzeroElem (regV s a).tag (vel (regV s a) e))).take 32)) 10 0)) →
        exec (.vnzs d a m) s = .next (advance s (setV s d (mkV (indexWords
      (((List.range (tagCount (regV s a).tag)).filter (fun e => maskBit s m e && nonzeroElem (regV s a).tag (vel (regV s a) e))).take 32)) 10 0))))) ∧
    ((regV s a).tag = 0 →
      (SrcsGood s [rV a, rM m] → Goes s (laneResult s d 32 32 (maskBit s m) 10 0 (fun e => (popBelow (vnat (regV s a)) (32 * e), 0))) →
        exec (.vpopp d a m) s = .next (advance s (laneResult s d 32 32 (maskBit s m) 10 0 (fun e => (popBelow (vnat (regV s a)) (32 * e), 0))))) ∧
      ((regV s b).tag = 0 →
        (SrcsGood s [rV a, rV b, rM m] → Goes s (laneResult s d 32 32 (maskBit s m) 0 0
          (fun e => (elemAt 32 (vnat (regV s a)) e &&& elemAt 32 (vnat (regV s b)) e, 0))) →
            exec (.vband d a b m) s = .next (advance s (laneResult s d 32 32 (maskBit s m) 0 0
          (fun e => (elemAt 32 (vnat (regV s a)) e &&& elemAt 32 (vnat (regV s b)) e, 0))))) ∧
        (SrcsGood s [rV a, rV b, rM m] → Goes s (setV s d (mkV (indexWords
          ((((List.range 1024).filter (fun p => maskBit s m (p / 32) && (vnat (regV s a)).testBit p && (vnat (regV s b)).testBit p)).take 32).map
            (fun p => popBelow (vnat (regV s a)) p + popBelow (vnat (regV s b)) p * 2 ^ 16))) 10 0)) →
              exec (.visect d a b m) s = .next (advance s (setV s d (mkV (indexWords
          ((((List.range 1024).filter (fun p => maskBit s m (p / 32) && (vnat (regV s a)).testBit p && (vnat (regV s b)).testBit p)).take 32).map
            (fun p => popBelow (vnat (regV s a)) p + popBelow (vnat (regV s b)) p * 2 ^ 16))) 10 0)))))) ∧
    (SrcsGood s [rM a] → Goes s (setV s d (mkV (regM s a).toNat 0 0)) → exec (.vmovmMaskToVector d a) s = .next (advance s (setV s d (mkV (regM s a).toNat 0 0)))) ∧
    (SrcsGood s [rV a] → Goes s (setM s d (BitVec.ofNat 128 (vnat (regV s a)))) →
      exec (.vmovmVectorToMask d a) s = .next (advance s (setM s d (BitVec.ofNat 128 (vnat (regV s a)))))) ∧
    (SrcsGood s [rM a, rM b] → Goes s (setM s d (regM s a &&& regM s b)) → exec (.mand d a b) s = .next (advance s (setM s d (regM s a &&& regM s b)))) ∧
    (SrcsGood s [rM a, rM b] → Goes s (setM s d (regM s a ||| regM s b)) → exec (.mor d a b) s = .next (advance s (setM s d (regM s a ||| regM s b)))) ∧
    (SrcsGood s [rM a] → Goes s (setM s d (~~~(regM s a))) → exec (.mnot d a) s = .next (advance s (setM s d (~~~(regM s a))))) ∧
    (SrcsGood s [rM a] → Goes s s → exec (.mpop d a) s = .next (advance s (setA s d (word ((List.range 128).filter (fun e => (regM s a).getLsbD e)).length))))

/-! ## Messages, threads and synchronization (02, 09) -/

/-- 02 R19, R37; 09 R235-R241; 04 R106: the sends, each of which is a release and waits while a store of its thread is not acknowledged, or while the
injector has no room; a bad destination word or selector traps, for XDSP that of DEST or RESID, whichever the decision takes, with COUNT as it was. A
message enters the injector of the core with the number that is next there, and one packet of at most 256 bytes goes out for every 256 bytes, at least
one. XDSP's increment of COUNT is no counter update (log 87, DESIGN CHOICE). A SENDM to a group whose record fails its check resets it, counts it and
sends nothing (18 R413; log 105, DEDUCED). 02 R37, 09 R239: SPAWN zeroes its counter, arms it with the number of points, and gives the sequencer the
points, one message each; without a point the sequencer stays idle. A busy sequencer makes it wait before anything else; a bad range, a counter of
another package and a full trigger table trap. Each send of the sequencer is the next point in order (02 R37). -/
def Obligations.Sends : Prop :=
  (∀ (s u : State) (a b r p h dst key : Nat) (cores : List Nat) (bs : List Byte),
    (unacked s s.cur = none → destCore s (thr s) (regA s a) true = some dst → sendReady s (regA s b) (fld (regA s a) 32 13) = some (u, bs) →
      (SrcsGood s [rA a, rA b, rA (b + 1), rA (b + 2)] → Goes s (inject u (cxCore u) (newMsg dst (cx u).job h (capped u p) (regA u (b + 1)) (regA u (b + 2)) bs 0)) →
        exec (.send a b p h) s = .next (advance s (inject u (cxCore u) (newMsg dst (cx u).job h (capped u p) (regA u (b + 1)) (regA u (b + 2)) bs 0))))) ∧
    (unacked s s.cur = none → destCore s (thr s) (regA s a) false = some dst → hasRoom s (cxCore s) = true → u = releaseWaits s s.cur →
      (SrcsGood s [rA a, rA b, rA (b + 1)] → Goes s (inject u (cxCore u) (newMsg dst (cx u).job h (capped u p) (regA u b) (regA u (b + 1)) [] 0)) →
        exec (.sendi a b p h) s = .next (advance s (inject u (cxCore u) (newMsg dst (cx u).job h (capped u p) (regA u b) (regA u (b + 1)) [] 0))))) ∧
    (unacked s s.cur = none → routeSet s (cxPkg s) (cx s).job r (regA s a) = some cores → sendReady s (regA s b) (fld (regA s a) 32 13) = some (u, bs) →
      (r ≠ 2 ∨ groupFails u (fld (regA s a) 0 16) = false →
        (SrcsGood s [rA a, rA b, rA (b + 1), rA (b + 2)] → Goes s (sendCopies (fun dst => newMsg dst (cx u).job h (capped u p) (regA u (b + 1)) (regA u (b + 2)) bs 0)
            (cores.filter (fun c => inCores u c (cx u).job)) u) →
              exec (.sendm a b r p h) s = .next (advance s (sendCopies (fun dst => newMsg dst (cx u).job h (capped u p) (regA u (b + 1)) (regA u (b + 2)) bs 0)
            (cores.filter (fun c => inCores u c (cx u).job)) u)))) ∧
      (r = 2 → groupFails u (fld (regA s a) 0 16) = true →
        (SrcsGood s [rA a, rA b, rA (b + 1), rA (b + 2)] → Goes s (uncBump (resetGroup u (cxPkg u) (cx u).job (fld (regA s a) 0 16)) (cxPkg u) 2) →
          exec (.sendm a b r p h) s = .next (advance s (uncBump (resetGroup u (cxPkg u) (cx u).job (fld (regA s a) 0 16)) (cxPkg u) 2))))) ∧
    (unacked s s.cur = none → counterObj s (thr s) (regA s a) 32 = .key key → keyPkg key = cxPkg s → (regA s (a + 1)).toNat ≤ 4096 →
      (∀ v : State, sendReady s (regA s b) (regA s (a + 1)).toNat = some (v, bs) → u = drainTo v v.cur (keyCore key) → firstBad u key 32 = none →
        (counterRead u key < counterRead u (key + 8) → destCore u (thr u) (noLen (counterRead u (key + 16))) false = some dst →
          (SrcsGood s [rA a, rA (a + 1), rA b, rA (b + 1), rA (b + 2)] → Goes s (inject (memWrite u key (qword (counterRead u key + 1))) (cxCore u)
              (newMsg dst (cx u).job h (capped u p) (regA u (b + 1)) (regA u (b + 2) &&& ~~~(word (2 ^ 63))) bs 0)) →
                exec (.xdsp a b p h) s = .next (advance s (inject (memWrite u key (qword (counterRead u key + 1))) (cxCore u)
              (newMsg dst (cx u).job h (capped u p) (regA u (b + 1)) (regA u (b + 2) &&& ~~~(word (2 ^ 63))) bs 0))))) ∧
        (counterRead u (key + 8) ≤ counterRead u key → destCore u (thr u) (noLen (counterRead u (key + 24))) false = some dst →
          (SrcsGood s [rA a, rA (a + 1), rA b, rA (b + 1), rA (b + 2)] → Goes s (inject u (cxCore u) (newMsg dst (cx u).job h (capped u p) (regA u (b + 1)) (regA u (b + 2) ||| word (2 ^ 63)) bs 0)) →
            exec (.xdsp a b p h) s = .next (advance s (inject u (cxCore u) (newMsg dst (cx u).job h (capped u p) (regA u (b + 1)) (regA u (b + 2) ||| word (2 ^ 63)) bs 0))))))) ∧
    (∀ v : State, (unacked s s.cur).isSome = true → sendReady s (regA s b) (fld (regA s a) 32 13) = some (v, bs) →
      (destCore s (thr s) (regA s a) true = some dst → Waits (.send a b p h) [rA a, rA b, rA (b + 1), rA (b + 2)] s s (.acks (cxCore s))) ∧
      (routeSet s (cxPkg s) (cx s).job r (regA s a) = some cores → Waits (.sendm a b r p h) [rA a, rA b, rA (b + 1), rA (b + 2)] s s (.acks (cxCore s)))) ∧
    (∀ (v : State) (cs : List Chk), checkMany s (thr s) .read false [(regA s b, fld (regA s a) 32 13)] [] = (v, cs) → chkRes v false cs = none →
      hasRoom v (cxCore v) = false →
      (destCore s (thr s) (regA s a) true = some dst → Waits (.send a b p h) [rA a, rA b, rA (b + 1), rA (b + 2)] s v (.injector (cxCore v))) ∧
      (routeSet s (cxPkg s) (cx s).job r (regA s a) = some cores → Waits (.sendm a b r p h) [rA a, rA b, rA (b + 1), rA (b + 2)] s v (.injector (cxCore v)))) ∧
    (destCore s (thr s) (regA s a) false = some dst →
      (hasRoom s (cxCore s) = false → Waits (.sendi a b p h) [rA a, rA b, rA (b + 1)] s s (.injector (cxCore s))) ∧
      (hasRoom s (cxCore s) = true → (unacked s s.cur).isSome = true → Waits (.sendi a b p h) [rA a, rA b, rA (b + 1)] s s (.acks (cxCore s)))) ∧
    (SrcsGood s [rA a, rA b, rA (b + 1), rA (b + 2)] →
      (destCore s (thr s) (regA s a) true = none → exec (.send a b p h) s = .next (takeTrap s (.send a b p h) cMsgDest 0 0)) ∧
      (routeSet s (cxPkg s) (cx s).job r (regA s a) = none → exec (.sendm a b r p h) s = .next (takeTrap s (.sendm a b r p h) cMsgDest 0 0))) ∧
    (SrcsGood s [rA a, rA b, rA (b + 1)] → destCore s (thr s) (regA s a) false = none →
      exec (.sendi a b p h) s = .next (takeTrap s (.sendi a b p h) cMsgDest 0 0)) ∧
    (SrcsGood s [rA a, rA (a + 1), rA b, rA (b + 1), rA (b + 2)] → counterObj s (thr s) (regA s a) 32 = .key key → keyPkg key = cxPkg s →
      (4096 < (regA s (a + 1)).toNat → exec (.xdsp a b p h) s = .next (takeTrap s (.xdsp a b p h) cMsgDest 0 0)) ∧
      ((regA s (a + 1)).toNat ≤ 4096 →
        (∀ (v : State) (cs : List Chk), checkMany s (thr s) .read false [(regA s b, (regA s (a + 1)).toNat)] [] = (v, cs) → chkRes v false cs = none →
          hasRoom v (cxCore v) = false → Waits (.xdsp a b p h) [rA a, rA (a + 1), rA b, rA (b + 1), rA (b + 2)] s v (.injector (cxCore v))) ∧
        (∀ (v : State) (x : Word), sendReady s (regA s b) (regA s (a + 1)).toNat = some (v, bs) → u = drainTo v v.cur (keyCore key) →
          firstBad u key 32 = none →
          x = noLen (counterRead u (if counterRead u key < counterRead u (key + 8) then key + 16 else key + 24)) →
          (destCore u (thr u) x false = none → exec (.xdsp a b p h) s = .next (takeTrap u (.xdsp a b p h) cMsgDest 0 0)) ∧
          (destCore u (thr u) x false = some dst → (unacked s s.cur).isSome = true → Waits (.xdsp a b p h) [rA a, rA (a + 1), rA b, rA (b + 1), rA (b + 2)] s s (.acks (cxCore s)))))) ∧
    (∀ (w : Who) (x : Word) (len : Bool), destCore s w x len = none ↔
      (fld x 13 3 ≠ 0 ∨ fld x 28 4 ≠ 0 ∨ fld x 45 19 ≠ 0 ∨ 23 < fld x 0 5 ∨ (len = true ∧ 4096 < fld x 32 13) ∨ (len = false ∧ fld x 32 13 ≠ 0) ∨
        inTorus s (corePkg w.core) (fld x 16 12) = false ∨
        (fld x 16 12 = corePkg w.core ∧ inCores s (fld x 16 12 * 8192 + fld x 0 13) w.job = false))) ∧
    (∀ (c : Nat) (m : Msg), (inject s c m).mem = s.mem ∧
      (inject s c m).net = s.net ++ (List.range (max 1 ((m.payload.length + 255) / 256))).map (fun i =>
        { src := c, num := (getCore s c).nextNum, ofs := 256 * i, size := min 256 (m.payload.length - 256 * i) }) ∧
      (getCore (inject s c m) c).nextNum = ((getCore s c).nextNum + 1) % 65536)) ∧
  ((∀ (s : State) (c : Nat) (q : SpawnSeq), (getCore s c).spawn = some q → hasRoom s c = true → quietJob s (corePkg c) q.job = false →
    exec (.spawnSequencerSend c) s = .next (modCore (inject s c (newMsg (corePkg c * 8192 + denseCore (q.c0 + q.next % q.count)) q.job q.handler q.prio q.arg0
        (word (q.next % q.n0 + q.next / q.n0 % q.n1 * 2 ^ 21 + q.next / (q.n0 * q.n1) * 2 ^ 42)) [] (q.ctr + 1))) c
      (fun w => { w with spawn := if q.next + 1 < q.n0 * q.n1 * q.n2 then some { q with next := q.next + 1 } else none }))) ∧
  (∀ (s u v : State) (a b p h key : Nat),
    spawnRangeOk s (cxPkg s) (cx s).job (regA s a) (regA s (a + 1)) = true → counterObj s (thr s) (regA s (b + 1)) 8 = .key key →
    keyPkg key = cxPkg s → trigFull s key = false → (getCore s (cxCore s)).spawn = none → unacked s s.cur = none →
    u = releaseWaits s s.cur →
    v = armTrig (counterSet u key 0) { key := key, target := word (spawnPoints s a), job := (cx u).job, act := .empty } →
    (spawnPoints s a = 0 → (SrcsGood s [rA a, rA (a + 1), rA b, rA (b + 1)] → Goes s v → exec (.spawn a b p h) s = .next (advance s v))) ∧
    (spawnPoints s a ≠ 0 → (SrcsGood s [rA a, rA (a + 1), rA b, rA (b + 1)] → Goes s (modCore v (cxCore s) (fun w => { w with spawn := some (spawnOf s v a b p h key) })) →
      exec (.spawn a b p h) s = .next (advance s (modCore v (cxCore s) (fun w => { w with spawn := some (spawnOf s v a b p h key) })))))) ∧
  (∀ (s : State) (a b p h key : Nat), SrcsGood s [rA a, rA (a + 1), rA b, rA (b + 1)] →
    ((getCore s (cxCore s)).spawn ≠ none → Waits (.spawn a b p h) [rA a, rA (a + 1), rA b, rA (b + 1)] s s (.spawner (cxCore s))) ∧
    ((getCore s (cxCore s)).spawn = none →
      (spawnRangeOk s (cxPkg s) (cx s).job (regA s a) (regA s (a + 1)) = false →
        exec (.spawn a b p h) s = .next (takeTrap s (.spawn a b p h) cSpawn 0 0)) ∧
      (spawnRangeOk s (cxPkg s) (cx s).job (regA s a) (regA s (a + 1)) = true → counterObj s (thr s) (regA s (b + 1)) 8 = .key key →
        (keyPkg key ≠ cxPkg s → exec (.spawn a b p h) s = .next (takeTrap s (.spawn a b p h) cCounter (regA s (b + 1)) 0)) ∧
        (keyPkg key = cxPkg s →
          (trigFull s key = true → exec (.spawn a b p h) s = .next (takeTrap s (.spawn a b p h) cTrigger 0 0)) ∧
          (trigFull s key = false → (unacked s s.cur).isSome = true → Waits (.spawn a b p h) [rA a, rA (a + 1), rA b, rA (b + 1)] s s (.acks (cxCore s))))))))

/-- 02 R25-R31; 09 R242-R244: how a thread ends, leaves its context, and is resumed. A thread that ends, or leaves with its frame written, leaves its
context dormant. A YIELD that meets a register that cannot be read is a trap (18 R409), recorded with the PC of the YIELD and the loop levels as they
were before it: the model's choice (log 70, DESIGN CHOICE). RESUME takes a record once; that of a fault-ring entry frees the entry, and one without a
frame ends what its HOLD names. -/
def Obligations.ThreadsLeave : Prop :=
  ∀ (s u w : State) (a b d key : Nat) (addr : Word),
    (unacked s s.cur = none → exec .endThread s = .next (retireThread s s.cur) ∧ (getCtx (retireThread s s.cur) s.cur).status = .dormant) ∧
    (SrcsGood s [] → Goes s (modCx s (fun c => { c with hb := 0, hbMark := s.cycle })) →
      exec .hbeat s = .next (advance s (modCx s (fun c => { c with hb := 0, hbMark := s.cycle })))) ∧
    (poolFull s (coreGrove (cxCore s)) = false → badTarget (nextPc s s) = false → unacked s s.cur = none →
      (spill (releaseWaits s s.cur) (cxCore s) (yieldFrame s) = (u, .at addr) →
        exec .yield s = .next (dormant (poolPush u (coreGrove (cxCore s))
          { r := suspRec (loopEnd (cx s) (cx s).pc ((cx s).pc + 4)).1 (nextPc s s) addr, age := 0,
            handler := (loopEnd (cx s) (cx s).pc ((cx s).pc + 4)).1.handler }) u.cur)) ∧
      (spill (releaseWaits s s.cur) (cxCore s) (yieldFrame s) = (u, .none) → (SrcsGood s [] → Goes s u → exec .yield s = .next (advance s u))) ∧
      (∀ x : Word, spill (releaseWaits s s.cur) (cxCore s) (yieldFrame s) = (u, .corrupt addr x) →
        exec .yield s = .next (spillFault u (encode .yield) cUncorrectable x true addr))) ∧
    (poolFull s (coreGrove (cxCore s)) = true → Waits .yield [] s s (.pool (coreGrove (cxCore s)))) ∧
    (∀ r : Rec, (regA s a).toNat % 64 = 0 → fld (regA s b) 32 32 = 0 → badTarget (nextPc s s) = false → SrcsGood s [rA a, rA b, rA 30, rA 1, rA 2, rA 3, rA 4, rA 5, rA 6] →
      unacked s s.cur = none →
      r = bareRec (cx (releaseWaits s s.cur)) (nextPc s s) (regA s 30) (regA s b != 0) →
      (regA s b = 0 → storeResult (releaseWaits s s.cur) false [(regA s a, (recBytes r).take 8), (regA s a + 8, (recBytes r).drop 8), (regA s a, (recBytes r).take 8)] = some u →
        exec (.suspend a b) s =
          .next (dormant (endHold (releaseWaits u u.cur) (thr (releaseWaits u u.cur)) (loopEnd (cx s) (cx s).pc ((cx s).pc + 4)).1.hold)
            (releaseWaits u u.cur).cur)) ∧
      (regA s b ≠ 0 → (regA s 30).toNat % 256 = 0 →
        (List.range 32).any (fun i => (regA s b).getLsbD i && regBad (cx s) (rV i)) = false →
        storeResult (releaseWaits s s.cur) false ((regA s a, (recBytes r).take 8) :: liveParts (releaseWaits s s.cur) (regA s b).toNat (regA s 30) ++
          [(regA s a + 8, (recBytes r).drop 8), (regA s a, (recBytes r).take 8)]) = some u →
        exec (.suspend a b) s =
          .next (dormant (endHold (releaseWaits u u.cur) (thr (releaseWaits u u.cur)) (loopEnd (cx s) (cx s).pc ((cx s).pc + 4)).1.hold)
            (releaseWaits u u.cur).cur))) ∧
    (fld (regA s b) 13 51 = 0 → fld (regA s b) 0 5 ≤ 23 → inCores s (cxPkg s * 8192 + fld (regA s b) 0 13) (cx s).job = true → RecordHere s (regA s a) .both key u →
      w = dropL1 u (cxCore s) key 64 →
      (bfld (homeRead u key 64) 0 8 = 0 → (SrcsGood s [rA a, rA b] → Goes s (setA w d 0) → exec (.resume d a b) s = .next (advance s (setA w d 0)))) ∧
      (bfld (homeRead u key 64) 0 8 ≠ 0 → (recOf (homeRead u key 64)).job = (cx w).job →
        ∀ (v : State) (hold : Option Word), HoldHere w (regA s a) key (recOf (homeRead u key 64)) v hold →
          (poolFull v (coreGrove (cxPkg s * 8192 + fld (regA s b) 0 13)) = true →
            Waits (.resume d a b) [rA a, rA b] s v (.pool (coreGrove (cxPkg s * 8192 + fld (regA s b) 0 13)))) ∧
          (poolFull v (coreGrove (cxPkg s * 8192 + fld (regA s b) 0 13)) = false →
            (SrcsGood s [rA a, rA b] → Goes s (setA (poolPush (recordTaken v (cxPkg s) (cx w).job (regA s a) key hold) (coreGrove (cxPkg s * 8192 + fld (regA s b) 0 13))
                { r := recOf (homeRead u key 64), age := 0, handler := carriedOf v (cxPkg s) (cx w).job (regA s a) }) d 1) →
                  exec (.resume d a b) s = .next (advance s (setA (poolPush (recordTaken v (cxPkg s) (cx w).job (regA s a) key hold) (coreGrove (cxPkg s * 8192 + fld (regA s b) 0 13))
                { r := recOf (homeRead u key 64), age := 0, handler := carriedOf v (cxPkg s) (cx w).job (regA s a) }) d 1))))))

/-- 02 R40-R44; 09 R255, R256: fork, join and the deque, which holds 64 records: on a full deque a FORK's record goes to the tail of the grove's ready
pool (R42). -/
def Obligations.ForkJoin : Prop :=
  ∀ (s u : State) (a b d key : Nat) (bs : List Byte) (q : QRec) (rest : List QRec),
    (unacked s s.cur = none → badTarget (regA s a) = false → (regA s a).toNat % 4 = 0 → counterObj s (thr s) (regA s b) 8 = .key key → firstBad s key 8 = none →
      pushWaits s (cxCore s) = false → u = releaseWaits s s.cur →
      (SrcsGood s [rA a, rA b, rA 1, rA 2, rA 3, rA 4, rA 5, rA 6, rA 30] → Goes s (dequePush (counterAdd u key 1) (cxCore s) (plainRec (bareRec (cx u) (regA s a) (regA u 30) false))).1 →
        exec (.fork a b) s = .next (advance s (dequePush (counterAdd u key 1) (cxCore s) (plainRec (bareRec (cx u) (regA s a) (regA u 30) false))).1))) ∧
    (counterObj s (thr s) (regA s a) 8 = .key key → firstBad s key 8 = none → unacked s s.cur = none → u = releaseWaits s s.cur →
      (counterRead u key = 1 →
        (SrcsGood s [rA a] → Goes s (acquire (counterSet u key (counterRead u key - 1)) (cxCore (counterSet u key (counterRead u key - 1)))) →
          exec (.join a) s = .next (advance s (acquire (counterSet u key (counterRead u key - 1)) (cxCore (counterSet u key (counterRead u key - 1))))))) ∧
      (counterRead u key ≠ 0 → counterRead u key ≠ 1 → SrcsGood s [rA a] →
        exec (.join a) s = .next (retireThread (counterSet u key (counterRead u key - 1)) (counterSet u key (counterRead u key - 1)).cur)) ∧
      (counterRead u key = 0 → SrcsGood s [rA a] → exec (.join a) s = .next (takeTrap u (.join a) cJoin 0 0))) ∧
    ((regA s a).toNat % 64 = 0 → loadResult s false [(regA s a, 64)] = some (u, [bs]) → (recOf bs).job = (cx u).job → pushWaits u (cxCore s) = false →
      (SrcsGood s [rA a] → Goes s (setA (dequePush u (cxCore s) (plainRec { recOf bs with prio := max (recOf bs).prio (jobD u (cxPkg s) (cx u).job).cap })).1 d
          (if (getCore u (cxCore s)).deque.length < 64 then 0 else 1)) →
            exec (.dqpush d a) s = .next (advance s (setA (dequePush u (cxCore s) (plainRec { recOf bs with prio := max (recOf bs).prio (jobD u (cxPkg s) (cx u).job).cap })).1 d
          (if (getCore u (cxCore s)).deque.length < 64 then 0 else 1))))) ∧
    ((regA s a).toNat % 64 = 0 → (getCore s (cxCore s)).deque = q :: rest → storeResult s false [(regA s a, recBytes q.r)] = some u →
      (SrcsGood s [rA a] → Goes s (setA (modCore u (cxCore s) (fun w => { w with deque := w.deque.drop 1 })) d 1) →
        exec (.dqpop d a) s = .next (advance s (setA (modCore u (cxCore s) (fun w => { w with deque := w.deque.drop 1 })) d 1)))) ∧
    (∀ cs, (regA s a).toNat % 64 = 0 → (getCore s (cxCore s)).deque = [] →
      checkMany s (thr s) .write false [(regA s a, 64)] [] = (u, cs) → chkRes u true cs = none →
      (SrcsGood s [rA a] → Goes s (setA u d 0) → exec (.dqpop d a) s = .next (advance s (setA u d 0)))) ∧
    (∀ (c : Nat),
      ((getCore s c).deque.length < 64 → dequePush s c q = (modCore s c (fun w => { w with deque := q :: w.deque }), true)) ∧
      (64 ≤ (getCore s c).deque.length → dequePush s c q = (poolPush s (coreGrove c) q, false) ∧
        ((getGrove s (coreGrove c)).ring = [] → (getGrove s (coreGrove c)).pool.length < 512 →
          (getGrove (poolPush s (coreGrove c) q) (coreGrove c)).pool = (getGrove s (coreGrove c)).pool ++ [q])))

/-- 02 R54-R56; 09 R245, R246: counters. An update sets the value, releases the records parked on the counter into the ready pool of its grove, and
disarms and fires the counter's trigger when the value is at or above its target, and not below it; arming tests the same at once. A trigger that
fires is gone, so it fires once; it does nothing, sends its message, or posts its operation. -/
def Obligations.Counters : Prop :=
  ∀ (s u : State) (a b d key : Nat) (act : TrigAct),
    (counterObj s (thr s) (regA s a) 8 = .key key → u = drainTo s s.cur (keyCore key) →
      (SrcsGood s [rA a, rA b] → Goes s (counterSet u key (regA u b)) → exec (.cnti a b) s = .next (advance s (counterSet u key (regA u b))))) ∧
    (CounterHere s (regA s a) key u →
      (SrcsGood s [rA a, rA b] → Goes s (setA (counterSet u key (counterRead u key + regA u b)) d (counterRead u key)) →
        exec (.cnta d a b) s = .next (advance s (setA (counterSet u key (counterRead u key + regA u b)) d (counterRead u key)))) ∧
      ((regA u b).toNat ≤ (counterRead u key).toNat →
        (SrcsGood s [rA a, rA b] → Goes s (setA (acquire u (cxCore u)) d (counterRead u key)) →
          exec (.cntw d a b) s = .next (advance s (setA (acquire u (cxCore u)) d (counterRead u key))))) ∧
      ((counterRead u key).toNat < (regA u b).toNat → Waits (.cntw d a b) [rA a, rA b] s u (.counter key))) ∧
    (unacked s s.cur = none → CounterHere (releaseWaits s s.cur) (regA (releaseWaits s s.cur) a) key u →
      (SrcsGood s [rA a, rA b] → Goes s (setA (counterSet u key (counterRead u key + regA u b)) d (counterRead u key)) →
        exec (.cntaRel d a b) s = .next (advance s (setA (counterSet u key (counterRead u key + regA u b)) d (counterRead u key))))) ∧
    (counterObj s (thr s) (regA s a) 8 = .key key → trigAction s key (regA s d) (regA s (d + 1)) (regA s (d + 2)) = some act → trigFull s key = false →
      firstBad s key 8 = none → unacked s s.cur = none →
      (SrcsGood s [rA a, rA b, rA d, rA (d + 1), rA (d + 2)] → Goes s (armTrig (releaseWaits s s.cur) { key := key, target := regA s b, job := (cx s).job, act := act }) →
        exec (.cntt d a b) s = .next (advance s (armTrig (releaseWaits s s.cur) { key := key, target := regA s b, job := (cx s).job, act := act })))) ∧
    (∀ (v : Word) (w : State) (g : Nat), w = updated s key v → g = coreGrove (keyCore key) →
      ((trigsOn s key).head? = none → counterSet s key v = w) ∧
      (∀ t, (trigsOn s key).head? = some t →
        (t.target ≤ counterRead w key → counterSet s key v = fire (disarmed w key) (keyCore key) t) ∧
        (counterRead w key < t.target → counterSet s key v = w)) ∧
      trigsOn w key = trigsOn s key ∧ trigsOn (disarmed w key) key = [] ∧ parkedOn w key = [] ∧
      ((getGrove s g).ring = [] → (getGrove s g).pool.length + (parkedOn s key).length ≤ 512 →
        counterRead w key = v ∧ (getGrove w g).pool = (getGrove s g).pool ++ (parkedOn s key).map (fun p => p.qrec))) ∧
    (∀ t : Trig,
      (t.target ≤ counterRead s t.key → armTrig s t = fire (disarmed (armed s t) t.key) (keyCore t.key) t) ∧
      (counterRead s t.key < t.target → armTrig s t = armed s t) ∧ trigsOn (armed s t) t.key = [t] ∧ trigsOn (disarmed (armed s t) t.key) t.key = []) ∧
    (∀ (core : Nat) (t : Trig),
      (t.act = .empty → fire s core t = s) ∧
      (∀ dst handler prio a0 a1, t.act = .send dst handler prio a0 a1 →
        fire s core t = injectLater s core { newMsg (corePkg core * 8192 + dst) t.job handler prio a0 a1 [] 0 with trig := true }) ∧
      (∀ ctl pa pb, t.act = .post ctl pa pb → fire s core t = sawEnter s (postOp core t.job ctl pa pb))) ∧
    (∀ v : Word, (getCore s (keyCore key)).trigs = [] → (getCore s (keyCore key)).park = [] → s.bad = [] →
      (counterSet s key v).mem = (memWrite s key (leBytes 8 v.toNat)).mem ∧ counterRead (counterSet s key v) key = v ∧
      (∀ k, k < key ∨ key + 8 ≤ k → cellRead (counterSet s key v).mem k = cellRead s.mem k))

/-- 02 R57-R61; 09 R247, R248: barriers, and the completion of a phase. A BARWAIT that finds its phase over sets BST; one that has waited for the phase
does not (02 R59). 02 R57: a barrier's fields after a write: the phase completes when every expected arrival is there and no delivery is outstanding;
then the phase number rises and the arrivals return to 0. No byte outside the barrier changes. -/
def Obligations.Barriers : Prop :=
  (∀ (s u : State) (a b d key : Nat) (o : Barrier),
    BarrierHere s (regA s a) key o u →
      (fld (regA s b) 16 48 = 0 →
        (SrcsGood s [rA a, rA b] → Goes s (writeBarrier u key { o with e := fld (regA u b) 0 16, a := 0, t := 0 }) →
          exec (.barinit a b) s = .next (advance s (writeBarrier u key { o with e := fld (regA u b) 0 16, a := 0, t := 0 }))) ∧
        (phaseLag o.c (fld (regA u b) 0 16) = 0 → (SrcsGood s [rA a, rA b] → Goes s (acquire u (cxCore u)) →
          exec (.barwait a b) s = .next (advance s (acquire u (cxCore u))))) ∧
        (1 ≤ phaseLag o.c (fld (regA u b) 0 16) → phaseLag o.c (fld (regA u b) 0 16) < 32768 →
          (SrcsGood s [rA a, rA b] → Goes s (if barWaited u key = true then acquire u (cxCore u) else setStale (acquire u (cxCore u))) →
            exec (.barwait a b) s = .next (advance s (if barWaited u key = true then acquire u (cxCore u) else setStale (acquire u (cxCore u)))))) ∧
        (32768 ≤ phaseLag o.c (fld (regA u b) 0 16) → Waits (.barwait a b) [rA a, rA b] s u (.barrier key))) ∧
      (o.a < 65535 → unacked s s.cur = none → (SrcsGood s [rA a] → Goes s (setA (writeBarrier (releaseWaits u u.cur) key { o with a := o.a + 1 }) d (word o.c)) →
        exec (.bararv d a) s = .next (advance s (setA (writeBarrier (releaseWaits u u.cur) key { o with a := o.a + 1 }) d (word o.c))))) ∧
      (o.e ≠ 0 → (SrcsGood s [rA a] → Goes s (writeBarrier u key { o with e := o.e - 1 }) →
        exec (.bardrop a) s = .next (advance s (writeBarrier u key { o with e := o.e - 1 })))) ∧
      (o.e = 0 → (SrcsGood s [rA a] → Goes s u → exec (.bardrop a) s = .next (advance s u))) ∧
      (fld (regA s b) 40 24 = 0 →
        (SrcsGood s [rA a, rA b] → Goes s (writeBarrier u key { o with t := (o.t + (regA u b).toNat) % 2 ^ 40 }) →
          exec (.bartx a b) s = .next (advance s (writeBarrier u key { o with t := (o.t + (regA u b).toNat) % 2 ^ 40 }))))) ∧
  (∀ (s : State) (key : Nat) (o : Barrier), o.c < 65536 → o.a < 65536 → o.e < 65536 → o.t < 2 ^ 40 →
    readBarrier (writeBarrier s key o) key =
      some (if o.e ≤ o.a ∧ o.e ≠ 0 ∧ o.t = 0 then { o with c := (o.c + 1) % 65536, a := 0 } else o) ∧
    (∀ k, k < key ∨ key + 16 ≤ k → cellRead (writeBarrier s key o).mem k = cellRead s.mem k))

/-- 09 R257, R258: rings: reserving, publishing, taking and freeing a slot; a position or a slot state that cannot be read traps (18 R409). -/
def Obligations.Rings : Prop :=
  ∀ (s u : State) (a b d i : Nat) (r : Ring), RingHere s (regA s a) r u →
    ((ringRsv u r - ringFreed u r).toNat ≤ r.ns → (SrcsGood s [rA a] → Goes s (setA (setDword u (r.key + 8) (ringRsv u r + 1)) d (regA u a + word (r.slotOfs (slotOf r (ringRsv u r))))) →
      exec (.rget d a) s = .next (advance s (setA (setDword u (r.key + 8) (ringRsv u r + 1)) d (regA u a + word (r.slotOfs (slotOf r (ringRsv u r)))))))) ∧
    (r.ns < (ringRsv u r - ringFreed u r).toNat → (SrcsGood s [rA a] → Goes s (setA u d 0) → exec (.rget d a) s = .next (advance s (setA u d 0)))) ∧
    (slotIndex u r (regA u b) = some i → slotReserved u r i = true → (putReads u r i).findSome? (fun j => firstBad u (r.stateKey j) 2) = none →
      unacked s s.cur = none → (SrcsGood s [rA a, rA b] → Goes s (ringPut (releaseWaits u u.cur) r i) →
        exec (.rput a b) s = .next (advance s (ringPut (releaseWaits u u.cur) r i)))) ∧
    (consumerOk r (regA u b) = true → firstBad u (r.posKey (regA u b).toNat) 8 = none →
      (counterRead u (r.posKey (regA u b).toNat) < ringFill u r → firstInLine u (.ring r.key (regA u b).toNat) = true →
        ∀ v : State, v = setDword u (r.posKey (regA u b).toNat) (counterRead u (r.posKey (regA u b).toNat) + 1) →
          (SrcsGood s [rA a, rA b] → Goes s (setA (acquire v (cxCore u)) d (regA u a + word (r.slotOfs (slotOf r (counterRead u (r.posKey (regA u b).toNat)))))) →
            exec (.rtake d a b) s = .next (advance s (setA (acquire v (cxCore u)) d (regA u a + word (r.slotOfs (slotOf r (counterRead u (r.posKey (regA u b).toNat))))))))) ∧
      (ringFill u r ≤ counterRead u (r.posKey (regA u b).toNat) → Waits (.rtake d a b) [rA a, rA b] s u (.ring r.key (regA u b).toNat))) ∧
    (consumerOk r (regA u d) = true → slotIndex u r (regA u b) = some i → (slotState u r i).testBit (regA u d).toNat = true →
      (freeReads u r i (regA u d).toNat).findSome? (fun j => firstBad u (r.stateKey j) 2) = none →
      (SrcsGood s [rA a, rA b, rA d] → Goes s (ringFree' u r i (regA u d).toNat) → exec (.rfree d a b) s = .next (advance s (ringFree' u r i (regA u d).toNat)))) ∧
    (∀ x : Nat, consumerOk r (regA u b) = true → firstBad u (r.posKey (regA u b).toNat) 8 = some x → SrcsGood s [rA a, rA b] →
      exec (.rtake d a b) s = .next (takeTrap u (.rtake d a b) cUncorrectable
        (regA u a + word (0x40 + 8 * (regA u b).toNat) + word (x - r.posKey (regA u b).toNat)) 0)) ∧
    (∀ x : Nat, slotIndex u r (regA u b) = some i → slotReserved u r i = true → (putReads u r i).findSome? (fun j => firstBad u (r.stateKey j) 2) = some x →
      SrcsGood s [rA a, rA b] → exec (.rput a b) s = .next (takeTrap u (.rput a b) cUncorrectable (regA u a + word (x - r.key)) 0))

/-- 09 R249, R250: joining, leaving and reading a group; a new member takes the lowest rank that no member holds. -/
def Obligations.Groups : Prop :=
  ∀ (s u : State) (d b n pkg job core : Nat) (g : Group) (m : Member),
    GroupOk s (regA s b) → n = (regA s b).toNat → pkg = cxPkg s → job = (cx s).job → core = cxCore s →
    (getGroup s pkg job n = none → (getGrove s (groupSlice pkg job n)).groups.length < 32 →
      (SrcsGood s [rA b] → Goes s (setA (settleGroup s pkg job n
        { members := [{ core := core, rank := 0, joins := 1, arr := 0 }], phase := 0, dones := [], noted := [] }) d 0) →
          exec (.gjoin d b) s = .next (advance s (setA (settleGroup s pkg job n
        { members := [{ core := core, rank := 0, joins := 1, arr := 0 }], phase := 0, dones := [], noted := [] }) d 0)))) ∧
    (getGroup s pkg job n = some g → memberOf g core = some m → m.joins < 65535 →
      (SrcsGood s [rA b] → Goes s (setA (settleGroup s pkg job n (withMember g core (fun x => { x with joins := x.joins + 1 }))) d (word m.rank)) →
        exec (.gjoin d b) s = .next (advance s (setA (settleGroup s pkg job n (withMember g core (fun x => { x with joins := x.joins + 1 }))) d (word m.rank))))) ∧
    (getGroup s pkg job n = some g → memberOf g core = none →
      (SrcsGood s [rA b] → Goes s (setA (settleGroup s pkg job n { g with members := g.members ++ [{ core := core, rank := lowestRank g.members, joins := 1, arr := 0 }] }) d
          (word (lowestRank g.members))) →
            exec (.gjoin d b) s = .next (advance s (setA (settleGroup s pkg job n { g with members := g.members ++ [{ core := core, rank := lowestRank g.members, joins := 1, arr := 0 }] }) d
          (word (lowestRank g.members)))))) ∧
    (unacked s s.cur = none → u = releaseWaits s s.cur →
      (getGroup u pkg job n = none → (SrcsGood s [rA b] → Goes s (setA u d (BitVec.allOnes 64)) →
        exec (.gleave d b) s = .next (advance s (setA u d (BitVec.allOnes 64))))) ∧
      (getGroup u pkg job n = some g → memberOf g core = none → (SrcsGood s [rA b] → Goes s (setA u d (BitVec.allOnes 64)) →
        exec (.gleave d b) s = .next (advance s (setA u d (BitVec.allOnes 64))))) ∧
      (getGroup u pkg job n = some g → memberOf g core = some m → 1 < m.joins →
        (SrcsGood s [rA b] → Goes s (setA (settleGroup u pkg job n (withMember g core (fun x => { x with joins := x.joins - 1 }))) d (word (m.joins - 1))) →
          exec (.gleave d b) s = .next (advance s (setA (settleGroup u pkg job n (withMember g core (fun x => { x with joins := x.joins - 1 }))) d (word (m.joins - 1)))))) ∧
      (getGroup u pkg job n = some g → memberOf g core = some m → m.joins ≤ 1 →
        (SrcsGood s [rA b] → Goes s (setA (settleGroup u pkg job n { g with members := g.members.filter (fun x => x.core != core) }) d 0) →
          exec (.gleave d b) s = .next (advance s (setA (settleGroup u pkg job n { g with members := g.members.filter (fun x => x.core != core) }) d 0))))) ∧
    (getGroup s pkg job n = none → (SrcsGood s [rA b] → Goes s s → exec (.ginfo d b) s = .next (advance s (setA s d 0)))) ∧
    (getGroup s pkg job n = some g → memberOf g core = some m →
      (SrcsGood s [rA b] → Goes s s →
        exec (.ginfo d b) s = .next (advance s (setA s d (word (m.rank + g.members.length * 2 ^ 16 + m.joins * 2 ^ 32 + g.phase * 2 ^ 48)))))) ∧
    (getGroup s pkg job n = some g → memberOf g core = none →
      (SrcsGood s [rA b] → Goes s s →
        exec (.ginfo d b) s = .next (advance s (setA s d (word (0xFFFF + g.members.length * 2 ^ 16 + 0 * 2 ^ 32 + g.phase * 2 ^ 48)))))) ∧
    (∀ l : List Member, l.length < 6144 → (∀ x ∈ l, x.rank ≠ lowestRank l) ∧ (∀ r, r < lowestRank l → ∃ x ∈ l, x.rank = r))

/-- 04 R112; 09 R251-R253; 18 R413: a group load reads its members one at a time and completes with the last one; the group barrier: an arrival, its wait,
which ends once the phase is complete and the core's stagger has passed, and the release of parked records; and the trap of a thread whose group's
record failed while it waited. A GBAR that waits keeps the group number that it issued with, also when Ad is Ab (R234). The loss stays with the thread
that waits, also when the group is made anew (log 36, DEDUCED). -/
def Obligations.GroupLoadsAndBarrier : Prop :=
  ∀ (s u v w : State) (d a b t o n pkg job core : Nat) (g g' : Group) (m : Member),
    pkg = cxPkg s → job = (cx s).job → core = cxCore s →
    (addrClass (regA s a) = .group → fld (regA s a) 33 19 = 0 → fld (regA s a) 0 17 % gldSize t = 0 →
      s.bad.contains (markOf pkg job (fld (regA s a) 17 16)) = false → u = drainWith (fun p => p.ctx == s.cur && p.remote) s →
      (∀ (full : Bool) (x : GroupLoad),
        readMembers u job (gldSize t) (groupStart s (fld (regA s a) 17 16) (fld (regA s a) 0 17) full) = (v, x) →
        (x.left = [] → (SrcsGood s [rA a] → Goes s (gldDone v d t o x) →
          exec (if full then .gldf d a t o else .gld d a t o) s = .next (advance s (gldDone v d t o x)))) ∧
        (x.left ≠ [] → Waits (if full then .gldf d a t o else .gld d a t o) [rA a] s
          (modCx v (fun c => { c with gload := some x })) (.groupLoad pkg job (fld (regA s a) 17 16))))) ∧
    (GroupOk s (gbarNum s b) → n = (gbarNum s b).toNat → (cx s).lost = false → (regA s d).getLsbD 63 = false → getGroup s pkg job n = some g →
      memberOf g core = some m → unacked s s.cur = none →
      u = releaseWaits s s.cur → v = settleGroup u pkg job n (withMember g core (fun x => { x with arr := x.arr + 1 })) →
      w = setA v d (word ((g.phase + m.arr) % 65536 + 2 ^ 63)) → getGroup w pkg job n = some g' →
      (phaseBehind g'.phase ((g.phase + m.arr) % 65536) < 32768 → gbarDue w g' (cxCore w) ((g.phase + m.arr) % 65536) ≤ w.cycle →
        (SrcsGood s [rA d, rA b] → Goes s (setA (acquire w (cxCore w)) d (word ((g.phase + m.arr) % 65536))) →
          exec (.gbar d b) s = .next (advance s (setA (acquire w (cxCore w)) d (word ((g.phase + m.arr) % 65536)))))) ∧
      (32768 ≤ phaseBehind g'.phase ((g.phase + m.arr) % 65536) ∨ w.cycle < gbarDue w g' (cxCore w) ((g.phase + m.arr) % 65536) →
        Waits (.gbar d b) [rA d, rA b] s w (.group pkg job n ((g.phase + m.arr) % 65536)))) ∧
    ((cx s).status = .running → gbarNum s b = regA s b) ∧
    (∀ (p j x c since seq : Nat), (cx s).status = .waiting (.group p j x c) since seq → gbarNum s b = word x) ∧
    (GroupOk s (gbarNum s b) → n = (gbarNum s b).toNat → (cx s).lost = false → (regA s d).getLsbD 63 = true → getGroup s pkg job n = some g →
      gbarDue s g core (fld (regA s d) 0 16) ≤ s.cycle →
      (phaseBehind g.phase (fld (regA s d) 0 16) = 0 ∨
          (phaseBehind g.phase (fld (regA s d) 0 16) < 32768 ∧ gbarWaited s g (fld (regA s d) 0 16) = true) →
        (SrcsGood s [rA d, rA b] → Goes s (setA (acquire s core) d (word (fld (regA s d) 0 16))) →
          exec (.gbar d b) s = .next (advance s (setA (acquire s core) d (word (fld (regA s d) 0 16)))))) ∧
      (0 < phaseBehind g.phase (fld (regA s d) 0 16) → phaseBehind g.phase (fld (regA s d) 0 16) < 32768 →
        gbarWaited s g (fld (regA s d) 0 16) = false →
        (SrcsGood s [rA d, rA b] → Goes s (setStale (setA (acquire s core) d (word (fld (regA s d) 0 16)))) →
          exec (.gbar d b) s = .next (advance s (setStale (setA (acquire s core) d (word (fld (regA s d) 0 16)))))))) ∧
    (GroupOk s (gbarNum s b) → n = (gbarNum s b).toNat → (cx s).lost = true → SrcsGood s [rA d, rA b] →
      exec (.gbar d b) s = .next (takeTrap (modCx s (fun c => { c with lost := false })) (.gbar d b) cUncorrectable (groupVa n) 0)) ∧
    (∀ (p j x c : Nat), x < 65536 → getGroup s p j x = some g →
      exec (.gbarRelease p (j * 65536 + x) c) s = .next (wake s c (fun y => match y with
        | .group p' j' m' t' =>
          p' == p && j' == j && m' == x && decide (phaseBehind g.phase t' < 32768) && decide (gbarDue s g c t' ≤ s.cycle)
        | _ => false)))

/-! ## Engines, the Sawmill and system instructions (10, 11, 13) -/

/-- 11 R291-R309: issue of an engine operation: with its registers owned by the thread's job and in range, its counters and status address valid and a
place in the engine's waiting room, the operation waits at the core under the next number; without a place the thread waits (R293), and a register
check that fails is a precise trap with nothing queued (R291). -/
def Obligations.EngineIssue : Prop :=
  ∀ (s : State) (a b n o : Nat) (l : List Word),
    (HeaderOk s l →
      (engSets s n 4 = some l → copyOk l = true →
        (waitingOps s (cxCore s) 0 < 16 → (SrcsGood s [rA a, rA b] → Goes s (addOp s 0 (.ecopy a b n) (regA s a) (regA s b) l 0) →
          exec (.ecopy a b n) s = .next (advance s (addOp s 0 (.ecopy a b n) (regA s a) (regA s b) l 0)))) ∧
        (16 ≤ waitingOps s (cxCore s) 0 → Waits (.ecopy a b n) [rA a, rA b] s s (.engineRoom (cxCore s) 0))) ∧
      (engSets s n 2 = some l →
        (gatherOk o false l = true →
          (waitingOps s (cxCore s) 1 < 16 → (SrcsGood s [rA a, rA b] → Goes s (addOp s 1 (.egath a b n o) (regA s a) (regA s b) l o) →
            exec (.egath a b n o) s = .next (advance s (addOp s 1 (.egath a b n o) (regA s a) (regA s b) l o)))) ∧
          (16 ≤ waitingOps s (cxCore s) 1 → Waits (.egath a b n o) [rA a, rA b] s s (.engineRoom (cxCore s) 1))) ∧
        (gatherOk o true l = true →
          (waitingOps s (cxCore s) 1 < 16 → (SrcsGood s [rA a, rA b] → Goes s (addOp s 1 (.escat a b n o) (regA s a) (regA s b) l o) →
            exec (.escat a b n o) s = .next (advance s (addOp s 1 (.escat a b n o) (regA s a) (regA s b) l o)))) ∧
          (16 ≤ waitingOps s (cxCore s) 1 → Waits (.escat a b n o) [rA a, rA b] s s (.engineRoom (cxCore s) 1))) ∧
        (nearOk (regA s a) (regA s b) l = true →
          (waitingOps s (cxCore s) 2 < 16 → (SrcsGood s [rA a, rA b] → Goes s (addOp s 2 (.enear a b n) (regA s a) (regA s b) l 0) →
            exec (.enear a b n) s = .next (advance s (addOp s 2 (.enear a b n) (regA s a) (regA s b) l 0)))) ∧
          (16 ≤ waitingOps s (cxCore s) 2 → Waits (.enear a b n) [rA a, rA b] s s (.engineRoom (cxCore s) 2))) ∧
        (∀ p, l.getD 0 0 = 0 → allZero ((l.drop 5).take 3) = true → (regA s a).toNat < 64 → kfind (getPkg s (cxPkg s)).plans (regA s a).toNat = some p →
          p.job = (cx s).job → apertureBytes p ((l.drop 8).take 8) ≤ 2 ^ 24 →
          (waitingOps s (cxCore s) 4 < 16 →
            (SrcsGood s [rA a] → Goes s (joinPlay (addOp s 4 (.qplay a n) (regA s a) 0 l 0) (regA s a).toNat p
              { pkg := cxPkg s, core := cxCore s, op := s.nextOp, bases := (l.drop 8).take 8, began := false, gone := false, done := false }) →
                exec (.qplay a n) s = .next (advance s (joinPlay (addOp s 4 (.qplay a n) (regA s a) 0 l 0) (regA s a).toNat p
              { pkg := cxPkg s, core := cxCore s, op := s.nextOp, bases := (l.drop 8).take 8, began := false, gone := false, done := false })))) ∧
          (16 ≤ waitingOps s (cxCore s) 4 → Waits (.qplay a n) [rA a] s s (.engineRoom (cxCore s) 4)))) ∧
      (engSets s n 1 = some l →
        (queryOk (regA s a) l = true →
          (waitingOps s (cxCore s) 3 < 16 → (SrcsGood s [rA a, rA 0] → Goes s (addOp s 3 (.eqry a n) (regA s a) 0 l 0) →
            exec (.eqry a n) s = .next (advance s (addOp s 3 (.eqry a n) (regA s a) 0 l 0)))) ∧
          (16 ≤ waitingOps s (cxCore s) 3 → Waits (.eqry a n) [rA a, rA 0] s s (.engineRoom (cxCore s) 3))) ∧
        (l.getD 0 0 = 0 → allZero ((l.drop 5).take 3) = true →
          (waitingOps s (cxCore s) 6 < 16 → (SrcsGood s [rA a, rA b] → Goes s (addOp s 6 (.migr a b n) (regA s a) (regA s b) l 0) →
            exec (.migr a b n) s = .next (advance s (addOp s 6 (.migr a b n) (regA s a) (regA s b) l 0)))) ∧
          (16 ≤ waitingOps s (cxCore s) 6 → Waits (.migr a b n) [rA a, rA b] s s (.engineRoom (cxCore s) 6))) ∧
        (l.getD 0 0 = 0 → allZero ((l.drop 5).take 3) = true → (regA s a).toNat % 64 = 0 → (regA s b).toNat < 64 →
          (∀ p, kfind (getPkg s (cxPkg s)).plans (regA s b).toNat = some p → p.job = (cx s).job) →
          (waitingOps s (cxCore s) 4 < 16 → (SrcsGood s [rA a, rA b] → Goes s (addOp s 4 (.qload a b n) (regA s a) (regA s b) l 0) →
            exec (.qload a b n) s = .next (advance s (addOp s 4 (.qload a b n) (regA s a) (regA s b) l 0)))) ∧
          (16 ≤ waitingOps s (cxCore s) 4 → Waits (.qload a b n) [rA a, rA b] s s (.engineRoom (cxCore s) 4))) ∧
        (bindOk (regA s a) (regA s b) l = true →
          getStream s (cxPkg s) (fld (l.getD 0 0) 0 9 / 8 + fld (l.getD 0 0) 0 3 * 64) = none →
          (waitingOps s (cxCore s) 2 < 16 →
            (SrcsGood s [rA a, rA b] → Goes s (setStream (addOp s 2 (.ebind a b n) (regA s a) (regA s b) l 0) (cxPkg s)
              (fld (l.getD 0 0) 0 9 / 8 + fld (l.getD 0 0) 0 3 * 64) (boundStream s b l)) →
                exec (.ebind a b n) s = .next (advance s (setStream (addOp s 2 (.ebind a b n) (regA s a) (regA s b) l 0) (cxPkg s)
              (fld (l.getD 0 0) 0 9 / 8 + fld (l.getD 0 0) 0 3 * 64) (boundStream s b l))))) ∧
          (16 ≤ waitingOps s (cxCore s) 2 → Waits (.ebind a b n) [rA a, rA b] s s (.engineRoom (cxCore s) 2))))) ∧
    (SrcsGood s [rA a, rA b, rA 0] →
      (engSets s n 4 = some l → copyOk l = false ∨ (l.getD 4 0).toNat % 16 ≠ 0 →
        exec (.ecopy a b n) s = .next (takeTrap s (.ecopy a b n) cEngine 0 0)) ∧
      (engSets s n 2 = some l →
        (gatherOk o false l = false ∨ (l.getD 4 0).toNat % 16 ≠ 0 → exec (.egath a b n o) s = .next (takeTrap s (.egath a b n o) cEngine 0 0)) ∧
        (gatherOk o true l = false ∨ (l.getD 4 0).toNat % 16 ≠ 0 → exec (.escat a b n o) s = .next (takeTrap s (.escat a b n o) cEngine 0 0)) ∧
        (nearOk (regA s a) (regA s b) l = false ∨ (l.getD 4 0).toNat % 16 ≠ 0 → exec (.enear a b n) s = .next (takeTrap s (.enear a b n) cEngine 0 0)) ∧
        (l.getD 0 0 ≠ 0 ∨ allZero ((l.drop 5).take 3) = false ∨ 64 ≤ (regA s a).toNat →
          exec (.qplay a n) s = .next (takeTrap s (.qplay a n) cEngine 0 0))) ∧
      (engSets s n 1 = some l →
        (queryOk (regA s a) l = false ∨ (l.getD 4 0).toNat % 16 ≠ 0 → exec (.eqry a n) s = .next (takeTrap s (.eqry a n) cEngine 0 0)) ∧
        (l.getD 0 0 ≠ 0 ∨ allZero ((l.drop 5).take 3) = false ∨ (l.getD 4 0).toNat % 16 ≠ 0 →
          exec (.migr a b n) s = .next (takeTrap s (.migr a b n) cEngine 0 0)) ∧
        (l.getD 0 0 ≠ 0 ∨ allZero ((l.drop 5).take 3) = false ∨ (regA s a).toNat % 64 ≠ 0 ∨ 64 ≤ (regA s b).toNat ∨ (l.getD 4 0).toNat % 16 ≠ 0 →
          exec (.qload a b n) s = .next (takeTrap s (.qload a b n) cEngine 0 0)) ∧
        (bindOk (regA s a) (regA s b) l = false ∨ (l.getD 4 0).toNat % 16 ≠ 0 → exec (.ebind a b n) s = .next (takeTrap s (.ebind a b n) cEngine 0 0))) ∧
      (∀ k, k ∈ [1, 2, 4] → engSets s n k = none →
        (k = 4 → exec (.ecopy a b n) s = .next (takeTrap s (.ecopy a b n) cSetOwner 0 0)) ∧
        (k = 2 → exec (.egath a b n o) s = .next (takeTrap s (.egath a b n o) cSetOwner 0 0) ∧
          exec (.escat a b n o) s = .next (takeTrap s (.escat a b n o) cSetOwner 0 0) ∧
          exec (.enear a b n) s = .next (takeTrap s (.enear a b n) cSetOwner 0 0) ∧ exec (.qplay a n) s = .next (takeTrap s (.qplay a n) cSetOwner 0 0)) ∧
        (k = 1 → exec (.eqry a n) s = .next (takeTrap s (.eqry a n) cSetOwner 0 0) ∧ exec (.migr a b n) s = .next (takeTrap s (.migr a b n) cSetOwner 0 0) ∧
          exec (.qload a b n) s = .next (takeTrap s (.qload a b n) cSetOwner 0 0) ∧ exec (.ebind a b n) s = .next (takeTrap s (.ebind a b n) cSetOwner 0 0))))

/-- 11 R300, R306-R308: subscriptions to a stream, and posting and polling Ethernet work. A ring that is subscribed already is subscribed once more, and
UNS leaves CMASK as it is (log 85, DESIGN CHOICE); a ring that an isolated die cuts off is unsubscribed at once (log 53, DEDUCED). -/
def Obligations.SubscribeAndPost : Prop :=
  ∀ (s u : State) (a b n key : Nat) (l : List Word) (bs : List Byte) (o : Option Nat) (r : Ring) (st : Stream) (q : QueuePair),
    (RingHere s (regA s a) r u → fld (regA s b) 13 51 = 0 → key = fld (regA s b) 3 6 + fld (regA s b) 0 3 * 64 →
      getStream u (cxPkg s) key = some st → st.job = (cx u).job → st.complete = false → st.tile ≤ r.size →
      (st.dir = true ∨ fld (regA s b) 9 3 = 0) →
      (∀ v : State, v = (if st.dir then addConsumer u r (fld (regA s b) 9 3) else u) → (regA s b).getLsbD 12 = false →
        st.rings.length < (if st.dir then 1 else 8) →
        (isolatedAt v (cxPkg s) (key / 128) (keyCore r.key) = false → (SrcsGood s [rA a, rA b] → Goes s (setStream v (cxPkg s) key
          { st with rings := st.rings ++ [{ core := keyCore r.key, ofs := keyOfs r.key, consumer := fld (regA s b) 9 3 }] }) →
            exec (.esub a b) s = .next (advance s (setStream v (cxPkg s) key
          { st with rings := st.rings ++ [{ core := keyCore r.key, ofs := keyOfs r.key, consumer := fld (regA s b) 9 3 }] })))) ∧
        (isolatedAt v (cxPkg s) (key / 128) (keyCore r.key) = true → (SrcsGood s [rA a, rA b] → Goes s v → exec (.esub a b) s = .next (advance s v)))) ∧
      ((regA s b).getLsbD 12 = true → st.taking = none → st.passing = [] →
        (SrcsGood s [rA a, rA b] → Goes s (setStream u (cxPkg s) key { st with rings := st.rings.filter (fun x => scratchKey x.core x.ofs != r.key) }) →
          exec (.esub a b) s = .next (advance s (setStream u (cxPkg s) key { st with rings := st.rings.filter (fun x => scratchKey x.core x.ofs != r.key) }))))) ∧
    (n = (regA s b).toNat → n < 1024 → getQp s (cxPkg s) n = some q → q.job = (cx s).job → (regA s a).toNat % 64 = 0 →
      loadResult s false [(regA s a, 64)] = some (u, [bs]) → entryOk bs = true → OptKey u (entryOf bs (cxCore u)).cnt o →
      (q.sends = [] ∨ q.sends.length < Config.queuePairRoom → unacked s s.cur = none →
        (SrcsGood s [rA a, rA b] → Goes s (modQp (releaseWaits u u.cur) (cxPkg s) n (fun x => { x with sends := x.sends ++ [entryOf bs (cxCore u)] })) →
          exec (.nsend a b) s = .next (advance s (modQp (releaseWaits u u.cur) (cxPkg s) n (fun x => { x with sends := x.sends ++ [entryOf bs (cxCore u)] }))))) ∧
      (q.recvs = [] ∨ q.recvs.length < Config.queuePairRoom →
        (SrcsGood s [rA a, rA b] → Goes s (modQp u (cxPkg s) n (fun x => { x with recvs := x.recvs ++ [entryOf bs (cxCore u)] })) →
          exec (.nrecv a b) s = .next (advance s (modQp u (cxPkg s) n (fun x => { x with recvs := x.recvs ++ [entryOf bs (cxCore u)] })))))) ∧
    (engSets s n 1 = some l → pollOk l = true → (regA s b).toNat % 32 = 0 →
      storeResult s false [(regA s b, (pollGot s l).flatMap cqBytes)] = some u →
      (SrcsGood s [rA b] → Goes s (setA (acquire (pollTaken u (cxPkg s) (pollCq l) (pollGot s l).length) (cxCore u)) a (word (pollGot s l).length)) →
        exec (.npoll a b n) s = .next (advance s (setA (acquire (pollTaken u (cxPkg s) (pollCq l) (pollGot s l).length) (cxCore u)) a (word (pollGot s l).length)))))

/-- 10 R265, R273-R282: issue of Sawmill operations into the grove's queue, in the order in which the core's instructions came to it, and the reads of a
tile at the head of the queue. An operand that fails its check is a precise trap with nothing queued (R267); FADDR is the panel that fails (log 37,
DEDUCED). -/
def Obligations.SawmillIssue : Prop :=
  ∀ (s u : State) (a b k m n p t : Nat) (l : List Word) (o1 o3 : Option Nat) (bs : List (List Byte)) (op : SawOp) (rest : List SawOp),
    (SawRoom s (newOp s (.mzero m t) (.zero t m)) → (SrcsGood s [] → Goes s (sawQueued s (newOp s (.mzero m t) (.zero t m))) →
      exec (.mzero m t) s = .next (advance s (sawQueued s (newOp s (.mzero m t) (.zero t m)))))) ∧
    (u = releaseWaits s s.cur → unacked s s.cur = none →
      (loadCtlOk (regA s b) false = true → (panelKey s (thr s) (ctlTA (regA s b)) (sideBytes (regA s b) (ctlTA (regA s b))) (regA s a)).isSome = true →
        SawRoom u (newOp u (.mlda a b) (.load false (regA s a) (regA s b))) →
        (SrcsGood s [rA a, rA b] → Goes s (sawQueued u (newOp u (.mlda a b) (.load false (regA s a) (regA s b)))) →
          exec (.mlda a b) s = .next (advance s (sawQueued u (newOp u (.mlda a b) (.load false (regA s a) (regA s b))))))) ∧
      (loadCtlOk (regA s b) true = true → (panelKey s (thr s) (ctlTB (regA s b)) (sideBytes (regA s b) (ctlTB (regA s b))) (regA s a)).isSome = true →
        SawRoom u (newOp u (.mldb a b) (.load true (regA s a) (regA s b))) →
        (SrcsGood s [rA a, rA b] → Goes s (sawQueued u (newOp u (.mldb a b) (.load true (regA s a) (regA s b)))) →
          exec (.mldb a b) s = .next (advance s (sawQueued u (newOp u (.mldb a b) (.load true (regA s a) (regA s b))))))) ∧
      (ctlCheck (regA s a) true = .ok → panelsOk s (thr s) (regA s a) (regA s b) (regA s (b + 1)) = true → ccoOk s (thr s) (regA s a) = true →
        SawRoom u { postOp (cxCore s) (cx s).job (regA s a) (regA s b) (regA s (b + 1)) with word := encode (.mpost a b) } →
        (SrcsGood s [rA a, rA b, rA (b + 1)] → Goes s (sawQueued u { postOp (cxCore s) (cx s).job (regA s a) (regA s b) (regA s (b + 1)) with word := encode (.mpost a b) }) →
          exec (.mpost a b) s = .next (advance s (sawQueued u { postOp (cxCore s) (cx s).job (regA s a) (regA s b) (regA s (b + 1)) with word := encode (.mpost a b) }))))) ∧
    (engSets s n 1 = some l → OptKey s (l.getD 1 0) o1 → OptKey s (l.getD 3 0) o3 →
      (ctlCheck (l.getD 0 0) false = .ok → (l.drop 4).any (fun v => v != 0) = false → panelsOk s (thr s) (l.getD 0 0) (regA s a) (regA s b) = true →
        (ctlLA (l.getD 0 0) = true ∨ aBad (cx s) (rA a) = false) → (ctlLB (l.getD 0 0) = true ∨ aBad (cx s) (rA b) = false) →
        SawRoom s (withKeys (newOp s (.mop a b n) (.run (regA s a) (regA s b) (l.getD 0 0))) l o1 o3) →
        (SrcsGood s [] → Goes s (sawQueued s (withKeys (newOp s (.mop a b n) (.run (regA s a) (regA s b) (l.getD 0 0))) l o1 o3)) →
          exec (.mop a b n) s = .next (advance s (sawQueued s (withKeys (newOp s (.mop a b n) (.run (regA s a) (regA s b) (l.getD 0 0))) l o1 o3))))) ∧
      (ctlCheck (l.getD 0 0) false = .ok → ctlLA (l.getD 0 0) = false → ctlLB (l.getD 0 0) = false → fld (l.getD 4 0) 4 4 = 0 →
        fld (l.getD 4 0) 9 55 = 0 → l.getD 7 0 = 0 → maskDesc s k ≠ 0 → fld (l.getD 4 0) 0 4 ≤ maskDesc s k % 16 →
        (∀ c, c ∈ maskedCols (regB s k) (maskDesc s k) (fld (l.getD 4 0) 0 4) →
          panelsOk s (thr s) (l.getD 0 0) (regA s a + word c * l.getD 5 0) (regA s b + word c * l.getD 6 0) = true ∧
          ((l.getD 4 0).getLsbD 8 = true → ctlTile (l.getD 0 0) + c ≤ 7)) →
        ∀ x : SawKind, x = .masked (regA s a) (regA s b) (l.getD 0 0) (l.getD 5 0) (l.getD 6 0) (fld (l.getD 4 0) 0 4) ((l.getD 4 0).getLsbD 8) (regB s k)
            (maskDesc s k) →
          SawRoom s (withKeys (newOp s (.mopm a b k n) x) l o1 o3) →
          (SrcsGood s [rA a, rA b, rB k] → Goes s (sawQueued s (withKeys (newOp s (.mopm a b k n) x) l o1 o3)) →
            exec (.mopm a b k n) s = .next (advance s (sawQueued s (withKeys (newOp s (.mopm a b k n) x) l o1 o3))))) ∧
      (fld (l.getD 0 0) 4 60 = 0 → (l.drop 4).any (fun v => v != 0) = false →
        ∀ x : SawKind, x = .store (regA s a) (regA s b) (fld (l.getD 0 0) 0 3) ((l.getD 0 0).getLsbD 3) →
          SawRoom s (withKeys (newOp s (.mst a b n) x) l o1 o3) →
          (SrcsGood s [rA a, rA b] → Goes s (sawQueued s (withKeys (newOp s (.mst a b n) x) l o1 o3)) →
            exec (.mst a b n) s = .next (advance s (sawQueued s (withKeys (newOp s (.mst a b n) x) l o1 o3)))))) ∧
    (loadResult s false (scalePart (regA s a) ++ scalePart (regA s b)) = some (u, bs) → bs.all scalesOk = true →
      ∀ x : SawKind, x = .scale t (if regA s a = 0 then [] else scaleWords (bs.getD 0 []))
          (if regA s b = 0 then [] else scaleWords (bs.getD (if regA s a = 0 then 0 else 1) [])) (p == 1) →
        SawRoom u (newOp u (.mscale a b p t) x) → (SrcsGood s [rA a, rA b] → Goes s (sawQueued u (newOp u (.mscale a b p t) x)) →
          exec (.mscale a b p t) s = .next (advance s (sawQueued u (newOp u (.mscale a b p t) x))))) ∧
    ((getGrove s (coreGrove (cxCore s))).saw = op :: rest → op.ctx = some s.cur → sawReady s (coreGrove (cxCore s)) = true →
      u = modGrove s (coreGrove (cxCore s)) (fun v => { v with saw := rest }) →
      (fld (regA s b) 12 52 = 0 → (getTile u (coreGrove (cxCore u)) t).owner = some (cx u).job →
        ((getTile u (coreGrove (cxCore u)) t).tag = 3 → (SrcsGood s [rA b] → Goes s (setA u a (signExt (kget (getTile u (coreGrove (cxCore u)) t).z 0 (regA u b).toNat).toNat 32)) →
          exec (.mrd a b t) s = .next (advance s (setA u a (signExt (kget (getTile u (coreGrove (cxCore u)) t).z 0 (regA u b).toNat).toNat 32))))) ∧
        ((getTile u (coreGrove (cxCore u)) t).tag ≠ 3 → (SrcsGood s [rA b] → Goes s (setA u a (word (kget (getTile u (coreGrove (cxCore u)) t).z 0 (regA u b).toNat).toNat)) →
          exec (.mrd a b t) s = .next (advance s (setA u a (word (kget (getTile u (coreGrove (cxCore u)) t).z 0 (regA u b).toNat).toNat)))))) ∧
      ((getTile u (coreGrove (cxCore u)) t).owner = none ∨ (getTile u (coreGrove (cxCore u)) t).owner = some (cx u).job →
        (SrcsGood s [] → Goes s (setA u a (tileStatus (getTile u (coreGrove (cxCore u)) t))) →
          exec (.mstat a 0 t) s = .next (advance s (setA u a (tileStatus (getTile u (coreGrove (cxCore u)) t))))))) ∧
    (SrcsGood s [] → Goes s s → exec (.mstat a 1 t) s = .next (advance s (setA s a (getCore s (cxCore s)).crst))) ∧
    (SrcsGood s [rA a, rA b] →
      (loadCtlOk (regA s b) false = false → exec (.mlda a b) s = .next (takeTrap s (.mlda a b) cMatrix 0 0)) ∧
      (loadCtlOk (regA s b) true = false → exec (.mldb a b) s = .next (takeTrap s (.mldb a b) cMatrix 0 0)) ∧
      (loadCtlOk (regA s b) false = true → panelKey s (thr s) (ctlTA (regA s b)) (sideBytes (regA s b) (ctlTA (regA s b))) (regA s a) = none →
        exec (.mlda a b) s = .next (takeTrap s (.mlda a b) cMatrix (regA s a) 0)) ∧
      (loadCtlOk (regA s b) true = true → panelKey s (thr s) (ctlTB (regA s b)) (sideBytes (regA s b) (ctlTB (regA s b))) (regA s a) = none →
        exec (.mldb a b) s = .next (takeTrap s (.mldb a b) cMatrix (regA s a) 0)) ∧
      (SrcsGood s [rA (b + 1)] → ctlCheck (regA s a) true = .operand → exec (.mpost a b) s = .next (takeTrap s (.mpost a b) cMatrix 0 0)) ∧
      (SrcsGood s [rA (b + 1)] → ctlCheck (regA s a) true = .tags →
        exec (.mpost a b) s = .next (takeTrap s (.mpost a b) cTag 0 (5 + ctlTB (regA s a) * 16 + ctlPB (regA s a) * 256))) ∧
      (engSets s n 1 = some l →
        (ctlCheck (l.getD 0 0) false = .operand ∨ (ctlCheck (l.getD 0 0) false = .ok ∧ (l.drop 4).any (fun v => v != 0) = true) →
          exec (.mop a b n) s = .next (takeTrap s (.mop a b n) cMatrix 0 0)) ∧
        (ctlCheck (l.getD 0 0) false = .tags →
          exec (.mop a b n) s = .next (takeTrap s (.mop a b n) cTag 0 (5 + ctlTB (l.getD 0 0) * 16 + ctlPB (l.getD 0 0) * 256))) ∧
        (fld (l.getD 0 0) 4 60 ≠ 0 ∨ (l.drop 4).any (fun v => v != 0) = true → exec (.mst a b n) s = .next (takeTrap s (.mst a b n) cMatrix 0 0)) ∧
        (SrcsGood s [rB k] →
          (ctlCheck (l.getD 0 0) false = .operand → exec (.mopm a b k n) s = .next (takeTrap s (.mopm a b k n) cMatrix 0 0)) ∧
          (ctlCheck (l.getD 0 0) false = .ok → ctlLA (l.getD 0 0) = true ∨ ctlLB (l.getD 0 0) = true ∨ fld (l.getD 4 0) 4 4 ≠ 0 ∨ fld (l.getD 4 0) 9 55 ≠ 0 ∨
            l.getD 7 0 ≠ 0 → exec (.mopm a b k n) s = .next (takeTrap s (.mopm a b k n) cMatrix 0 0)))) ∧
      (fld (regA s b) 12 52 ≠ 0 → exec (.mrd a b t) s = .next (takeTrap s (.mrd a b t) cMatrix 0 0)) ∧
      (loadResult s false (scalePart (regA s a) ++ scalePart (regA s b)) = some (u, bs) → bs.all scalesOk = false →
        exec (.mscale a b p t) s = .next (takeTrap u (.mscale a b p t) cBlockScale 0 0)))

/-- 10 R267, R284, R286-R289: CRUISE's issue and the Blaze instructions, and the trap of an operand that fails its check. FADDR is the address that fails
(log 37, DEDUCED), and of a descriptor there is no tag to report (log 66, DEDUCED). -/
def Obligations.CruiseAndBlaze : Prop :=
  ∀ (s u : State) (a b d m n : Nat) (rows : List (List Byte)) (bs : List Byte) (l : List Word) (o1 o3 : Option Nat) (op : SawOp),
    (engSets s n 1 = some l → geoOk (l.getD 0 0) = true → (l.drop 5).any (fun v => v != 0) = false →
      (panelKey s (thr s) 8 (geoQBytes (l.getD 0 0)) (regA s a)).isSome = true → (panelKey s (thr s) 8 (geoKBytes (l.getD 0 0)) (regA s b)).isSome = true →
      (panelKey s (thr s) 6 (geoScoreBytes (l.getD 0 0)) (l.getD 4 0)).isSome = true → OptKey s (l.getD 1 0) o1 → OptKey s (l.getD 3 0) o3 →
      op = withKeys (newOp s (.cruise a b n) (.cruise (regA s a) (regA s b) (l.getD 0 0) (l.getD 4 0))) l o1 o3 →
      CruRoom s op → (SrcsGood s [rA a, rA b] → Goes s (cruQueued s op) → exec (.cruise a b n) s = .next (advance s (cruQueued s op)))) ∧
    ((regA s a).toNat % 64 = 0 → fld (regA s b) 8 24 = 0 → fld (regA s b) 0 8 ≠ 0 →
      loadResult s false (blazeRows (regA s a) (fld (regA s b) 0 8)) = some (u, rows) →
      (SrcsGood s [rA a, rA b] → Goes s (setMaskDesc (setB u d (BitVec.ofNat 256 (blazeWord m (fld (regA s b) 0 8) (regA s b) rows))) d (fld (regA s b) 0 8)) →
        exec (.blaze a b m d) s = .next (advance s (setMaskDesc (setB u d (BitVec.ofNat 256 (blazeWord m (fld (regA s b) 0 8) (regA s b) rows))) d (fld (regA s b) 0 8))))) ∧
    (maskDesc s b ≠ 0 → (SrcsGood s [rB b] → Goes s (setMaskDesc (setB s d (regB s b)) d (maskDesc s b)) →
      exec (.blzmov b d) s = .next (advance s (setMaskDesc (setB s d (regB s b)) d (maskDesc s b)))) ∧
      ((regA s a).toNat % 32 = 0 → storeResult s false [(regA s a, leBytes 32 (regB s b).toNat)] = some u → (SrcsGood s [rA a, rB b] → Goes s u →
        exec (.blzmovStore a b) s = .next (advance s u))) ∧
      (maskDesc s b = maskDesc s d → (SrcsGood s [rB b, rB d] → Goes s (setB s d (regB s d &&& regB s b)) →
        exec (.blzmovAnd b d) s = .next (advance s (setB s d (regB s d &&& regB s b)))))) ∧
    ((regA s a).toNat % 32 = 0 → 1 ≤ (regA s b).toNat → (regA s b).toNat < 256 → loadResult s false [(regA s a, 32)] = some (u, [bs]) →
      (SrcsGood s [rA a, rA b] → Goes s (setMaskDesc (setB u d (BitVec.ofNat 256 (leNat bs &&& gridMask (regA s b).toNat))) d (regA s b).toNat) →
        exec (.blzmovLoad a b d) s = .next (advance s (setMaskDesc (setB u d (BitVec.ofNat 256 (leNat bs &&& gridMask (regA s b).toNat))) d (regA s b).toNat)))) ∧
    (maskDesc s n ≠ 0 → fld (regA s b) 5 59 = 0 →
      ((regA s b).getLsbD 4 = true →
        (SrcsGood s [rA b, rB n] → Goes s s →
          exec (.blzpop a b n) s = .next (advance s (setA s a (word (popBelow ((regB s n).toNat &&& gridMask (maskDesc s n)) 256)))))) ∧
      ((regA s b).getLsbD 4 = false → fld (regA s b) 0 4 ≤ maskDesc s n % 16 →
        (SrcsGood s [rA b, rB n] → Goes s s →
          exec (.blzpop a b n) s = .next (advance s (setA s a (word (popBelow (((regB s n).toNat &&& gridMask (maskDesc s n)) / 2 ^ (16 * fld (regA s b) 0 4) % 2 ^ 16) 256))))))) ∧
    (SrcsGood s [rA a, rA b] → engSets s n 1 = some l → geoOk (l.getD 0 0) = false ∨ (l.drop 5).any (fun v => v != 0) = true →
      exec (.cruise a b n) s = .next (takeTrap s (.cruise a b n) cMatrix 0 0)) ∧
    (SrcsGood s [rA a, rA b] →
      ((regA s a).toNat % 64 ≠ 0 → exec (.blaze a b m d) s = .next (takeTrap s (.blaze a b m d) cMatrix (regA s a) 0)) ∧
      ((regA s a).toNat % 64 = 0 → fld (regA s b) 8 24 ≠ 0 ∨ fld (regA s b) 0 8 = 0 →
        exec (.blaze a b m d) s = .next (takeTrap s (.blaze a b m d) cMatrix 0 0)) ∧
      ((regA s a).toNat % 32 ≠ 0 → exec (.blzmovLoad a b d) s = .next (takeTrap s (.blzmovLoad a b d) cMatrix (regA s a) 0)) ∧
      ((regA s a).toNat % 32 = 0 → (regA s b).toNat = 0 ∨ 256 ≤ (regA s b).toNat →
        exec (.blzmovLoad a b d) s = .next (takeTrap s (.blzmovLoad a b d) cMatrix 0 0))) ∧
    (SrcsGood s [rA a, rB b] →
      ((regA s a).toNat % 32 ≠ 0 → exec (.blzmovStore a b) s = .next (takeTrap s (.blzmovStore a b) cMatrix (regA s a) 0)) ∧
      ((regA s a).toNat % 32 = 0 → maskDesc s b = 0 → exec (.blzmovStore a b) s = .next (takeTrap s (.blzmovStore a b) cTag 0 3))) ∧
    (SrcsGood s [rB b, rB d] →
      (maskDesc s b = 0 → exec (.blzmov b d) s = .next (takeTrap s (.blzmov b d) cTag 0 3)) ∧
      (maskDesc s b = 0 ∨ maskDesc s b ≠ maskDesc s d → exec (.blzmovAnd b d) s = .next (takeTrap s (.blzmovAnd b d) cTag 0 3))) ∧
    (SrcsGood s [rA b, rB n] →
      (maskDesc s n = 0 → exec (.blzpop a b n) s = .next (takeTrap s (.blzpop a b n) cTag 0 3)) ∧
      (maskDesc s n ≠ 0 → fld (regA s b) 5 59 ≠ 0 ∨ ((regA s b).getLsbD 4 = false ∧ maskDesc s n % 16 < fld (regA s b) 0 4) →
        exec (.blzpop a b n) s = .next (takeTrap s (.blzpop a b n) cMatrix 0 0)))

/-- 06 R171; 03 R86; 11 R310-R317: engine registers and system instructions. That BRK leaves the context stopped at its own PC is log 50 (DEDUCED); the
frame of a thread that SAFEPT stops, with SEED and STAT zero and its hold kept, is log 47 (DEDUCED). 11 R316: what the control registers read as, and
what a write leaves: STAT takes bits [20:0], its descriptors [63:32] stay and its reserved bits are zero, LSTA and LEND hold 48 bits, STAGR 16. -/
def Obligations.SystemInstructions : Prop :=
  (∀ (s u : State) (a n i : Nat) (bs : List Byte),
    (kfind (getCore s (cxCore s)).owner (n / 8) = some (cx s).job →
      (SrcsGood s [rA a] → Goes s (modCore s (cxCore s) (fun w => withEng w n (regA s a))) →
        exec (.ewr a n) s = .next (advance s (modCore s (cxCore s) (fun w => withEng w n (regA s a))))) ∧
      (SrcsGood s [] → Goes s s → exec (.erd a n) s = .next (advance s (setA s a (kget (getCore s (cxCore s)).e 0 n))))) ∧
    (kfind (getCore s (cxCore s)).owner (n / 8) ≠ some (cx s).job →
      (SrcsGood s [rA a] → Goes s (modCore (modCore s (cxCore s) (fun w => claimedSet w n (cx s).job)) (cxCore s) (fun w => withEng w n (regA s a))) →
        exec (.ewr a n) s = .next (advance s (modCore (modCore s (cxCore s) (fun w => claimedSet w n (cx s).job)) (cxCore s) (fun w => withEng w n (regA s a))))) ∧
      exec (.erd a n) s = .next (takeTrap s (.erd a n) cSetOwner 0 0)) ∧
    (SrcsGood s [] → Goes s s → exec .nop s = .next (advance s s)) ∧
    (SrcsGood s [] → Goes s (modCore (releaseWaits s s.cur) (cxCore s) (fun w => { w with icache := [] })) →
      exec .synci s = .next (advance s (modCore (releaseWaits s s.cur) (cxCore s) (fun w => { w with icache := [] })))) ∧
    ((cx s).event = true → (SrcsGood s [] → Goes s (modCx s (fun c => { c with event := false })) →
      exec .wfe s = .next (advance s (modCx s (fun c => { c with event := false }))))) ∧
    ((cx s).event = false → Waits .wfe [] s s (.event (cxCore s))) ∧
    (unacked s s.cur = none → (SrcsGood s [rA a] → Goes s (shootdown (releaseWaits s s.cur) (cxPkg s) { scope := 0, job := (cx s).job, va := (regA s a).toNat }) →
      exec (.tlbinvPage a) s = .next (advance s (shootdown (releaseWaits s s.cur) (cxPkg s) { scope := 0, job := (cx s).job, va := (regA s a).toNat })))) ∧
    (unacked s s.cur = none → (SrcsGood s [] → Goes s (shootdown (releaseWaits s s.cur) (cxPkg s) { scope := 1, job := (cx s).job, va := 0 }) →
      exec .tlbinvJob s = .next (advance s (shootdown (releaseWaits s s.cur) (cxPkg s) { scope := 1, job := (cx s).job, va := 0 })))) ∧
    (SrcsGood s (controlSrc i) → Goes s s → exec (.crd a i) s = .next (advance s (setA s a (controlRead s i)))) ∧
    (SrcsGood s [rA a] → Goes s (controlWrite s i (regA s a)) → exec (.cwr a i) s = .next (advance s (controlWrite s i (regA s a)))) ∧
    ((getCore s (cxCore s)).spm = false → (SrcsGood s [] → Goes s s → exec (.safept i) s = .next (advance s s))) ∧
    ((getCore s (cxCore s)).spm = true → (getCore s (cxCore s)).lmapn.toNat ≤ i →
      exec (.safept i) s = .next (takeTrap s (.safept i) cLiveMap 0 0)) ∧
    ((getCore s (cxCore s)).spm = true → i < (getCore s (cxCore s)).lmapn.toNat →
      loadResult s false [((getCore s (cxCore s)).lmapb + word (16 * i), 16)] = some (u, [bs]) →
      badTarget (loopEnd (cx u) (cx u).pc ((cx u).pc + 4)).2 = false → unacked u u.cur = none →
      exec (.safept i) s = .next (holdSafe (releaseWaits u u.cur) u.cur
        { liveCtx (loopEnd (cx u) (cx u).pc ((cx u).pc + 4)).1 bs with pc := (loopEnd (cx u) (cx u).pc ((cx u).pc + 4)).2 } true)) ∧
    (1 ≤ (getPkg s (cxPkg s)).debug → exec (.brk a) s = .next (stopCtx s)) ∧
    ((getPkg s (cxPkg s)).debug = 0 → exec (.brk a) s = .next (takeTrap s (.brk a) cBreak 0 0))) ∧
  (∀ (s : State) (v : Word),
    controlRead s 0x000 = (cx s).cause ∧ controlRead s 0x001 = (cx s).fpc ∧ controlRead s 0x002 = (cx s).faddr ∧ controlRead s 0x003 = (cx s).finfo ∧
    controlRead s 0x004 = (cx s).stat ∧ controlRead s 0x005 = (cx s).seed ∧ controlRead s 0x006 = word (cx s).job ∧
    controlRead s 0x008 = (cx s).l0.cnt ∧ controlRead s 0x009 = (cx s).l0.sta ∧ controlRead s 0x00A = (cx s).l0.fin ∧
    controlRead s 0x00B = (cx s).l1.cnt ∧ controlRead s 0x00C = (cx s).l1.sta ∧ controlRead s 0x00D = (cx s).l1.fin ∧
    controlRead s 0x00E = word ((cx s).l0.act.toNat + 2 * (cx s).l1.act.toNat) ∧
    controlRead s 0x042 = word (jobD s (cxPkg s) (cx s).job).hbi ∧ controlRead s 0x043 = word (jobD s (cxPkg s) (cx s).job).spo ∧
    controlRead s 0x044 = word (jobD s (cxPkg s) (cx s).job).sps ∧ controlRead s 0x045 = (jobD s (cxPkg s) (cx s).job).ovfl ∧
    controlRead s 0x046 = (jobD s (cxPkg s) (cx s).job).deck ∧ controlRead s 0x04B = (getCore s (cxCore s)).lmapb ∧
    controlRead s 0x04C = (getCore s (cxCore s)).lmapn ∧ controlRead s 0x04D = (if (getCore s (cxCore s)).spm then 1 else 0) ∧
    controlRead s 0x040 = word (coreId (cxCore s)) ∧ controlRead s 0x041 = word (cxPkg s) ∧ controlRead s 0x048 = word s.cycle ∧
    controlRead s 0x047 = (getCore s (cxCore s)).stagr ∧ controlRead s 0x049 = (getCore s (cxCore s)).dspec ∧ controlRead s 0x04A = (getCore s (cxCore s)).crst ∧
    (∀ i, i < 64 → (cx (controlWrite s 0x004 v)).stat.getLsbD i = if 21 ≤ i then (cx s).stat.getLsbD i && decide (32 ≤ i) else v.getLsbD i) ∧
    (cx (controlWrite s 0x005 v)).seed = v ∧ (cx (controlWrite s 0x008 v)).l0.cnt = v ∧ (cx (controlWrite s 0x00B v)).l1.cnt = v ∧
    (cx (controlWrite s 0x009 v)).l0.sta = word (v.toNat % 2 ^ 48) ∧ (cx (controlWrite s 0x00C v)).l1.sta = word (v.toNat % 2 ^ 48) ∧
    (cx (controlWrite s 0x00A v)).l0 = { (cx s).l0 with fin := word (v.toNat % 2 ^ 48) } ∧
    (cx (controlWrite s 0x00D v)).l1 = { (cx s).l1 with fin := word (v.toNat % 2 ^ 48) } ∧
    (getCore (controlWrite s 0x047 v) (cxCore s)).stagr = word (v.toNat % 2 ^ 16) ∧
    (getCore (controlWrite s 0x04B v) (cxCore s)).lmapb = v &&& ~~~(15 : Word) ∧
    (getCore (controlWrite s 0x04C v) (cxCore s)).lmapn = word (min v.toNat 65536) ∧
    (∀ i, (controlWrite s i v).mem = s.mem ∧ ∀ j, regA (controlWrite s i v) j = regA s j))

/-- 17 R380-R383; 11 R310, R311: taking an exception and returning from it. The thread's full frame is written, its record with CAUSE, FPC, FADDR, FINFO
and HOLD goes to a free entry of the job's fault ring, its context becomes dormant, and a launch record with PC = FHADDR goes to FCORE. Where the
frame cannot be written, the record has the cause of that, and FINFO the instruction's word alone; a trap that is itself "uncorrectable data" keeps
its own FADDR, and a source register that cannot be read traps with FADDR 0 (18 R409). ERET continues the recorded thread in the handler's context,
with the core's L1 and instruction cache behind an acquire (04 R99). That a software trap's record holds the PC after the loop check is log 34
(DEDUCED), and that all 64 bits of FHADDR are the launch's PC is log 68 (DESIGN CHOICE). -/
def Obligations.Exceptions : Prop :=
  (∀ (s : State) (d a : Nat), SrcsGood s [rA a] → exec (.trap d a) s = .next (takeTrap s (.trap d a) cSoftTrap (regA s a) 0)) ∧
  (∀ (s : State) (i : Instr) (faddr : Word) (hi : Nat), badTarget (nextPc s s) = false → takeTrap s i cSoftTrap faddr hi =
    deliverTrap (setCtx s s.cur (loopEnd (cx s) (cx s).pc ((cx s).pc + 4)).1) s.cur
      { cause := cSoftTrap, fpc := (cx s).pc, faddr := faddr, finfo := word (encode i + hi * 2 ^ 32), pc := nextPc s s }) ∧
  (∀ (s : State) (i : Instr) (cause hi : Nat) (faddr : Word), cause ≠ cSoftTrap → cause ≠ cUncorrectable → takeTrap s i cause faddr hi =
    deliverTrap s s.cur { cause := cause, fpc := (cx s).pc, faddr := faddr, finfo := word (encode i + hi * 2 ^ 32), pc := (cx s).pc }) ∧
  (∀ (s u : State) (ctx : Nat) (f : FaultInfo) (addr : Word), ringFree s (corePkg (ctxCore ctx)) (getCtx s ctx).job = true → unacked s ctx = none →
    spill (releaseWaits s ctx) (ctxCore ctx) (getCtx s ctx) = (u, .at addr) →
    deliverTrap s ctx f = report (dormant u ctx) (corePkg (ctxCore ctx))
      { job := (getCtx s ctx).job,
        r := { pc := f.pc, job := (getCtx s ctx).job, prio := (getCtx s ctx).prio, ff := true, fc := true, st := (getCtx s ctx).st, rs := false,
               w1 := addr, args := ctxArgs (getCtx s ctx) },
        cause := f.cause, fpc := f.fpc, faddr := f.faddr, finfo := f.finfo, hold := (getCtx s ctx).hold, coreId := coreId (ctxCore ctx), about := none,
        kept := (getCtx s ctx).handler }) ∧
  (∀ (s u : State) (ctx : Nat) (f : FaultInfo) (addr x : Word) (e : Nat), ringFree s (corePkg (ctxCore ctx)) (getCtx s ctx).job = true → unacked s ctx = none →
    (spill (releaseWaits s ctx) (ctxCore ctx) (getCtx s ctx) = (u, .none) →
      deliverTrap s ctx f = report (dormant u ctx) (corePkg (ctxCore ctx)) (faultNotice ctx (getCtx s ctx)
        { f with cause := cSpill, faddr := 0, finfo := word (f.finfo.toNat % 2 ^ 32) } (faultRec (getCtx s ctx) f false 0))) ∧
    (spill (releaseWaits s ctx) (ctxCore ctx) (getCtx s ctx) = (u, .failed e x) →
      deliverTrap s ctx f = report (dormant u ctx) (corePkg (ctxCore ctx)) (faultNotice ctx (getCtx s ctx)
        { f with cause := e, faddr := x, finfo := word (f.finfo.toNat % 2 ^ 32) } (faultRec (getCtx s ctx) f false 0))) ∧
    (spill (releaseWaits s ctx) (ctxCore ctx) (getCtx s ctx) = (u, .corrupt addr x) →
      (f.cause ≠ cUncorrectable ∨ f.frame = true →
        deliverTrap s ctx f = report (dormant u ctx) (corePkg (ctxCore ctx)) (faultNotice ctx (getCtx s ctx)
          { f with cause := cUncorrectable, faddr := x, finfo := word (f.finfo.toNat % 2 ^ 32) } (faultRec (getCtx s ctx) f true addr))) ∧
      (f.cause = cUncorrectable → f.frame = false →
        deliverTrap s ctx f = report (dormant u ctx) (corePkg (ctxCore ctx)) (faultNotice ctx (getCtx s ctx) f (faultRec (getCtx s ctx) f true addr))))) ∧
  (∀ (s u : State) (i : Instr) (faddr : Word) (hi : Nat), u = uncMet s (thr s) faddr → takeTrap s i cUncorrectable faddr hi =
    deliverTrap u u.cur { cause := cUncorrectable, fpc := (cx u).pc, faddr := faddr, finfo := word (encode i + hi * 2 ^ 32), pc := (cx u).pc }) ∧
  (∀ (s u : State) (d a b : Nat), u = uncBump s (cxPkg s) 0 → underWay s = false → SrcsGood s [rA a] → regBad (cx s) (rA b) = true →
    exec (.add d a b) s = .next (deliverTrap u u.cur
      { cause := cUncorrectable, fpc := (cx u).pc, faddr := 0, finfo := word (encode (.add d a b)), pc := (cx u).pc })) ∧
  (∀ (s : State) (ctx : Nat) (f : FaultInfo),
    ringFree s (corePkg (ctxCore ctx)) (getCtx s ctx).job = false ∨ (unacked s ctx).isSome = true →
    deliverTrap s ctx f = modCtx s ctx (fun c => { c with status := .faulting f s.cycle })) ∧
  (∀ (s v : State) (pkg i : Nat) (n : Notice) (d : Job) (x : List Byte), jobOn s pkg n.job = some d →
    lowestFree (fun i => (kget (getPkg s pkg).claims [] n.job).contains i) 512 0 = some i →
    hwWrite s (hwWho (pkg * 8192 + d.fcore) n.job) (ringBase d + word (128 * i))
      (recBytes n.r ++ qword (word n.cause) ++ qword n.fpc ++ qword n.faddr ++ qword n.finfo ++ qword n.hold ++ leBytes 24 0) = (v, .ok x) →
    deliver s pkg n = (launchPush (claimEntry v pkg n.job i (kget (getPkg s pkg).claims [] n.job) n.kept) (pkg * 8192 + d.fcore) n.coreId
      { r := { pc := d.fhaddr, job := n.job, prio := d.cap, ff := false, fc := false, st := false, rs := false, w1 := 0,
               args := [ringBase d + word (128 * i), word n.cause, 0, word (n.coreId * 2 ^ 16 + pkg * 2 ^ 32), 0, 0] },
        age := 0, handler := some { entry := ringBase d + word (128 * i), notice := n.about } }, true)) ∧
  (∀ (s u v w : State) (key : Nat) (c : Ctx), SrcsGood s [rA 1] → RecordHere s (regA s 1) .both key u →
    (recOf (homeRead u key 64)).ff = true → (recOf (homeRead u key 64)).fc = true → (recOf (homeRead u key 64)).job = (cx s).job →
    unacked s s.cur = none →
    v = freeEntry (dropL1 (homeWrite u key (leBytes 8 0)) (cxCore s) key 64) (cxPkg s) (cx s).job (regA s 1) →
    restored (endHold (releaseWaits v v.cur) (thr v) (cx v).hold) (cxCore s) (recOf (homeRead u key 64)) = (w, .ok c) →
    exec .eret s = .next (freeFrame (setCtx (dropICache (acquire w (cxCore s)) (cxCore s)) w.cur (withHandler c (carriedOf u (cxPkg s) (cx s).job (regA s 1))))
      (cxCore s) (cx s).job (recOf (homeRead u key 64)).w1))

/-! ## The Skidder (12) -/

/-- 12 R324, R326, R327: when a slot of an arithmetic, pass, end or predicate operation is issued, its result, in the slot's format, takes the slot's
effect: heads dequeued, the result enqueued, L[LD] and the predicate written. The number that KCVT rounds stochastically with is free (log 15). 12
R328, R330: KRED by the level of its token, and KLGEN: the start on a bound, an index of a running generator, an end marker of a finished level, and
the bound of the next inner level. -/
def Obligations.SkidderOperations : Prop :=
  (∀ (s : State) (pkg stk slot el isl key w : Nat) (st : Stream) (e r : Elem), key = streamKey stk slot →
    (kTurn s pkg key el isl 0x01 = some (st, e, r, w) → exec (.kadd pkg stk slot el isl) s =
      .next (kDone s pkg key el st e w (datum (addElem (kFMT w) (kNumA r w) (kNumB r w)).1))) ∧
    (kTurn s pkg key el isl 0x02 = some (st, e, r, w) → exec (.ksub pkg stk slot el isl) s =
      .next (kDone s pkg key el st e w (datum (subElem (kFMT w) (kNumA r w) (kNumB r w)).1))) ∧
    (kTurn s pkg key el isl 0x03 = some (st, e, r, w) → exec (.kmul pkg stk slot el isl) s =
      .next (kDone s pkg key el st e w (datum (mulElem (kFMT w) (kNumA r w) (kNumB r w)).1))) ∧
    (kTurn s pkg key el isl 0x04 = some (st, e, r, w) → exec (.kmac pkg stk slot el isl) s =
      .next (kDone s pkg key el st e w (datum (fmaElem (kFMT w) (kNumA r w) (kNumB r w) (kNumL r w)).1))) ∧
    (kTurn s pkg key el isl 0x05 = some (st, e, r, w) → exec (.kand pkg stk slot el isl) s =
      .next (kDone s pkg key el st e w { data := (kSource r (kSA w)).data &&& (kSource r (kSB w)).data, level := 0 })) ∧
    (kTurn s pkg key el isl 0x06 = some (st, e, r, w) → exec (.kor pkg stk slot el isl) s =
      .next (kDone s pkg key el st e w { data := (kSource r (kSA w)).data ||| (kSource r (kSB w)).data, level := 0 })) ∧
    (kTurn s pkg key el isl 0x07 = some (st, e, r, w) → exec (.kxor pkg stk slot el isl) s =
      .next (kDone s pkg key el st e w { data := (kSource r (kSA w)).data ^^^ (kSource r (kSB w)).data, level := 0 })) ∧
    (kTurn s pkg key el isl 0x08 = some (st, e, r, w) → exec (.kshl pkg stk slot el isl) s =
      .next (kDone s pkg key el st e w (datum (shlElem (kFMT w) (kNumA r w) (kNumB r w)).1))) ∧
    (kTurn s pkg key el isl 0x09 = some (st, e, r, w) → exec (.kshr pkg stk slot el isl) s =
      .next (kDone s pkg key el st e w (datum (shrElem (kFMT w) (kNumA r w) (kNumB r w)).1))) ∧
    (kTurn s pkg key el isl 0x0A = some (st, e, r, w) → exec (.kcmp pkg stk slot el isl) s =
      .next (kDone s pkg key el st e w (datum (if (cmpElem (kAux4 w) (kFMT w) (kNumA r w) (kNumB r w)).1 then 1 else 0)))) ∧
    (kTurn s pkg key el isl 0x0B = some (st, e, r, w) → exec (.ksel pkg stk slot el isl) s =
      .next (kDone s pkg key el st e w { data := (kSource r (if r.preds.testBit (kAux4 w) then kSA w else kSB w)).data, level := 0 })) ∧
    (kTurn s pkg key el isl 0x0C = some (st, e, r, w) → exec (.kmin pkg stk slot el isl) s =
      .next (kDone s pkg key el st e w (datum (minElem (kFMT w) (kNumA r w) (kNumB r w)).1))) ∧
    (kTurn s pkg key el isl 0x0D = some (st, e, r, w) → exec (.kmax pkg stk slot el isl) s =
      .next (kDone s pkg key el st e w (datum (maxElem (kFMT w) (kNumA r w) (kNumB r w)).1))) ∧
    (kTurn s pkg key el isl 0x0E = some (st, e, r, w) → exec (.kcvt pkg stk slot el isl) s =
      .next (kDone (freeStep s) pkg key el st e w
        (datum (convertElem (kFMT w) 0 (cvtTag (kAux7 w)) (kAux4 w) (seedRnd (freeNow s)) (kNumA r w)).1))) ∧
    (kTurn s pkg key el isl 0x0F = some (st, e, r, w) → exec (.kpopc pkg stk slot el isl) s =
      .next (kDone s pkg key el st e w (datum (popBelow (kSource r (kSA w)).data.toNat 32)))) ∧
    (kTurn s pkg key el isl 0x10 = some (st, e, r, w) → exec (.kpass pkg stk slot el isl) s =
      .next (kDone s pkg key el st e w (kSource r (kSA w)))) ∧
    (kTurn s pkg key el isl 0x12 = some (st, e, r, w) → exec (.kend pkg stk slot el isl) s =
      .next (kDone s pkg key el st e w (marker (kAux7 w)))) ∧
    (kTurn s pkg key el isl 0x13 = some (st, e, r, w) → exec (.ksetp pkg stk slot el isl) s =
      .next (kSet s pkg key (kEffect st el (withPreds e (e.preds ||| kf w 0 8)) w 0 none none))) ∧
    (kTurn s pkg key el isl 0x14 = some (st, e, r, w) → exec (.kclrp pkg stk slot el isl) s =
      .next (kSet s pkg key (kEffect st el (withPreds e
        ((List.range 8).foldl (fun p i => if (kf w 0 8).testBit i then setPred p i false else p) e.preds)) w 0 none none)))) ∧
  (∀ (s : State) (pkg stk slot el isl key w k n i : Nat) (st : Stream) (e r : Elem) (t : Token) (g : GenState) (rest : List (Nat × Nat × Nat)),
    key = streamKey stk slot →
    (kTurn s pkg key el isl 0x11 = some (st, e, r, w) → t = kSource r (kSA w) →
      (t.level = 0 → exec (.kred pkg stk slot el isl) s =
        .next (kSilent s pkg key el st e w (some (BitVec.ofNat 32 (opBits (kAux4 w) (kFMT w) (kNumL r w) (kNumA r w)).1)))) ∧
      (t.level = 7 → exec (.kred pkg stk slot el isl) s = .next (kSet s pkg key (kEffect st el e w t.data (some t) none))) ∧
      (0 < t.level → t.level < 7 → t.level < kAux7 w → exec (.kred pkg stk slot el isl) s = .next (kSilent s pkg key el st e w none)) ∧
      (0 < t.level → t.level < 7 → t.level = kAux7 w → exec (.kred pkg stk slot el isl) s =
        .next (kSet s pkg key (kEffect st el e w (BitVec.ofNat 32 (kNumL r w)) (some (datum (kNumL r w)))
          (some (BitVec.ofNat 32 (identityBits (kAux4 w) (kFMT w))))))) ∧
      (t.level < 7 → kAux7 w < t.level → exec (.kred pkg stk slot el isl) s =
        .next (kSet s pkg key (kEffect st el e w 0 (some (marker (t.level - kAux7 w))) none)))) ∧
    (kTurn s pkg key el isl 0x28 = some (st, e, r, w) → e.gen = none → t = kSource r (kSA w) → t.level = 0 →
      exec (.klgen pkg stk slot el isl) s = .next (kSet (freeStep s) pkg key (withElem st el
        (withGen (ordEffect (dequeue e (kDEQ w ||| 2 ^ kSA w)) w (freeResult s)) (some (genNew isl w t.data.toNat)))))) ∧
    (kBegin s pkg key el el = some (st, e, r) → e.gen = some g → g.slot = isl → genCan (atStart st) el r g = true →
      g.frames = (k, n, i) :: rest → w = e.slots.getD isl 0 →
      (n ≤ i → outRoom st el (kOUT w) = true → exec (.klgen pkg stk slot el isl) s =
        .next (kSet s pkg key (enqueueOn (withElem st el (genLeft e g rest g.c)) el (kOUT w) (marker k)))) ∧
      (i < n → k ≤ 1 → outRoom st el (kOUT w) = true → exec (.klgen pkg stk slot el isl) s =
        .next (kSet s pkg key (enqueueOn (withElem st el (genLeft e g ((k, n, i + 1) :: rest) (g.c + 1))) el (kOUT w) (genIndex e g i)))) ∧
      (i < n → 1 < k → headOf e (kSA w) = some t → t.level = 0 → exec (.klgen pkg stk slot el isl) s =
        .next (kSet s pkg key (withElem st el (genLeft (dequeue e (2 ^ kSA w)) g ((k - 1, t.data.toNat, 0) :: (k, n, i + 1) :: rest) g.c))))))

/-- 12 R329, R331-R333, R343, R345; 11 R300: the stream port, memory elements, near-bank forms and waves. A write stream frees a ring's slot once KENQ has
written past the slot's place, and at the stream's end (log 86, DESIGN CHOICE); what an ordered KMWR results in, in a wave of markers, is free (log
15). The near-bank forms take offsets of every alignment and the low bits of L as their coefficient: the model's choice (log 98, DESIGN CHOICE; R343
is silent). -/
def Obligations.SkidderMemory : Prop :=
  ∀ (s u v v' : State) (pkg stk slot el isl key w : Nat) (st st' : Stream) (e r : Elem) (a b : Token) (bs : List Byte), key = streamKey stk slot →
    a = kSource r (kSA w) → b = kSource r (kSB w) →
    (kTurn s pkg key el isl 0x20 = some (st, e, r, w) →
      (st.len ≤ st.pos → exec (.kdeq pkg stk slot el isl) s = .next (kDone s pkg key el (dequeuedAll st) e w (marker 7))) ∧
      (st.pos < st.len → st.dir = true → takeBytes s st (kBytes (kFMT w)) = some (u, st', .ok bs) →
        exec (.kdeq pkg stk slot el isl) s = .next (kDone u pkg key el (movedOn st' (kBytes (kFMT w))) e w (datum (leNat bs)))) ∧
      (∀ x : Word, st.pos < st.len → st.dir = true → takeBytes s st (kBytes (kFMT w)) = some (u, st', .error x) →
        exec (.kdeq pkg stk slot el isl) s = .next (kEnds u pkg key st' 2 x)) ∧
      (st.pos < st.len → st.dir = false → skidRead s pkg key st (st.base + word st.pos) (kBytes (kFMT w)) (st.pos != 0) = (u, some bs) →
        v = skidLines u pkg stk st (st.base + word st.pos) (kBytes (kFMT w)) (st.pos != 0) →
        exec (.kdeq pkg stk slot el isl) s = .next (kDone v pkg key el (movedOn st (kBytes (kFMT w))) e w (datum (leNat bs))))) ∧
    (kTurn s pkg key el isl 0x21 = some (st, e, r, w) → a.level = 0 → bs = leBytes (kBytes (kFMT w)) a.data.toNat →
      (st.dir = true → st.wrote + kBytes (kFMT w) ≤ st.len → skidWrite s pkg key st (st.base + word st.wrote) bs = (u, true) →
        v = skidLines u pkg stk st (st.base + word st.wrote) (kBytes (kFMT w)) (st.wrote != 0) →
        (freePassed v (wroteOn st (kBytes (kFMT w))) (passedCount (wroteOn st (kBytes (kFMT w)))) = .ok (v', st') →
          exec (.kenq pkg stk slot el isl) s = .next (kSilent v' pkg key el st' e w none)) ∧
        (∀ x, freePassed v (wroteOn st (kBytes (kFMT w))) (passedCount (wroteOn st (kBytes (kFMT w)))) = .error x →
          exec (.kenq pkg stk slot el isl) s = .next (kEnds v pkg key (wroteOn st (kBytes (kFMT w))) 2 x))) ∧
      (st.dir = false → st' = withPart st (st.part ++ bs) →
        (st'.part.length < st.tile → exec (.kenq pkg stk slot el isl) s = .next (kSilent s pkg key el st' e w none)) ∧
        (st.tile ≤ st'.part.length → ringBad s st' = none → exec (.kenq pkg stk slot el isl) s =
          .next (kSilent (deliverTile s st' ((padTile st').take st.tile)) pkg key el (withPart st' (st'.part.drop st.tile)) e w none)))) ∧
    (kTurn s pkg key el isl 0x21 = some (st, e, r, w) → st.dir = true → a.level = 7 →
      freePassed s st st.passing.length = .ok (v', st') →
      exec (.kenq pkg stk slot el isl) s = .next (kEnds (setStream (freeStep v') pkg key (kEffect st' el e w (freeResult v') none none)) pkg key
        (kEffect st' el e w 0 none none) 0 0)) ∧
    (∀ (n : Nat) (r : Ring) (sub : RingSub) (rest : List RingSub), st.rings = sub :: rest → n ≠ 0 → subRing s sub = some r → ringBad s st = none →
      freePassed s st n = .ok ((st.passing.take n).foldl (fun s x => ringFree' s r x.1 sub.consumer) s, leftPassing st n)) ∧
    (kTurn s pkg key el isl 0x30 = some (st, e, r, w) → memRead s pkg key stk st e w a = (u, some b) →
      exec (.kmrd pkg stk slot el isl) s = .next (kDone u pkg key el st e w b)) ∧
    (kTurn s pkg key el isl 0x31 = some (st, e, r, w) → a.level = b.level → memWriteElem s pkg key stk st e w a b = (u, true) →
      exec (.kmwr pkg stk slot el isl) s = .next (kSilent u pkg key el st e w none)) ∧
    (∀ k at_, (kTurn s pkg key el isl 0x38 = some (st, e, r, w) →
        nbCommand s (streamWho (key / 64) st) 0 (kf w 0 2) (b.data.toNat % 2 ^ (8 * nbSize (kf w 0 2))) 256
          [(window st e + word a.data.toNat, window st e + word b.data.toNat)] = (u, k, 0, 0, at_) →
        exec (.knbadd pkg stk slot el isl) s = .next (kDone (freeStep u) pkg key el st e w { data := freeResult u, level := 0 })) ∧
      (kTurn s pkg key el isl 0x39 = some (st, e, r, w) →
        nbCommand s (streamWho (key / 64) st) 1 (kf w 0 2) (b.data.toNat % 2 ^ (8 * nbSize (kf w 0 2))) 256
          [(window st e + word a.data.toNat, window st e + word a.data.toNat)] = (u, k, 0, 0, at_) →
        exec (.knbscl pkg stk slot el isl) s = .next (kDone (freeStep u) pkg key el st e w { data := freeResult u, level := 0 })) ∧
      (kTurn s pkg key el isl 0x3A = some (st, e, r, w) →
        nbCommand s (streamWho (key / 64) st) 2 (kf w 0 2) (b.data.toNat % 2 ^ (8 * nbSize (kf w 0 2))) 256
          [(window st e + word a.data.toNat, window st e + word b.data.toNat)] = (u, k, 0, 0, at_) →
        exec (.knbsum pkg stk slot el isl) s = .next (kDone (freeStep u) pkg key el st e w { data := freeResult u, level := 0 }))) ∧
    (∀ n l out, kBegin s pkg key el (waveTurn el) = some (st, e, r) → waveReady (atStart st) el r = true → (waveLevels e).any (fun x => x != n) = false →
      n = (waveLevels e).headD 0 →
      (n ≠ 0 → waveMarkers n (sortOrd (ordSlots e)) s = (u, out) → exec (.wave pkg stk slot el) s = .next (waveDone u pkg key el st e out)) ∧
      (n = 0 → waveCheck s key st e (sortOrd (ordSlots e)) = (u, .done l) →
        waveRun u pkg key stk (waveKept st el e) el e (sortOrd (ordSlots e)) [] = (v, some out) →
        exec (.wave pkg stk slot el) s = .next (waveDone v pkg key el (waveKept st el e) e out)))

/-! ## Events of the units of a core and a grove -/

/-- 11 R293, R294, R296: an operation starts once its counter has reached its target, goes on when it waited for a page, and completes with its status
record, then its counter; an ECOPY whose accesses succeed and whose bytes do not meet ends with code 0 and delivers its bytes to its barrier. -/
def Obligations.EngineEvents : Prop :=
  ∀ (s u v : State) (core n : Nat) (o : EngOp) (bs bs' : List (List Byte)), (getCore s core).ops[n]? = some o →
    (o.phase = .waiting → (getPkg s (corePkg core)).quiet.contains o.job = false →
      (afterMet s (opAfter core o) (o.sets.getD 2 0) = true → exec (.engineOperationStart core n) s = .next (runOp (opStarted s core o) core o)) ∧
      (afterMet s (opAfter core o) (o.sets.getD 2 0) = false → exec (.engineOperationStart core n) s = .next s)) ∧
    (o.phase = .running → exec (.engineOperationStart core n) s = .next (runOp s core o) ∧
      (o.unit = 0 → engineRead s (opWho core o) o.id (copyReads o) = (u, .done bs) →
        engineWrite u (opWho core o) o.id (copyWrites o bs) = (v, .done bs') →
        copyClash u (opWho core o) (copyMoves o) = false →
        exec (.engineOperationStart core n) s = .next (opDeliver (finishEng v core o.id 0 0 0) core o (copyLen o * (copyPlaces o).length)))) ∧
    (o.phase = .finished →
      (o.sets.getD 4 0 = 0 → exec (.engineOperationCompletion core n) s = .next (opLeft s core o)) ∧
      (o.sets.getD 4 0 ≠ 0 → engineWrite s (opWho core o) o.id [(o.sets.getD 4 0, statusBytes s core o)] = (u, .done bs) →
        exec (.engineOperationCompletion core n) s = .next (opLeft u core o)))

/-- 10 R265, R272-R285: the Sawmill's queue entry, start and completion, and Cruise's start and its completion with scores and CRST. -/
def Obligations.SawmillEvents : Prop :=
  ∀ (s u : State) (g n t mode q k : Nat) (op : SawOp) (rest : List SawOp) (r : SawRun) (x pa pb c sa sb : Word),
    ((getGrove s g).sawWait[n]? = some op → afterMet s op.after op.target = true → (getGrove s g).saw.length < 32 →
      (op.after.isSome = true ∨ behindOther s (.sawmill g) ((getGrove s g).sawWait.take n) (getGrove s g).saw op.core op.born = false) →
      exec (.sawmillQueueEntry g n) s = .next (modGrove s g (fun w => { w with saw := (getGrove s g).saw ++ [op], sawWait := w.sawWait.eraseIdx n }))) ∧
    ((getGrove s g).cruWait[n]? = some op → afterMet s op.after op.target = true → (getGrove s g).cru.length < 32 →
      (op.after.isSome = true ∨ behindOther s (.cruise g) ((getGrove s g).cruWait.take n) (getGrove s g).cru op.core op.born = false) →
      exec (.sawmillQueueEntry g ((getGrove s g).sawWait.length + n)) s =
        .next (modGrove s g (fun w => { w with cru := (getGrove s g).cru ++ [op], cruWait := w.cruWait.eraseIdx n }))) ∧
    ((getGrove s g).saw = op :: rest → isRead op.kind = false → sawReady s g = true → quietJob s (grovePkg g) op.job = false →
      exec (.sawmillStart g) s = .next (sawBegun s g op rest)) ∧
    ((getGrove s g).sawRun = some r →
      (r.op.kind = .zero t mode → exec (.sawmillCompletion g) s = .next (sawDone (doZero s r.op t mode) g r.op)) ∧
      (∀ isB, r.op.kind = .load isB x c →
        exec (.sawmillCompletion g) s = .next (sawDone (r.runs.foldl (fun w st => doLoad w r.op isB c st) s) g r.op)) ∧
      (r.op.kind = .run pa pb c → exec (.sawmillCompletion g) s = .next (sawDone (r.runs.foldl (fun w st => doRun w r.op st) s) g r.op)) ∧
      (∀ row tadv m d, r.op.kind = .masked pa pb c sa sb row tadv m d →
        exec (.sawmillCompletion g) s = .next (sawDone (r.runs.foldl (fun w st => doRun w r.op st) s) g r.op)) ∧
      (∀ cvt, r.op.kind = .store x c t cvt →
        (doStore s r.op x c t cvt = (u, true) → exec (.sawmillCompletion g) s = .next (sawDone u g r.op)) ∧
        (doStore s r.op x c t cvt = (u, false) → exec (.sawmillCompletion g) s = .next u)) ∧
      (∀ rows cols pl, r.op.kind = .scale t rows cols pl → exec (.sawmillCompletion g) s = .next (sawDone (doScale s r.op t rows cols pl) g r.op))) ∧
    ((getGrove s g).cru = op :: rest → cruReady s g = true → quietJob s (grovePkg g) op.job = false →
      exec (.cruiseStart g) s = .next (modGrove (countCruise s (grovePkg g)) g (fun w => { w with cru := rest, cruRun := some op }))) ∧
    ((getGrove s g).cruRun = some op → op.kind = .cruise pa pb x c → cruRead s op pa (geoQBytes x / 1024) (geoQN x) = .ok q →
      cruRead s op pb (geoKBytes x / 1024) (geoKN x) = .ok k →
      fencedFor s (hwWho op.core op.job) (keyCore (sawKey op.core c)) = false →
      (∀ e, e ∈ cruEntries x → storeBad s (cruPlace (sawKey op.core c) e) 4 = none) →
      exec (.cruiseCompletion g) s = .next (cruDone (cruStored s (sawKey op.core c) q k x) g op 0))

/-- 02 R19-R23, R45, R48; 03 R93; 17 R390, R391; 19 R429: packets at their receiver: a message without a payload, the first packet of one that claims a
landing slot, a further packet, one for a core outside CORES, one for a fenced core, one for a quiesced job; a trigger message that would be refused
waits in the network instead (02 R48); a packet sent again; the acceptance of a message; the discard of a partial message. That a first packet, and a
discard, waits while its handler entry lies in a page in migration is log 11 (DESIGN CHOICE); that a discard takes back what the network still holds
of the message is log 49 (DEDUCED). -/
def Obligations.MessageEvents : Prop :=
  ∀ (s t u : State) (n core num i : Nat) (p : Packet) (m : Msg) (c : Claim) (r : Refused) (h : HandlerEntry),
    (s.net[n]? = some p →
      (heldMsg s p.src p.num = none → exec (.packetArrival n) s = .next (netWithout s n)) ∧
      (heldMsg s p.src p.num = some m → (getPkg s (corePkg p.src)).unreachable.contains (corePkg m.dst) = false →
        (inCores s m.dst m.job = false → exec (.packetArrival n) s = .next (purgeMsg s p.src p.num)) ∧
        (inCores s m.dst m.job = true → (getPkg s (corePkg m.dst)).quiet.contains m.job = true →
          exec (.packetArrival n) s = .next (pushOr s (refusePacket (netWithout s n) p) m)) ∧
        (inCores s m.dst m.job = true → (getPkg s (corePkg m.dst)).quiet.contains m.job = false → fencedFor s (hwWho p.src m.job) m.dst = true →
          (entryHeld s m.dst m = true → exec (.packetArrival n) s = .next s) ∧
          (entryHeld s m.dst m = false → (getCore s m.dst).claims.find? (fun c => c.src == p.src && c.num == p.num) = none →
            exec (.packetArrival n) s = .next (purgeMsg (discardMsg (entryPc s m.dst m).1 m.dst p.src m m.payload.length cFenced (entryPc s m.dst m).2
              (windowAddr m.dst 0)) p.src p.num))) ∧
        (inCores s m.dst m.job = true → (getPkg s (corePkg m.dst)).quiet.contains m.job = false → fencedFor s (hwWho p.src m.job) m.dst = false →
          ((getCore s m.dst).claims.find? (fun c => c.src == p.src && c.num == p.num) = some c →
            exec (.packetArrival n) s = .next (morePacket (netWithout s n) m.dst p m c)) ∧
          ((getCore s m.dst).claims.find? (fun c => c.src == p.src && c.num == p.num) = none →
            entryHeld s m.dst m = true → exec (.packetArrival n) s = .next s) ∧
          ((getCore s m.dst).claims.find? (fun c => c.src == p.src && c.num == p.num) = none → entryHeld s m.dst m = false →
            findHandler (netWithout s n) m.dst m m.payload.length = (t, .ok h) →
            (m.payload = [] → arrive t m.dst (launchRec m 0 p.src h.addr 0) = (u, true) →
              exec (.packetArrival n) s = .next (pushOr s (acceptPacket u p) m)) ∧
            (m.payload = [] → arrive t m.dst (launchRec m 0 p.src h.addr 0) = (u, false) →
              exec (.packetArrival n) s = .next (pushOr s (refusePacket t p) m)) ∧
            (m.payload ≠ [] → lowestFree (fun j => (getCore t m.dst).slots.contains (h.pool + j * h.size)) h.slots 0 = some i →
              exec (.packetArrival n) s = .next
                (pushOr s (morePacket (claimSlot t m.dst p m (h.pool + i * h.size) h.addr) m.dst p m (claimNew t p m (h.pool + i * h.size) h.addr)) m)) ∧
            (m.payload ≠ [] → lowestFree (fun j => (getCore t m.dst).slots.contains (h.pool + j * h.size)) h.slots 0 = none →
              exec (.packetArrival n) s = .next (pushOr s (refusePacket t p) m)))))) ∧
    (∀ t : State, pushOr s t m = if m.trig = true ∧ s.refused.length < t.refused.length then s else t) ∧
    (s.refused[n]? = some r → (r.due ≤ s.cycle → exec (.packetResend n) s = .next (resent s n r)) ∧
      (s.cycle < r.due → exec (.packetResend n) s = .next s)) ∧
    (heldMsg s core num = some m → m.left = 0 → t = heldWithout s core num →
      exec (.messageAcceptance core num) s = .next (flushSends (getCore t core).sendQ.length t core)) ∧
    (∀ a b : Nat, apart s a b = true ↔ ((getPkg s a).unreachable.contains b = true ∨ (getPkg s b).unreachable.contains a = true)) ∧
    ((getCore s core).claims[n]? = some c →
      (c.last + 2 ^ 20 ≤ s.cycle → apart s (corePkg core) (corePkg c.src) = true → exec (.partialMessageDiscard core n) s = .next (dropClaim s core c)) ∧
      (c.last + 2 ^ 20 < s.cycle → apart s (corePkg core) (corePkg c.src) = false → (getCore s core).phys ≠ 32 →
        entryHeld s core c.msg = false → exec (.partialMessageDiscard core n) s =
          .next (discardMsg (purgeMsg (dropClaim (entryPc s core c.msg).1 core c) c.src c.num) core c.src c.msg c.len cFenced (entryPc s core c.msg).2
            (windowAddr core 0))))

/-- 02 R31-R33, R43, R47, R49, R50: the refill of a landing queue from its deck, aging in queue order, in which a record whose own deck is full holds no
other back (R48), the start of a record in the order of R50, and hardware suspension, before which a request that can be performed is performed (07
R196, 09 R262), and which leaves a thread whose group's record failed (18 R413) to its own context. A record whose frame lies in a page in migration
waits (03 R93; log 11, DESIGN CHOICE). -/
def Obligations.RecordEvents : Prop :=
  ∀ (s t v : State) (core prio n job ctx i p home since seq : Nat) (q : QRec) (rest : List Nat) (l : List QRec) (bs : List Byte) (c : Ctx) (o : Obj)
    (addr : Word),
    (kget (getCore s core).deckOrder [] prio = [] → exec (.deckRefill core prio) s = .next (flushLaunches s core)) ∧
    (kget (getCore s core).deckOrder [] prio = job :: rest → (queueOf (getCore s core) prio).length < 32 → (getCore s core).fenced = none →
      hwRead (deckTaken s core prio job rest) (hwWho core job) (deckAddr (jobD s (corePkg core) job) core prio (deckOf s core job prio).head) 64 = (v, .ok bs) →
      exec (.deckRefill core prio) s = .next (flushLaunches (enqueue v core (plainRec (recOf bs))) core)) ∧
    ((queueOf (getCore s core) prio)[n]? = some q →
      (agedMove s core prio n = none ↔
        overdue s core prio q = false ∨ (q.handler = none ∧ (arrive (queueWithout s core prio n) core (raised q prio).r).2 = false)) ∧
      (overdue s core prio q = true → (∀ i, i < n → agedMove s core prio i = none) →
        (q.handler = none → arrive (queueWithout s core prio n) core (raised q prio).r = (t, true) →
          exec (.recordAging core prio n) s = .next (flushLaunches t core)) ∧
        (q.handler = none → arrive (queueWithout s core prio n) core (raised q prio).r = (t, false) → exec (.recordAging core prio n) s = .next s) ∧
        (q.handler ≠ none →
          exec (.recordAging core prio n) s = .next (flushLaunches (launchPush (queueWithout s core prio n) core (coreId core) (raised q prio)) core))) ∧
      (overdue s core prio q = false ∨ (∃ i, i < n ∧ (agedMove s core prio i).isSome = true) → exec (.recordAging core prio n) s = .next s)) ∧
    (overdue s core prio q = true ↔ prio ≠ 0 ∧ q.age + 4096 ≤ s.cycle ∧ (jobD s (corePkg core) q.r.job).cap < prio) ∧
    (dormantCtx s core = some ctx → (getCore s core).fenced = none → (getCore s core).offMark = false →
      (queuePick s core = some (p, q) →
        exec (.recordStart core) s = .next (flushLaunches (startLaunch (queueTaken s core p) ctx q) core)) ∧
      (queuePick s core = none → poolPick s core (poolAll (getGrove s (coreGrove core))) = some i → poolTake s (coreGrove core) i = (t, some q) →
        exec (.recordStart core) s = .next (if frameHeld s core q then s else startResume t ctx q)) ∧
      (queuePick s core = none → poolPick s core (poolAll (getGrove s (coreGrove core))) = none → (getCore s core).deque = q :: l →
        mayStart s core q.r.job = true →
        exec (.recordStart core) s = .next (if frameHeld s core q then s else startResume (dequeTaken s core l) ctx q)) ∧
      (queuePick s core = none → poolPick s core (poolAll (getGrove s (coreGrove core))) = none → (getCore s core).deque = [] →
        stealFrom s core = some (p, q) →
        exec (.recordStart core) s = .next (if frameHeld s core q then s else startResume (dequeStolen s p) ctx (stolen q))) ∧
      (∀ c : Nat, stealFrom s c = some (core, q) → (getCore s core).deque.length = 1 → ownerPops s core = false)) ∧
    ((getCtx s ctx).status = .waiting o since seq → requestReady s ctx = true → exec (.hardwareSuspension ctx) s = .next s) ∧
    ((getCtx s ctx).status = .waiting o since seq → (getCtx s ctx).lost = true ∨ groupGone s o = true → exec (.hardwareSuspension ctx) s = .next s) ∧
    (∀ (g k : Nat) (x : QRec), (getGrove s g).pool[k]? = some x → (getGrove s g).ring = [] → (getGrove s g).behind = [] →
      poolTake s g k = (modGrove s g (fun u => { u with pool := u.pool.eraseIdx k }), some x)) ∧
    (c = getCtx s ctx → c.status = .waiting o since seq → parkHome ctx o = some home → 0 < (jobD s (corePkg (ctxCore ctx)) c.job).wth →
      since + (jobD s (corePkg (ctxCore ctx)) c.job).wth ≤ s.cycle → (getCore s home).park.length < 64 → requestReady s ctx = false →
      unacked s ctx = none → c.lost = false → groupGone s o = false →
      (spill (releaseWaits s ctx) (ctxCore ctx) c = (t, .at addr) → exec (.hardwareSuspension ctx) s = .next (parkedAt t ctx home c o addr)) ∧
      (spill (releaseWaits s ctx) (ctxCore ctx) c = (t, .none) → exec (.hardwareSuspension ctx) s = .next s))

/-- 03 R82-R87, 04 R105-R107, R114, R415: stores reach their homes, one that a fenced core turned away becomes a notice, owned words and partials go home,
misses are walked, but not for a page in migration (03 R93), refused ones retried, and a performed shootdown leaves the list. That a walk sets A only
for a page that may be read is log 56, that a store turned away leaves a notice log 79, and which job the notice of a lost partial goes to log 21 (all
DEDUCED). -/
def Obligations.HomeEvents : Prop :=
  ∀ (s t u : State) (n core key g line i job va pkg : Nat) (p : PendingStore) (q : Partial) (e e' : TlbEntry) (m : Miss) (x : Shoot),
    (s.stores[n]? = some p →
      (p.remote = false → exec (.storeRegistration n) s = .next (reachHome s n)) ∧
      (p.remote = true → awayStore s p = false → exec (.remoteStoreAcknowledgement n) s = .next (reachHome s n)) ∧
      (p.remote = true → awayStore s p = true → exec (.remoteStoreAcknowledgement n) s = .next s)) ∧
    (s.stores[n]? = none → s.nacked[n - s.stores.length]? = some p → exec (.remoteStoreAcknowledgement n) s = .next (turnedAway s (n - s.stores.length) p)) ∧
    (((List.range 8).any (ownsByte s core (key / 8 * 8)) = true → s.bad.contains (l1Mark core (key / 8 * 8)) = false →
        exec (.ownedWordEviction core key) s = .next (dropL1Word (dwordHome s core (key / 8 * 8)) core (key / 8 * 8))) ∧
      ((List.range 8).any (ownsByte s core (key / 8 * 8)) = false →
        exec (.ownedWordEviction core key) s = .next (dropL1Word s core (key / 8 * 8)))) ∧
    (s.partials.findIdx? (partialAt g line) = some i → s.partials[i]? = some q →
      (q.bad = false → exec (.updateOnlyFlush g line) s = .next (combine (partialsWithout s i) q)) ∧
      (q.bad = true → exec (.updateOnlyFlush g line) s = .next (keyNotice (partialsWithout s i) 0x1FFF (line / 64 * 64)))) ∧
    (migrating s (corePkg core) job va = true → exec (.tlbMissRequest core job va) s = .next s) ∧
    ((astEntry s (corePkg core) job).getLsbD 0 = true → migrating s (corePkg core) job va = false → va < 28 * 2 ^ 52 → tlbFind (getCore s core).tlb job va = none →
      (tlbFind (getGrove s (transHome core job va)).tlb2 job va = some e →
        exec (.tlbMissRequest core job va) s = .next (installAt s core (transHome core job va) e)) ∧
      (tlbFind (getGrove s (transHome core job va)).tlb2 job va = none → exec (.tlbMissRequest core job va) s =
        .next (missArrives s (transHome core job va) { core := core, job := job, va := va, due := 0 }))) ∧
    ((getGrove s g).walkRef[n]? = some m →
      (m.due ≤ s.cycle → exec (.walkRetry g n) s = .next (walkAgain s g n m)) ∧ (s.cycle < m.due → exec (.walkRetry g n) s = .next s)) ∧
    ((getGrove s g).walks[n]? = some m → t = walkDone s g m →
      (migrating t (grovePkg g) m.job m.va = true → exec (.walkCompletion g n) s = .next t) ∧
      (migrating t (grovePkg g) m.job m.va = false → walk t (grovePkg g) (coreDie m.core) m.job m.va = .leaf e →
        (permits .read e = true → setAD t e false = (u, e') →
          exec (.walkCompletion g n) s = .next (installAll u g ((getGrove s g).walks.filter (samePage m)) e')) ∧
        (permits .read e = false → exec (.walkCompletion g n) s = .next (installAll t g ((getGrove s g).walks.filter (samePage m)) e))) ∧
      (migrating t (grovePkg g) m.job m.va = false → walk t (grovePkg g) (coreDie m.core) m.job m.va = .absent → exec (.walkCompletion g n) s = .next t)) ∧
    ((getPkg s pkg).shoots[n]? = some x → exec (.tlbinvCompletion pkg n) s = .next (shotDown s pkg n x))

/-- 13 R354-R356, 18 R405, 20 R441: the landing's retry, the entry of the oldest waiting request in the ring, and the host's answer: stale, valid, or
refused; one with OK = 1 waits behind the active messages that came before it and are held. -/
def Obligations.PageRequests : Prop :=
  ∀ (s : State) (ctx pkg i gen value since seq k : Nat) (q : PageReq),
    ((getCtx s ctx).status = .waiting (.landing k) since seq →
      (since + 256 ≤ s.cycle → exec (.landingRetry ctx) s = .next (runsAgain s ctx)) ∧ (s.cycle < since + 256 → exec (.landingRetry ctx) s = .next s)) ∧
    (((getPkg s pkg).landOrder.filterMap (pageWaiting (getPkg s pkg))).head? = some (i, gen, q) →
      (ringRoom (getPkg s pkg) = true → exec (.pageRequestEntry pkg) s = .next (entryWritten s pkg i gen q)) ∧
      (ringRoom (getPkg s pkg) = false → exec (.pageRequestEntry pkg) s = .next s)) ∧
    (i = value % 4096 → kfind (getPkg s pkg).landing i = some { gen := gen, req := some q } →
      (value.testBit 12 = false ∨ (getPkg s pkg).hostHeld = [] →
        (gen ≠ value / 2 ^ 32 % 2 ^ 32 → exec (.pageRequestAnswer pkg value) s = .next (staleAnswer s pkg)) ∧
        (gen = value / 2 ^ 32 % 2 ^ 32 → value.testBit 12 = true →
          exec (.pageRequestAnswer pkg value) s = .next (q.parked.foldl (fun t e => answerYes t pkg q e) (freeLandSlot s pkg i))) ∧
        (gen = value / 2 ^ 32 % 2 ^ 32 → value.testBit 12 = false →
          exec (.pageRequestAnswer pkg value) s = .next (refuseOps (q.parked.foldl (fun t e => answerNo t pkg e) (freeLandSlot s pkg i)) pkg q)))) ∧
    (value.testBit 12 = true → (getPkg s pkg).hostHeld ≠ [] → exec (.pageRequestAnswer pkg value) s = .next (answerHeld s pkg value))

/-- 02 R53, 11 R312, 17 R384, R387-R389, 18 R408, R409: the delivery of a held trap, a missed heartbeat, a spare's takeover, a WFE's time-out, a core
powered down, soft errors and the scrubber. That a lost record is reported at once is log 55, and what a fence destroys and what it writes back are
log 59 and log 22 (all DEDUCED). -/
def Obligations.FaultEvents : Prop :=
  ∀ (s : State) (ctx core since seq k key n pkg block : Nat) (f : FaultInfo) (c : Nat),
    ((getCtx s ctx).status = .faulting f since →
      (ringFree s (corePkg (ctxCore ctx)) (getCtx s ctx).job = true → exec (.faultDelivery ctx) s = .next (deliverTrap s ctx f)) ∧
      (ringFree s (corePkg (ctxCore ctx)) (getCtx s ctx).job = false → exec (.faultDelivery ctx) s = .next s) ∧
      (since + 256 ≤ s.cycle → exec (.faultDeliveryRetry ctx) s = .next (deliverTrap s ctx f)) ∧
      (s.cycle < since + 256 → exec (.faultDeliveryRetry ctx) s = .next s)) ∧
    ((getCtx s ctx).status ≠ .dormant → 0 < (jobD s (corePkg (ctxCore ctx)) (getCtx s ctx).job).hbi →
      (jobD s (corePkg (ctxCore ctx)) (getCtx s ctx).job).hbi ≤ heartbeat s ctx → (getCore s (ctxCore ctx)).fenced = none →
      exec (.heartbeatMiss ctx) s = .next (fenceCore s (ctxCore ctx))) ∧
    ((jobD s (corePkg (ctxCore ctx)) (getCtx s ctx).job).hbi = 0 → exec (.heartbeatMiss ctx) s = .next s) ∧
    ((getCore s core).fenced = some since → spareOf s (coreGrove core) = some k →
      (since + 64 ≤ s.cycle → exec (.spareTakeover core) s = .next (spareTaken s core k)) ∧
      (s.cycle < since + 64 → exec (.spareTakeover core) s = .next s)) ∧
    ((getCtx s ctx).status = .waiting (.event k) since seq →
      (since + 65536 ≤ s.cycle → exec (.wfeTimeout ctx) s = .next (wfeOver s ctx)) ∧ (s.cycle < since + 65536 → exec (.wfeTimeout ctx) s = .next s)) ∧
    (hasPower s (corePkg core) = true → exec (.corePoweredDown core) s = .next (poweredDown s core)) ∧
    exec (.softError 0 key) s = .next (unitSpoiled s key) ∧
    exec (.softError 1 key) s = .next (spoilRegister s (key / 1024) (key % 1024)) ∧
    exec (.softError 2 key) s = .next (spoilL1 s (key / 2 ^ 66) (key % 2 ^ 66)) ∧
    exec (.softError 3 key) s = .next (loseQueued s (key / 256) (key / 64 % 4) (key % 64)) ∧
    exec (.softError 4 key) s = .next (loseStolen s (key / 64) (key % 64)) ∧
    exec (.softError 5 key) s = .next (loseParked s (key / 64) (key % 64)) ∧
    exec (.softError 6 key) s = .next (losePooled s (key / 8192) (key % 8192)) ∧
    exec (.softError 7 n) s = .next (partialSpoiled s n) ∧
    exec (.softError 8 key) s = .next (spoilGroup s (key / 2 ^ 28) (key % 2 ^ 28)) ∧
    exec (.softError 9 core) s = .next (tlbLost s core) ∧
    exec (.softError 10 key) s = .next (spoilRegion s (key / 512) (key % 512)) ∧
    (c < 8 → exec (.softError 11 (8 * pkg + c)) s = .next (corrBump s pkg c)) ∧
    (pkg < 4096 → exec (.softError 12 (4096 * n + pkg)) s = .next (spoilPlay s n pkg)) ∧
    (keyIsScratch key = false → exec (.softError 13 key) s = .next (sliceSpoiled s key)) ∧
    (hasPower s pkg = true → block < 2 ^ 34 → s.bad.contains (physKey pkg (32 * block)) = true → exec (.patrolScrub pkg block) s = .next (uncBump s pkg 3)) ∧
    (s.bad.contains (physKey pkg (32 * block)) = false → exec (.patrolScrub pkg block) s = .next s)

/-! ## The host (02, 13) -/

/-- 13 R352, R353; 02 R35: a command of the job-table interface starts when none runs, and is ignored while one runs or the package is off; what each
accepted command does, with RESULT 0; and what each refused one gives: 1 for a bad argument, 2 for a refused descriptor, 3 for a job in use, 4 for a
full table. That an unreadable descriptor or context and a REMOVE of a job that is not installed give RESULT 1 is the model's reading (log 61,
DEDUCED), and that REGION of a registered key replaces its region with RESULT 0 is the model's choice (log 100, DESIGN CHOICE). -/
def Obligations.HostCommands : Prop :=
  ∀ (s t u : State) (pkg job src pa x first n : Nat) (bs : List Byte) (d : Job) (q : QueuePair) (z : Bool),
    ((getPkg s pkg).busy = true ∨ hasPower s pkg = false →
      exec (.install pkg) s = .next s ∧ exec (.remove pkg) s = .next s ∧ exec (.aset pkg) s = .next s ∧ exec (.shoot pkg) s = .next s ∧
      exec (.bind pkg) s = .next s ∧ exec (.grant pkg) s = .next s ∧ exec (.hotread pkg) s = .next s ∧ exec (.region pkg) s = .next s ∧
      exec (.qpset pkg) s = .next s) ∧
    ((getPkg s pkg).busy = false → hasPower s pkg = true →
      (u = withOp s pkg 1 → jta u pkg 0 % 128 = 0 → physRead u pkg (jta u pkg 0) 896 = (t, some bs) → descriptorOf bs = (job, d, true) →
        descriptorOk d true = true → jobOn t pkg job = none → exec (.install pkg) s = .next (result (jobSet t pkg job d) pkg 0)) ∧
      (u = withOp s pkg 2 → job = jta u pkg 0 → jobOn u pkg job = some d →
        (jobBusy u pkg job = false → exec (.remove pkg) s = .next (result (teardown u pkg job d) pkg 0)) ∧
        (jobBusy u pkg job = true → exec (.remove pkg) s = .next (result u pkg 3))) ∧
      (u = withOp s pkg 3 → jta u pkg 0 < 4096 → fld (getPkg u pkg).jta1 1 11 = 0 → fld (getPkg u pkg).jta1 52 12 = 0 →
        exec (.aset pkg) s = .next (result (astSet u pkg (jta u pkg 0) (getPkg u pkg).jta1) pkg 0)) ∧
      (u = withOp s pkg 4 → jta u pkg 0 < 3 → jta u pkg 1 < 4096 → exec (.shoot pkg) s = .next (shootSet u pkg)) ∧
      (u = withOp s pkg 5 → jta u pkg 0 < 4096 → jta u pkg 1 / 2 ^ 12 % 2 ^ 51 = 0 →
        ((jta u pkg 1).testBit 63 = true → exec (.bind pkg) s = .next (result (bindSet u pkg (jta u pkg 0) none) pkg 0)) ∧
        ((jta u pkg 1).testBit 63 = false → (jobOn u pkg (jta u pkg 1 % 4096)).isSome = true →
          exec (.bind pkg) s = .next (result (bindSet u pkg (jta u pkg 0) (some (jta u pkg 1 % 4096))) pkg 0))) ∧
      (u = withOp s pkg 6 → job = jta u pkg 0 → job < 4096 → jta u pkg 1 % 2 ^ 21 = 0 → jta u pkg 1 + jta u pkg 2 * 2 ^ 21 ≤ 2 ^ 52 →
        (jta u pkg 2 = 0 → exec (.grant pkg) s = .next (result (grantSet u pkg job []) pkg 0)) ∧
        (0 < jta u pkg 2 → (kget (getPkg u pkg).grants [] job).length < 16 → exec (.grant pkg) s =
          .next (result (grantSet u pkg job (kget (getPkg u pkg).grants [] job ++ [(jta u pkg 1, jta u pkg 2 * 2 ^ 21)])) pkg 0))) ∧
      (u = withOp s pkg 7 → HotreadOk u pkg src pa x first n → exec (.hotread pkg) s =
        .next (result (mend (homeWrite (recallCounted u pkg (physKey pkg pa) (16 * n)) (physKey pkg pa) (hotEntries (getPkg u pkg) src first n))
          (physKey pkg pa) (16 * n)) pkg 0)) ∧
      (u = withOp s pkg 8 → jta u pkg 0 < 2 ^ 52 → 0 < jta u pkg 2 → jta u pkg 2 ≤ 2 ^ 40 → (getPkg u pkg).regions.length < 4096 →
        exec (.region pkg) s = .next (result (regionSet u pkg (jta u pkg 0 % 2 ^ 32) (regionOf u pkg)) pkg 0)) ∧
      (u = withOp s pkg 9 → jta u pkg 0 < 1024 →
        (jta u pkg 1 = 0 → exec (.qpset pkg) s = .next (result (qpSet u pkg (jta u pkg 0) none) pkg 0)) ∧
        (jta u pkg 1 ≠ 0 → physRead u pkg (jta u pkg 1) 64 = (t, some bs) → contextOf bs = some q →
          exec (.qpset pkg) s = .next (result (qpSet t pkg (jta u pkg 0) (some q)) pkg 0))) ∧
      (u = withOp s pkg 1 →
        (jta u pkg 0 % 128 ≠ 0 → exec (.install pkg) s = .next (result u pkg 1)) ∧
        (jta u pkg 0 % 128 = 0 → physRead u pkg (jta u pkg 0) 896 = (t, none) → exec (.install pkg) s = .next (result t pkg 1)) ∧
        (jta u pkg 0 % 128 = 0 → physRead u pkg (jta u pkg 0) 896 = (t, some bs) → descriptorOf bs = (job, d, z) →
          (descriptorOk d z = false → exec (.install pkg) s = .next (result t pkg 2)) ∧
          (descriptorOk d z = true → (jobOn t pkg job).isSome = true → exec (.install pkg) s = .next (result t pkg 3)))) ∧
      (u = withOp s pkg 2 → jobOn u pkg (jta u pkg 0) = none → exec (.remove pkg) s = .next (result u pkg 1)) ∧
      (u = withOp s pkg 3 → 4096 ≤ jta u pkg 0 ∨ fld (getPkg u pkg).jta1 1 11 ≠ 0 ∨ fld (getPkg u pkg).jta1 52 12 ≠ 0 →
        exec (.aset pkg) s = .next (result u pkg 1)) ∧
      (u = withOp s pkg 4 → 3 ≤ jta u pkg 0 ∨ 4096 ≤ jta u pkg 1 → exec (.shoot pkg) s = .next (result u pkg 1)) ∧
      (u = withOp s pkg 5 → 4096 ≤ jta u pkg 0 ∨ jta u pkg 1 / 2 ^ 12 % 2 ^ 51 ≠ 0 ∨
          ((jta u pkg 1).testBit 63 = false ∧ jobOn u pkg (jta u pkg 1 % 4096) = none) → exec (.bind pkg) s = .next (result u pkg 1)) ∧
      (u = withOp s pkg 6 → job = jta u pkg 0 →
        (4096 ≤ job ∨ jta u pkg 1 % 2 ^ 21 ≠ 0 ∨ 2 ^ 52 < jta u pkg 1 + jta u pkg 2 * 2 ^ 21 → exec (.grant pkg) s = .next (result u pkg 1)) ∧
        (job < 4096 → jta u pkg 1 % 2 ^ 21 = 0 → jta u pkg 1 + jta u pkg 2 * 2 ^ 21 ≤ 2 ^ 52 → 0 < jta u pkg 2 →
          16 ≤ (kget (getPkg u pkg).grants [] job).length → exec (.grant pkg) s = .next (result u pkg 4))) ∧
      (u = withOp s pkg 7 → (∀ src pa x first n : Nat, ¬ HotreadOk u pkg src pa x first n) → exec (.hotread pkg) s = .next (result u pkg 1)) ∧
      (u = withOp s pkg 8 →
        (2 ^ 52 ≤ jta u pkg 0 ∨ jta u pkg 2 = 0 ∨ 2 ^ 40 < jta u pkg 2 → exec (.region pkg) s = .next (result u pkg 1)) ∧
        (jta u pkg 0 < 2 ^ 52 → 0 < jta u pkg 2 → jta u pkg 2 ≤ 2 ^ 40 → 4096 ≤ (getPkg u pkg).regions.length →
          kfind (getPkg u pkg).regions (jta u pkg 0 % 2 ^ 32) = none → exec (.region pkg) s = .next (result u pkg 4))) ∧
      (u = withOp s pkg 9 →
        (1024 ≤ jta u pkg 0 → exec (.qpset pkg) s = .next (result u pkg 1)) ∧
        (jta u pkg 0 < 1024 → jta u pkg 1 ≠ 0 → physRead u pkg (jta u pkg 1) 64 = (t, none) → exec (.qpset pkg) s = .next (result t pkg 1)) ∧
        (jta u pkg 0 < 1024 → jta u pkg 1 ≠ 0 → physRead u pkg (jta u pkg 1) 64 = (t, some bs) → contextOf bs = none →
          exec (.qpset pkg) s = .next (result t pkg 1))) ∧
      (n < 256 → n = 0 ∨ 9 < n → exec (.registerWrite pkg 0 (256 + n) 0) s = .next (result (withOp s pkg n) pkg 1)))

/-- 00 R5, 02 R36, 13 R347, R350, R351, R355; 16 R376; 20 R441: writes of BAR0 registers by the host, active messages, and accesses of the HDM range, none
of which reaches a package that is off. A message that meets a full deck is held, further ones wait behind it, and what is held goes on in its order. -/
def Obligations.HostAccesses : Prop :=
  ∀ (s t : State) (pkg v page ofs size data core job wr : Nat) (r : Rec) (h : HostHeld) (l : List HostHeld),
    (hasPower s pkg = true →
      (v < 2 ^ 64 →
        (v.testBit 8 = false → exec (.registerWrite pkg 0 v 0) s = .next (withOp s pkg (v % 256))) ∧
        (v.testBit 8 = true → (getPkg s pkg).busy = true → exec (.registerWrite pkg 0 v 0) s = .next s) ∧
        (v.testBit 8 = true → (getPkg s pkg).busy = false →
          exec (.registerWrite pkg 0 v 0) s = .next (command (withOp s pkg (v % 256)) pkg (v % 256))) ∧
        exec (.registerWrite pkg 0x008 v 0) s = .next (modPkg s pkg (fun p => { p with jta0 := word v })) ∧
        exec (.registerWrite pkg 0x010 v 0) s = .next (modPkg s pkg (fun p => { p with jta1 := word v })) ∧
        exec (.registerWrite pkg 0x018 v 0) s = .next (modPkg s pkg (fun p => { p with jta2 := word v })) ∧
        exec (.registerWrite pkg 0x100 v 0) s = .next (modPkg s pkg (fun p => { p with ringBase := word v })) ∧
        exec (.registerWrite pkg 0x108 v 0) s = .next (modPkg s pkg (fun p => { p with ringCount := word v })) ∧
        exec (.registerWrite pkg 0x118 v 0) s = .next (modPkg s pkg (fun p => { p with ringTail := word v })) ∧
        exec (.registerWrite pkg 0x120 v 0) s = exec (.pageRequestAnswer pkg v) s) ∧
      (page < 4096 → powered s pkg = true →
        (hostTarget s pkg page ofs size data = none → exec (.hostActiveMessage pkg page ofs size data) s = .next (discard s pkg page)) ∧
        (hostTarget s pkg page ofs size data = some (job, core) → r = hostRec pkg job data →
          ((getPkg s pkg).hostHeld = [] →
            (hostArrive (accept s pkg page) core r = (t, true) → exec (.hostActiveMessage pkg page ofs size data) s = .next t) ∧
            (hostArrive (accept s pkg page) core r = (t, false) →
              exec (.hostActiveMessage pkg page ofs size data) s = .next (hostHold (accept s pkg page) pkg core r))) ∧
          ((getPkg s pkg).hostHeld ≠ [] → exec (.hostActiveMessage pkg page ofs size data) s = .next (hostHold (accept s pkg page) pkg core r)))) ∧
      (ofs + size ≤ (getPkg s pkg).hdm → hasTarget (getPkg s pkg) ioDie ofs = true → t = recallCounted s pkg (physKey pkg ofs) size →
        (wr = 1 → storeBad t (physKey pkg ofs) size = none → exec (.hostHdmAccess pkg wr ofs size v) s =
          .next (mend (homeWrite t (physKey pkg ofs) (leBytes size v)) (physKey pkg ofs) size)) ∧
        (wr ≠ 1 → firstBad t (physKey pkg ofs) size = none → exec (.hostHdmAccess pkg wr ofs size v) s =
          .next (modPkg t pkg (fun p => { p with hdmRead := some (leNat (homeRead t (physKey pkg ofs) size)) }))) ∧
        (∀ x : Nat, wr ≠ 1 → firstBad t (physKey pkg ofs) size = some x → exec (.hostHdmAccess pkg wr ofs size v) s =
          .next (modPkg (countUnit t pkg (some x)) pkg (fun p => { p with hdmRead := none }))))) ∧
    (hasPower s pkg = false → exec (.registerWrite pkg ofs v wr) s = .next s ∧ exec (.hostHdmAccess pkg wr ofs size v) s = .next s) ∧
    (powered s pkg = false → exec (.hostActiveMessage pkg page ofs size data) s = .next s) ∧
    ((getPkg s pkg).hostHeld = h :: l →
      (h.answer = none → (getPkg s pkg).quiet.contains h.qrec.r.job = true → exec (.hostMessageRetry pkg) s = .next s) ∧
      (h.answer = none → (getPkg s pkg).quiet.contains h.qrec.r.job = false →
        (hostArrive (heldRest s pkg l) h.core h.qrec.r = (t, true) → exec (.hostMessageRetry pkg) s = .next t) ∧
        (hostArrive (heldRest s pkg l) h.core h.qrec.r = (t, false) → exec (.hostMessageRetry pkg) s = .next s)) ∧
      (h.answer = some v → exec (.hostMessageRetry pkg) s = .next (actAnswer (heldRest s pkg l) pkg v))) ∧
    ((getPkg s pkg).hdm < ofs + size → exec (.hostHdmAccess pkg wr ofs size v) s = .next s)

/-! ## Platform, pre-emption, plays, links (13, 16, 17, 19) -/

/-- 16 R369-R376: governor, hotness, monitors, limits, boot, recovery, fuses, debug tokens, lifecycle, power, reset, debug access and trace. What device
reset keeps is log 25; boot, recovery and fuses in Standby only, accesses by debug level and the lifecycle's changes are log 63; when monitors and
current limits act is log 64 (all DEDUCED). 16 R374: what the responder answers while the package is powered and port 0's link is up: version 1.3,
certificates, challenge and measurements, the two algorithms, and UnsupportedRequest for everything else. The answers' codes and contents are the
model's encoding (log 20). -/
def Obligations.PlatformEvents : Prop :=
  (∀ (s : State) (pkg v n temp vcore image kind level token space addr size next : Nat),
    (hasPower s pkg = true →
      (1 ≤ v % 512 → v % 512 ≤ 256 → 1 ≤ v / 2 ^ 16 % 512 → v / 2 ^ 16 % 512 ≤ 256 →
        exec (.govctlWrite pkg v) s = .next (governed s pkg (v % 512) (v / 2 ^ 16 % 512))) ∧
      (v % 512 = 0 → v / 2 ^ 16 % 512 = 0 → exec (.govctlWrite pkg v) s = .next (governed s pkg (getPkg s pkg).govn (getPkg s pkg).govc)) ∧
      (n < 5 → s.cycle % 2 ^ 16 = 0 → exec (.monitorRefresh pkg n temp vcore) s =
        .next (monitored s pkg n (monitorWord ((kget (getPkg s pkg).monitors 0 n).getLsbD 41) pkg n temp vcore))) ∧
      exec (.currentLimit pkg) s = .next (limited s pkg) ∧
      exec (.currentFallsBelowLimit pkg) s = .next (unlimited s pkg) ∧
      exec (.lifecycleChange pkg 0) s = .next (nextLifeOf s pkg .manufacture) ∧
      exec (.lifecycleChange pkg 1) s = .next (nextLifeOf s pkg .deployed) ∧
      exec (.lifecycleChange pkg 2) s = .next (nextLifeOf s pkg .returned)) ∧
    (hasPower s pkg = false → exec (.govctlWrite pkg v) s = .next s ∧ exec (.monitorRefresh pkg n temp vcore) s = .next s ∧
      exec (.currentLimit pkg) s = .next s ∧ exec (.currentFallsBelowLimit pkg) s = .next s ∧ exec (.lifecycleChange pkg next) s = .next s) ∧
    exec (.hotnessHalving pkg) s = .next (halveHot s pkg) ∧
    (s.cycle % 2 ^ 16 ≠ 0 → exec (.monitorRefresh pkg n temp vcore) s = .next s) ∧
    exec (.thermalTrip pkg) s = .next (losePackage s pkg) ∧
    ((getPkg s pkg).power = .standby →
      ((getPkg s pkg).recovery = false →
        exec (.boot pkg image) s = .next (if stagesGood (getPkg s pkg) image = true then startFirmware s pkg image else recovering s pkg)) ∧
      ((getPkg s pkg).recovery = true → exec (.boot pkg image) s = .next s ∧ exec (.recoveryImageWrite pkg image) s =
        .next (if stagesGood (getPkg s pkg) image = true then startFirmware s pkg image else s))) ∧
    ((getPkg s pkg).power ≠ .standby → exec (.boot pkg image) s = .next s ∧ exec (.recoveryImageWrite pkg image) s = .next s) ∧
    ((getPkg s pkg).power ≠ .off →
      ((level = 1 ∨ level = 2 ∧ (getPkg s pkg).life ≠ .deployed) → exec (.debugToken pkg level token) s =
        .next (if tokenGood (getPkg s pkg) level token = true then unlocked s pkg level else s)) ∧
      ((getPkg s pkg).life = .deployed → exec (.debugToken pkg 2 token) s = .next s) ∧
      (2 ≤ (getPkg s pkg).debug → exec (.debugAccess pkg 1 space addr size v) s = .next (debugWrite s pkg space addr size v)) ∧
      ((getPkg s pkg).debug < 2 → space ≠ 5 → exec (.debugAccess pkg 1 space addr size v) s = .next s) ∧
      (space ≠ 2 → 2 ≤ (getPkg s pkg).debug ∨ (1 ≤ (getPkg s pkg).debug ∧ traceable s pkg space addr = true) →
        exec (.debugAccess pkg 0 space addr size v) s = .next (debugRead s pkg space addr size)) ∧
      (space ≠ 2 → (getPkg s pkg).debug < 2 → (getPkg s pkg).debug = 0 ∨ traceable s pkg space addr = false →
        exec (.debugAccess pkg 0 space addr size v) s = .next s) ∧
      (n < 5 → exec (.debugAccess pkg 0 2 (0x2000 + 8 * n) size v) s = .next (monitorRead s pkg n))) ∧
    ((getPkg s pkg).power = .off → exec (.debugToken pkg level token) s = .next s ∧ exec (.debugAccess pkg n space addr size v) s = .next s) ∧
    ((getPkg s pkg).power = .standby → (getPkg s pkg).life = .manufacture →
      (v < 4 → exec (.fuseWrite pkg 0 v) s = .next (withRevoked s pkg v)) ∧
      (0 < kind → exec (.fuseWrite pkg kind v) s = .next (withRollback s pkg v))) ∧
    ((getPkg s pkg).power ≠ .standby ∨ (getPkg s pkg).life ≠ .manufacture → exec (.fuseWrite pkg kind v) s = .next s) ∧
    (2 < next → exec (.lifecycleChange pkg next) s = .next s) ∧
    exec (.powerStateChange pkg 0) s = .next (losePackage s pkg) ∧
    exec (.powerStateChange pkg 1) s = .next (inPower (if (getPkg s pkg).power = .run then turnBeats s pkg true else s) pkg .standby) ∧
    ((getPkg s pkg).power = .standby → (getPkg s pkg).booted = true → (getPkg s pkg).recovery = false →
      ((getPkg s pkg).life ≠ .returned → exec (.powerStateChange pkg 2) s = .next (inPower (turnBeats s pkg false) pkg .run)) ∧
      ((getPkg s pkg).life = .returned → exec (.powerStateChange pkg 2) s = .next (inPower (zeroHbm (turnBeats s pkg false) pkg false) pkg .run))) ∧
    exec .deviceReset s = .next (deviceReset s)) ∧
  (∀ (s : State) (pkg asym hash slot ofs len nonce index code : Nat), spdmUp s pkg = true →
    exec (.getVersion pkg) s = .next (answered s pkg 0x04 0x13) ∧
    exec (.getCapabilities pkg) s = .next (answered s pkg 0x61 22) ∧
    exec (.negotiateAlgorithms pkg asym hash) s = .next (chosen (answered s pkg 0x63 (algorithms asym hash)) pkg (algorithms asym hash)) ∧
    exec (.getDigests pkg) s = .next (answered s pkg 0x01 (Config.certDigest 0)) ∧
    exec (.getCertificate pkg slot ofs len) s = .next (answered s pkg 0x02 (Config.certificate slot / 256 ^ ofs % 256 ^ len)) ∧
    exec (.challenge pkg slot nonce) s = .next (answered s pkg 0x03 (Config.challengeSignature slot nonce)) ∧
    (1 ≤ index → index ≤ 4 → exec (.getMeasurements pkg index) s =
      .next (answered s pkg 0x60 (measurement (getPkg s pkg) index))) ∧
    (index = 0 ∨ 4 < index → exec (.getMeasurements pkg index) s = .next (answered s pkg 0x7F 0x07)) ∧
    exec (.spdmOtherRequest pkg code) s = .next (answered s pkg 0x7F 0x07))

/-- 17 R394-R401: pre-emption quiesces the jobs, and saves and releases them once nothing started remains, at once or when a later step of the machine
finds them quiet; restoration undoes it when every place is free; safe-point mode is set, times out, and is released. That a restoration does nothing
while a place is taken, what the image holds, and what becomes of a held record without a frame slot are log 62 (DEDUCED); a request that can be
performed is performed before its thread is stopped (07 R196, 09 R262). -/
def Obligations.PreemptionEvents : Prop :=
  ∀ (s t : State) (pkg n job ctx : Nat) (jobs : List Nat) (v : SavedJob) (d : Job) (f : FaultInfo) (since : Nat),
    (jobs = jobList 16 n → mayPreempt s pkg jobs = true → t = quiesce s pkg jobs →
      (jobsQuiet t pkg jobs = false → exec (.preEmption pkg n) s = .next (preemptLater t pkg jobs)) ∧
      (jobsQuiet t pkg jobs = true → exec (.preEmption pkg n) s = .next (preempted t pkg jobs))) ∧
    (mayPreempt s pkg (jobList 16 n) = false → exec (.preEmption pkg n) s = .next s) ∧
    ((getPkg s pkg).preempting = [jobs] → t = quiesce s pkg jobs →
      (mayPreempt s pkg jobs = true → jobsQuiet t pkg jobs = true → endPreemption s pkg = preempted t pkg jobs) ∧
      (jobsQuiet t pkg jobs = false → endPreemption s pkg = s)) ∧
    (kfind (getPkg s pkg).preempted job = some v →
      ((savedWith s pkg v).any (placeTaken s pkg) = false →
        exec (.restoration pkg job) s = .next ((savedWith s pkg v).foldl (fun t w => restoreJob t pkg w) (unquiet s pkg v.jobs))) ∧
      ((savedWith s pkg v).any (placeTaken s pkg) = true → exec (.restoration pkg job) s = .next s)) ∧
    (jobOn s pkg job = some d →
      exec (.safePointModeSet pkg job) s = .next (spmMarked (spmCores (spmJob s pkg job) pkg job) pkg job)) ∧
    (∀ u w : State, (getPkg s (corePkg (ctxCore ctx))).spmJobs.contains (getCtx s ctx).job = true → (getCtx s ctx).spMark + 2 ^ 20 ≤ s.cycle →
      (getCtx s ctx).status ≠ .dormant → u = (if requestReady s ctx = true then performWaiting s ctx else s) →
      ((getCtx u ctx).status = .running ∨ (∃ o k, (getCtx u ctx).status = .waiting o since k) → w = withdrawReads (releaseWaits u ctx) ctx →
        exec (.safePointTimeout ctx) s =
          .next { holdSafe { w with cur := ctx } ctx (stoppedCtx (getCtx w ctx)) false with cur := w.cur }) ∧
      ((getCtx u ctx).status = .dormant → exec (.safePointTimeout ctx) s = .next u) ∧
      ((getCtx u ctx).status = .faulting f since → exec (.safePointTimeout ctx) s = .next (deliverTrap u ctx f))) ∧
    (t = spmCoresLeft (spmLeft s pkg job) pkg job →
      exec (.safePointRelease pkg job) s = .next ((heldRecs t pkg job).foldl poolHeld (safeTaken t pkg job)))

/-- 13 R358-R360, 19 R432-R434: a chunk starts when every member has begun, its contributions are there and its counter has reached its value; its result
is kept at the root, and goes to every receiver; the chunk that all have acknowledged is finished, and the last one ends the play; a chunk without a
result runs again over the alternate tree, once; and a play aborts. -/
def Obligations.PlayEvents : Prop :=
  ∀ (s t : State) (play chunk cause : Nat) (y z : Play) (c : Chunk) (x : ChunkState) (got held : List (Nat × List Byte)),
    s.plays[play]? = some y → x = chunkState y chunk →
    (y.ended = true → exec (.playAbort play cause) s = .next (endMembers s play)) ∧
    (y.ended = false → y.plan.chunks[chunk]? = some c →
      (x.started = false → allBegan y = true → contributed y c false = true →
        (c.waitc = 0xFF ∨ c.waitn ≤ kget y.ctrs 0 c.waitc → exec (.chunkStart play chunk) s = .next (chunkStarted s play chunk c x)) ∧
        (c.waitc ≠ 0xFF → kget y.ctrs 0 c.waitc < c.waitn → exec (.chunkStart play chunk) s = .next s)) ∧
      (x.started = true → x.finished = false → x.held = none → x.edges ≠ none →
        ((∀ m ∈ rootOf y x.alt :: contributors y c x.alt, powered s (memberPkg y m) = true) →
          readContribs s y c (contributors y c x.alt) = (t, .ok got) →
          exec (.chunkCompletion play chunk) s = .next (chunkKept t play chunk x (chunkHeld y c x.alt got))) ∧
        ((∃ m ∈ rootOf y x.alt :: contributors y c x.alt, powered s (memberPkg y m) = false) → exec (.chunkCompletion play chunk) s = .next s)) ∧
      (x.started = true → x.finished = false → x.held = some held → t = delivered s play chunk c x.alt held (receivers y c x.alt) →
        t.plays[play]? = some z →
        ((∃ m ∈ receivers z c x.alt, z.wrote.contains (chunk, m) = false) → exec (.chunkCompletion play chunk) s = .next t) ∧
        ((∀ m ∈ receivers z c x.alt, z.wrote.contains (chunk, m) = true) →
          ((∃ i, i < z.plan.chunks.length ∧ i ≠ chunk ∧ (chunkState z i).finished = false) →
            exec (.chunkCompletion play chunk) s = .next (chunkFinished t play chunk c x)) ∧
          ((∀ i, i < z.plan.chunks.length → i ≠ chunk → (chunkState z i).finished = true) →
            exec (.chunkCompletion play chunk) s = .next (endPlay (chunkFinished t play chunk c x) play 0)))) ∧
      (x.started = true → x.held = none → x.alt = false →
        (x.edges = none ∨ x.startedAt + 2 ^ 20 ≤ s.cycle → exec (.chunkRedo play chunk) s = .next (chunkRedone s play chunk c x)) ∧
        (x.edges ≠ none → s.cycle < x.startedAt + 2 ^ 20 → exec (.chunkRedo play chunk) s = .next s))) ∧
    (y.ended = false → mayAbort s y cause = true → exec (.playAbort play cause) s = .next (abortPlay s play cause)) ∧
    (y.ended = false → mayAbort s y cause = false → exec (.playAbort play cause) s = .next s)

/-- 18 R422-R424, 19 R426-R431, R438: link retransmissions, lanes, the router, traffic to an unreachable package, UCIe links, CXL ports, all of a package
that has power. On which lane a flit fails, and whether its failures follow one another, are free choices (log 52, DEDUCED); which numbers of
LANE_DISABLE set a rate is the model's choice (log 80, DESIGN CHOICE); what the isolation of a die cuts off is log 53 (DEDUCED). -/
def Obligations.LinkEvents : Prop :=
  ∀ (s t : State) (pkg port lane link core num n ctx va since seq : Nat) (p : PendingStore) (m : Msg),
    (hasPower s pkg = true →
      (port < 154 → exec (.linkRetransmission pkg port) s = .next (retransmitted s pkg port)) ∧
      (port < 128 →
        (2 ≤ lane → exec (.laneDisable pkg port lane) s = .next (setRate s pkg port (lane % 2) ((lane - 2) / 2))) ∧
        (lane < 2 → exec (.laneDisable pkg port lane) s = .next (loseLane s pkg port lane) ∧
          (16 ≤ kget (getLink s pkg port).run 0 lane → exec (.laneDown pkg port lane) s = .next (loseLane s pkg port lane)) ∧
          (kget (getLink s pkg port).run 0 lane < 16 → exec (.laneDown pkg port lane) s = .next s))) ∧
      exec (.routerUncorrectable pkg) s = .next (abortPlaysOf (reroute (portsDropped (routerLost s pkg) pkg) pkg) pkg)) ∧
    ((getCtx s ctx).status = .waiting (.away va) since seq →
      (since + 2 ^ 22 ≤ s.cycle → exec (.unreachableTimeout 0 ctx) s = .next (awayFault s ctx va)) ∧
      (s.cycle < since + 2 ^ 22 → exec (.unreachableTimeout 0 ctx) s = .next s)) ∧
    (s.stores[n]? = some p → awayStore s p = true → p.since + 2 ^ 22 ≤ s.cycle → exec (.unreachableTimeout 1 n) s = .next (awayLost s n p)) ∧
    (num < 65536 → heldMsg s core num = some m → m.left ≠ 0 → (getPkg s (corePkg core)).unreachable.contains (corePkg m.dst) = true →
      m.sent + 2 ^ 22 ≤ s.cycle → exec (.unreachableTimeout 2 (core * 65536 + num)) s = .next (awayMsg s core m)) ∧
    (hasPower s pkg = true → link < 10 → (getLink s pkg (ucieKey link)).up = true →
      exec (.ucieLaneRepair pkg link) s = .next (degraded s pkg (ucieKey link)) ∧
      (t = dropLink s pkg (ucieKey link) →
        ((ucieDies link).filter (dieAlone t pkg) = [] → exec (.ucieLinkDown pkg link) s = .next t) ∧
        ((ucieDies link).filter (dieAlone t pkg) ≠ [] → exec (.ucieLinkDown pkg link) s =
          .next (cutOff (reroute (dropDies (isolatedDies t pkg ((ucieDies link).filter (dieAlone t pkg))) pkg ((ucieDies link).filter (dieAlone t pkg))) pkg) pkg)))) ∧
    (hasPower s pkg = true → port < 4 → exec (.cxlPortRecovery pkg port) s = .next (portBack s pkg port) ∧
      (portUp (getPkg s pkg) port = true → exec (.cxlPortFailure pkg port 1) s = .next (portFailed s pkg port 1) ∧
        exec (.cxlPortFailure pkg port 0) s = .next (portFailed s pkg port 0)))

/-- 13 R361-R364, 19 R435: the engine reaches a work entry, a message is received, a send completes, is tried again, and a port goes down. That only the
head entry is in work, that its bytes are read when it is reached, and that messages are received whole is log 54 (DEDUCED). -/
def Obligations.EthernetEvents : Prop :=
  ∀ (s t u : State) (pkg qp port len data imm iv : Nat) (q : QueuePair) (e : WorkEntry) (rest : List WorkEntry) (bs : List (List Byte)),
    (getQp s pkg qp = some q → q.sends = e :: rest → (getPkg s pkg).quiet.contains q.job = false →
      (q.err = true → exec (.workEntryReached pkg qp 1) s = .next (finishEntry s pkg qp true 4 0 0 false)) ∧
      (q.err = false → e.reached = false →
        ((getLink s pkg (ethKey q.port)).up = false → exec (.workEntryReached pkg qp 1) s = .next (failEntry s pkg qp true 3 noMessage)) ∧
        ((getLink s pkg (ethKey q.port)).up = true → regionOk (getPkg s pkg) q e true = false →
          exec (.workEntryReached pkg qp 1) s = .next (failEntry s pkg qp true 1 noMessage)) ∧
        ((getLink s pkg (ethKey q.port)).up = true → regionOk (getPkg s pkg) q e true = true →
          engineRead s (ethWho q e) (ethId qp true) [(e.addr, e.len)] = (t, .done bs) →
          exec (.workEntryReached pkg qp 1) s = .next (markReached t pkg qp true)))) ∧
    (getQp s pkg qp = some q → q.recvs = e :: rest → (getPkg s pkg).quiet.contains q.job = false → q.err = false → e.reached = false →
      regionOk (getPkg s pkg) q e false = true → exec (.workEntryReached pkg qp 0) s = .next (markReached s pkg qp false)) ∧
    (t = reachEntry s pkg qp false (len, if iv = 1 then imm else 0, iv = 1) → (∀ k, getQp s pkg qp = some k → k.err = false) → getQp t pkg qp = some q → q.err = false → q.recvs = e :: rest →
      e.reached = true → (getPkg t pkg).quiet.contains q.job = false →
      engineWrite t (ethWho q e) (ethId qp false) [(e.addr, leBytes (min len e.len) data)] = (u, .done bs) →
      exec (.ethReceive pkg qp len data imm iv) s =
        .next (finishEntry u pkg qp false (if e.len < len then 2 else 0) len (if iv = 1 then imm else 0) (iv = 1))) ∧
    (sentHead s pkg qp = some (q, e) → exec (.ethSendCompletion pkg qp) s = .next (finishEntry s pkg qp true 0 e.len 0 false) ∧
      (s.cycle < q.rnrAt + 128000 → exec (.rnrRetry pkg qp) s = .next s) ∧
      (q.rnrAt + 128000 ≤ s.cycle → q.rnr < 7 → exec (.rnrRetry pkg qp) s = .next (rnrAgain s pkg qp)) ∧
      (q.rnrAt + 128000 ≤ s.cycle → 7 ≤ q.rnr → exec (.rnrRetry pkg qp) s = .next (failEntry s pkg qp true 3 noMessage))) ∧
    (hasPower s pkg = true → port < 10 → exec (.ethPortDown pkg port) s = .next (portGone s pkg port))
end

