-- ==== Sys2Proof/Laws/State.lean ====
section
/-! SUPPORT. One lemma per field per update of the state, and the laws of the sparse tables: no proof unfolds a record update. -/

namespace Sys2Proof.Machine

open Sys2Proof

/-! ## Sparse tables -/

@[simp] theorem kfind_kset_same {α : Type} (m : KMap α) (k : Nat) (v : α) : kfind (kset m k v) k = some v := by
  induction m with
  | nil => simp [kset, kfind]
  | cons e m ih =>
    obtain ⟨j, u⟩ := e
    by_cases h : k = j
    · simp [kset, kfind, h]
    · by_cases g : k < j
      · simp [kset, kfind, h, g]
      · simp [kset, kfind, h, g, ih]

theorem kfind_kset_other {α : Type} (m : KMap α) {k n : Nat} (v : α) (h : n ≠ k) : kfind (kset m k v) n = kfind m n := by
  induction m with
  | nil => simp [kset, kfind, h]
  | cons e m ih =>
    obtain ⟨j, u⟩ := e
    by_cases g : k = j
    · subst g; simp [kset, kfind, h]
    · by_cases l : k < j
      · simp [kset, kfind, g, l, h]
      · simp [kset, kfind, g, l, ih]

@[simp] theorem kget_kset_same {α : Type} (m : KMap α) (d : α) (k : Nat) (v : α) : kget (kset m k v) d k = v := by
  simp [kget]

theorem kget_kset_other {α : Type} (m : KMap α) (d : α) {k n : Nat} (v : α) (h : n ≠ k) : kget (kset m k v) d n = kget m d n := by
  simp [kget, kfind_kset_other m v h]

/-- A second write of one number replaces the first. -/
theorem kset_kset {α : Type} (m : KMap α) (k : Nat) (u v : α) : kset (kset m k u) k v = kset m k v := by
  induction m with
  | nil => simp [kset]
  | cons e m ih =>
    obtain ⟨j, x⟩ := e
    by_cases h : k = j
    · simp [kset, h]
    · by_cases g : k < j
      · simp [kset, h, g]
      · simp [kset, h, g, ih]

/-! ## Units -/
@[simp] theorem setCtx_cycle (s : State) (c : Nat) (x : Ctx) : (setCtx s c x).cycle = s.cycle := rfl
@[simp] theorem setCtx_agenda (s : State) (c : Nat) (x : Ctx) : (setCtx s c x).agenda = s.agenda := rfl
@[simp] theorem setCtx_turn (s : State) (c : Nat) (x : Ctx) : (setCtx s c x).turn = s.turn := rfl
@[simp] theorem setCtx_cur (s : State) (c : Nat) (x : Ctx) : (setCtx s c x).cur = s.cur := rfl
@[simp] theorem setCtx_free (s : State) (c : Nat) (x : Ctx) : (setCtx s c x).free = s.free := rfl
@[simp] theorem setCtx_seq (s : State) (c : Nat) (x : Ctx) : (setCtx s c x).seq = s.seq := rfl
@[simp] theorem setCtx_nextOp (s : State) (c : Nat) (x : Ctx) : (setCtx s c x).nextOp = s.nextOp := rfl
@[simp] theorem setCtx_mem (s : State) (c : Nat) (x : Ctx) : (setCtx s c x).mem = s.mem := rfl
@[simp] theorem setCtx_full (s : State) (c : Nat) (x : Ctx) : (setCtx s c x).full = s.full := rfl
@[simp] theorem setCtx_bad (s : State) (c : Nat) (x : Ctx) : (setCtx s c x).bad = s.bad := rfl
@[simp] theorem setCtx_owner (s : State) (c : Nat) (x : Ctx) : (setCtx s c x).owner = s.owner := rfl
@[simp] theorem setCtx_stores (s : State) (c : Nat) (x : Ctx) : (setCtx s c x).stores = s.stores := rfl
@[simp] theorem setCtx_nacked (s : State) (c : Nat) (x : Ctx) : (setCtx s c x).nacked = s.nacked := rfl
@[simp] theorem setCtx_partials (s : State) (c : Nat) (x : Ctx) : (setCtx s c x).partials = s.partials := rfl
@[simp] theorem setCtx_ctxs (s : State) (c : Nat) (x : Ctx) : (setCtx s c x).ctxs = kset s.ctxs c x := rfl
@[simp] theorem setCtx_cores (s : State) (c : Nat) (x : Ctx) : (setCtx s c x).cores = s.cores := rfl
@[simp] theorem setCtx_groves (s : State) (c : Nat) (x : Ctx) : (setCtx s c x).groves = s.groves := rfl
@[simp] theorem setCtx_pkgs (s : State) (c : Nat) (x : Ctx) : (setCtx s c x).pkgs = s.pkgs := rfl
@[simp] theorem setCtx_net (s : State) (c : Nat) (x : Ctx) : (setCtx s c x).net = s.net := rfl
@[simp] theorem setCtx_refused (s : State) (c : Nat) (x : Ctx) : (setCtx s c x).refused = s.refused := rfl
@[simp] theorem setCtx_plays (s : State) (c : Nat) (x : Ctx) : (setCtx s c x).plays = s.plays := rfl

@[simp] theorem modCtx_cycle (s : State) (c : Nat) (f : Ctx → Ctx) : (modCtx s c f).cycle = s.cycle := rfl
@[simp] theorem modCtx_agenda (s : State) (c : Nat) (f : Ctx → Ctx) : (modCtx s c f).agenda = s.agenda := rfl
@[simp] theorem modCtx_turn (s : State) (c : Nat) (f : Ctx → Ctx) : (modCtx s c f).turn = s.turn := rfl
@[simp] theorem modCtx_cur (s : State) (c : Nat) (f : Ctx → Ctx) : (modCtx s c f).cur = s.cur := rfl
@[simp] theorem modCtx_free (s : State) (c : Nat) (f : Ctx → Ctx) : (modCtx s c f).free = s.free := rfl
@[simp] theorem modCtx_seq (s : State) (c : Nat) (f : Ctx → Ctx) : (modCtx s c f).seq = s.seq := rfl
@[simp] theorem modCtx_nextOp (s : State) (c : Nat) (f : Ctx → Ctx) : (modCtx s c f).nextOp = s.nextOp := rfl
@[simp] theorem modCtx_mem (s : State) (c : Nat) (f : Ctx → Ctx) : (modCtx s c f).mem = s.mem := rfl
@[simp] theorem modCtx_full (s : State) (c : Nat) (f : Ctx → Ctx) : (modCtx s c f).full = s.full := rfl
@[simp] theorem modCtx_bad (s : State) (c : Nat) (f : Ctx → Ctx) : (modCtx s c f).bad = s.bad := rfl
@[simp] theorem modCtx_owner (s : State) (c : Nat) (f : Ctx → Ctx) : (modCtx s c f).owner = s.owner := rfl
@[simp] theorem modCtx_stores (s : State) (c : Nat) (f : Ctx → Ctx) : (modCtx s c f).stores = s.stores := rfl
@[simp] theorem modCtx_nacked (s : State) (c : Nat) (f : Ctx → Ctx) : (modCtx s c f).nacked = s.nacked := rfl
@[simp] theorem modCtx_partials (s : State) (c : Nat) (f : Ctx → Ctx) : (modCtx s c f).partials = s.partials := rfl
@[simp] theorem modCtx_ctxs (s : State) (c : Nat) (f : Ctx → Ctx) : (modCtx s c f).ctxs = kset s.ctxs c (f (getCtx s c)) := rfl
@[simp] theorem modCtx_cores (s : State) (c : Nat) (f : Ctx → Ctx) : (modCtx s c f).cores = s.cores := rfl
@[simp] theorem modCtx_groves (s : State) (c : Nat) (f : Ctx → Ctx) : (modCtx s c f).groves = s.groves := rfl
@[simp] theorem modCtx_pkgs (s : State) (c : Nat) (f : Ctx → Ctx) : (modCtx s c f).pkgs = s.pkgs := rfl
@[simp] theorem modCtx_net (s : State) (c : Nat) (f : Ctx → Ctx) : (modCtx s c f).net = s.net := rfl
@[simp] theorem modCtx_refused (s : State) (c : Nat) (f : Ctx → Ctx) : (modCtx s c f).refused = s.refused := rfl
@[simp] theorem modCtx_plays (s : State) (c : Nat) (f : Ctx → Ctx) : (modCtx s c f).plays = s.plays := rfl

@[simp] theorem modCx_cycle (s : State) (f : Ctx → Ctx) : (modCx s f).cycle = s.cycle := rfl
@[simp] theorem modCx_agenda (s : State) (f : Ctx → Ctx) : (modCx s f).agenda = s.agenda := rfl
@[simp] theorem modCx_turn (s : State) (f : Ctx → Ctx) : (modCx s f).turn = s.turn := rfl
@[simp] theorem modCx_cur (s : State) (f : Ctx → Ctx) : (modCx s f).cur = s.cur := rfl
@[simp] theorem modCx_free (s : State) (f : Ctx → Ctx) : (modCx s f).free = s.free := rfl
@[simp] theorem modCx_seq (s : State) (f : Ctx → Ctx) : (modCx s f).seq = s.seq := rfl
@[simp] theorem modCx_nextOp (s : State) (f : Ctx → Ctx) : (modCx s f).nextOp = s.nextOp := rfl
@[simp] theorem modCx_mem (s : State) (f : Ctx → Ctx) : (modCx s f).mem = s.mem := rfl
@[simp] theorem modCx_full (s : State) (f : Ctx → Ctx) : (modCx s f).full = s.full := rfl
@[simp] theorem modCx_bad (s : State) (f : Ctx → Ctx) : (modCx s f).bad = s.bad := rfl
@[simp] theorem modCx_owner (s : State) (f : Ctx → Ctx) : (modCx s f).owner = s.owner := rfl
@[simp] theorem modCx_stores (s : State) (f : Ctx → Ctx) : (modCx s f).stores = s.stores := rfl
@[simp] theorem modCx_nacked (s : State) (f : Ctx → Ctx) : (modCx s f).nacked = s.nacked := rfl
@[simp] theorem modCx_partials (s : State) (f : Ctx → Ctx) : (modCx s f).partials = s.partials := rfl
@[simp] theorem modCx_ctxs (s : State) (f : Ctx → Ctx) : (modCx s f).ctxs = kset s.ctxs s.cur (f (cx s)) := rfl
@[simp] theorem modCx_cores (s : State) (f : Ctx → Ctx) : (modCx s f).cores = s.cores := rfl
@[simp] theorem modCx_groves (s : State) (f : Ctx → Ctx) : (modCx s f).groves = s.groves := rfl
@[simp] theorem modCx_pkgs (s : State) (f : Ctx → Ctx) : (modCx s f).pkgs = s.pkgs := rfl
@[simp] theorem modCx_net (s : State) (f : Ctx → Ctx) : (modCx s f).net = s.net := rfl
@[simp] theorem modCx_refused (s : State) (f : Ctx → Ctx) : (modCx s f).refused = s.refused := rfl
@[simp] theorem modCx_plays (s : State) (f : Ctx → Ctx) : (modCx s f).plays = s.plays := rfl

@[simp] theorem modCore_cycle (s : State) (c : Nat) (f : Core → Core) : (modCore s c f).cycle = s.cycle := rfl
@[simp] theorem modCore_agenda (s : State) (c : Nat) (f : Core → Core) : (modCore s c f).agenda = s.agenda := rfl
@[simp] theorem modCore_turn (s : State) (c : Nat) (f : Core → Core) : (modCore s c f).turn = s.turn := rfl
@[simp] theorem modCore_cur (s : State) (c : Nat) (f : Core → Core) : (modCore s c f).cur = s.cur := rfl
@[simp] theorem modCore_free (s : State) (c : Nat) (f : Core → Core) : (modCore s c f).free = s.free := rfl
@[simp] theorem modCore_seq (s : State) (c : Nat) (f : Core → Core) : (modCore s c f).seq = s.seq := rfl
@[simp] theorem modCore_nextOp (s : State) (c : Nat) (f : Core → Core) : (modCore s c f).nextOp = s.nextOp := rfl
@[simp] theorem modCore_mem (s : State) (c : Nat) (f : Core → Core) : (modCore s c f).mem = s.mem := rfl
@[simp] theorem modCore_full (s : State) (c : Nat) (f : Core → Core) : (modCore s c f).full = s.full := rfl
@[simp] theorem modCore_bad (s : State) (c : Nat) (f : Core → Core) : (modCore s c f).bad = s.bad := rfl
@[simp] theorem modCore_owner (s : State) (c : Nat) (f : Core → Core) : (modCore s c f).owner = s.owner := rfl
@[simp] theorem modCore_stores (s : State) (c : Nat) (f : Core → Core) : (modCore s c f).stores = s.stores := rfl
@[simp] theorem modCore_nacked (s : State) (c : Nat) (f : Core → Core) : (modCore s c f).nacked = s.nacked := rfl
@[simp] theorem modCore_partials (s : State) (c : Nat) (f : Core → Core) : (modCore s c f).partials = s.partials := rfl
@[simp] theorem modCore_ctxs (s : State) (c : Nat) (f : Core → Core) : (modCore s c f).ctxs = s.ctxs := rfl
@[simp] theorem modCore_cores (s : State) (c : Nat) (f : Core → Core) : (modCore s c f).cores = kset s.cores c (f (getCore s c)) := rfl
@[simp] theorem modCore_groves (s : State) (c : Nat) (f : Core → Core) : (modCore s c f).groves = s.groves := rfl
@[simp] theorem modCore_pkgs (s : State) (c : Nat) (f : Core → Core) : (modCore s c f).pkgs = s.pkgs := rfl
@[simp] theorem modCore_net (s : State) (c : Nat) (f : Core → Core) : (modCore s c f).net = s.net := rfl
@[simp] theorem modCore_refused (s : State) (c : Nat) (f : Core → Core) : (modCore s c f).refused = s.refused := rfl
@[simp] theorem modCore_plays (s : State) (c : Nat) (f : Core → Core) : (modCore s c f).plays = s.plays := rfl

@[simp] theorem modGrove_cycle (s : State) (g : Nat) (f : Grove → Grove) : (modGrove s g f).cycle = s.cycle := rfl
@[simp] theorem modGrove_agenda (s : State) (g : Nat) (f : Grove → Grove) : (modGrove s g f).agenda = s.agenda := rfl
@[simp] theorem modGrove_turn (s : State) (g : Nat) (f : Grove → Grove) : (modGrove s g f).turn = s.turn := rfl
@[simp] theorem modGrove_cur (s : State) (g : Nat) (f : Grove → Grove) : (modGrove s g f).cur = s.cur := rfl
@[simp] theorem modGrove_free (s : State) (g : Nat) (f : Grove → Grove) : (modGrove s g f).free = s.free := rfl
@[simp] theorem modGrove_seq (s : State) (g : Nat) (f : Grove → Grove) : (modGrove s g f).seq = s.seq := rfl
@[simp] theorem modGrove_nextOp (s : State) (g : Nat) (f : Grove → Grove) : (modGrove s g f).nextOp = s.nextOp := rfl
@[simp] theorem modGrove_mem (s : State) (g : Nat) (f : Grove → Grove) : (modGrove s g f).mem = s.mem := rfl
@[simp] theorem modGrove_full (s : State) (g : Nat) (f : Grove → Grove) : (modGrove s g f).full = s.full := rfl
@[simp] theorem modGrove_bad (s : State) (g : Nat) (f : Grove → Grove) : (modGrove s g f).bad = s.bad := rfl
@[simp] theorem modGrove_owner (s : State) (g : Nat) (f : Grove → Grove) : (modGrove s g f).owner = s.owner := rfl
@[simp] theorem modGrove_stores (s : State) (g : Nat) (f : Grove → Grove) : (modGrove s g f).stores = s.stores := rfl
@[simp] theorem modGrove_nacked (s : State) (g : Nat) (f : Grove → Grove) : (modGrove s g f).nacked = s.nacked := rfl
@[simp] theorem modGrove_partials (s : State) (g : Nat) (f : Grove → Grove) : (modGrove s g f).partials = s.partials := rfl
@[simp] theorem modGrove_ctxs (s : State) (g : Nat) (f : Grove → Grove) : (modGrove s g f).ctxs = s.ctxs := rfl
@[simp] theorem modGrove_cores (s : State) (g : Nat) (f : Grove → Grove) : (modGrove s g f).cores = s.cores := rfl
@[simp] theorem modGrove_groves (s : State) (g : Nat) (f : Grove → Grove) : (modGrove s g f).groves = kset s.groves g (f (getGrove s g)) := rfl
@[simp] theorem modGrove_pkgs (s : State) (g : Nat) (f : Grove → Grove) : (modGrove s g f).pkgs = s.pkgs := rfl
@[simp] theorem modGrove_net (s : State) (g : Nat) (f : Grove → Grove) : (modGrove s g f).net = s.net := rfl
@[simp] theorem modGrove_refused (s : State) (g : Nat) (f : Grove → Grove) : (modGrove s g f).refused = s.refused := rfl
@[simp] theorem modGrove_plays (s : State) (g : Nat) (f : Grove → Grove) : (modGrove s g f).plays = s.plays := rfl

@[simp] theorem modPkg_cycle (s : State) (p : Nat) (f : Pkg → Pkg) : (modPkg s p f).cycle = s.cycle := rfl
@[simp] theorem modPkg_agenda (s : State) (p : Nat) (f : Pkg → Pkg) : (modPkg s p f).agenda = s.agenda := rfl
@[simp] theorem modPkg_turn (s : State) (p : Nat) (f : Pkg → Pkg) : (modPkg s p f).turn = s.turn := rfl
@[simp] theorem modPkg_cur (s : State) (p : Nat) (f : Pkg → Pkg) : (modPkg s p f).cur = s.cur := rfl
@[simp] theorem modPkg_free (s : State) (p : Nat) (f : Pkg → Pkg) : (modPkg s p f).free = s.free := rfl
@[simp] theorem modPkg_seq (s : State) (p : Nat) (f : Pkg → Pkg) : (modPkg s p f).seq = s.seq := rfl
@[simp] theorem modPkg_nextOp (s : State) (p : Nat) (f : Pkg → Pkg) : (modPkg s p f).nextOp = s.nextOp := rfl
@[simp] theorem modPkg_mem (s : State) (p : Nat) (f : Pkg → Pkg) : (modPkg s p f).mem = s.mem := rfl
@[simp] theorem modPkg_full (s : State) (p : Nat) (f : Pkg → Pkg) : (modPkg s p f).full = s.full := rfl
@[simp] theorem modPkg_bad (s : State) (p : Nat) (f : Pkg → Pkg) : (modPkg s p f).bad = s.bad := rfl
@[simp] theorem modPkg_owner (s : State) (p : Nat) (f : Pkg → Pkg) : (modPkg s p f).owner = s.owner := rfl
@[simp] theorem modPkg_stores (s : State) (p : Nat) (f : Pkg → Pkg) : (modPkg s p f).stores = s.stores := rfl
@[simp] theorem modPkg_nacked (s : State) (p : Nat) (f : Pkg → Pkg) : (modPkg s p f).nacked = s.nacked := rfl
@[simp] theorem modPkg_partials (s : State) (p : Nat) (f : Pkg → Pkg) : (modPkg s p f).partials = s.partials := rfl
@[simp] theorem modPkg_ctxs (s : State) (p : Nat) (f : Pkg → Pkg) : (modPkg s p f).ctxs = s.ctxs := rfl
@[simp] theorem modPkg_cores (s : State) (p : Nat) (f : Pkg → Pkg) : (modPkg s p f).cores = s.cores := rfl
@[simp] theorem modPkg_groves (s : State) (p : Nat) (f : Pkg → Pkg) : (modPkg s p f).groves = s.groves := rfl
@[simp] theorem modPkg_pkgs (s : State) (p : Nat) (f : Pkg → Pkg) : (modPkg s p f).pkgs = kset s.pkgs p (f (getPkg s p)) := rfl
@[simp] theorem modPkg_net (s : State) (p : Nat) (f : Pkg → Pkg) : (modPkg s p f).net = s.net := rfl
@[simp] theorem modPkg_refused (s : State) (p : Nat) (f : Pkg → Pkg) : (modPkg s p f).refused = s.refused := rfl
@[simp] theorem modPkg_plays (s : State) (p : Nat) (f : Pkg → Pkg) : (modPkg s p f).plays = s.plays := rfl

@[simp] theorem memWrite_cycle (s : State) (k : Nat) (bs : List Byte) : (memWrite s k bs).cycle = s.cycle := rfl
@[simp] theorem memWrite_agenda (s : State) (k : Nat) (bs : List Byte) : (memWrite s k bs).agenda = s.agenda := rfl
@[simp] theorem memWrite_turn (s : State) (k : Nat) (bs : List Byte) : (memWrite s k bs).turn = s.turn := rfl
@[simp] theorem memWrite_cur (s : State) (k : Nat) (bs : List Byte) : (memWrite s k bs).cur = s.cur := rfl
@[simp] theorem memWrite_free (s : State) (k : Nat) (bs : List Byte) : (memWrite s k bs).free = s.free := rfl
@[simp] theorem memWrite_seq (s : State) (k : Nat) (bs : List Byte) : (memWrite s k bs).seq = s.seq := rfl
@[simp] theorem memWrite_nextOp (s : State) (k : Nat) (bs : List Byte) : (memWrite s k bs).nextOp = s.nextOp := rfl
@[simp] theorem memWrite_mem (s : State) (k : Nat) (bs : List Byte) : (memWrite s k bs).mem = cellsWrite s.mem k bs := rfl
@[simp] theorem memWrite_full (s : State) (k : Nat) (bs : List Byte) : (memWrite s k bs).full = s.full := rfl
@[simp] theorem memWrite_bad (s : State) (k : Nat) (bs : List Byte) : (memWrite s k bs).bad = s.bad := rfl
@[simp] theorem memWrite_owner (s : State) (k : Nat) (bs : List Byte) : (memWrite s k bs).owner = s.owner := rfl
@[simp] theorem memWrite_stores (s : State) (k : Nat) (bs : List Byte) : (memWrite s k bs).stores = s.stores := rfl
@[simp] theorem memWrite_nacked (s : State) (k : Nat) (bs : List Byte) : (memWrite s k bs).nacked = s.nacked := rfl
@[simp] theorem memWrite_partials (s : State) (k : Nat) (bs : List Byte) : (memWrite s k bs).partials = s.partials := rfl
@[simp] theorem memWrite_ctxs (s : State) (k : Nat) (bs : List Byte) : (memWrite s k bs).ctxs = s.ctxs := rfl
@[simp] theorem memWrite_cores (s : State) (k : Nat) (bs : List Byte) : (memWrite s k bs).cores = s.cores := rfl
@[simp] theorem memWrite_groves (s : State) (k : Nat) (bs : List Byte) : (memWrite s k bs).groves = s.groves := rfl
@[simp] theorem memWrite_pkgs (s : State) (k : Nat) (bs : List Byte) : (memWrite s k bs).pkgs = s.pkgs := rfl
@[simp] theorem memWrite_net (s : State) (k : Nat) (bs : List Byte) : (memWrite s k bs).net = s.net := rfl
@[simp] theorem memWrite_refused (s : State) (k : Nat) (bs : List Byte) : (memWrite s k bs).refused = s.refused := rfl
@[simp] theorem memWrite_plays (s : State) (k : Nat) (bs : List Byte) : (memWrite s k bs).plays = s.plays := rfl

@[simp] theorem setStat_cycle (s : State) (v : Word) : (setStat s v).cycle = s.cycle := rfl
@[simp] theorem setStat_agenda (s : State) (v : Word) : (setStat s v).agenda = s.agenda := rfl
@[simp] theorem setStat_turn (s : State) (v : Word) : (setStat s v).turn = s.turn := rfl
@[simp] theorem setStat_cur (s : State) (v : Word) : (setStat s v).cur = s.cur := rfl
@[simp] theorem setStat_free (s : State) (v : Word) : (setStat s v).free = s.free := rfl
@[simp] theorem setStat_seq (s : State) (v : Word) : (setStat s v).seq = s.seq := rfl
@[simp] theorem setStat_nextOp (s : State) (v : Word) : (setStat s v).nextOp = s.nextOp := rfl
@[simp] theorem setStat_mem (s : State) (v : Word) : (setStat s v).mem = s.mem := rfl
@[simp] theorem setStat_full (s : State) (v : Word) : (setStat s v).full = s.full := rfl
@[simp] theorem setStat_bad (s : State) (v : Word) : (setStat s v).bad = s.bad := rfl
@[simp] theorem setStat_owner (s : State) (v : Word) : (setStat s v).owner = s.owner := rfl
@[simp] theorem setStat_stores (s : State) (v : Word) : (setStat s v).stores = s.stores := rfl
@[simp] theorem setStat_nacked (s : State) (v : Word) : (setStat s v).nacked = s.nacked := rfl
@[simp] theorem setStat_partials (s : State) (v : Word) : (setStat s v).partials = s.partials := rfl
@[simp] theorem setStat_ctxs (s : State) (v : Word) : (setStat s v).ctxs = kset s.ctxs s.cur { cx s with stat := v } := rfl
@[simp] theorem setStat_cores (s : State) (v : Word) : (setStat s v).cores = s.cores := rfl
@[simp] theorem setStat_groves (s : State) (v : Word) : (setStat s v).groves = s.groves := rfl
@[simp] theorem setStat_pkgs (s : State) (v : Word) : (setStat s v).pkgs = s.pkgs := rfl
@[simp] theorem setStat_net (s : State) (v : Word) : (setStat s v).net = s.net := rfl
@[simp] theorem setStat_refused (s : State) (v : Word) : (setStat s v).refused = s.refused := rfl
@[simp] theorem setStat_plays (s : State) (v : Word) : (setStat s v).plays = s.plays := rfl

@[simp] theorem freeStep_cycle (s : State) : (freeStep s).cycle = s.cycle := rfl
@[simp] theorem freeStep_agenda (s : State) : (freeStep s).agenda = s.agenda := rfl
@[simp] theorem freeStep_turn (s : State) : (freeStep s).turn = s.turn := rfl
@[simp] theorem freeStep_cur (s : State) : (freeStep s).cur = s.cur := rfl
@[simp] theorem freeStep_free (s : State) : (freeStep s).free = s.free + 1 := rfl
@[simp] theorem freeStep_seq (s : State) : (freeStep s).seq = s.seq := rfl
@[simp] theorem freeStep_nextOp (s : State) : (freeStep s).nextOp = s.nextOp := rfl
@[simp] theorem freeStep_mem (s : State) : (freeStep s).mem = s.mem := rfl
@[simp] theorem freeStep_full (s : State) : (freeStep s).full = s.full := rfl
@[simp] theorem freeStep_bad (s : State) : (freeStep s).bad = s.bad := rfl
@[simp] theorem freeStep_owner (s : State) : (freeStep s).owner = s.owner := rfl
@[simp] theorem freeStep_stores (s : State) : (freeStep s).stores = s.stores := rfl
@[simp] theorem freeStep_nacked (s : State) : (freeStep s).nacked = s.nacked := rfl
@[simp] theorem freeStep_partials (s : State) : (freeStep s).partials = s.partials := rfl
@[simp] theorem freeStep_ctxs (s : State) : (freeStep s).ctxs = s.ctxs := rfl
@[simp] theorem freeStep_cores (s : State) : (freeStep s).cores = s.cores := rfl
@[simp] theorem freeStep_groves (s : State) : (freeStep s).groves = s.groves := rfl
@[simp] theorem freeStep_pkgs (s : State) : (freeStep s).pkgs = s.pkgs := rfl
@[simp] theorem freeStep_net (s : State) : (freeStep s).net = s.net := rfl
@[simp] theorem freeStep_refused (s : State) : (freeStep s).refused = s.refused := rfl
@[simp] theorem freeStep_plays (s : State) : (freeStep s).plays = s.plays := rfl

@[simp] theorem setA_cycle (s : State) (i : Nat) (v : Word) : (setA s i v).cycle = s.cycle := by unfold setA; split <;> rfl
@[simp] theorem setA_agenda (s : State) (i : Nat) (v : Word) : (setA s i v).agenda = s.agenda := by unfold setA; split <;> rfl
@[simp] theorem setA_turn (s : State) (i : Nat) (v : Word) : (setA s i v).turn = s.turn := by unfold setA; split <;> rfl
@[simp] theorem setA_cur (s : State) (i : Nat) (v : Word) : (setA s i v).cur = s.cur := by unfold setA; split <;> rfl
@[simp] theorem setA_free (s : State) (i : Nat) (v : Word) : (setA s i v).free = s.free := by unfold setA; split <;> rfl
@[simp] theorem setA_seq (s : State) (i : Nat) (v : Word) : (setA s i v).seq = s.seq := by unfold setA; split <;> rfl
@[simp] theorem setA_nextOp (s : State) (i : Nat) (v : Word) : (setA s i v).nextOp = s.nextOp := by unfold setA; split <;> rfl
@[simp] theorem setA_mem (s : State) (i : Nat) (v : Word) : (setA s i v).mem = s.mem := by unfold setA; split <;> rfl
@[simp] theorem setA_full (s : State) (i : Nat) (v : Word) : (setA s i v).full = s.full := by unfold setA; split <;> rfl
@[simp] theorem setA_bad (s : State) (i : Nat) (v : Word) : (setA s i v).bad = s.bad := by unfold setA; split <;> rfl
@[simp] theorem setA_owner (s : State) (i : Nat) (v : Word) : (setA s i v).owner = s.owner := by unfold setA; split <;> rfl
@[simp] theorem setA_stores (s : State) (i : Nat) (v : Word) : (setA s i v).stores = s.stores := by unfold setA; split <;> rfl
@[simp] theorem setA_nacked (s : State) (i : Nat) (v : Word) : (setA s i v).nacked = s.nacked := by unfold setA; split <;> rfl
@[simp] theorem setA_partials (s : State) (i : Nat) (v : Word) : (setA s i v).partials = s.partials := by unfold setA; split <;> rfl
@[simp] theorem setA_cores (s : State) (i : Nat) (v : Word) : (setA s i v).cores = s.cores := by unfold setA; split <;> rfl
@[simp] theorem setA_groves (s : State) (i : Nat) (v : Word) : (setA s i v).groves = s.groves := by unfold setA; split <;> rfl
@[simp] theorem setA_pkgs (s : State) (i : Nat) (v : Word) : (setA s i v).pkgs = s.pkgs := by unfold setA; split <;> rfl
@[simp] theorem setA_net (s : State) (i : Nat) (v : Word) : (setA s i v).net = s.net := by unfold setA; split <;> rfl
@[simp] theorem setA_refused (s : State) (i : Nat) (v : Word) : (setA s i v).refused = s.refused := by unfold setA; split <;> rfl
@[simp] theorem setA_plays (s : State) (i : Nat) (v : Word) : (setA s i v).plays = s.plays := by unfold setA; split <;> rfl

@[simp] theorem setM_cycle (s : State) (i : Nat) (v : BitVec 128) : (setM s i v).cycle = s.cycle := by unfold setM; split <;> rfl
@[simp] theorem setM_agenda (s : State) (i : Nat) (v : BitVec 128) : (setM s i v).agenda = s.agenda := by unfold setM; split <;> rfl
@[simp] theorem setM_turn (s : State) (i : Nat) (v : BitVec 128) : (setM s i v).turn = s.turn := by unfold setM; split <;> rfl
@[simp] theorem setM_cur (s : State) (i : Nat) (v : BitVec 128) : (setM s i v).cur = s.cur := by unfold setM; split <;> rfl
@[simp] theorem setM_free (s : State) (i : Nat) (v : BitVec 128) : (setM s i v).free = s.free := by unfold setM; split <;> rfl
@[simp] theorem setM_seq (s : State) (i : Nat) (v : BitVec 128) : (setM s i v).seq = s.seq := by unfold setM; split <;> rfl
@[simp] theorem setM_nextOp (s : State) (i : Nat) (v : BitVec 128) : (setM s i v).nextOp = s.nextOp := by unfold setM; split <;> rfl
@[simp] theorem setM_mem (s : State) (i : Nat) (v : BitVec 128) : (setM s i v).mem = s.mem := by unfold setM; split <;> rfl
@[simp] theorem setM_full (s : State) (i : Nat) (v : BitVec 128) : (setM s i v).full = s.full := by unfold setM; split <;> rfl
@[simp] theorem setM_bad (s : State) (i : Nat) (v : BitVec 128) : (setM s i v).bad = s.bad := by unfold setM; split <;> rfl
@[simp] theorem setM_owner (s : State) (i : Nat) (v : BitVec 128) : (setM s i v).owner = s.owner := by unfold setM; split <;> rfl
@[simp] theorem setM_stores (s : State) (i : Nat) (v : BitVec 128) : (setM s i v).stores = s.stores := by unfold setM; split <;> rfl
@[simp] theorem setM_nacked (s : State) (i : Nat) (v : BitVec 128) : (setM s i v).nacked = s.nacked := by unfold setM; split <;> rfl
@[simp] theorem setM_partials (s : State) (i : Nat) (v : BitVec 128) : (setM s i v).partials = s.partials := by unfold setM; split <;> rfl
@[simp] theorem setM_cores (s : State) (i : Nat) (v : BitVec 128) : (setM s i v).cores = s.cores := by unfold setM; split <;> rfl
@[simp] theorem setM_groves (s : State) (i : Nat) (v : BitVec 128) : (setM s i v).groves = s.groves := by unfold setM; split <;> rfl
@[simp] theorem setM_pkgs (s : State) (i : Nat) (v : BitVec 128) : (setM s i v).pkgs = s.pkgs := by unfold setM; split <;> rfl
@[simp] theorem setM_net (s : State) (i : Nat) (v : BitVec 128) : (setM s i v).net = s.net := by unfold setM; split <;> rfl
@[simp] theorem setM_refused (s : State) (i : Nat) (v : BitVec 128) : (setM s i v).refused = s.refused := by unfold setM; split <;> rfl
@[simp] theorem setM_plays (s : State) (i : Nat) (v : BitVec 128) : (setM s i v).plays = s.plays := by unfold setM; split <;> rfl

@[simp] theorem setVPart_cycle (s : State) (i : Nat) (v : VReg) (f : Nat → Bool) : (setVPart s i v f).cycle = s.cycle := rfl
@[simp] theorem setVPart_agenda (s : State) (i : Nat) (v : VReg) (f : Nat → Bool) : (setVPart s i v f).agenda = s.agenda := rfl
@[simp] theorem setVPart_turn (s : State) (i : Nat) (v : VReg) (f : Nat → Bool) : (setVPart s i v f).turn = s.turn := rfl
@[simp] theorem setVPart_cur (s : State) (i : Nat) (v : VReg) (f : Nat → Bool) : (setVPart s i v f).cur = s.cur := rfl
@[simp] theorem setVPart_free (s : State) (i : Nat) (v : VReg) (f : Nat → Bool) : (setVPart s i v f).free = s.free := rfl
@[simp] theorem setVPart_seq (s : State) (i : Nat) (v : VReg) (f : Nat → Bool) : (setVPart s i v f).seq = s.seq := rfl
@[simp] theorem setVPart_nextOp (s : State) (i : Nat) (v : VReg) (f : Nat → Bool) : (setVPart s i v f).nextOp = s.nextOp := rfl
@[simp] theorem setVPart_mem (s : State) (i : Nat) (v : VReg) (f : Nat → Bool) : (setVPart s i v f).mem = s.mem := rfl
@[simp] theorem setVPart_full (s : State) (i : Nat) (v : VReg) (f : Nat → Bool) : (setVPart s i v f).full = s.full := rfl
@[simp] theorem setVPart_bad (s : State) (i : Nat) (v : VReg) (f : Nat → Bool) : (setVPart s i v f).bad = s.bad := rfl
@[simp] theorem setVPart_owner (s : State) (i : Nat) (v : VReg) (f : Nat → Bool) : (setVPart s i v f).owner = s.owner := rfl
@[simp] theorem setVPart_stores (s : State) (i : Nat) (v : VReg) (f : Nat → Bool) : (setVPart s i v f).stores = s.stores := rfl
@[simp] theorem setVPart_nacked (s : State) (i : Nat) (v : VReg) (f : Nat → Bool) : (setVPart s i v f).nacked = s.nacked := rfl
@[simp] theorem setVPart_partials (s : State) (i : Nat) (v : VReg) (f : Nat → Bool) : (setVPart s i v f).partials = s.partials := rfl
@[simp] theorem setVPart_cores (s : State) (i : Nat) (v : VReg) (f : Nat → Bool) : (setVPart s i v f).cores = s.cores := rfl
@[simp] theorem setVPart_groves (s : State) (i : Nat) (v : VReg) (f : Nat → Bool) : (setVPart s i v f).groves = s.groves := rfl
@[simp] theorem setVPart_pkgs (s : State) (i : Nat) (v : VReg) (f : Nat → Bool) : (setVPart s i v f).pkgs = s.pkgs := rfl
@[simp] theorem setVPart_net (s : State) (i : Nat) (v : VReg) (f : Nat → Bool) : (setVPart s i v f).net = s.net := rfl
@[simp] theorem setVPart_refused (s : State) (i : Nat) (v : VReg) (f : Nat → Bool) : (setVPart s i v f).refused = s.refused := rfl
@[simp] theorem setVPart_plays (s : State) (i : Nat) (v : VReg) (f : Nat → Bool) : (setVPart s i v f).plays = s.plays := rfl

@[simp] theorem setV_cycle (s : State) (i : Nat) (v : VReg) : (setV s i v).cycle = s.cycle := rfl
@[simp] theorem setV_agenda (s : State) (i : Nat) (v : VReg) : (setV s i v).agenda = s.agenda := rfl
@[simp] theorem setV_turn (s : State) (i : Nat) (v : VReg) : (setV s i v).turn = s.turn := rfl
@[simp] theorem setV_cur (s : State) (i : Nat) (v : VReg) : (setV s i v).cur = s.cur := rfl
@[simp] theorem setV_free (s : State) (i : Nat) (v : VReg) : (setV s i v).free = s.free := rfl
@[simp] theorem setV_seq (s : State) (i : Nat) (v : VReg) : (setV s i v).seq = s.seq := rfl
@[simp] theorem setV_nextOp (s : State) (i : Nat) (v : VReg) : (setV s i v).nextOp = s.nextOp := rfl
@[simp] theorem setV_mem (s : State) (i : Nat) (v : VReg) : (setV s i v).mem = s.mem := rfl
@[simp] theorem setV_full (s : State) (i : Nat) (v : VReg) : (setV s i v).full = s.full := rfl
@[simp] theorem setV_bad (s : State) (i : Nat) (v : VReg) : (setV s i v).bad = s.bad := rfl
@[simp] theorem setV_owner (s : State) (i : Nat) (v : VReg) : (setV s i v).owner = s.owner := rfl
@[simp] theorem setV_stores (s : State) (i : Nat) (v : VReg) : (setV s i v).stores = s.stores := rfl
@[simp] theorem setV_nacked (s : State) (i : Nat) (v : VReg) : (setV s i v).nacked = s.nacked := rfl
@[simp] theorem setV_partials (s : State) (i : Nat) (v : VReg) : (setV s i v).partials = s.partials := rfl
@[simp] theorem setV_cores (s : State) (i : Nat) (v : VReg) : (setV s i v).cores = s.cores := rfl
@[simp] theorem setV_groves (s : State) (i : Nat) (v : VReg) : (setV s i v).groves = s.groves := rfl
@[simp] theorem setV_pkgs (s : State) (i : Nat) (v : VReg) : (setV s i v).pkgs = s.pkgs := rfl
@[simp] theorem setV_net (s : State) (i : Nat) (v : VReg) : (setV s i v).net = s.net := rfl
@[simp] theorem setV_refused (s : State) (i : Nat) (v : VReg) : (setV s i v).refused = s.refused := rfl
@[simp] theorem setV_plays (s : State) (i : Nat) (v : VReg) : (setV s i v).plays = s.plays := rfl

@[simp] theorem setB_cycle (s : State) (i : Nat) (v : BitVec 256) : (setB s i v).cycle = s.cycle := rfl
@[simp] theorem setB_agenda (s : State) (i : Nat) (v : BitVec 256) : (setB s i v).agenda = s.agenda := rfl
@[simp] theorem setB_turn (s : State) (i : Nat) (v : BitVec 256) : (setB s i v).turn = s.turn := rfl
@[simp] theorem setB_cur (s : State) (i : Nat) (v : BitVec 256) : (setB s i v).cur = s.cur := rfl
@[simp] theorem setB_free (s : State) (i : Nat) (v : BitVec 256) : (setB s i v).free = s.free := rfl
@[simp] theorem setB_seq (s : State) (i : Nat) (v : BitVec 256) : (setB s i v).seq = s.seq := rfl
@[simp] theorem setB_nextOp (s : State) (i : Nat) (v : BitVec 256) : (setB s i v).nextOp = s.nextOp := rfl
@[simp] theorem setB_mem (s : State) (i : Nat) (v : BitVec 256) : (setB s i v).mem = s.mem := rfl
@[simp] theorem setB_full (s : State) (i : Nat) (v : BitVec 256) : (setB s i v).full = s.full := rfl
@[simp] theorem setB_bad (s : State) (i : Nat) (v : BitVec 256) : (setB s i v).bad = s.bad := rfl
@[simp] theorem setB_owner (s : State) (i : Nat) (v : BitVec 256) : (setB s i v).owner = s.owner := rfl
@[simp] theorem setB_stores (s : State) (i : Nat) (v : BitVec 256) : (setB s i v).stores = s.stores := rfl
@[simp] theorem setB_nacked (s : State) (i : Nat) (v : BitVec 256) : (setB s i v).nacked = s.nacked := rfl
@[simp] theorem setB_partials (s : State) (i : Nat) (v : BitVec 256) : (setB s i v).partials = s.partials := rfl
@[simp] theorem setB_cores (s : State) (i : Nat) (v : BitVec 256) : (setB s i v).cores = s.cores := rfl
@[simp] theorem setB_groves (s : State) (i : Nat) (v : BitVec 256) : (setB s i v).groves = s.groves := rfl
@[simp] theorem setB_pkgs (s : State) (i : Nat) (v : BitVec 256) : (setB s i v).pkgs = s.pkgs := rfl
@[simp] theorem setB_net (s : State) (i : Nat) (v : BitVec 256) : (setB s i v).net = s.net := rfl
@[simp] theorem setB_refused (s : State) (i : Nat) (v : BitVec 256) : (setB s i v).refused = s.refused := rfl
@[simp] theorem setB_plays (s : State) (i : Nat) (v : BitVec 256) : (setB s i v).plays = s.plays := rfl

/-! ## Reading a unit after a write -/

@[simp] theorem getCtx_setCtx (s : State) (c : Nat) (x : Ctx) : getCtx (setCtx s c x) c = x := by simp [getCtx]
@[simp] theorem getCtx_modCtx (s : State) (c : Nat) (f : Ctx → Ctx) : getCtx (modCtx s c f) c = f (getCtx s c) := by simp [getCtx]
@[simp] theorem cx_modCx (s : State) (f : Ctx → Ctx) : cx (modCx s f) = f (cx s) := by simp [cx, getCtx]
@[simp] theorem getCore_modCore (s : State) (c : Nat) (f : Core → Core) : getCore (modCore s c f) c = f (getCore s c) := by simp [getCore]
@[simp] theorem getGrove_modGrove (s : State) (g : Nat) (f : Grove → Grove) : getGrove (modGrove s g f) g = f (getGrove s g) := by simp [getGrove]
@[simp] theorem getPkg_modPkg (s : State) (p : Nat) (f : Pkg → Pkg) : getPkg (modPkg s p f) p = f (getPkg s p) := by simp [getPkg]

theorem getCtx_setCtx_other (s : State) {c d : Nat} (x : Ctx) (h : d ≠ c) : getCtx (setCtx s c x) d = getCtx s d := by
  simp [getCtx, kget_kset_other _ _ _ h]
theorem getCore_modCore_other (s : State) {c d : Nat} (f : Core → Core) (h : d ≠ c) : getCore (modCore s c f) d = getCore s d := by
  simp [getCore, kget_kset_other _ _ _ h]
theorem getGrove_modGrove_other (s : State) {c d : Nat} (f : Grove → Grove) (h : d ≠ c) : getGrove (modGrove s c f) d = getGrove s d := by
  simp [getGrove, kget_kset_other _ _ _ h]
theorem getPkg_modPkg_other (s : State) {c d : Nat} (f : Pkg → Pkg) (h : d ≠ c) : getPkg (modPkg s c f) d = getPkg s d := by
  simp [getPkg, kget_kset_other _ _ _ h]

/-- Units of one kind are untouched by writes of another. -/
@[simp] theorem cx_modCore (s : State) (c : Nat) (f : Core → Core) : cx (modCore s c f) = cx s := rfl
@[simp] theorem cx_modGrove (s : State) (c : Nat) (f : Grove → Grove) : cx (modGrove s c f) = cx s := rfl
@[simp] theorem cx_modPkg (s : State) (c : Nat) (f : Pkg → Pkg) : cx (modPkg s c f) = cx s := rfl
@[simp] theorem cx_memWrite (s : State) (k : Nat) (bs : List Byte) : cx (memWrite s k bs) = cx s := rfl
@[simp] theorem getCtx_modCore (s : State) (c d : Nat) (f : Core → Core) : getCtx (modCore s c f) d = getCtx s d := rfl
@[simp] theorem getCtx_modGrove (s : State) (c d : Nat) (f : Grove → Grove) : getCtx (modGrove s c f) d = getCtx s d := rfl
@[simp] theorem getCtx_modPkg (s : State) (c d : Nat) (f : Pkg → Pkg) : getCtx (modPkg s c f) d = getCtx s d := rfl
@[simp] theorem getCore_setCtx (s : State) (c d : Nat) (x : Ctx) : getCore (setCtx s c x) d = getCore s d := rfl
@[simp] theorem getCore_modGrove (s : State) (c d : Nat) (f : Grove → Grove) : getCore (modGrove s c f) d = getCore s d := rfl
@[simp] theorem getCore_modPkg (s : State) (c d : Nat) (f : Pkg → Pkg) : getCore (modPkg s c f) d = getCore s d := rfl
@[simp] theorem getGrove_setCtx (s : State) (c d : Nat) (x : Ctx) : getGrove (setCtx s c x) d = getGrove s d := rfl
@[simp] theorem getGrove_modCore (s : State) (c d : Nat) (f : Core → Core) : getGrove (modCore s c f) d = getGrove s d := rfl
@[simp] theorem getGrove_modPkg (s : State) (c d : Nat) (f : Pkg → Pkg) : getGrove (modPkg s c f) d = getGrove s d := rfl
@[simp] theorem getPkg_setCtx (s : State) (c d : Nat) (x : Ctx) : getPkg (setCtx s c x) d = getPkg s d := rfl
@[simp] theorem getPkg_modCore (s : State) (c d : Nat) (f : Core → Core) : getPkg (modCore s c f) d = getPkg s d := rfl
@[simp] theorem getPkg_modGrove (s : State) (c d : Nat) (f : Grove → Grove) : getPkg (modGrove s c f) d = getPkg s d := rfl

/-! ## Registers of the running thread -/

/-- A0 discards writes, every other register holds what was written (06 R145). -/
theorem regA_setA (s : State) (i : Nat) (v : Word) : regA (setA s i v) i = if i = 0 then 0 else v := by
  by_cases h : i = 0
  · simp [regA, getA, h]
  · simp [regA, setA, getA, h]

theorem regA_setA_other (s : State) {i j : Nat} (v : Word) (h : j ≠ i) : regA (setA s i v) j = regA s j := by
  by_cases g : i = 0
  · simp [setA, g]
  · simp [regA, setA, getA, g, kget_kset_other _ _ _ h]

@[simp] theorem cx_setA_pc (s : State) (i : Nat) (v : Word) : (cx (setA s i v)).pc = (cx s).pc := by
  unfold setA; split <;> simp
@[simp] theorem cx_setA_l0 (s : State) (i : Nat) (v : Word) : (cx (setA s i v)).l0 = (cx s).l0 := by
  unfold setA; split <;> simp
@[simp] theorem cx_setA_l1 (s : State) (i : Nat) (v : Word) : (cx (setA s i v)).l1 = (cx s).l1 := by
  unfold setA; split <;> simp
@[simp] theorem cx_setA_stat (s : State) (i : Nat) (v : Word) : (cx (setA s i v)).stat = (cx s).stat := by
  unfold setA; split <;> simp
@[simp] theorem cx_setA_status (s : State) (i : Nat) (v : Word) : (cx (setA s i v)).status = (cx s).status := by
  unfold setA; split <;> simp
@[simp] theorem cx_setA_v (s : State) (i : Nat) (v : Word) : (cx (setA s i v)).v = (cx s).v := by
  unfold setA; split <;> simp
@[simp] theorem cx_setA_m (s : State) (i : Nat) (v : Word) : (cx (setA s i v)).m = (cx s).m := by
  unfold setA; split <;> simp
@[simp] theorem cx_setA_b (s : State) (i : Nat) (v : Word) : (cx (setA s i v)).b = (cx s).b := by
  unfold setA; split <;> simp

theorem regV_setV (s : State) (i : Nat) (v : VReg) : regV (setV s i v) i = v := by simp [regV, setV, setVPart, getV]
theorem regV_setV_other (s : State) {i j : Nat} (v : VReg) (h : j ≠ i) : regV (setV s i v) j = regV s j := by
  simp [regV, setV, setVPart, getV, kget_kset_other _ _ _ h]
theorem regB_setB (s : State) (i : Nat) (v : BitVec 256) : regB (setB s i v) i = v := by simp [regB, setB, getB]
theorem regB_setB_other (s : State) {i j : Nat} (v : BitVec 256) (h : j ≠ i) : regB (setB s i v) j = regB s j := by
  simp [regB, setB, getB, kget_kset_other _ _ _ h]
/-- M0 discards writes (06 R145). -/
theorem regM_setM (s : State) (i : Nat) (v : BitVec 128) : regM (setM s i v) i = if i = 0 then BitVec.allOnes 128 else v := by
  by_cases h : i = 0
  · simp [regM, getM, h]
  · simp [regM, setM, getM, h]
theorem regM_setM_other (s : State) {i j : Nat} (v : BitVec 128) (h : j ≠ i) : regM (setM s i v) j = regM s j := by
  by_cases g : i = 0
  · simp [setM, g]
  · simp [regM, setM, getM, g, kget_kset_other _ _ _ h]

end Sys2Proof.Machine
end

