-- ==== Sys2Proof/Laws/Memory.lean ====
section
/-! SUPPORT. The laws of memory: a read after a write, other bytes left alone, and the canonical form kept by every memory operation. -/

namespace Sys2Proof.Machine

open Sys2Proof

/-! ## Cells in rising order -/

/-- Every key of the list is at least k. -/
def cellsFrom (k : Nat) (m : List Host.Cell) : Prop := ∀ c ∈ m, k ≤ c.1

/-- The canonical form, unfolded at the head. -/
theorem cellsWf_cons (c : Host.Cell) (m : List Host.Cell) : cellsWf (c :: m) = true ↔ c.2 ≠ 0 ∧ cellsFrom (c.1 + 1) m ∧ cellsWf m = true := by
  induction m generalizing c with
  | nil => simp [cellsWf, cellsFrom]
  | cons d m ih =>
    have hd := ih d
    constructor
    · intro h
      simp only [cellsWf, Bool.and_eq_true, decide_eq_true_eq, bne_iff_ne, ne_eq] at h
      obtain ⟨⟨h0, h1⟩, h2⟩ := h
      refine ⟨h0, ?_, h2⟩
      intro x hx
      rcases List.mem_cons.mp hx with rfl | hx
      · exact h1
      · have := (hd.mp h2).2.1 x hx
        omega
    · rintro ⟨h0, h1, h2⟩
      have := h1 d (List.mem_cons_self ..)
      simp only [cellsWf, Bool.and_eq_true, decide_eq_true_eq, bne_iff_ne, ne_eq]
      exact ⟨⟨h0, by omega⟩, h2⟩

/-- Filtering keeps the canonical form. -/
theorem cellsWf_filter (p : Host.Cell → Bool) (m : List Host.Cell) (h : cellsWf m = true) : cellsWf (m.filter p) = true := by
  induction m with
  | nil => rfl
  | cons c m ih =>
    obtain ⟨h0, h1, h2⟩ := (cellsWf_cons c m).mp h
    by_cases g : p c = true
    · rw [List.filter_cons_of_pos g]
      exact (cellsWf_cons _ _).mpr ⟨h0, fun x hx => h1 x (List.mem_of_mem_filter hx), ih h2⟩
    · rw [List.filter_cons_of_neg g]; exact ih h2

/-- Two canonical lists in a row, the first below k and the second from k on. -/
theorem cellsWf_append (k : Nat) (a b : List Host.Cell) (ha : cellsWf a = true) (hb : cellsWf b = true) (hl : ∀ c ∈ a, c.1 < k)
    (hr : cellsFrom k b) : cellsWf (a ++ b) = true := by
  induction a with
  | nil => exact hb
  | cons c a ih =>
    obtain ⟨h0, h1, h2⟩ := (cellsWf_cons c a).mp ha
    refine (cellsWf_cons _ _).mpr ⟨h0, ?_, ih h2 (fun x hx => hl x (List.mem_cons_of_mem _ hx))⟩
    intro x hx
    rcases List.mem_append.mp hx with hx | hx
    · exact h1 x hx
    · have := hl c (List.mem_cons_self ..); have := hr x hx; omega

theorem cellsOf_from (k : Nat) (bs : List Byte) : cellsFrom k (cellsOf k bs) := by
  induction bs generalizing k with
  | nil => intro c hc; cases hc
  | cons b bs ih =>
    intro c hc
    have hi := ih (k + 1)
    by_cases h : b = 0
    · simp only [cellsOf, h, if_true] at hc; have := hi c hc; omega
    · simp only [cellsOf, h, if_false] at hc
      rcases List.mem_cons.mp hc with rfl | hc
      · exact Nat.le_refl _
      · have := hi c hc; omega

theorem cellsOf_below (k : Nat) (bs : List Byte) : ∀ c ∈ cellsOf k bs, c.1 < k + bs.length := by
  induction bs generalizing k with
  | nil => intro c hc; cases hc
  | cons b bs ih =>
    intro c hc
    by_cases h : b = 0
    · simp only [cellsOf, h, if_true] at hc; have := ih (k + 1) c hc; simp only [List.length_cons]; omega
    · simp only [cellsOf, h, if_false] at hc
      rcases List.mem_cons.mp hc with rfl | hc
      · simp
      · have := ih (k + 1) c hc; simp only [List.length_cons]; omega

theorem cellsOf_wf (k : Nat) (bs : List Byte) : cellsWf (cellsOf k bs) = true := by
  induction bs generalizing k with
  | nil => rfl
  | cons b bs ih =>
    by_cases h : b = 0
    · simpa [cellsOf, h] using ih (k + 1)
    · simp only [cellsOf, h, if_false]
      exact (cellsWf_cons _ _).mpr ⟨h, cellsOf_from (k + 1) bs, ih (k + 1)⟩

/-- A write keeps the canonical form. -/
theorem cellsWrite_wf (m : List Host.Cell) (k : Nat) (bs : List Byte) (h : cellsWf m = true) : cellsWf (cellsWrite m k bs) = true := by
  unfold cellsWrite
  refine cellsWf_append (k + bs.length) _ _ (cellsWf_append k _ _ (cellsWf_filter _ m h) (cellsOf_wf k bs) ?_ (cellsOf_from k bs))
    (cellsWf_filter _ m h) ?_ ?_
  · intro c hc; simpa using (List.mem_filter.mp hc).2
  · intro c hc
    rcases List.mem_append.mp hc with hc | hc
    · have : c.1 < k := by simpa using (List.mem_filter.mp hc).2
      omega
    · exact cellsOf_below k bs c hc
  · intro c hc; simpa using (List.mem_filter.mp hc).2

/-! ## Reads -/

theorem cellRead_not_mem (m : List Host.Cell) (k : Nat) (h : ∀ c ∈ m, c.1 ≠ k) : cellRead m k = 0 := by
  induction m with
  | nil => rfl
  | cons c m ih =>
    have h0 := h c (List.mem_cons_self ..)
    obtain ⟨j, b⟩ := c
    simp only [cellRead]
    rw [if_neg (fun e => h0 e.symm)]
    exact ih (fun x hx => h x (List.mem_cons_of_mem _ hx))

theorem cellRead_append (a b : List Host.Cell) (k : Nat) :
    cellRead (a ++ b) k = if a.any (fun c => c.1 == k) then cellRead a k else cellRead b k := by
  induction a with
  | nil => simp
  | cons c a ih =>
    obtain ⟨j, x⟩ := c
    by_cases h : k = j
    · subst h; simp [cellRead]
    · have h' : ¬ j = k := fun e => h e.symm
      simp [cellRead, h, h', ih]

theorem cellRead_filter (m : List Host.Cell) (p : Nat → Bool) (k : Nat) : cellRead (m.filter (fun c => p c.1)) k = if p k then cellRead m k else 0 := by
  induction m with
  | nil => simp [cellRead]
  | cons c m ih =>
    obtain ⟨j, b⟩ := c
    by_cases g : p j = true
    · rw [List.filter_cons_of_pos (by simpa using g)]
      by_cases h : k = j
      · subst h; simp [cellRead, g]
      · simp [cellRead, h, ih]
    · rw [List.filter_cons_of_neg (by simpa using g), ih]
      by_cases h : k = j
      · subst h; simp [g]
      · simp [cellRead, h]

theorem cellRead_cellsOf (k : Nat) (bs : List Byte) (i : Nat) : cellRead (cellsOf k bs) i = if k ≤ i ∧ i < k + bs.length then bs.getD (i - k) 0 else 0 := by
  induction bs generalizing k with
  | nil => simp [cellsOf, cellRead]
  | cons b bs ih =>
    by_cases h : i = k
    · subst h
      by_cases hb : b = 0
      · subst hb; simp [cellsOf, ih]
      · simp only [cellsOf, if_neg hb]; simp [cellRead]
    · have e : cellRead (cellsOf k (b :: bs)) i = cellRead (cellsOf (k + 1) bs) i := by
        by_cases hb : b = 0
        · simp only [cellsOf, if_pos hb]
        · simp only [cellsOf, if_neg hb]; simp [cellRead, h]
      rw [e, ih]
      by_cases g : k ≤ i ∧ i < k + (b :: bs).length
      · simp only [List.length_cons] at g
        rw [if_pos (by omega), if_pos (by simpa using g)]
        obtain ⟨n, hn⟩ : ∃ n, i - k = n + 1 := ⟨i - k - 1, by omega⟩
        have : i - (k + 1) = n := by omega
        simp [hn, this]
      · simp only [List.length_cons] at g
        rw [if_neg (by omega), if_neg (by simpa using g)]

theorem any_key_false {m : List Host.Cell} {k : Nat} (h : ∀ c ∈ m, c.1 ≠ k) : m.any (fun c => c.1 == k) = false := by
  simpa using h

/-- A read after a write: the written bytes inside, the old ones elsewhere. -/
theorem cellRead_cellsWrite (m : List Host.Cell) (k : Nat) (bs : List Byte) (i : Nat) :
    cellRead (cellsWrite m k bs) i = if k ≤ i ∧ i < k + bs.length then bs.getD (i - k) 0 else cellRead m i := by
  unfold cellsWrite
  rw [List.append_assoc, cellRead_append]
  by_cases h1 : i < k
  · rw [if_neg (c := k ≤ i ∧ i < k + bs.length) (by omega)]
    split
    · rw [cellRead_filter m (fun j => decide (j < k))]; simp [h1]
    · rename_i hn
      have hz : cellRead m i = 0 := by
        have := cellRead_filter m (fun j => decide (j < k)) i
        simp only [h1, decide_true, if_true] at this
        rw [← this]
        refine cellRead_not_mem _ _ (fun c hc e => hn ?_)
        exact List.any_eq_true.mpr ⟨c, hc, by simpa using e⟩
      rw [hz]
      refine cellRead_not_mem _ _ ?_
      intro c hc
      rcases List.mem_append.mp hc with hc | hc
      · have := cellsOf_from k bs c hc; omega
      · have : k + bs.length ≤ c.1 := by simpa using (List.mem_filter.mp hc).2
        omega
  · rw [if_neg (by
      rw [any_key_false]
      · simp
      · intro c hc
        have : c.1 < k := by simpa using (List.mem_filter.mp hc).2
        omega), cellRead_append]
    by_cases h2 : i < k + bs.length
    · rw [if_pos (c := k ≤ i ∧ i < k + bs.length) (by omega)]
      split
      · rw [cellRead_cellsOf, if_pos (by omega)]
      · rename_i hn
        have h0 : cellRead (cellsOf k bs) i = 0 := cellRead_not_mem _ _ (fun c hc e => hn (List.any_eq_true.mpr ⟨c, hc, by simpa using e⟩))
        rw [cellRead_cellsOf, if_pos (by omega)] at h0
        rw [h0]
        refine cellRead_not_mem _ _ ?_
        intro c hc
        have : k + bs.length ≤ c.1 := by simpa using (List.mem_filter.mp hc).2
        omega
    · rw [if_neg (c := k ≤ i ∧ i < k + bs.length) (by omega)]
      rw [if_neg (by
        rw [any_key_false]
        · simp
        · intro c hc
          have := cellsOf_below k bs c hc
          omega)]
      rw [cellRead_filter m (fun j => decide (k + bs.length ≤ j))]
      simp; omega

/-! ## Every memory operation keeps the canonical form -/

theorem memWrite_wf (s : State) (k : Nat) (bs : List Byte) (h : Memory.wf s.mem) : Memory.wf (memWrite s k bs).mem := cellsWrite_wf s.mem k bs h

theorem scratchWrite_wf (s : State) (core ofs n v : Nat) (h : Memory.wf s.mem) : Memory.wf (scratchWrite s core ofs n v).mem :=
  memWrite_wf s _ _ h

theorem unownByte_wf (s : State) (k : Nat) (h : Memory.wf s.mem) : Memory.wf (unownByte s k).mem := by
  unfold unownByte
  split
  · exact memWrite_wf s k _ h
  · exact h

theorem unownBytes_wf (n : Nat) (s : State) (k : Nat) (h : Memory.wf s.mem) : Memory.wf (unownBytes n s k).mem := by
  induction n generalizing s k with
  | zero => exact h
  | succ n ih => exact ih _ _ (unownByte_wf s k h)

theorem homeWrite_wf (s : State) (k : Nat) (bs : List Byte) (h : Memory.wf s.mem) : Memory.wf (homeWrite s k bs).mem := by
  unfold homeWrite
  split
  · exact memWrite_wf s k bs h
  · exact memWrite_wf _ k bs (unownBytes_wf _ s k h)

@[simp] theorem mend_mem (s : State) (k n : Nat) : (mend s k n).mem = s.mem := by unfold mend; split <;> rfl

/-- Filling a dword of an L1 and registering bytes write no memory: the bytes stay at their owner until they go home. -/
@[simp] theorem fillDword_mem (s : State) (c k : Nat) : (fillDword s c k).mem = s.mem := rfl

theorem registerBytes_mem (s : State) (c k : Nat) (bs : List Byte) : (registerBytes s c k bs).mem = s.mem := by
  induction bs generalizing s k with
  | nil => rfl
  | cons b bs ih =>
    unfold registerBytes
    rw [ih]
    split <;> rfl

/-- What a read leaves in the L1 of its core changes no memory. -/
@[simp] theorem trimDword_mem (s : State) (c k : Nat) : (trimDword s c k).mem = s.mem := rfl

theorem viewMiss_mem (s : State) (c a n : Nat) : (viewMiss s c a n).mem = s.mem := by
  unfold viewMiss
  split
  · rfl
  · suffices h : ∀ (l : List Nat) (t : State), t.mem = s.mem →
        (l.foldl (fun t i => if viewHit (getCore t c).l1 a n ((a / 8 + i) * 8) then t else trimDword t c ((a / 8 + i) * 8)) t).mem = s.mem from
      h _ s rfl
    intro l
    induction l with
    | nil => exact fun t h => h
    | cons i l ih =>
      intro t h
      refine ih _ ?_
      show (if viewHit (getCore t c).l1 a n ((a / 8 + i) * 8) then t else trimDword t c ((a / 8 + i) * 8)).mem = s.mem
      split
      · exact h
      · exact h

theorem performStore_wf (s : State) (p : PendingStore) (h : Memory.wf s.mem) : Memory.wf (performStore s p).mem := by
  unfold performStore
  split
  · rw [registerBytes_mem]; exact h
  · split
    · exact h
    · exact memWrite_wf s _ _ h

theorem foldl_wf {α : Type} (f : State → α → State) (hf : ∀ s a, Memory.wf s.mem → Memory.wf (f s a).mem) (l : List α) (s : State)
    (h : Memory.wf s.mem) : Memory.wf (l.foldl f s).mem := by
  induction l generalizing s with
  | nil => exact h
  | cons a l ih => exact ih _ (hf s a h)

theorem drainWith_wf (f : PendingStore → Bool) (s : State) (h : Memory.wf s.mem) : Memory.wf (drainWith f s).mem := by
  unfold drainWith
  split
  · exact h
  · split
    exact foldl_wf performStore performStore_wf _ _ h

theorem releaseWaits_wf (s : State) (c : Nat) (h : Memory.wf s.mem) : Memory.wf (releaseWaits s c).mem := drainWith_wf _ s h

theorem drainTo_wf (s : State) (c core : Nat) (h : Memory.wf s.mem) : Memory.wf (drainTo s c core).mem := drainWith_wf _ s h

theorem spansWrite_wf (l : List (Nat × Nat)) (s : State) (bs : List Byte) (h : Memory.wf s.mem) : Memory.wf (spansWrite s l bs).mem := by
  induction l generalizing s bs with
  | nil => exact h
  | cons e l ih =>
    obtain ⟨k, n⟩ := e
    exact ih _ _ (by rw [mend_mem]; exact homeWrite_wf s k _ h)

theorem spansStore_wf (ctx : Nat) (l : List (Nat × Nat)) (s : State) (bs : List Byte) (h : Memory.wf s.mem) : Memory.wf (spansStore s ctx l bs).mem := by
  induction l generalizing s bs with
  | nil => exact h
  | cons e l ih =>
    obtain ⟨k, n⟩ := e
    unfold spansStore
    refine ih _ _ ?_
    split
    · exact memWrite_wf _ k _ (by rw [mend_mem]; exact h)
    · rw [show ∀ (t : State) (x : List PendingStore), ({ t with stores := x } : State).mem = t.mem from fun _ _ => rfl, mend_mem]; exact h

theorem combine_wf (s : State) (p : Partial) (h : Memory.wf s.mem) : Memory.wf (combine s p).mem := by
  unfold combine
  split
  · exact h
  · exact homeWrite_wf s _ _ h

theorem recallLines_wf (s : State) (k n : Nat) (h : Memory.wf s.mem) : Memory.wf (recallLines s k n).1.mem := by
  unfold recallLines
  split
  · exact h
  · exact foldl_wf combine combine_wf _ _ h

theorem recallSpans_wf (l : List (Nat × Nat)) (s : State) (d : Nat) (h : Memory.wf s.mem) : Memory.wf (recallSpans s l d).1.mem := by
  induction l generalizing s d with
  | nil => exact h
  | cons e l ih =>
    obtain ⟨k, n⟩ := e
    have hr := recallLines_wf s k n h
    unfold recallSpans
    split
    · rename_i t heq; rw [heq] at hr; exact ih t _ hr
    · rename_i t line heq; rw [heq] at hr; exact hr

theorem setAD_wf (s : State) (e : TlbEntry) (wr : Bool) (h : Memory.wf s.mem) : Memory.wf (setAD s e wr).1.mem := by
  unfold setAD
  generalize (if e.leaf.testBit 5 then 0 else 0x20) + (if wr && !e.leaf.testBit 6 then 0x40 else 0) = n
  by_cases hn : n = 0
  · simpa [hn] using h
  · simpa [hn] using homeWrite_wf s _ _ h

end Sys2Proof.Machine
end

