-- ==== Sys2Proof/Laws/Ops.lean ====
section
/-! SUPPORT. What the shared shapes of instructions give: the end of an instruction, loads and stores, objects in scratchpads, and events. -/

namespace Sys2Proof.Machine

open Sys2Proof

/-! ## The end of an instruction -/

/-- No release is held back when the instruction is none, or when every store of its thread can be acknowledged. -/
theorem releaseHeld_free {i : Instr} {s : State} (h : isRelease i = false ∨ unacked s s.cur = none) (r : Res) : releaseHeld i s r = r := by
  have : (isRelease i && (unacked s s.cur).isSome) = false := by rcases h with h | h <;> simp [h]
  unfold releaseHeld
  split <;> simp [this]

/-- A release that finds everything ready waits while a store of its thread is not acknowledged. -/
theorem releaseHeld_held {i : Instr} {s t : State} (h : isRelease i = true) (hu : (unacked s s.cur).isSome = true) :
    releaseHeld i s (.ok t) = .wait s (.acks (cxCore s)) := by
  simp [releaseHeld, h, hu]

/-- What an instruction with readable sources answers is settled from what its effect ends in. -/
theorem finish_of {i : Instr} {srcs : List Nat} {body : State → Res} {s : State} (h : SrcsGood s srcs) :
    finish i srcs body s = .next (settle i s (releaseHeld i s (body s))) := by
  unfold SrcsGood at h
  unfold finish; rw [h]; simp

/-- An instruction whose sources are readable and whose effect is done goes on to the next instruction. -/
theorem finish_ok {i : Instr} {srcs : List Nat} {body : State → Res} {s t : State} (hb : body s = .ok t)
    (hr : isRelease i = false ∨ unacked s s.cur = none) : SrcsGood s srcs → Goes s t → finish i srcs body s = .next (advance s t) := by
  intro h g
  unfold Goes nextPc at g
  rw [finish_of h, hb, releaseHeld_free hr]
  simp only [settle, g, Bool.false_eq_true, if_false]
  rfl

/-- An instruction of this shape completes with what its effect ends in; the first hypothesis is closed by rfl. -/
theorem completes_of {i : Instr} {srcs : List Nat} {body : State → Res} {s t : State} (he : exec i s = finish i srcs body s)
    (hb : body s = .ok t)
    (hr : isRelease i = false ∨ unacked s s.cur = none := by first | exact Or.inl rfl | exact Or.inr (by assumption)) :
    Completes i srcs s t := fun h g => he.trans (finish_ok hb hr h g)

/-- What such an instruction answers when its sources are readable. -/
theorem answers_of {i : Instr} {srcs : List Nat} {body : State → Res} {s : State} {r : Res} (h : SrcsGood s srcs)
    (he : exec i s = finish i srcs body s) (hb : body s = r)
    (hr : releaseHeld i s r = r := by first | rfl | exact releaseHeld_free (Or.inl rfl) _ | exact releaseHeld_free (Or.inr (by assumption)) _) :
    exec i s = .next (settle i s r) := by
  rw [he, finish_of h, hb, hr]

/-- A source register that cannot be read traps before anything else happens, unless the instruction already waits. -/
theorem finish_bad {i : Instr} {srcs : List Nat} {body : State → Res} {s : State} (hu : underWay s = false) (h : srcs.any (regBad (cx s)) = true) :
    finish i srcs body s = .next (regTrap s i) := by
  unfold finish; rw [h, hu]; rfl

/-- An instruction that would go on at a good address waits, parks or asks for its page. -/
theorem unlessBad_of {i : Instr} {s t : State} (h : Goes s s) : unlessBad i s t = t := by
  have hw : waitTrap i s = none := by
    unfold waitTrap; dsimp only [Goes, nextPc] at h ⊢; rw [h, Bool.and_false]; rfl
  unfold unlessBad; rw [hw]

/-- One that would go on at an address that no fetch can use traps first. -/
theorem unlessBad_bad {i : Instr} {s t : State} (hf : fallsThrough i = true) (h : badTarget (nextPc s s) = true) :
    unlessBad i s t = takeTrap s i cInsnAddr (nextPc s s) 0 := by
  have hw : waitTrap i s = some (nextPc s s) := by
    unfold waitTrap; dsimp only [nextPc] at h ⊢; rw [h, hf]; rfl
  unfold unlessBad; rw [hw]

/-- An instruction whose effect waits, once its checks are done, waits; the first hypothesis is closed by rfl. -/
theorem waits_of {i : Instr} {srcs : List Nat} {body : State → Res} {s t : State} {o : Obj} (he : exec i s = finish i srcs body s)
    (hb : body s = .wait t o) (hf : fallsThrough i = true := by rfl) : Waits i srcs s t o := by
  intro h
  have e : exec i s = .next (unlessBad i s (waitOn t o)) := by rw [he, finish_of h, hb]; rfl
  exact ⟨fun g => by rw [e, unlessBad_of g], fun g => by rw [e, unlessBad_bad hf g]⟩

/-- Every answer of an instruction of this shape is a next state. -/
theorem finish_next (i : Instr) (srcs : List Nat) (body : State → Res) (s : State) : ∃ t, finish i srcs body s = .next t := ⟨_, rfl⟩

/-- Every event is a next state. -/
theorem event_next (s : State) : event s = .next s := rfl

/-! ## Loads and stores -/

/-- A load whose checks pass continues with its state and its bytes. -/
theorem loads_of {s t : State} {ap : Bool} {l : List (Word × Nat)} {bs : List (List Byte)} (h : loadResult s ap l = some (t, bs))
    (k : State → List (List Byte) → Res) : loads s ap l k = k t bs := by
  unfold loadResult at h
  unfold loads
  split at h
  rename_i s1 cs he
  simp only [he]
  split at h
  · cases h
  · rename_i hc
    have hc' : chkRes s1 false cs = none := by simpa using hc
    rw [hc']; simp only
    split at h
    · cases h
    · rename_i s2 hr
      try simp only [hr]
      split at h
      · cases h
      · rename_i hb
        have hb' : badMany s2 false l cs = none := by simpa using hb
        rw [hb']; simp only
        split at h
        · rename_i t' bs' hm
          try rw [hm]
          try simp only
          simp only [Option.some.injEq, Prod.mk.injEq] at h
          obtain ⟨rfl, rfl⟩ := h; rfl
        · cases h

/-- A store whose checks pass continues with its state. -/
theorem stores_of {s t : State} {ap : Bool} {l : List (Word × List Byte)} (h : storeResult s ap l = some t) (k : State → Res) :
    stores s ap l k = k t := by
  unfold storeResult at h
  unfold stores
  split at h
  rename_i s1 cs he
  simp only [he]
  split at h
  · cases h
  · rename_i hc
    have hc' : chkRes s1 true cs = none := by simpa using hc
    rw [hc']; simp only
    split at h
    · cases h
    · rename_i s2 hr
      try simp only [hr]
      split at h
      · cases h
      · rename_i hb
        have hb' : badMany s2 true (l.map (fun e => (e.1, e.2.length))) cs = none := by simpa using hb
        rw [hb']; simp only
        simp only [Option.some.injEq] at h
        subst h; rfl

/-! ## Objects -/

/-- A unit that can be read lets the instruction go on. -/
theorem readable_of {s : State} {key n : Nat} {va : Word} {r : Res} (h : firstBad s key n = none) : readable s key n va r = r := by
  unfold readable; rw [h]

/-- A counter address that passes the checks names its key. -/
theorem counterAt_of {s : State} {va : Word} {key : Nat} (h : counterObj s (thr s) va 8 = .key key) (k : Nat → Res) : counterAt s va k = k key := by
  unfold counterAt; rw [h]; rfl

/-- A full/empty address that passes the checks names its key. -/
theorem dwordAt_of {s : State} {va : Word} {key : Nat} (h : scratchObj s (thr s) va 8 cFullEmpty = .key key) (k : Nat → Res) :
    dwordAt s va k = k key := by
  unfold dwordAt; rw [h]; rfl

/-- A barrier address that passes the checks names its key. -/
theorem barrierAt_of {s : State} {va : Word} {key : Nat} (h : counterObj s (thr s) va 16 = .key key) (k : Nat → Res) : barrierAt s va k = k key := by
  unfold barrierAt; rw [h]; rfl

/-- The element-wise result of a vector operation. -/
theorem lanes_eq (s : State) (d w n : Nat) (mask : Nat → Bool) (tag planes : Nat) (f : Nat → Nat × Nat) :
    lanes s d w n mask tag planes f = .ok (laneResult s d w n mask tag planes f) := rfl

/-- An instruction without sources can read them all. -/
theorem sourcesNone_of (s : State) : SrcsGood s [] := rfl

/-- Accesses that pass their checks let the instruction go on. -/
theorem checked_of {s u : State} {acc : Acc} {l cs} (h1 : checkMany s (thr s) acc false l [] = (u, cs)) (h2 : chkRes u acc.writes cs = none) (k : State → Res) : checked s acc l k = k u := by
  unfold checked; rw [h1]; simp only [h2]

/-- A payload that passes its checks, with room in the injector, lets the send go on. -/
theorem sendTo_of {s u : State} {p : Word} {n : Nat} {bs} (h : sendReady s p n = some (u, bs)) (k : State → List Byte → Res) : sendTo s p n k = k u bs := by
  unfold sendReady at h
  split at h
  rename_i s1 cs he
  split at h
  · cases h
  · rename_i hc
    have hc1 : chkRes s1 false cs = none := by
      cases hx : chkRes s1 false cs <;> simp_all
    have hr : hasRoom s1 (cxCore s1) = true := by
      cases hx : hasRoom s1 (cxCore s1) <;> simp_all
    unfold sendTo
    rw [checked_of he hc1]
    simp only [hr, Bool.not_true, Bool.false_eq_true, if_false]
    cases hl : loadResult (releaseWaits s1 s1.cur) false [(p, n)] with
    | none => rw [hl] at h; cases h
    | some r =>
      rw [hl] at h
      simp only [Option.map_some, Option.some.injEq, Prod.mk.injEq] at h
      unfold load1
      rw [loads_of (t := r.1) (bs := r.2) hl]; rw [h.1, h.2]

/-- What an instruction finds at its counter. -/
theorem atCounter_of {s u va key} (h : CounterHere s va key u) (k : State → Nat → Res) : atCounter s va k = k u key := by
  unfold atCounter; rw [counterAt_of h.1, ← h.2.1]

/-- What an instruction finds at its ring. -/
theorem atRing_of {s u va r} (h : RingHere s va r u) (k : State → Ring → Res) : atRing s va k = k u r := by
  obtain ⟨key, h1, h2, h3, h4⟩ := h
  unfold atRing; rw [h1]; simp only [Place.get]; rw [← h2, readable_of h3, h4]

/-- What an instruction finds at its barrier. -/
theorem atBarrier_of {s u va key o} (h : BarrierHere s va key o u) (k : State → Nat → Barrier → Res) : atBarrier s va true k = k u key o := by
  obtain ⟨h1, h2, h3, h4⟩ := h
  unfold atBarrier; rw [barrierAt_of h1]; simp only [Bool.not_true, Bool.false_eq_true, if_false]; rw [← h2, readable_of h3, h4]

/-- What an instruction finds at its record. -/
theorem recordAt_of {s u va acc key} (h : RecordHere s va acc key u) (k : State → Nat → List Byte → Res) : recordAt s va acc k = k u key (homeRead u key 64) := by
  obtain ⟨h0, s1, n, v, h1, h2, h3, rfl⟩ := h
  unfold recordAt; simp only [h0, ne_eq, not_true_eq_false, if_false, h1, h2, readable_of h3]

/-- A good group register gives its number. -/
theorem groupNum_of {s x} (h : GroupOk s x) (k : Nat → Res) : groupNum s x k = k x.toNat := by
  obtain ⟨h0, h1⟩ := h
  unfold groupNum groupGood groupFails; simp only [h0, ne_eq, not_true_eq_false, if_false, h1, Bool.false_eq_true]

/-- An optional counter address. -/
theorem optCounter_of {s va o} (h : OptKey s va o) (k : Option Nat → Res) : optCounter s va k = k o := by
  rcases h with ⟨h1, h2⟩ | ⟨h1, key, h2, h3⟩
  · unfold optCounter; rw [if_pos h1, h2]
  · unfold optCounter; rw [if_neg h1, counterAt_of h2, h3]

/-- The registers that every engine operation shares. -/
theorem headerOk_of {s l} (h : HeaderOk s l) (k : Res) : headerOk s l k = k := by
  obtain ⟨h1, ⟨o1, h2⟩, ⟨o3, h3⟩, h4⟩ := h
  unfold headerOk; rw [if_neg (not_not_intro h1), optCounter_of h2, optCounter_of h3]
  rcases h4 with h4 | ⟨key, h4⟩
  · rw [if_pos h4]
  · by_cases h5 : l.getD 5 0 = 0
    · rw [if_pos h5]
    · rw [if_neg h5, barrierAt_of h4]

/-- Owned engine registers let the instruction go on with their values. -/
theorem withSets_of {s n k l} (h : engSets s n k = some l) (f : List Word → Res) : withSets s n k f = f l := by
  unfold withSets; rw [h]

/-- A free place in a waiting room lets the operation in. -/
theorem withPlace_of {s u} (h : waitingOps s (cxCore s) u < 16) (k : Nat → Res) : withPlace s u k = k s.nextOp := by
  unfold withPlace; rw [if_neg (by omega)]

/-- The counters of a Sawmill operation. -/
theorem withCounters_of {s l op k o1 o3} (h1 : OptKey s (l.getD 1 0) o1) (h3 : OptKey s (l.getD 3 0) o3) : withCounters s l op k = k (withKeys op l o1 o3) := by
  unfold withCounters; rw [optCounter_of h1, optCounter_of h3]; rfl

/-- An operation that finds its place enters its queue, or waits outside it for its "after" counter. -/
theorem queueIssue_of {s o room wait queue op} (h : QueueRoom s o wait queue op) (put : Bool → State) :
    queueIssue s o room wait queue op put = .ok (put (!op.after.isSome)) := by
  unfold QueueRoom at h; unfold queueIssue
  cases ho : op.after.isSome <;> simp only [ho, if_true, Bool.false_eq_true, if_false] at h ⊢
  · rw [h.2, if_neg (by simpa using h.1)]; rfl
  · rw [if_neg (by omega)]; rfl

/-- A Sawmill or Cruise operation with room enters its queue. -/
theorem sawIssue_of {s op} (h : SawRoom s op) : sawIssue s op = .ok (sawQueued s op) := by
  unfold sawIssue sawQueued; rw [queueIssue_of h]; cases op.after.isSome <;> rfl

/-! ## Skidder slots -/

/-- A slot of an operation on its sources, in its turn. -/
theorem kPure_of {op : Nat} {f : Nat → Token → Token → Nat → Nat → Token} {pkg stk slot el isl w : Nat} {s : State} {st : Stream} {e r : Elem}
    (h : kTurn s pkg (streamKey stk slot) el isl op = some (st, e, r, w)) :
    kPure op f pkg stk slot el isl s =
      .next (kDone s pkg (streamKey stk slot) el st e w (f w (kSource r (kSA w)) (kSource r (kSB w)) (r.l.getD (kLD w) 0).toNat r.preds)) := by
  unfold kPure; simp only [h]; rfl

/-- A slot of KSETP or KCLRP, in its turn. -/
theorem kPreds_of {op : Nat} {f : Nat → Nat → Nat} {pkg stk slot el isl w : Nat} {s : State} {st : Stream} {e r : Elem}
    (h : kTurn s pkg (streamKey stk slot) el isl op = some (st, e, r, w)) :
    kPreds op f pkg stk slot el isl s =
      .next (kSet s pkg (streamKey stk slot) (kEffect st el (withPreds e (f e.preds (kf w 0 8))) w 0 none none)) := by
  unfold kPreds; simp only [h]; rfl

end Sys2Proof.Machine
end

