-- ==== Sys2Proof/Tests/Slice0.lean ====
section
/-! SUPPORT. Tests of the model: words written out from the spec's encodings, terms that the checks of WellFormed refuse, results that the spec
states, and for each statement with hypotheses a state that meets them. -/

set_option Elab.async false

namespace Sys2Proof.Machine

open Sys2Proof

/-! ## Decoding: words laid out by hand from the formats of 06 R149 and the tables of R154-R169, and the words of the spec's own examples -/

def wR (j d a b f : Nat) : Nat := j * 2 ^ 26 + d * 2 ^ 21 + a * 2 ^ 16 + b * 2 ^ 11 + f
def wI (j d a i : Nat) : Nat := j * 2 ^ 26 + d * 2 ^ 21 + a * 2 ^ 16 + i
def wV (j d a b m f : Nat) : Nat := j * 2 ^ 26 + d * 2 ^ 21 + a * 2 ^ 16 + b * 2 ^ 11 + m * 2 ^ 8 + f
def wM (j a b r p h : Nat) : Nat := j * 2 ^ 26 + a * 2 ^ 21 + b * 2 ^ 16 + r * 2 ^ 14 + p * 2 ^ 12 + h
def wE (e f a b g : Nat) : Nat := 0x3A * 2 ^ 26 + e * 2 ^ 22 + f * 2 ^ 16 + a * 2 ^ 11 + b * 2 ^ 6 + g

/-- A word stands for an instruction. -/
def reads (w : Nat) (i : Instr) : Bool := decodeWord w == some i

/-- R156. -/
theorem test_words_alu :
    reads 0x04A63800 (.add 5 6 7) ∧ reads (wR 1 2 3 5 0x001) (.sub 2 3 5) ∧ reads (wR 1 2 3 5 0x002) (.and 2 3 5) ∧ reads (wR 1 2 3 5 0x003) (.or 2 3 5) ∧
    reads (wR 1 2 3 5 0x004) (.xor 2 3 5) ∧ reads (wR 1 2 3 5 0x005) (.andn 2 3 5) ∧ reads (wR 1 2 3 5 0x006) (.sll 2 3 5) ∧
    reads (wR 1 2 3 5 0x007) (.srl 2 3 5) ∧ reads (wR 1 2 3 5 0x008) (.sra 2 3 5) ∧ reads (wR 1 2 3 5 0x009) (.rol 2 3 5) ∧
    reads (wR 1 2 3 5 0x00A) (.mul 2 3 5) ∧ reads (wR 1 2 3 5 0x00B) (.mulh 2 3 5) ∧ reads (wR 1 2 3 5 0x00C) (.mulhu 2 3 5) ∧
    reads (wR 1 2 3 5 0x00D) (.div 2 3 5) ∧ reads (wR 1 2 3 5 0x00E) (.divu 2 3 5) ∧ reads (wR 1 2 3 5 0x00F) (.rem 2 3 5) ∧
    reads (wR 1 2 3 5 0x010) (.remu 2 3 5) ∧ reads (wR 1 2 3 5 0x011) (.min 2 3 5) ∧ reads (wR 1 2 3 5 0x012) (.max 2 3 5) ∧
    reads (wR 1 2 3 5 0x013) (.minu 2 3 5) ∧ reads (wR 1 2 3 5 0x014) (.maxu 2 3 5) ∧ reads (wR 1 2 3 5 0x015) (.slt 2 3 5) ∧
    reads (wR 1 2 3 5 0x016) (.sltu 2 3 5) ∧ reads (wR 1 2 3 5 0x017) (.seq 2 3 5) ∧ reads (wR 1 2 3 0 0x018) (.clz 2 3) ∧
    reads (wR 1 2 3 0 0x019) (.ctz 2 3) ∧ reads (wR 1 2 3 0 0x01A) (.popc 2 3) ∧ reads (wR 1 2 3 0 0x01B) (.brev 2 3) ∧
    reads (wR 1 2 3 0 0x01C) (.bswap 2 3) ∧ reads (wR 1 2 3 5 0x01D) (.sext 2 3 5) ∧ reads (wR 1 2 3 5 0x01E) (.zext 2 3 5) ∧
    reads (wR 1 2 3 5 0x01F) (.extr 2 3 5) ∧ reads (wR 1 2 3 5 0x020) (.insr 2 3 5) ∧ reads (wR 1 2 3 5 0x021) (.sel 2 3 5) := by decide +kernel

/-- R154, R157; the words of 07 R187's example. -/
theorem test_words_immediate :
    reads (wI 2 3 4 0xFFFF) (.addi 3 4 0xFFFF) ∧ reads (wI 3 3 4 0x1234) (.andi 3 4 0x1234) ∧ reads (wI 4 3 4 0x1234) (.ori 3 4 0x1234) ∧
    reads (wI 5 3 4 0x1234) (.xori 3 4 0x1234) ∧ reads (wI 6 3 4 0x1234) (.slti 3 4 0x1234) ∧ reads (wI 7 3 4 63) (.slli 3 4 63) ∧
    reads (wI 7 3 4 (0x4000 + 63)) (.srli 3 4 63) ∧ reads (wI 7 3 4 (0x8000 + 63)) (.srai 3 4 63) ∧ reads 0x20A504C1 (.lih 5 5 0x04C1) ∧
    reads 0x24A001E0 (.lil 5 0x01E0) ∧ reads (wI 0x0A 3 4 7) (.lea 3 4 7) ∧ reads (wI 0x0B 3 0 7) (.addpc 3 7) := by decide +kernel

/-- R154, R158, R159. -/
theorem test_words_memory :
    reads (wI 0x10 3 4 7) (.ldB 3 4 7) ∧ reads (wI 0x11 3 4 7) (.ldH 3 4 7) ∧ reads 0x48640010 (.ldW 3 4 16) ∧ reads (wI 0x13 3 4 7) (.ldD 3 4 7) ∧
    reads (wI 0x14 3 4 7) (.ldBZ 3 4 7) ∧ reads (wI 0x15 3 4 7) (.ldHZ 3 4 7) ∧ reads (wI 0x16 3 4 7) (.ldWZ 3 4 7) ∧
    reads (wI 0x18 3 4 7) (.stB 3 4 7) ∧ reads (wI 0x19 3 4 7) (.stH 3 4 7) ∧ reads (wI 0x1A 3 4 7) (.stW 3 4 7) ∧
    reads 0x6FC5FFF8 (.stD 30 5 0xFFF8) ∧ reads 0x7064281A (.ldx 3 4 5 1 1 2) ∧ reads (wR 0x1C 3 4 5 (3 + 4 + 16)) (.stx 3 4 5 1 3) ∧
    reads (wR 0x1D 3 4 0 0) (.ldfTake 3 4) ∧ reads (wR 0x1D 3 4 0 1) (.ldfPeek 3 4) ∧ reads 0x74054002 (.ste 5 8) ∧ reads 0x74050003 (.tagset 5 0) ∧
    reads (wR 0x1D 3 4 0 4) (.tagget 3 4) ∧ reads (wR 0x1D 0 0 0 5) .acq ∧ reads (wR 0x1D 0 0 0 6) .rel ∧ reads (wR 0x1D 0 4 5 7) (.fenceE 4 5) ∧
    reads (wR 0x1D 0 4 0 8) (.pref 4) := by decide +kernel

/-- R160: operation, width 2 or 3, unsigned, operator of AUPD. -/
theorem test_words_atomics :
    reads 0x78A63830 (.aadd 5 6 7 3) ∧ reads (wR 0x1E 1 2 3 (1 + 0x20 + 0x40)) (.amin 1 2 3 1 2) ∧ reads (wR 0x1E 1 2 3 (2 + 0x30)) (.amax 1 2 3 0 3) ∧
    reads (wR 0x1E 1 2 3 (3 + 0x20)) (.aand 1 2 3 2) ∧ reads (wR 0x1E 1 2 3 (4 + 0x20)) (.aor 1 2 3 2) ∧ reads (wR 0x1E 1 2 3 (5 + 0x20)) (.axor 1 2 3 2) ∧
    reads (wR 0x1E 1 2 3 (6 + 0x20)) (.aswp 1 2 3 2) ∧ reads (wR 0x1E 1 2 3 (7 + 0x30)) (.acas 1 2 3 3) ∧ reads (wR 0x1E 1 2 3 (8 + 0x20)) (.afadd 1 2 3) ∧
    reads 0x78063B29 (.aupd 6 7 6 0 2) := by decide +kernel

/-- R154, R161, R162, and the words of 07's examples. -/
theorem test_words_control :
    reads (wI 0x20 1 2 9) (.beq 1 2 9) ∧ reads 0x8422FFFD (.bne 1 2 0xFFFD) ∧ reads (wI 0x22 1 2 9) (.blt 1 2 9) ∧ reads (wI 0x23 1 2 9) (.bge 1 2 9) ∧
    reads (wI 0x24 1 2 9) (.bltu 1 2 9) ∧ reads (wI 0x25 1 2 9) (.bgeu 1 2 9) ∧ reads 0x98600002 (.bz 3 2) ∧ reads (wI 0x27 1 0 9) (.bnz 1 9) ∧
    reads 0xA3FFFF00 (.jmp 0x3FFFF00) ∧ reads (0x29 * 2 ^ 26 + 5) (.jal 5) ∧ reads (wR 0x2A 0 4 0 0) (.jr 4) ∧ reads 0xABE90001 (.jalr 31 9) ∧
    reads 0xAE700C00 (.loop 1 7 3) ∧ reads 0xB0001064 (.loopi 0 100 4) := by decide +kernel

/-- R163, R164, and the words of 08's examples. -/
theorem test_words_vector :
    reads 0xC0221B00 (.vadd 1 2 3 3) ∧ reads (wV 0x30 1 2 3 4 0x01) (.vsub 1 2 3 4) ∧ reads (wV 0x30 1 2 3 4 0x02) (.vmul 1 2 3 4) ∧
    reads (wV 0x30 1 2 3 4 0x03) (.vfma 1 2 3 4) ∧ reads 0xC0C41804 (.vfms 6 4 3 0) ∧ reads (wV 0x30 1 2 3 4 0x05) (.vmin 1 2 3 4) ∧
    reads (wV 0x30 1 2 3 4 0x06) (.vmax 1 2 3 4) ∧ reads (wV 0x30 1 2 0 4 0x07) (.vabs 1 2 4) ∧ reads (wV 0x30 1 2 0 4 0x08) (.vneg 1 2 4) ∧
    reads (wV 0x30 1 2 3 4 0x09) (.vand 1 2 3 4) ∧ reads (wV 0x30 1 2 3 4 0x0A) (.vor 1 2 3 4) ∧ reads (wV 0x30 1 2 3 4 0x0B) (.vxor 1 2 3 4) ∧
    reads (wV 0x30 1 2 3 4 0x0C) (.vshl 1 2 3 4) ∧ reads (wV 0x30 1 2 3 4 0x0D) (.vshr 1 2 3 4) ∧ reads 0xC0412B12 (.vcmp 2 1 5 3 2) ∧
    reads (wV 0x30 1 2 3 4 0x16) (.vsel 1 2 3 4) ∧ reads (wV 0x30 1 2 0 4 0x18) (.vrcp 1 2 4) ∧ reads 0xC2300019 (.vrsq 17 16 0) ∧
    reads (wV 0x30 1 2 0 4 0x1A) (.vexp2 1 2 4) ∧ reads (wV 0x30 1 2 0 4 0x1B) (.vlog2 1 2 4) ∧ reads (wV 0x30 1 2 3 0 0x20) (.vpack 1 2 3) ∧
    reads (wV 0x30 1 2 1 0 0x21) (.vunpk 1 2 1) ∧ reads 0xC0A72822 (.vsplat 5 7 5 0) ∧ reads (wV 0x30 1 2 3 0 0x23) (.vext 1 2 3) ∧
    reads (wV 0x30 1 2 3 0 0x24) (.vins 1 2 3) ∧ reads (wV 0x30 1 2 3 4 0x25) (.vperm 1 2 3 4) ∧ reads 0xC2B50028 (.vred 21 21 0 0) ∧
    reads (wV 0x30 1 2 0 4 0x31) (.vscan 1 2 4 1) ∧ reads 0xC0830846 (.vcvt 4 3 1 0 6) := by decide +kernel

/-- R165, R166. -/
theorem test_words_vector_memory :
    reads 0xC4440005 (.vld 2 4 0 5) ∧ reads (wV 0x31 1 2 0 3 0x15) (.vst 1 2 3 5) ∧ reads (wV 0x31 1 2 3 4 0x25) (.vlds 1 2 3 4 5) ∧
    reads 0xC4442835 (.vsts 2 4 5 0 5) ∧ reads (wV 0x31 1 2 3 4 0x45) (.vldi 1 2 3 4 5) ∧ reads (wV 0x31 1 2 3 4 0x55) (.vsti 1 2 3 4 5) ∧
    reads 0xC4E90064 (.vldp 7 9 0 4) ∧ reads (wV 0x31 1 2 0 3 0x70) (.vstp 1 2 3) ∧ reads 0xC8410000 (.vnzs 2 1 0) ∧ reads 0xC8611001 (.vband 3 1 2 0) ∧
    reads 0xC8830002 (.vpopp 4 3 0) ∧ reads 0xC9011003 (.visect 8 1 2 0) ∧ reads (wV 0x32 1 2 0 0 0x08) (.vmovmMaskToVector 1 2) ∧
    reads (wV 0x32 1 2 3 0 0x09) (.mand 1 2 3) ∧ reads (wV 0x32 1 2 3 0 0x0A) (.mor 1 2 3) ∧ reads (wV 0x32 1 2 0 0 0x0B) (.mnot 1 2) ∧
    reads 0xC8A3000C (.mpop 5 3) ∧ reads (wV 0x32 1 2 0 0 0x0D) (.vmovmVectorToMask 1 2) := by decide +kernel

/-- R167, R168, and the words of 09's examples. -/
theorem test_words_sync :
    reads 0xD1091005 (.send 8 9 1 5) ∧ reads 0xD54B0001 (.sendi 10 11 0 1) ∧ reads 0xD9098007 (.sendm 8 9 2 0 7) ∧
    reads (wM 0x37 1 2 0 3 9) (.spawn 1 2 3 9) ∧ reads 0xE18D2003 (.xdsp 12 13 2 3) ∧ reads (wR 0x39 0 0 0 0x00) .endThread ∧
    reads (wR 0x39 0 0 0 0x01) .yield ∧ reads (wR 0x39 0 1 2 0x02) (.suspend 1 2) ∧ reads (wR 0x39 1 2 3 0x03) (.resume 1 2 3) ∧
    reads (wR 0x39 0 0 0 0x04) .hbeat ∧ reads (wR 0x39 0 1 2 0x08) (.cnti 1 2) ∧ reads (wR 0x39 1 2 3 0x09) (.cnta 1 2 3) ∧
    reads 0xE405300A (.cntaRel 0 5 6) ∧ reads 0xE4E5400B (.cntw 7 5 8) ∧ reads 0xE4F4300C (.cntt 7 20 6) ∧ reads (wR 0x39 0 1 2 0x10) (.barinit 1 2) ∧
    reads 0xE5240011 (.bararv 9 4) ∧ reads (wR 0x39 0 1 0 0x12) (.bardrop 1) ∧ reads (wR 0x39 0 1 2 0x13) (.barwait 1 2) ∧
    reads (wR 0x39 0 1 2 0x14) (.bartx 1 2) ∧ reads 0xE6A0B018 (.gjoin 21 22) ∧ reads 0xE5A0B019 (.gleave 13 22) ∧
    reads 0xE46A029A (.gld 3 10 1 2) ∧ reads 0xE46A041B (.gldf 3 10 2 0) ∧ reads 0xE6E0B01C (.gbar 23 22) ∧ reads (wR 0x39 1 0 2 0x1D) (.ginfo 1 2) ∧
    reads (wR 0x39 0 1 2 0x20) (.fork 1 2) ∧ reads (wR 0x39 0 1 0 0x21) (.join 1) ∧ reads (wR 0x39 1 2 0 0x22) (.dqpush 1 2) ∧
    reads (wR 0x39 1 2 0 0x23) (.dqpop 1 2) ∧ reads (wR 0x39 1 2 0 0x28) (.rget 1 2) ∧ reads (wR 0x39 0 1 2 0x29) (.rput 1 2) ∧
    reads (wR 0x39 1 2 3 0x2A) (.rtake 1 2 3) ∧ reads (wR 0x39 1 2 3 0x2B) (.rfree 1 2 3) := by decide +kernel

/-- R169, 10 R274, 11 R291, and the words of their examples. -/
theorem test_words_engine :
    reads 0xE8002990 (.ecopy 5 6 2) ∧ reads 0xE840298E (.egath 5 6 1 6) ∧ reads (wE 1 1 5 6 (8 + 2)) (.escat 5 6 1 2) ∧ reads 0xE8803A00 (.esub 7 8) ∧
    reads (wE 2 1 5 6 8) (.ebind 5 6 1) ∧ reads 0xE8821160 (.enear 2 5 4) ∧ reads (wE 3 0 5 0 16) (.eqry 5 2) ∧ reads (wE 4 0 5 6 16) (.qload 5 6 2) ∧
    reads 0xE9014820 (.qplay 9 4) ∧ reads 0xE9402140 (.nsend 4 5) ∧ reads (wE 5 1 4 5 0) (.nrecv 4 5) ∧ reads (wE 5 2 4 5 56) (.npoll 4 5 7) ∧
    reads 0xE9802168 (.migr 4 5 5) ∧ reads 0xE9C0000A (.mzero 1 2) ∧ reads 0xE9C12980 (.mlda 5 6) ∧ reads (wE 7 2 5 6 0) (.mldb 5 6) ∧
    reads 0xE9C34300 (.mpost 8 12) ∧ reads 0xE9C431C3 (.mop 6 7 3) ∧ reads 0xE9C531CB (.mopm 6 7 1 3) ∧ reads (wE 7 6 6 7 3) (.mst 6 7 3) ∧
    reads 0xE9C74901 (.mrd 9 4 1) ∧ reads (wE 7 8 6 7 (8 + 3)) (.mscale 6 7 1 3) ∧ reads 0xE9C94805 (.mstat 9 0 5) ∧ reads 0xEA0052C2 (.cruise 10 11 2) ∧
    reads 0xEA012146 (.blaze 4 5 1 2) ∧ reads (wE 8 2 0 0 (2 * 16 + 1)) (.blzmov 2 1) ∧ reads (wE 8 2 5 0 (2 * 16 + 4)) (.blzmovStore 5 2) ∧
    reads (wE 8 2 5 6 (8 + 1)) (.blzmovLoad 5 6 1) ∧ reads 0xEA02002D (.blzmovAnd 2 1) ∧ reads 0xEA031902 (.blzpop 3 4 2) ∧
    reads 0xEA404010 (.ewr 8 16) ∧ reads (wE 9 1 8 0 63) (.erd 8 63) := by decide +kernel

/-- R161, 11 R310, R316. -/
theorem test_words_system :
    reads 0xEC000000 .nop ∧ reads 0xED240001 (.trap 9 4) ∧ reads 0xEC000002 .eret ∧ reads (wR 0x3B 0 0 0 3) .wfe ∧ reads (wR 0x3B 0 0 0 4) .synci ∧
    reads 0xEC040005 (.tlbinvPage 4) ∧ reads (wR 0x3B 1 0 0 5) .tlbinvJob ∧ reads (wR 0x3B 7 0 0 6) (.brk 7) ∧ reads 0xF0A00048 (.crd 5 0x48) ∧
    reads 0xF4060047 (.cwr 6 0x47) ∧ reads 0xF8000003 (.safept 3) := by decide +kernel

/-- The words that the spec's examples call illegal. -/
theorem test_words_illegal :
    ([0x00000000, 0xFFFFFFFF, 0x04000022, 0xEC200000, 0xC0830040, 0xC1212B12, 0x78A63838, 0xE4000040, 0xD11E1005, 0xE9CA0000, 0xE9C00020, 0xE8000028,
      0xEC400005, 0xF4000048] : List Nat).all (fun w => (decodeWord w).isNone) := by decide +kernel

/-! ## Checks: a term that each check of WellFormed refuses -/

theorem test_ill_formed_fields :
    ([.add 32 0 0, .sub 0 32 0, .add 0 0 32, .clz 32 0, .addi 0 0 65536, .slli 0 0 64, .lil 32 0, .ldB 0 32 0, .stB 0 32 0, .ldx 0 0 0 2 0 0,
      .ldx 0 0 0 0 1 3, .ldx 0 0 0 0 2 0, .stx 0 0 0 0 4, .fenceE 32 0, .pref 32, .jmp 67108864, .jal 67108864, .jr 32, .loop 2 0 1, .loop 0 0 0,
      .loop 0 0 1024, .loopi 0 32768 1, .loopi 0 1 0] : List Instr).all (fun i => !wellFormed i) := by decide +kernel

theorem test_ill_formed_values :
    ([.aadd 0 0 0 1, .amin 0 0 0 2 2, .aupd 0 0 7 0 2, .aupd 0 0 0 1 2, .aupd 0 0 6 0 3, .vadd 0 0 0 8, .vadd 0 32 0 0, .vcmp 8 0 0 0 0, .vcmp 0 0 0 0 6,
      .vunpk 0 0 2, .vsplat 0 0 0 0, .vsplat 0 0 8 0, .vred 0 0 0 6, .vscan 0 0 0 3, .vcvt 0 0 5 0 1, .vcvt 0 0 0 0 9, .vld 0 0 0 8, .vld 0 0 0 11,
      .vldp 0 0 0 1, .vldp 0 0 0 9, .vstp 0 0 8, .mand 8 0 0, .mnot 0 8, .mpop 0 8] : List Instr).all (fun i => !wellFormed i) := by decide +kernel

theorem test_ill_formed_system :
    ([.send 0 0 0 0, .send 0 30 0 0, .send 0 1 4 0, .send 0 1 0 4096, .sendi 0 31 0 0, .sendm 0 1 4 0 0, .spawn 0 1 0 0, .spawn 1 31 0 0, .xdsp 31 1 0 0,
      .xdsp 1 30 0 0, .cntt 0 0 0, .gld 0 0 3 0, .gld 0 0 0 6, .gld 0 0 2 3, .ecopy 0 0 5, .egath 0 0 7 0, .ebind 0 0 8, .mzero 3 0, .mzero 0 8, .mpost 0 0,
      .mpost 0 31, .mopm 0 0 4 0, .mstat 0 1 3, .blaze 0 0 2 0, .blaze 0 0 0 4, .blzmov 4 0, .blzpop 0 0 4, .ewr 0 64, .trap 32 0, .brk 32, .crd 0 7,
      .crd 0 0x4E, .cwr 0 0x48, .safept 65536] : List Instr).all (fun i => !wellFormed i) := by decide +kernel

/-! ## A small state: job 5 runs in context 0 of core 0.00.00, with a page of code, a page of data and the page of its fault ring -/

def baseJob : Job :=
  { Job.none with ctrs := 0x1000, deck := 0x2000, spo := 0x8000, sps := 0x4000, fhaddr := 0x3000, cores := 1 }

def basePkg : Pkg := { Pkg.reset with ast := [(5, 0x100001)], jobs := [(5, baseJob)] }

def baseCtx : Ctx := { Ctx.reset with status := .running, pc := 0x1000, job := 5 }

/-- Five levels of tables; virtual page 1 holds code, page 2 data, page 0x42 the fault ring. -/
def baseMem : State :=
  [(0x100000, 0x101001), (0x101000, 0x102001), (0x102000, 0x103001), (0x103000, 0x104001), (0x104008, 0x1050BB), (0x104010, 0x1060F7),
    (0x104210, 0x1070F7)].foldl (fun s (e : Nat × Nat) => memWrite s e.1 (leBytes 8 e.2)) State.reset

/-- The state with the thread's context changed by f. -/
def base (f : Ctx → Ctx) : State := { baseMem with ctxs := [(0, f baseCtx)], pkgs := [(0, basePkg)] }

/-- The thread's A registers. -/
def withA (l : KMap Word) : State := base (fun c => { c with a := l })

/-- An address in the core's own scratchpad. -/
def loc (ofs : Nat) : Word := word (31 * 2 ^ 52 + ofs)

/-- An instruction's readable sources and a usable next address, as a check. -/
def ready (s t : State) (l : List Nat) : Bool := !l.any (regBad (cx s)) && !badTarget (nextPc s t)

theorem ready_iff (s t : State) (l : List Nat) : ready s t l = true ↔ SrcsGood s l ∧ Goes s t := by
  simp [ready, SrcsGood, Goes]

/-- The state that an outcome names. -/
def stateOf (s : State) : Host.Outcome State Fault Refusal → State
  | .next t => t
  | _ => s

/-- The state after an instruction. -/
def after (i : Instr) (s : State) : State := stateOf s (exec i s)

/-- The instruction ran to its end: the thread is past it. -/
def ran (i : Instr) (s : State) : Bool := (cx (after i s)).pc == 0x1004 && (cx (after i s)).status == .running

/-- The state whose jobs have no place for a frame: a thread that traps there leaves without one (02 R29). -/
def bare (s : State) : State :=
  modPkg s 0 (fun p => { p with jobs := p.jobs.map (fun j => (j.1, { j.2 with sps := 0, ovfl := loc 0x800 })) })

/-- The thread leaves its context, with its frame written, and by a trap without one. -/
def gone (i : Instr) (s : State) : Bool := (cx (after i s)).status == .dormant
def left (i : Instr) (s : State) : Bool := gone i (bare s)

def aAfter (i : Instr) (s : State) (d : Nat) : Nat := (regA (after i s) d).toNat

/-! ## Results that the spec states -/

def xy (x y : Word) : State := withA [(1, x), (2, y)]

/-- The examples of 07 R184-R186. -/
theorem test_division_examples :
    aAfter (.div 3 1 2) (xy 7 (-2)) 3 = (-3 : Word).toNat ∧ aAfter (.rem 3 1 2) (xy 7 (-2)) 3 = 1 ∧
    aAfter (.div 3 1 2) (xy (-7) 2) 3 = (-3 : Word).toNat ∧ aAfter (.rem 3 1 2) (xy (-7) 2) 3 = (-1 : Word).toNat ∧
    aAfter (.div 3 1 2) (xy 0x8000000000000000 (-1)) 3 = 0x8000000000000000 ∧ aAfter (.rem 3 1 2) (xy 0x8000000000000000 (-1)) 3 = 0 ∧
    aAfter (.divu 3 1 2) (xy 12 0) 3 = 0xFFFFFFFFFFFFFFFF ∧ aAfter (.remu 3 1 2) (xy 12 0) 3 = 12 := by decide +kernel

theorem test_multiply_and_field_examples :
    aAfter (.mulh 3 1 2) (xy (-1) (-1)) 3 = 0 ∧ aAfter (.mulhu 3 1 2) (xy (-1) (-1)) 3 = 0xFFFFFFFFFFFFFFFE ∧
    aAfter (.extr 3 1 2) (xy 0xABCD00 0x0C08) 3 = 0xBCD := by decide +kernel

/-- 07 R187's example: LIL and three LIHs build an address. -/
theorem test_constant_example :
    aAfter (.lih 5 5 0) (withA [(5, 0x1E004C1244A)]) 5 = 0x01E004C1244A0000 ∧ aAfter (.lil 5 0x01E0) (withA []) 5 = 0x1E0 := by decide +kernel

/-! ## States that meet the hypotheses of the statements. `ran` says that the thread is past the instruction, which a missing hypothesis would prevent. -/

/-- The instruction that a placed word runs as. -/
def fetched (s : State) : Option Instr :=
  match chooseCtx (tick s) with
  | some c => match fetchWord (selectCtx { tick s with turn := .hardware } c) with
    | .word _ w => decodeWord w
    | .stop _ => none
  | none => none

theorem witness_encoding :
    wellFormed (.add 31 31 31) = true ∧ isCoreWord (.add 31 31 31) = true ∧ decodeWord 0x04432800 = some (.add 2 3 5) ∧
    wellFormed (.crd 31 0x4D) = true ∧ isCoreWord (.crd 31 0x4D) = true := by decide +kernel

/-- A placed word runs at once; a running thread issues when its turn comes, or when the hardware has nothing to do; and a request that waited and can now
be served goes before both. -/
theorem witness_StepRunsDecoded :
    (State.reset.withFetchWord 32 0x04432800).agenda = [] ∧ (State.reset.withFetchWord 32 0x04432800).turn = .first ∧
    fetched (State.reset.withFetchWord 32 0x04432800) = some (.add 2 3 5) ∧
    (chooseCtx (tick (withA [])) = some 0 ∧ (fenceNow (tick (withA []))).isNone ∧ served (tick (withA [])) = none ∧
      (tick (withA [])).turn = .thread ∧ (nextEvent { tick (withA []) with turn := .hardware }).isNone ∧ heldWord (tick (withA [])) = none) ∧
    (let s := base (fun c => { c with status := .waiting (.counter (scratchKey 0 0x100)) 0 1, a := [(5, loc 0x100)], insn := some 0xE4E5400B })
     served (tick s) = some 0 ∧ heldWord { tick s with cur := 0 } = some 0xE4E5400B ∧ decodeWord 0xE4E5400B = some (.cntw 7 5 8)) ∧
    (let s := tick (homeWrite (base (fun c => { c with status := .waiting (.counter (scratchKey 0 0x100)) 0 1, a := [(5, loc 0x100)] }))
        (physKey 0 0x105000) (leBytes 4 0xE4E5400B))
     s.turn ≠ .first ∧ (fenceNow s).isNone ∧ served s = some 0 ∧ fetched s = some (.cntw 7 5 8)) := by decide +kernel

/-- A word that encodes nothing is fetched too. -/
theorem witness_StepOtherwise :
    (chooseCtx (tick (State.reset.withFetchWord 32 0x04000022))).isSome = true ∧ decodeWord 0x04000022 = none ∧
    heldWord (selectCtx { tick (State.reset.withFetchWord 32 0x04000022) with turn := .hardware } 0) = none ∧
    (match fetchWord (selectCtx { tick (State.reset.withFetchWord 32 0x04000022) with turn := .hardware } 0) with
      | .word _ w => w == 0x04000022
      | .stop _ => false) = true ∧ isCoreWord .deviceReset = false := by decide +kernel

theorem test_step_runs_placed_word :
    (cx (stateOf .reset (step (State.reset.withFetchWord 32 0x04432800)))).pc = 0x1004 ∧
    regA (stateOf .reset (step (State.reset.withFetchWord 32 0x24A001E0))) 5 = 0x1E0 := by decide +kernel

/-- The memory of a placed instruction is in its canonical form, and a step from it answers a next state. -/
theorem witness_StepKeepsInvariant :
    cellsWf (State.reset.withFetchWord 32 0x04432800).mem = true ∧ (match step (State.reset.withFetchWord 32 0x04432800) with
      | .next t => t.cycle == 1
      | _ => false) = true := by decide +kernel

theorem witness_ResetFullEmpty :
    (after .deviceReset (withA [])).full = [] ∧ (after (.install 0) (withA [])).full = [] ∧
    (storeResult (withA []) false [(loc 8, leBytes 8 7)]).isSome = true := by decide +kernel

/-! Registers, immediates, branches and loops. -/

theorem witness_RegisterResults : ready (xy 7 5) (setA (xy 7 5) 3 12) [rA 1, rA 2] ∧ ran (.add 3 1 2) (xy 7 5) ∧ ran (.sel 3 1 2) (xy 7 5) ∧
    ran (.insr 31 31 31) (xy 7 5) := by decide +kernel

theorem witness_DivisionResults :
    (regA (xy 7 0) 2 = 0 ∧ ready (xy 7 0) (setA (xy 7 0) 3 (-1)) [rA 1, rA 2] ∧ ran (.div 3 1 2) (xy 7 0) ∧ ran (.remu 3 1 2) (xy 7 0)) ∧
    (regA (xy 7 (-2)) 2 ≠ 0 ∧ ran (.div 3 1 2) (xy 7 (-2)) ∧ ran (.rem 3 1 2) (xy 7 (-2))) ∧
    (regA (xy (2 ^ 63) (-1)) 1 = BitVec.intMin 64 ∧ regA (xy (2 ^ 63) (-1)) 2 = BitVec.allOnes 64 ∧ ran (.div 3 1 2) (xy (2 ^ 63) (-1))) := by decide +kernel

theorem witness_ImmediateResults : ran (.addi 3 1 65535) (xy 7 5) ∧ ran (.slli 3 1 63) (xy 7 5) ∧ ran (.addpc 3 65535) (xy 7 5) ∧
    ready (xy 7 5) (setA (xy 7 5) 3 6) [rA 1] := by decide +kernel

/-- A branch not taken, taken to a usable address, and taken to one that no fetch can use. -/
theorem witness_ConditionalBranches :
    ready (xy 7 5) (xy 7 5) [rA 1, rA 2] ∧ regA (xy 7 5) 1 ≠ regA (xy 7 5) 2 ∧ regA (xy 7 7) 1 = regA (xy 7 7) 2 ∧
    badTarget ((cx (xy 7 7)).pc + signExt 0xFFFF 16 * 4) = false ∧ badTarget ((cx (xy 7 7)).pc + signExt 0x8000 16 * 4) = true ∧
    (cx (after (.beq 1 2 0xFFFF) (xy 7 7))).pc = 0xFFC ∧ ran (.beq 1 2 4) (xy 7 5) := by decide +kernel

theorem witness_Jumps :
    badTarget ((cx (xy 0 0)).pc + signExt 2 26 * 4) = false ∧ badTarget ((cx (xy 0 0)).pc + signExt 0x2000000 26 * 4) = true ∧
    left (.jal 0x2000000) (xy 0 0) ∧ badTarget (regA (xy 0x2000 0) 1) = false ∧ (regA (xy 0x2000 0) 1).toNat % 4 = 0 ∧
    (regA (xy 0x2002 0) 1).toNat % 4 ≠ 0 ∧ badTarget (regA (xy (2 ^ 48) 0) 1) = true ∧ ready (xy 0x2000 0) (xy 0x2000 0) [rA 1] ∧
    (cx (after (.jalr 31 1) (xy 0x2000 0))).pc = 0x2000 ∧ left (.jr 1) (xy 0x2002 0) := by decide +kernel

/-- A context whose level 0 is at its end with a count. -/
def looping (n : Word) : LoopLevel := { cnt := n, sta := 0xFF0, fin := 0x1000, org := 0xFF0, cur := 0x1000, act := true }

theorem witness_HardwareLoops :
    ready (xy 3 0) (loopZero (xy 3 0) 4 3) [rA 1] ∧ regA (xy 3 0) 1 ≠ 0 ∧ regA (xy 3 0) 2 = 0 ∧ word 32767 ≠ 0 ∧
    badTarget (skipBody (xy 3 0) (loopZero (xy 3 0) 4 0) 4).2 = false ∧ word 0 = 0 ∧
    (let s := base (fun c => { c with pc := word (2 ^ 48 - 8) })
     badTarget (skipBody s (loopZero s 1 0) 1).2 = true ∧ left (.loopi 0 0 1) s = true) ∧ (cx (after (.loop 0 2 4) (xy 3 0))).pc = 0x1014 ∧
    (1 < (looping 2).cnt.toNat ∧ (looping 1).cnt.toNat ≤ 1 ∧ (looping 0).cnt.toNat ≤ 1 ∧ (looping 2).cur = 0x1000 ∧ LoopLevel.reset.act = false) ∧
    (levelEnd (looping 2) 0x1000).2 = some 0xFF0 ∧ (levelEnd (looping 1) 0x1000).2 = none := by decide +kernel

/-! Memory. -/

def mem1 : State := withA [(1, loc 0x100), (2, 0x8877665544332211), (3, 8)]

theorem witness_ScalarAccesses :
    (loadResult mem1 false [(regA mem1 1 + signExt 0xFFFF 16, 1)]).isSome ∧ (loadResult mem1 false [(regA mem1 1, 2)]).isSome ∧
    (loadResult mem1 false [(regA mem1 1, 4)]).isSome ∧ (loadResult mem1 true [(regA mem1 1, 8)]).isSome ∧
    (loadResult mem1 false [(regA mem1 1 + regA mem1 3 * word (2 ^ 2), 2 ^ 2)]).isSome ∧
    (storeResult mem1 false [(regA mem1 1, leBytes 1 0x11)]).isSome ∧ (storeResult mem1 true [(regA mem1 1, leBytes 8 0x11)]).isSome ∧
    ran (.ldB 4 1 0xFFFF) mem1 ∧ ran (.ldx 4 1 3 1 1 2) mem1 ∧ ran (.stx 2 1 3 1 3) mem1 ∧ ran (.ldD 4 1 0) mem1 := by decide +kernel

/-- 07 R188: a stored dword, its bytes lowest first, the sign extension of a byte and of a half. -/
theorem test_store_and_load :
    aAfter (.ldB 4 1 7) (after (.stD 1 2 0) mem1) 4 = 2 ^ 64 - 0x78 ∧ aAfter (.ldHZ 4 1 6) (after (.stD 1 2 0) mem1) 4 = 0x8877 ∧
    aAfter (.ldW 4 1 0) (after (.stD 1 2 0) mem1) 4 = 0x44332211 := by decide +kernel

theorem witness_LocalScratchpad :
    addrClass (loc 0x1FFF8) = .localWin ∧ fld (loc 0x1FFF8) 17 35 = 0 ∧ inCores mem1 (cxCore mem1) (cx mem1).job = true ∧
    fld (loc 0x1FFF8) 0 17 + 8 ≤ 2 ^ 17 ∧ mem1.partials = [] ∧ mem1.bad = [] ∧ mem1.stores = [] := by decide +kernel

/-- A store to the page of data, with its page's A and D bits set, and its bytes seen by the storing core only. -/
theorem witness_GlobalStores :
    check mem1 (thr mem1) .write false 0x2FF8 8 = ((check mem1 (thr mem1) .write false 0x2FF8 8).1, .ok [(0x106FF8, 8)]) ∧
    (let s := (check mem1 (thr mem1) .write false 0x2FF8 8).1
     (check s (thr s) .write false 0x2FF8 8 == (s, .ok [(0x106FF8, 8)])) = true ∧ keyIsScratch 0x106FF8 = false ∧ s.partials = [] ∧ s.bad = [] ∧
       (storeResult s false [(0x2FF8, leBytes 8 9)]).isSome = true) := by decide +kernel

theorem witness_FullEmptyAccesses :
    scratchObj mem1 (thr mem1) (regA mem1 1) 8 cFullEmpty = .key (scratchKey 0 0x100) ∧ firstBad mem1 (scratchKey 0 0x100) 8 = none ∧
    firstInLine mem1 (.dword (scratchKey 0 0x100) true) = true ∧ firstInLine mem1 (.dword (scratchKey 0 0x100) false) = true ∧
    (setFull mem1 (scratchKey 0 0x100) true).full.contains (scratchKey 0 0x100) = true ∧ mem1.full.contains (scratchKey 0 0x100) = false ∧
    ran (.ldfTake 4 1) (setFull mem1 (scratchKey 0 0x100) true) ∧ ran (.ste 1 2) mem1 ∧ ran (.tagset 1 2) mem1 ∧
    (match (cx (after (.ldfTake 4 1) mem1)).status with
      | .waiting o _ _ => o == .dword (scratchKey 0 0x100) true
      | _ => false) = true := by decide +kernel

/-- A dword that fails its check. -/
theorem witness_store_traps :
    (let s := { mem1 with bad := [scratchKey 0 0x100] }
     scratchObj s (thr s) (regA s 1) 8 cFullEmpty = .key (scratchKey 0 0x100) ∧ firstBad s (scratchKey 0 0x100) 8 = some (scratchKey 0 0x100) ∧
     left (.ste 1 2) s) := by decide +kernel

def glob : State := withA [(1, 0x2010), (2, loc 0x100), (3, 5)]

/-- The line of glob's data with a bad byte. -/
def globBad : State := { glob with bad := [0x106000] }

theorem witness_FencesAndPrefetch :
    counterObj glob (thr glob) (regA glob 2) 8 = .key (scratchKey 0 0x100) ∧ firstBad glob (scratchKey 0 0x100) 8 = none ∧
    (regA glob 0).toNat ≤ (counterRead glob (scratchKey 0 0x100)).toNat ∧ (counterRead glob (scratchKey 0 0x100)).toNat < (regA glob 3).toNat ∧
    addrClass (regA glob 1) = .translated ∧ peek glob (thr glob) ((regA glob 1).toNat / 64 * 64) = some 0x106000 ∧
    paKey glob (cxPkg glob) 0x106000 = 0x106000 ∧ (recallLines glob 0x106000 64).2 = none ∧ firstBad (recallLines glob 0x106000 64).1 0x106000 64 = none ∧
    (recallLines globBad 0x106000 64).2 = none ∧ (firstBad (recallLines globBad 0x106000 64).1 0x106000 64).isSome = true ∧
    (recallLines { glob with partials := [{ grove := 3, key := 0x106000, width := 8, op := 0, uns := false, value := 5, bad := true }] } 0x106000 64).2.isSome = true ∧
    peek glob (thr glob) 0x5000 = none ∧ addrClass (word (2 ^ 60)) = .nonCanonical ∧ addrClass (regA glob 2) = .localWin ∧
    addrClass (word (29 * 2 ^ 52)) = .group ∧ addrClass (word (30 * 2 ^ 52)) = .scratch ∧ addrClass (word (28 * 2 ^ 52)) = .aperture ∧
    (getCore (after (.pref 1) globBad) 0).dspec = 1 ∧ ran (.pref 1) globBad ∧
    ran (.fenceE 2 0) glob ∧ ran (.pref 1) glob ∧ ran (.pref 2) glob ∧ ran .acq glob ∧ ran .rel glob := by decide +kernel

theorem witness_Atomics :
    (regA mem1 1).toNat % 2 ^ 3 = 0 ∧ check mem1 (thr mem1) .both false (regA mem1 1) 8 = (mem1, .ok [(scratchKey 0 0x100, 8)]) ∧
    firstBad mem1 (scratchKey 0 0x100) 8 = none ∧
    (recallLines (settleBytes (drainTo mem1 mem1.cur 0) (scratchKey 0 0x100) 8) (scratchKey 0 0x100) 8).2 = none ∧ keyIsScratch (scratchKey 0 0x100) = true ∧
    ran (.aadd 4 1 2 3) mem1 ∧ ran (.acas 4 1 2 2) mem1 ∧ ran (.afadd 4 1 2) mem1 ∧ ran (.aupd 1 2 0 0 3) mem1 ∧
    keyIsScratch 0x106010 = false ∧ ran (.aupd 1 3 0 0 3) glob ∧ (after (.aupd 1 3 0 0 3) glob).partials.length = 1 := by decide +kernel

/-- 09 R260: the old value, sign-extended; the sum wraps in the word. -/
theorem test_atomic_add_wraps :
    aAfter (.ldWZ 5 1 0) (after (.aadd 4 1 3 2) (after (.stW 1 2 0) (withA [(1, loc 0x100), (2, 0xFFFFFFFF), (3, 2)]))) 5 = 1 ∧
    aAfter (.aadd 4 1 3 2) (after (.stW 1 2 0) (withA [(1, loc 0x100), (2, 0xFFFFFFFF), (3, 2)])) 4 = 2 ^ 64 - 1 := by decide +kernel

/-! Vectors. V1 to V3 hold INT32 elements, V4 and V5 FP32, V6 a bitmap, V7 indices of tag 10, V8 BPI. -/

def vecCtx (c : Ctx) : Ctx :=
  { c with a := [(1, loc 0x400), (2, 3), (3, 0x40000000)], m := [(1, 0xF)],
           v := [(1, mkV 0x500000003 3 0), (2, mkV 0x700000002 3 0), (3, mkV 1 3 0), (4, mkV 0x3F80000040000000 5 0), (5, mkV 0x7FC000003F800000 5 0),
                 (6, mkV 0xB6 0 0), (7, mkV 0x100000000 10 0), (8, mkV 0x0102 8 7)] }
def vec : State := base vecCtx

theorem witness_VectorLanes : 32 * 32 ≤ 1024 ∧ 8 * 128 ≤ 1024 ∧ 64 * 16 ≤ 1024 ∧
    (∀ e, e < 32 → ((fun e => (e, 63)) e : Nat × Nat).1 < 2 ^ 32 ∧ ((fun e => (e, 63)) e : Nat × Nat).2 < 64) := by decide +kernel

theorem witness_VectorArithmetic :
    arithTags (regV vec 1).tag = true ∧ mulTags (regV vec 1).tag = true ∧ shiftTags (regV vec 1).tag = true ∧ signTags (regV vec 1).tag = true ∧
    isFloatTag (regV vec 4).tag = true ∧ sameFormat (regV vec 1) (regV vec 2) = true ∧ sameFormat (regV vec 1) (regV vec 3) = true ∧
    ran (.vadd 9 1 2 0) vec ∧ ran (.vfms 3 1 2 1) vec ∧ ran (.vshr 9 1 2 0) vec ∧ ran (.vneg 9 1 0) vec ∧ ran (.vrsq 9 4 0) vec ∧ ran (.vxor 9 1 4 0) vec ∧
    isFloatTag 3 = false ∧ 0xFFFFFFFF < 2 ^ tagWidth 3 := by decide +kernel

/-- Element e of Vd after an instruction. -/
def elemAfter (i : Instr) (s : State) (d e : Nat) : Nat := vel (regV (after i s) d) e

theorem test_vector_add_masked : elemAfter (.vadd 3 1 2 0) vec 3 1 = 12 ∧ elemAfter (.vadd 3 1 2 0) vec 3 0 = 5 := by decide +kernel

/-- The steps of 08 R213's example. -/
theorem test_newton_example :
    elemAfter (.vsplat 9 3 5 0) vec 9 31 = 0x40000000 ∧ elemAfter (.vrsq 9 4 0) vec 9 0 = 0x3F350000 ∧
    elemAfter (.vmul 9 1 1 0) (base (fun c => { c with v := [(1, mkV 0x3F350000 5 0)] })) 9 0 = 0x3EFFF200 ∧
    elemAfter (.vfms 6 4 3 0) (base (fun c => { c with v := [(3, mkV 0x3EFFF200 5 0), (4, mkV 0x3F800000 5 0), (6, mkV 0x3FC00000 5 0)] })) 6 0
      = 0x3F800380 ∧
    elemAfter (.vmul 2 2 6 0) (base (fun c => { c with v := [(2, mkV 0x3F350000 5 0), (6, mkV 0x3F800380 5 0)] })) 2 0 = 0x3F3504F3 := by
  decide +kernel

theorem witness_ZeroOrder : isFloatTag 5 = true ∧ isFloatTag 6 = true ∧ isFloatTag 7 = true := by decide +kernel

theorem witness_NanResults : isFloatTag 5 = true ∧ (unpack (fmtOf 5) 0x7F800001).isNan = true ∧ (unpack (fmtOf 5) 0x7FC00000).isNan = true ∧
    (unpack (fmtOf 7) 0xFE00).isNan = true ∧ isFloatTag 6 = true ∧ isFloatTag 3 = false ∧ 0x7FC00000 < 2 ^ tagWidth 5 ∧
    0x7FC00000 ∈ [0, 0x7FC00000] ∧ [0, 0x7FC00000].length = 2 ^ (0 + 1) := by decide +kernel

theorem witness_VectorSelection :
    ran (.vcmp 2 1 2 0 2) vec ∧ ran (.vsel 9 1 2 1) vec ∧ fullTags (regV vec 1).tag = true ∧ ran (.vpack 9 1 2) vec ∧ ran (.vunpk 9 6 1) vec ∧
    ran (.vsplat 9 2 10 1) vec ∧ (regA vec 2).toNat < tagCount (regV vec 1).tag ∧ tagCount (regV vec 1).tag ≤ (regA vec 1).toNat ∧
    ran (.vext 4 1 2) vec ∧ ran (.vext 4 1 1) vec ∧ ran (.vins 1 3 2) vec ∧ ran (.vins 1 3 1) vec ∧
    (regV vec 7).tag = 10 ∧ tagCount (regV vec 1).tag ≤ 32 ∧ ran (.vperm 9 1 7 0) vec := by decide +kernel

theorem witness_VectorConversion :
    fullTags (regV vec 1).tag = true ∧ ran (.vcvt 9 1 0 0 5) vec ∧ ran (.vcvt 9 4 3 1 1) vec ∧ redAccepts 0 (regV vec 1).tag = true ∧
    redAccepts 5 (regV vec 7).tag = true ∧ ran (.vred 9 1 0 0) vec ∧ signTags (regV vec 1).tag = true ∧ (regV vec 7).tag = 10 ∧ ran (.vscan 9 1 0 2) vec ∧
    ran (.vscan 9 7 0 1) vec ∧ isFloatTag 3 = false ∧ (List.replicate 32 7).length = 2 ^ 5 ∧ 7 < 2 ^ tagWidth 3 := by decide +kernel

theorem test_reduction_and_scan :
    elemAfter (.vred 9 1 0 0) vec 9 0 = 8 ∧ elemAfter (.vscan 9 1 0 0) vec 9 2 = 8 ∧ elemAfter (.vscan 9 1 0 0) vec 9 0 = 3 := by decide +kernel

theorem witness_VectorMemory :
    (loadResult vec true (vloadList vec 0 5 128 (fun e => regA vec 1 + word (e * (tagWidth 5 / 8))))).isSome ∧ ran (.vld 9 1 0 5) vec ∧
    ran (.vlds 9 1 2 1 3) vec ∧ (regV vec 7).tag = 10 ∧ ran (.vldi 9 1 7 1 1) vec ∧ ran (.vst 1 1 0 0) vec ∧ (regV vec 1).tag = 3 ∧ ran (.vst 1 1 0 3) vec ∧
    ran (.vsts 1 1 2 1 3) vec ∧ ran (.vsti 1 1 7 1 3) vec ∧ bpiAligned (regA vec 1) = true ∧ (regV vec 8).tag = 8 ∧ ran (.vldp 9 1 0 4) vec ∧
    ran (.vstp 8 1 0) vec ∧ ran (.vstp 8 1 1) vec := by decide +kernel

def bits2 : State :=
  base (fun c => { c with m := [(3, 4)], v := [(1, mkV (0xB6 + 2 ^ 64) 0 0), (2, mkV (0x5C + 0xFF * 2 ^ 32 + 3 * 2 ^ 64) 0 0)] })

theorem witness_SparseAndMasks :
    fullTags (regV vec 1).tag = true ∧ ran (.vnzs 9 1 0) vec ∧ (regV bits2 1).tag = 0 ∧ (regV bits2 2).tag = 0 ∧ ran (.vpopp 9 1 0) bits2 ∧
    ran (.vband 9 1 2 0) bits2 ∧ ran (.visect 9 1 2 3) bits2 ∧ ran (.vmovmMaskToVector 9 3) bits2 ∧ ran (.vmovmVectorToMask 2 1) bits2 ∧
    ran (.mand 2 3 1) bits2 ∧ ran (.mor 2 3 1) bits2 ∧ ran (.mnot 2 3) bits2 ∧ ran (.mpop 4 3) bits2 := by decide +kernel

/-- The example of 08 R228-R230. -/
theorem test_bitmap_example :
    elemAt 32 (vnat (regV (after (.vband 3 1 2 0) bits2) 3)) 0 = 0x14 ∧ elemAt 32 (vnat (regV (after (.vband 3 1 2 0) bits2) 3)) 2 = 1 ∧
    elemAfter (.vpopp 4 1 0) bits2 4 2 = 5 ∧ elemAfter (.vpopp 4 1 0) bits2 4 3 = 6 ∧ elemAfter (.visect 5 1 2 0) bits2 5 1 = 0x20002 ∧
    elemAfter (.visect 5 1 2 0) bits2 5 2 = 0xC0005 ∧ elemAfter (.visect 5 1 2 0) bits2 5 3 = 0xFFFFFFFF ∧
    elemAfter (.visect 6 1 2 3) bits2 6 0 = 0xC0005 := by decide +kernel

/-! Messages, threads and synchronization. -/

/-- A dword in the core's own scratchpad; a context that waits or left. -/
def poke (s : State) (ofs v : Nat) : State := memWrite s (scratchKey 0 ofs) (leBytes 8 v)
def waitsOn (i : Instr) (s : State) (o : Obj) : Bool :=
  match (cx (after i s)).status with
  | .waiting x _ _ => x == o
  | _ => false

def sender : State := withA [(1, 8 * 2 ^ 32), (2, loc 0x600), (3, 11), (4, 12), (5, loc 0x100), (6, 0), (7, 2 + 3 * 2 ^ 21 + 2 ^ 42), (8, 2 ^ 16),
  (9, 21), (10, loc 0x200)]

theorem witness_Sends :
    destCore sender (thr sender) (regA sender 1) true = some 0 ∧ (sendReady sender (regA sender 2) (fld (regA sender 1) 32 13)).isSome ∧
    ran (.send 1 2 0 7) sender ∧ (after (.send 1 2 0 7) sender).net.length = 1 ∧
    destCore sender (thr sender) (regA sender 0) false = some 0 ∧ hasRoom sender (cxCore sender) = true ∧ ran (.sendi 0 3 3 7) sender ∧
    (routeSet sender 0 5 3 (regA sender 0)).isSome ∧ (routeSet sender 0 5 0 (regA sender 1)).isSome ∧ ran (.sendm 1 2 0 0 7) sender ∧
    ran (.sendm 1 2 2 0 7) sender ∧ counterObj sender (thr sender) (regA sender 5) 32 = .key (scratchKey 0 0x100) ∧ keyPkg (scratchKey 0 0x100) = 0 ∧
    (regA sender 6).toNat ≤ 4096 ∧ ran (.xdsp 5 2 0 7) sender ∧ ran (.xdsp 5 2 0 7) (poke sender 0x108 1) := by decide +kernel

/-- The thread has a store to package 1, which no route reaches: a release waits, and an instruction that is none goes on. -/
def away (s : State) : State :=
  modPkg { s with stores := [{ ctx := 0, job := 5, since := 0, key := scratchKey 8192 0, bytes := [1], remote := true }] } 0
    (fun p => { p with unreachable := [1] })

theorem witness_releases_wait :
    unacked sender sender.cur = none ∧ (unacked (away sender) (away sender).cur).isSome ∧
    destCore (away sender) (thr (away sender)) (regA sender 1) true = some 0 ∧
    (sendReady (away sender) (regA sender 2) (fld (regA sender 1) 32 13)).isSome ∧ waitsOn (.send 1 2 0 7) (away sender) (.acks 0) ∧
    waitsOn .rel (away sender) (.acks 0) ∧ ran .acq (away sender) ∧ (routeSet (away sender) 0 5 0 (regA sender 1)).isSome ∧
    waitsOn (.sendm 1 2 0 0 7) (away sender) (.acks 0) ∧ waitsOn (.sendi 0 3 3 7) (away sender) (.acks 0) ∧
    waitsOn (.spawn 7 9 0 7) (away sender) (.acks 0) := by decide +kernel

/-- A sender whose injector is full. -/
def crowded : State :=
  modCore sender 0 (fun u => { u with sendQ := [{ num := 7, dst := 0, job := 5, handler := 0, prio := 0, arg0 := 0, arg1 := 0, payload := [], link := 0, origin := 0, left := 1, sent := 0, trig := false }] })

/-- The traps of the sends, their waits for room, and SPAWN's wait and traps. -/
theorem witness_send_traps :
    hasRoom crowded 0 = false ∧ waitsOn (.sendi 0 3 3 7) crowded (.injector 0) ∧ waitsOn (.send 1 2 0 7) crowded (.injector 0) ∧
    waitsOn (.sendm 1 2 0 0 7) crowded (.injector 0) ∧
    (checkMany crowded (thr crowded) .read false [(regA crowded 2, fld (regA crowded 1) 32 13)] []).2.length = 1 ∧
    chkRes crowded false (checkMany crowded (thr crowded) .read false [(regA crowded 2, fld (regA crowded 1) 32 13)] []).2 = none ∧
    destCore sender (thr sender) (word 24) true = none ∧ left (.send 11 2 0 7) (setA sender 11 24) ∧ destCore sender (thr sender) (regA sender 1) false = none ∧
    left (.sendi 1 3 3 7) sender ∧ routeSet sender 0 5 0 (word (2 ^ 63)) = none ∧ left (.sendm 11 2 0 0 7) (setA sender 11 (2 ^ 63)) ∧
    4096 < (regA (setA sender 6 4097) 6).toNat ∧ left (.xdsp 5 2 0 7) (setA sender 6 4097) := by decide +kernel

/-- XDSP waits for the injector and for its thread's stores, and traps on the word that its decision takes, DEST or RESID. -/
theorem witness_xdsp_waits_and_traps :
    waitsOn (.xdsp 5 2 0 7) crowded (.injector 0) ∧ waitsOn (.xdsp 5 2 0 7) (away sender) (.acks 0) ∧
    chkRes crowded false (checkMany crowded (thr crowded) .read false [(regA crowded 2, (regA crowded 6).toNat)] []).2 = none ∧
    (sendReady (away sender) (regA (away sender) 2) (regA (away sender) 6).toNat).isSome ∧
    (let s := poke (poke sender 0x108 1) 0x110 24
     counterRead s (scratchKey 0 0x100) < counterRead s (scratchKey 0 0x108) ∧ destCore s (thr s) (noLen (counterRead s (scratchKey 0 0x110))) false = none ∧
     left (.xdsp 5 2 0 7) s) ∧
    (let s := poke sender 0x118 24
     counterRead s (scratchKey 0 0x108) ≤ counterRead s (scratchKey 0 0x100) ∧ destCore s (thr s) (noLen (counterRead s (scratchKey 0 0x118))) false = none ∧
     firstBad s (scratchKey 0 0x100) 32 = none ∧ left (.xdsp 5 2 0 7) s) := by decide +kernel

def spawnBusy : State := after (.spawn 7 9 0 7) sender

theorem witness_spawn_traps :
    (getCore spawnBusy 0).spawn ≠ none ∧ (cx (after (.spawn 7 9 0 7) spawnBusy)).status ≠ .running ∧
    spawnRangeOk sender 0 5 (word (2 ^ 63)) (regA sender 8) = false ∧ left (.spawn 7 9 0 7) (setA sender 7 (2 ^ 63)) ∧
    keyPkg (scratchKey 8192 0) ≠ cxPkg sender ∧
    (let s := modCore sender 0 (fun u => { u with trigs := List.replicate 64 { key := scratchKey 0 0x300, target := 1, job := 5, act := .empty } })
     trigFull s (scratchKey 0 0x200) = true ∧ left (.spawn 7 9 0 7) s) := by decide +kernel

theorem witness_Spawn :
    spawnRangeOk sender 0 5 (regA sender 7) (regA sender 8) = true ∧ counterObj sender (thr sender) (regA sender 10) 8 = .key (scratchKey 0 0x200) ∧
    trigFull sender (scratchKey 0 0x200) = false ∧ (getCore sender 0).spawn = none ∧ spawnPoints sender 7 = 6 ∧ ran (.spawn 7 9 0 7) sender ∧
    (after (.spawnSequencerSend 0) (after (.spawn 7 9 0 7) sender)).net.length = 1 ∧
    (getCore (after (.spawn 7 9 0 7) sender) 0).spawn.isSome ∧ hasRoom (after (.spawn 7 9 0 7) sender) 0 = true ∧
    quietJob (after (.spawn 7 9 0 7) sender) 0 5 = false ∧ spawnPoints (withA [(8, 2 ^ 16), (10, loc 0x200)]) 7 = 0 ∧
    ran (.spawn 7 9 0 7) (withA [(8, 2 ^ 16), (10, loc 0x200)]) := by decide +kernel

def threadState : State := withA [(1, loc 0x640), (2, 2 ^ 31 + 1), (3, loc 0x700), (4, 0)]
/-- A record of job 5 at offset 0x640. -/
def recState (job : Nat) : State := memWrite threadState (scratchKey 0 0x640) (recBytes (zeroRec job 1))

theorem witness_ThreadsLeave :
    left .endThread threadState ∧ ran .hbeat threadState ∧ poolFull threadState 0 = false ∧ badTarget (nextPc threadState threadState) = false ∧
    (match spill (releaseWaits threadState 0) 0 (yieldFrame threadState) with
      | (_, .at _) => true
      | _ => false) = true ∧ gone .yield threadState ∧
    (regA threadState 1).toNat % 64 = 0 ∧ fld (regA threadState 2) 32 32 = 0 ∧ gone (.suspend 1 4) threadState ∧ left (.suspend 1 2) threadState ∧
    bfld (homeRead threadState (scratchKey 0 0x640) 64) 0 8 = 0 ∧ aAfter (.resume 5 1 4) threadState 5 = 0 ∧ ran (.resume 5 1 4) threadState ∧
    bfld (homeRead (recState 5) (scratchKey 0 0x640) 64) 0 8 ≠ 0 ∧ (recOf (homeRead (recState 5) (scratchKey 0 0x640) 64)).job = 5 ∧
    check (recState 5) (thr (recState 5)) .both false (regA (recState 5) 1) 64 = (recState 5, .ok [(scratchKey 0 0x640, 64)]) ∧
    aAfter (.resume 5 1 4) (recState 5) 5 = 1 ∧ entryIndex baseJob (regA threadState 1) = none := by
  refine ⟨?_, ?_, ?_, ?_, ?_, ?_, ?_⟩ <;> decide +kernel

/-- Without a place for its frame the thread goes on: no slots are carved, and the overflow list is empty. -/
theorem witness_yield_without_frame :
    (let s := modPkg threadState 0 (fun p => { p with jobs := [(5, { baseJob with sps := 0, ovfl := loc 0x800 })] })
     (match spill (releaseWaits s 0) 0 (yieldFrame s) with
      | (_, .none) => true
      | _ => false) && ran .yield s) = true := by decide +kernel

/-- A thread with a register that fails its check, in the last iteration of a loop that ends at its YIELD: its frame has the loop as it was. -/
def yielding : State := base (fun c => { c with badRegs := [vMark 3 0], l0 := { cnt := 1, sta := 0xFF0, fin := 0x1000, org := 0xFF0, cur := 0x1000, act := true } })

theorem witness_yield_with_bad_register :
    (match spill (releaseWaits yielding 0) 0 (yieldFrame yielding) with
      | (_, .corrupt _ _) => true
      | _ => false) = true ∧ (yieldFrame yielding).l0.act = true ∧ badTarget (nextPc yielding yielding) = false := by
  refine ⟨?_, ?_, ?_⟩ <;> decide +kernel

/-- On a full ready pool a YIELD and a RESUME wait. -/
theorem witness_full_pool :
    (let s := modGrove (recState 5) 0 (fun g => { g with pool := List.replicate 512 (plainRec (zeroRec 5 0)), ring := List.replicate 4096 (0, plainRec (zeroRec 5 0)) })
     poolFull s 0 && waitsOn .yield s (.pool 0) && waitsOn (.resume 5 1 4) s (.pool 0)) = true := by decide +kernel

def joiner (n : Nat) : State := poke (withA [(1, 0x2000), (2, loc 0x100), (3, loc 0x640)]) 0x100 n

theorem witness_ForkJoin :
    badTarget (regA (joiner 0) 1) = false ∧ (regA (joiner 0) 1).toNat % 4 = 0 ∧ counterObj (joiner 0) (thr (joiner 0)) (regA (joiner 0) 2) 8 = .key (scratchKey 0 0x100) ∧
    firstBad (joiner 0) (scratchKey 0 0x100) 8 = none ∧ pushWaits (joiner 0) 0 = false ∧ ran (.fork 1 2) (joiner 0) ∧
    counterRead (joiner 1) (scratchKey 0 0x100) = 1 ∧ ran (.join 2) (joiner 1) ∧ left (.join 2) (joiner 2) ∧
    (getPkg (after (.join 2) (bare (joiner 0))) 0).claims = [(5, [0])] ∧
    (loadResult (joiner 0) false [(regA (joiner 0) 3, 64)]).isSome ∧ (recOf (cellsRead (recState 5).mem (scratchKey 0 0x640) 64)).job = 5 ∧
    ran (.dqpush 4 1) (recState 5) ∧ (getCore (after (.dqpush 4 1) (recState 5)) 0).deque.length = 1 ∧
    (getCore (modCore (joiner 0) 0 (fun u => { u with deque := [plainRec (zeroRec 5 0)] })) 0).deque ≠ [] ∧
    aAfter (.dqpop 4 3) (modCore (joiner 0) 0 (fun u => { u with deque := [plainRec (zeroRec 5 0)] })) 4 = 1 ∧ ran (.dqpop 4 3) (joiner 0) ∧
    (getCore (modCore (joiner 0) 0 (fun u => { u with deque := List.replicate 64 (plainRec (zeroRec 5 0)) })) 0).deque.length = 64 ∧
    (getGrove (joiner 0) 0).ring = [] ∧ (getGrove (joiner 0) 0).pool.length < 512 ∧
    chkRes (joiner 0) true (checkMany (joiner 0) (thr (joiner 0)) .write false [(regA (joiner 0) 3, 64)] []).2 = none := by decide +kernel

def counting : State := withA [(1, loc 0x100), (2, 5), (3, 0), (4, 9), (5, 9), (10, 0x13), (11, 1), (12, 2)]

theorem witness_Counters :
    counterObj counting (thr counting) (regA counting 1) 8 = .key (scratchKey 0 0x100) ∧ firstBad counting (scratchKey 0 0x100) 8 = none ∧
    ran (.cnti 1 2) counting ∧ ran (.cnta 6 1 2) counting ∧ ran (.cntaRel 6 1 2) counting ∧ ran (.cntw 6 1 3) counting ∧
    waitsOn (.cntw 6 1 2) counting (.counter (scratchKey 0 0x100)) ∧
    (trigAction counting (scratchKey 0 0x100) (regA counting 3) (regA counting 4) (regA counting 5)).isSome ∧ trigFull counting (scratchKey 0 0x100) = false ∧
    ran (.cntt 3 1 2) counting ∧ (getCore counting 0).trigs = [] ∧ (getCore counting 0).park = [] ∧ counting.bad = [] := by decide +kernel

/-- A counter of which value 5 fires the trigger, and a record that is parked on it. -/
def trig1 : Trig := { key := scratchKey 0 0x100, target := 5, job := 5, act := .empty }
def watched : State :=
  modCore counting 0 (fun u => { u with trigs := [trig1], park := [{ obj := .counter (scratchKey 0 0x100), qrec := plainRec (zeroRec 5 0) }] })

/-- Updates to the target, above it and below it; arming at and below the target; the released record. -/
theorem witness_triggers :
    (trigsOn counting trig1.key).head? = none ∧ (trigsOn watched trig1.key).head? = some trig1 ∧
    trig1.target ≤ counterRead (updated watched trig1.key 5) trig1.key ∧ trig1.target ≤ counterRead (updated watched trig1.key 9) trig1.key ∧
    counterRead (updated watched trig1.key 4) trig1.key < trig1.target ∧ (getGrove watched 0).ring = [] ∧
    (getGrove watched 0).pool.length + (parkedOn watched trig1.key).length ≤ 512 ∧ (parkedOn watched trig1.key).length = 1 ∧
    (getCore (counterSet watched trig1.key 5) 0).trigs = [] ∧ (getCore (counterSet watched trig1.key 4) 0).trigs = [trig1] ∧
    (getCore (counterSet watched trig1.key 4) 0).park = [] ∧ (getGrove (counterSet watched trig1.key 4) 0).pool.length = 1 ∧
    ({ trig1 with target := 0 } : Trig).target ≤ counterRead counting trig1.key ∧ counterRead counting trig1.key < trig1.target ∧
    (getCore (armTrig counting { trig1 with target := 0 }) 0).trigs = [] ∧ (getCore (armTrig counting trig1) 0).trigs = [trig1] := by decide +kernel

/-- 02 R55: the update that reaches a trigger's target disarms it and sends its message. -/
theorem test_trigger_fires :
    (after (.cnta 6 1 2) (after (.cntt 3 1 2) counting)).net.length = 1 ∧ (getCore (after (.cnta 6 1 2) (after (.cntt 3 1 2) counting)) 0).trigs = [] := by
  decide +kernel

/-- A barrier with C = 4, A = 1, E = 2, T = 0. -/
def barState : State := poke (withA [(1, loc 0x100), (2, 2), (3, 4), (4, 3), (5, 5)]) 0x100 (4 + 2 ^ 16 + 2 * 2 ^ 32)

/-- The thread has waited on the barrier. -/
def waitedBar (s : State) : State := modCx s (fun c => { c with status := .waiting (.barrier (scratchKey 0 0x100)) 0 0 })

theorem witness_Barriers :
    counterObj barState (thr barState) (regA barState 1) 16 = .key (scratchKey 0 0x100) ∧ firstBad barState (scratchKey 0 0x100) 16 = none ∧
    readBarrier barState (scratchKey 0 0x100) = some { c := 4, a := 1, e := 2, t := 0 } ∧ fld (regA barState 2) 16 48 = 0 ∧ ran (.barinit 1 2) barState ∧
    phaseLag 4 (fld (regA barState 4) 0 16) = 0 ∧ ran (.barwait 1 4) barState ∧ 1 ≤ phaseLag 4 (fld (regA barState 2) 0 16) ∧
    phaseLag 4 (fld (regA barState 2) 0 16) < 32768 ∧ ran (.barwait 1 2) barState ∧ 32768 ≤ phaseLag 4 (fld (regA barState 3) 0 16) ∧
    waitsOn (.barwait 1 3) barState (.barrier (scratchKey 0 0x100)) ∧ ran (.bararv 6 1) barState ∧ ran (.bardrop 1) barState ∧
    readBarrier counting (scratchKey 0 0x100) = some { c := 0, a := 0, e := 0, t := 0 } ∧ ran (.bardrop 1) counting ∧
    fld (regA barState 5) 40 24 = 0 ∧ ran (.bartx 1 5) barState ∧
    barWaited barState (scratchKey 0 0x100) = false ∧ (cx (after (.barwait 1 2) barState)).stat ≠ (cx barState).stat ∧
    barWaited (waitedBar barState) (scratchKey 0 0x100) = true ∧ (cx (after (.barwait 1 2) (waitedBar barState))).stat = (cx barState).stat := by decide +kernel

/-- 02 R57: the last arrival ends the phase. -/
theorem test_phase_completes :
    readBarrier (after (.bararv 6 1) barState) (scratchKey 0 0x100) = some { c := 5, a := 0, e := 2, t := 0 } ∧ aAfter (.bararv 6 1) barState 6 = 4 := by
  decide +kernel

/-- A ring of 4 slots of 64 bytes with consumers 0 and 1 at 0x2000, `rsv` slots reserved (09 R257's example). -/
def ringState (rsv fill state : Nat) : State :=
  poke (poke (poke (poke (withA [(1, loc 0x2000), (2, loc 0x20C0), (3, 0)]) 0x2000 0x30103) 0x2008 rsv) 0x2010 fill) 0x2080 state

theorem witness_Rings :
    scratchObj (ringState 0 0 0) (thr (ringState 0 0 0)) (regA (ringState 0 0 0) 1) 64 cRing = .key (scratchKey 0 0x2000) ∧
    readRing (ringState 0 0 0) (scratchKey 0 0x2000) = some { key := scratchKey 0 0x2000, ns := 3, size := 64, cmask := 3 } ∧
    firstBad (ringState 0 0 0) (scratchKey 0 0x2000) 64 = none ∧ aAfter (.rget 4 1) (ringState 0 0 0) 4 = (loc 0x20C0).toNat ∧
    ran (.rget 4 1) (ringState 0 0 0) ∧ 3 < (ringRsv (ringState 4 0 0) { key := scratchKey 0 0x2000, ns := 3, size := 64, cmask := 3 } -
      ringFreed (ringState 4 0 0) { key := scratchKey 0 0x2000, ns := 3, size := 64, cmask := 3 }).toNat ∧
    ran (.rget 4 1) (ringState 4 0 0) ∧ aAfter (.rget 4 1) (ringState 4 0 0) 4 = 0 ∧
    slotIndex (ringState 1 0 0) { key := scratchKey 0 0x2000, ns := 3, size := 64, cmask := 3 } (regA (ringState 1 0 0) 2) = some 0 ∧
    slotReserved (ringState 1 0 0) { key := scratchKey 0 0x2000, ns := 3, size := 64, cmask := 3 } 0 = true ∧ ran (.rput 1 2) (ringState 1 0 0) ∧
    consumerOk { key := scratchKey 0 0x2000, ns := 3, size := 64, cmask := 3 } (regA (ringState 1 1 0) 3) = true ∧
    firstInLine (ringState 1 1 0) (.ring (scratchKey 0 0x2000) 0) = true ∧ aAfter (.rtake 4 1 3) (ringState 1 1 0) 4 = (loc 0x20C0).toNat ∧
    waitsOn (.rtake 4 1 3) (ringState 1 0 0) (.ring (scratchKey 0 0x2000) 0) ∧
    (slotState (ringState 1 1 3) { key := scratchKey 0 0x2000, ns := 3, size := 64, cmask := 3 } 0).testBit 0 = true ∧
    ran (.rfree 3 1 2) (ringState 1 1 3) := by decide +kernel

/-! Groups. -/

def grp (arr phase : Nat) : Group := { members := [{ core := 0, rank := 0, joins := 2, arr := arr }], phase := phase, dones := [], noted := [] }
def groupVaddr (ofs : Nat) : Word := word (29 * 2 ^ 52 + 7 * 2 ^ 17 + ofs)
/-- Group 7 of job 5, with a member core 0 or another core. -/
def groupState (g : Group) : State := setGroup (poke (withA [(1, 7), (2, 2 ^ 63), (3, 0), (4, groupVaddr 0x100), (5, 8)]) 0x100 77) 0 5 7 g
def otherMember : Group := { grp 0 0 with members := [{ core := 1, rank := 0, joins := 1, arr := 0 }] }

theorem witness_Groups :
    fld (regA (groupState (grp 0 0)) 1) 16 48 = 0 ∧ (groupState (grp 0 0)).bad.contains (markOf 0 5 7) = false ∧
    getGroup (groupState (grp 0 0)) 0 5 8 = none ∧ (getGrove (groupState (grp 0 0)) (groupSlice 0 5 8)).groups.length < 32 ∧
    ran (.gjoin 6 5) (groupState (grp 0 0)) ∧ getGroup (groupState (grp 0 0)) 0 5 7 = some (grp 0 0) ∧ (memberOf (grp 0 0) 0).isSome ∧
    ran (.gjoin 6 1) (groupState (grp 0 0)) ∧ memberOf otherMember 0 = none ∧ aAfter (.gjoin 6 1) (groupState otherMember) 6 = 1 ∧
    aAfter (.gleave 6 5) (groupState (grp 0 0)) 6 = 2 ^ 64 - 1 ∧ aAfter (.gleave 6 1) (groupState otherMember) 6 = 2 ^ 64 - 1 ∧
    aAfter (.gleave 6 1) (groupState (grp 0 0)) 6 = 1 ∧
    aAfter (.gleave 6 1) (after (.gleave 6 1) (groupState (grp 0 0))) 6 = 0 ∧ ran (.ginfo 6 5) (groupState (grp 0 0)) ∧
    aAfter (.ginfo 6 1) (groupState (grp 0 0)) 6 = 2 ^ 16 + 2 * 2 ^ 32 ∧ aAfter (.ginfo 6 1) (groupState otherMember) 6 = 0xFFFF + 2 ^ 16 := by decide +kernel

theorem witness_GroupLoadsAndBarrier :
    addrClass (regA (groupState (grp 0 0)) 4) = .group ∧ fld (regA (groupState (grp 0 0)) 4) 33 19 = 0 ∧
    fld (regA (groupState (grp 0 0)) 4) 0 17 % gldSize 1 = 0 ∧
    (readMembers (groupState (grp 0 0)) 5 8 (groupStart (groupState (grp 0 0)) 7 0x100 false)).2.left = [] ∧
    aAfter (.gld 6 4 1 0) (groupState (grp 0 0)) 6 = 77 ∧ ran (.gldf 6 4 1 2) (setFull (groupState (grp 0 0)) (scratchKey 0 0x100) true) ∧
    (regA (groupState (grp 0 0)) 3).getLsbD 63 = false ∧ aAfter (.gbar 3 1) (groupState (grp 0 0)) 3 = 0 ∧ ran (.gbar 3 1) (groupState (grp 0 0)) ∧
    waitsOn (.gbar 3 1) (groupState { grp 0 0 with members := (grp 0 0).members ++ otherMember.members }) (.group 0 5 7 0) ∧
    (regA (groupState (grp 0 1)) 2).getLsbD 63 = true ∧ phaseBehind 1 (fld (regA (groupState (grp 0 1)) 2) 0 16) = 0 ∧ ran (.gbar 2 1) (groupState (grp 0 1)) ∧
    gbarDue (groupState (grp 0 1)) (grp 0 1) 0 0 ≤ (groupState (grp 0 1)).cycle ∧ unacked (groupState (grp 0 0)) 0 = none := by decide +kernel

/-- A thread that waited for phase 0 while it completed, one that comes with an earlier phase, and one whose group's record failed while it waited. -/
theorem witness_group_waits :
    (let g : Group := { grp 0 1 with dones := [(0, 5)] }
     let s := modCx { groupState g with cycle := 2 ^ 20 } (fun c => { c with status := .waiting (.group 0 5 7 0) 3 0 })
     gbarWaited s g 0 && decide (gbarDue s g 0 0 ≤ s.cycle) && ran (.gbar 2 1) s && decide ((cx (after (.gbar 2 1) s)).stat = 0)) = true ∧
    (let s := groupState (grp 0 3)
     !gbarWaited s (grp 0 3) 0 && phaseBehind 3 0 == 2 && ran (.gbar 2 1) s && decide ((cx (after (.gbar 2 1) s)).stat ≠ 0)) = true ∧
    (let s := modCx (bare (groupState (grp 0 0))) (fun c => { c with lost := true })
     decide ((cx (after (.gbar 2 1) s)).status ≠ .running) && (cx (after (.gbar 2 1) s)).lost == false) = true := by decide +kernel

/-- A GBAR with Ad[63] = 1 does not wait for its thread's stores. -/
theorem witness_group_wait_with_a_store : (unacked (away (groupState (grp 0 1))) 0).isSome ∧ ran (.gbar 2 1) (away (groupState (grp 0 1))) := by
  decide +kernel

/-- A GLDF waits at a member whose dword is empty, and keeps what it has read. -/
theorem witness_group_load_waits :
    (let s := groupState { grp 0 0 with members := (grp 0 0).members ++ otherMember.members }
     let s := setFull s (scratchKey 0 0x100) true
     waitsOn (.gldf 6 4 1 2) s (.groupLoad 0 5 7) && (cx (after (.gldf 6 4 1 2) s)).gload.isSome) = true := by decide +kernel

/-! Engines, streams, Ethernet work. -/

/-- All engine sets of core 0 belong to job 5; `l` are registers of them, `a` A registers. -/
def eng (l a : KMap Word) : State :=
  { withA a with cores := [(0, { Core.reset with owner := (List.range 8).map (fun i => (i, 5)), e := l })] }

/-- Registers without counters, status address and barrier pass the checks that every operation shares. -/
theorem header_of_zero (s : State) (l : List Word) (h4 : l.getD 4 0 = 0) (h1 : l.getD 1 0 = 0) (h3 : l.getD 3 0 = 0) (h5 : l.getD 5 0 = 0) : HeaderOk s l :=
  ⟨by rw [h4]; rfl, ⟨none, .inl ⟨h1, rfl⟩⟩, ⟨none, .inl ⟨h3, rfl⟩⟩, .inl h5⟩

def plan1 : Plan :=
  { job := 5, members := [(0, noParent, noParent)], nctr := 0,
    chunks := [{ kind := 1, op := 0, fmt := 0, srcb := 0, dstb := 1, waitc := 0xFF, sigc := 0xFF, bytes := 8, sofs := 0, dofs := 0, waitn := 0 }] }
def withPlan (s : State) : State := modPkg s 0 (fun p => { p with plans := [(1, plan1)] })

def copyRegs : KMap Word := [(0, 64 + 2 ^ 13), (28, 1)]

theorem witness_EngineIssue :
    (engSets (eng copyRegs []) 0 4).any copyOk = true ∧ waitingOps (eng copyRegs []) 0 0 < 16 ∧ ran (.ecopy 1 2 0) (eng copyRegs []) ∧
    (engSets (eng [(0, 8 + 2 ^ 16)] []) 0 2).any (gatherOk 3 true) = true ∧ ran (.egath 1 2 0 7) (eng [(0, 8 + 2 ^ 16)] []) ∧
    ran (.escat 1 2 0 3) (eng [(0, 8 + 2 ^ 16)] []) ∧ (engSets (eng [(6, 256)] []) 0 2).any (nearOk 0 0) = true ∧ ran (.enear 1 2 0) (eng [(6, 256)] []) ∧
    ran (.qplay 1 0) (withPlan (eng [(8, loc 0x100), (9, loc 0x200)] [(1, 1)])) ∧ apertureBytes plan1 [] ≤ 2 ^ 24 ∧
    (engSets (eng [(0, 2 ^ 16)] []) 0 1).any (queryOk 0) = true ∧ ran (.eqry 1 0) (eng [(0, 2 ^ 16)] []) ∧ ran (.migr 1 2 0) (eng [] []) ∧
    ran (.qload 1 2 0) (eng [] [(1, loc 0x100), (2, 63)]) ∧ (engSets (eng [(6, 64), (7, 64)] []) 0 1).any (bindOk 0 0x2000) = true ∧
    ran (.ebind 0 2 0) (eng [(6, 64), (7, 64)] [(2, 0x2000)]) ∧ (engSets (eng [] []) 7 1).any (fun l => l.getD 4 0 == 0) = true := by decide +kernel

def someOp (unit : Nat) (ph : OpPhase) (sets : List Word) (a b : Word) : EngOp :=
  { id := 3, unit := unit, word := 0, job := 5, a := a, b := b, sets := sets, opt := 0, phase := ph, code := 0, detail := 0, where_ := 0 }

/-- With sixteen operations in the engine's waiting room the thread waits. -/
theorem witness_engine_room :
    waitsOn (.migr 1 2 0) (modCore (eng [] []) 0 (fun u => { u with ops := List.replicate 16 (someOp 6 .waiting [] 0 0) }))
      (.engineRoom 0 6) := by decide +kernel

def stream1 (dir : Bool) (subs : List RingSub) : Stream :=
  { job := 5, core := 0, op := 0, dir := dir, base := 0x2000, len := 64, tile := 64, started := true, elems := [], edges := [], passThrough := true,
    sport := 0, rings := subs, pos := 0, part := [], wrote := 0, taking := none, deqDone := false, complete := false }
def streaming (dir : Bool) (subs : List RingSub) (b : Word) : State :=
  let s := ringState 0 0 0
  modPkg { s with ctxs := [(0, { baseCtx with a := [(1, loc 0x2000), (2, b), (3, loc 0x640), (4, 9)] })] } 0
    (fun p => { p with streams := [(0, stream1 dir subs)] })
def qp1 : QueuePair :=
  { job := 5, pd := 0, cq := 2, mtu := 0, port := 0, rqpn := 0, ip := 0, mac := 0, sndPsn := 0, rcvPsn := 0, err := false, sends := [], recvs := [],
    rnr := 0, rnrAt := 0 }
def withQp (s : State) (q : QueuePair) : State := modPkg s 0 (fun p => { p with qps := [(9, q)] })
def sub1 : RingSub := { core := 0, ofs := 0x2000, consumer := 0 }

/-- A stream of stack 2, on die 1, which is isolated. -/
def cutStream : State := modPkg (streaming false [] 2) 0 (fun p => { p with streams := [(128, stream1 false [])], isolated := [1] })

theorem witness_SubscribeAndPost :
    getStream (streaming false [] 0) 0 0 = some (stream1 false []) ∧ fld (0 : Word) 13 51 = 0 ∧ ran (.esub 1 2) (streaming false [] 0) ∧
    isolatedAt (streaming true [] 0) 0 0 0 = false ∧ isolatedAt cutStream 0 1 0 = true ∧ (getStream cutStream 0 128).isSome ∧ ran (.esub 1 2) cutStream ∧
    ran (.esub 1 2) (streaming true [] (2 ^ 9)) ∧ ran (.esub 1 2) (streaming false [sub1] (2 ^ 12)) ∧
    (readRing (streaming true [] 0) (scratchKey 0 0x2000)).any (fun r => r.size == 64) = true ∧
    getQp (withQp (streaming true [] 0) qp1) 0 9 = some qp1 ∧ (regA (streaming true [] 0) 4).toNat = 9 ∧ entryOk (List.replicate 64 0) = true ∧
    (loadResult (streaming true [] 0) false [(loc 0x640, 64)]).isSome ∧ ran (.nsend 3 4) (withQp (streaming true [] 0) qp1) ∧
    ran (.nrecv 3 4) (withQp (streaming true [] 0) qp1) ∧ (engSets (eng [(0, 2 + 2 ^ 16)] [(2, loc 0x640)]) 0 1).any pollOk = true ∧
    ran (.npoll 1 2 0) (modPkg (eng [(0, 2 + 2 ^ 16)] [(2, loc 0x640)]) 0 (fun p => { p with
      cqs := [(2, [{ wrid := 1, bytes := 0, st := 0, iv := false, opc := 1, qpn := 9, imm := 0 }])] })) := by decide +kernel

/-! The Sawmill, Cruise and Blaze. -/

/-- K = 1, both panels BF16. -/
def ctl1 : Word := word (1 + 6 * 2 ^ 7 + 6 * 2 ^ 14)
def sawRegs : KMap Word := [(1, loc 0x1000), (2, ctl1), (3, word (1 + 6 * 2 ^ 7)), (4, word (1 + 6 * 2 ^ 14)), (5, ctl1 + word (2 ^ 31)), (6, loc 0x1000),
  (7, loc 0x1400), (8, loc 0x2000), (9, 0)]
def tile5 (tag : Nat) : KMap Tile := [(1, { Tile.reset with tag := tag, owner := some 5, z := [(0, 0xFFFFFFFF)] })]
/-- The thread's own read of tile 1 is at the head of the queue. -/
def sawHead (tag : Nat) : State :=
  modGrove (eng [] sawRegs) 0 (fun g => { g with tiles := tile5 tag, saw := [newOp { eng [] sawRegs with cur := 0 } .nop (.read 0 1) |> fun o => { o with ctx := some 0 }] })

theorem witness_SawmillIssue :
    (getGrove (eng [] sawRegs) 0).saw.length < 32 ∧ ran (.mzero 0 1) (eng [] sawRegs) ∧ loadCtlOk (regA (eng [] sawRegs) 3) false = true ∧
    loadCtlOk (regA (eng [] sawRegs) 4) true = true ∧ (panelKey (eng [] sawRegs) (thr (eng [] sawRegs)) 6 128 (loc 0x1000)).isSome ∧
    ran (.mlda 1 3) (eng [] sawRegs) ∧ ran (.mldb 1 4) (eng [] sawRegs) ∧ ctlCheck (regA (eng [] sawRegs) 5) true = .ok ∧
    panelsOk (eng [] sawRegs) (thr (eng [] sawRegs)) (regA (eng [] sawRegs) 5) (loc 0x1000) (loc 0x1400) = true ∧
    ccoOk (eng [] sawRegs) (thr (eng [] sawRegs)) (regA (eng [] sawRegs) 5) = true ∧ ran (.mpost 5 6) (eng [] sawRegs) ∧ ctlCheck ctl1 false = .ok ∧
    ran (.mop 6 7 0) (eng [(0, ctl1)] sawRegs) ∧
    ran (.mopm 6 7 0 0) (modCx (eng [(0, ctl1), (4, 0)] sawRegs) (fun c => { c with stat := word (0x31 * 2 ^ 32), b := [(0, 5)] })) ∧
    ran (.mst 8 9 0) (eng [(0, 1)] sawRegs) ∧ ran (.mscale 8 0 1 1) (eng [] sawRegs) ∧ scalesOk (List.replicate 128 0) = true ∧
    sawReady (sawHead 3) 0 = true ∧ aAfter (.mrd 10 9 1) (sawHead 3) 10 = 2 ^ 64 - 1 ∧ aAfter (.mrd 10 9 1) (sawHead 5) 10 = 0xFFFFFFFF ∧
    ran (.mstat 10 0 1) (sawHead 3) ∧ ran (.mstat 10 1 0) (eng [] []) := by decide +kernel

/-- The counters of an operation: with an "after" counter it waits outside the queue. -/
theorem witness_sawmill_after :
    counterObj (eng [] sawRegs) (thr (eng [] sawRegs)) (loc 0x100) 8 = .key (scratchKey 0 0x100) ∧
    (getGrove (after (.mst 8 9 0) (eng [(0, 1), (1, loc 0x100), (2, 4)] sawRegs)) 0).sawWait.length = 1 := by decide +kernel

def blazing : State := eng [(0, 2 ^ 16), (4, loc 0x1800)] [(1, loc 0x1000), (2, loc 0x1400), (3, 0x700000031), (4, 0x31), (5, 0x10)]
def withB (s : State) : State := modCx s (fun c => { c with stat := word (0x3131 * 2 ^ 32), b := [(0, 0x30007), (1, 5)] })

theorem witness_CruiseAndBlaze :
    (engSets blazing 0 1).any (fun l => geoOk (l.getD 0 0)) = true ∧ (panelKey blazing (thr blazing) 8 1024 (loc 0x1000)).isSome ∧
    (panelKey blazing (thr blazing) 6 8 (loc 0x1800)).isSome ∧ ran (.cruise 1 2 0) blazing ∧ (getGrove (after (.cruise 1 2 0) blazing) 0).cru.length = 1 ∧
    fld (regA blazing 3) 8 24 = 0 ∧ fld (regA blazing 3) 0 8 ≠ 0 ∧ (loadResult blazing false (blazeRows (loc 0x1000) 0x31)).isSome ∧
    ran (.blaze 1 3 0 2) blazing ∧ ran (.blaze 1 3 1 2) blazing ∧ maskDesc (withB blazing) 0 ≠ 0 ∧ ran (.blzmov 0 3) (withB blazing) ∧
    ran (.blzmovStore 1 0) (withB blazing) ∧ maskDesc (withB blazing) 0 = maskDesc (withB blazing) 1 ∧ ran (.blzmovAnd 0 1) (withB blazing) ∧
    ran (.blzmovLoad 1 4 2) blazing ∧ (regA blazing 4).toNat < 256 ∧ fld (regA blazing 5) 5 59 = 0 ∧ aAfter (.blzpop 6 5 0) (withB blazing) 6 = 5 ∧
    aAfter (.blzpop 6 0 0) (withB blazing) 6 = 3 := by decide +kernel

/-- 10 R287's example: 40, 7, 40, -3 and 0, 0, -5, 0 against the threshold 7, and the top 2 of each row. -/
def scoreState : State :=
  memWrite (memWrite (withA [(4, loc 0x1000), (5, 0x700000031), (6, 0x200000031)]) (scratchKey 0 0x1000)
    (leBytes 4 40 ++ leBytes 4 7 ++ leBytes 4 40 ++ leBytes 4 (2 ^ 32 - 3))) (scratchKey 0 0x1040) (leBytes 8 0 ++ leBytes 4 (2 ^ 32 - 5))

theorem test_blaze_example :
    regB (after (.blaze 4 5 0 0) scoreState) 0 = 7 ∧ regB (after (.blaze 4 6 1 1) scoreState) 1 = 0x30005 := by decide +kernel

/-! System instructions and exceptions. -/

def coreWith (f : Core → Core) (s : State) : State := modCore s 0 f
def pkgWith (f : Pkg → Pkg) (s : State) : State := modPkg s 0 f

theorem lowestFree_none (f : Nat → Bool) (n i : Nat) (h : ∀ j, j < i + n → f j = true) : lowestFree f n i = none := by
  induction n generalizing i with
  | zero => rfl
  | succ n ih => rw [lowestFree, if_pos (h i (by omega)), ih (i + 1) (fun j hj => h j (by omega))]

/-- Job 5's fault ring with every entry claimed. -/
def claimed (s : State) : State := pkgWith (fun p => { p with claims := [(5, List.range 512)] }) s

theorem claims_of (s : State) (l : List Nat) : kget (getPkg (pkgWith (fun p => { p with claims := [(5, l)] }) s) 0).claims [] 5 = l := by
  simp only [pkgWith, getPkg_modPkg]
  rfl

theorem claimed_ring (s : State) : ringFree (claimed s) 0 5 = false := by
  have h : ∀ j, j < 0 + 512 → (List.range 512).contains j = true := by simp
  simp only [ringFree, claimed, claims_of]
  rw [lowestFree_none _ 512 0 h]
  rfl

def safeState : State := coreWith (fun u => { u with spm := true, lmapb := loc 0x900, lmapn := 2 }) (withA [(1, 7)])

theorem witness_SystemInstructions :
    kfind (getCore (eng [] []) (cxCore (eng [] []))).owner 0 = some (cx (eng [] [])).job ∧ ran (.ewr 1 0) (eng [] [(1, 7)]) ∧ ran (.erd 1 0) (eng [] []) ∧
    kfind (getCore (withA []) (cxCore (withA []))).owner 0 ≠ some (cx (withA [])).job ∧ ran (.ewr 1 0) (withA [(1, 7)]) ∧
    left (.erd 1 0) (withA []) ∧ ran .nop (withA []) ∧ ran .synci (withA []) ∧ (cx (base (fun c => { c with event := true }))).event = true ∧
    ran .wfe (base (fun c => { c with event := true })) ∧ waitsOn .wfe (withA []) (.event 0) ∧ ran (.tlbinvPage 1) (withA []) ∧ ran .tlbinvJob (withA []) ∧
    ran (.crd 1 0x40) (withA []) ∧ ran (.cwr 1 5) (withA [(1, 7)]) ∧ (getCore (withA []) 0).spm = false ∧ ran (.safept 0) (withA []) ∧
    (getCore safeState (cxCore safeState)).spm = true ∧ 1 < (getCore safeState 0).lmapn.toNat ∧
    (match loadResult safeState false [((getCore safeState (cxCore safeState)).lmapb + word (16 * 1), 16)] with
      | some (u, [_]) => !badTarget (loopEnd (cx u) (cx u).pc ((cx u).pc + 4)).2
      | _ => false) = true ∧ unacked safeState 0 = none ∧ (getPkg (after (.safept 1) safeState) 0).safe.length = 1 ∧
    1 ≤ (getPkg (pkgWith (fun p => { p with debug := 1 }) (withA [])) 0).debug ∧
    (cx (after (.brk 3) (pkgWith (fun p => { p with debug := 1 }) (withA [])))).status = .stopped ∧ (getPkg (withA []) 0).debug = 0 ∧
    left (.brk 3) (withA []) := by decide +kernel

/-- 11 R316: STAT bits [63:21] are not written; COREID of core 0 is 0. -/
theorem test_control_registers :
    (cx (after (.cwr 1 4) (withA [(1, -1)]))).stat = 0x1FFFFF ∧ aAfter (.crd 1 0x006) (withA []) 1 = 5 ∧ aAfter (.crd 1 0x7F) (withA [(1, 9)]) 1 = 0 := by
  decide +kernel

/-- A thread that takes a software trap, and the thread of its handler. -/
def trapping : State := withA [(1, 0x77)]
def trapped : State := after (.trap 0x12 1) trapping
def handlerState : State := { stateOf trapped (execRecordStart 0 trapped) with cur := 0 }

theorem witness_Exceptions :
    ready trapping trapping [rA 1] = true ∧ cIllegal ≠ cSoftTrap ∧ cIllegal ≠ cUncorrectable ∧
    ringFree trapping (corePkg (ctxCore 0)) (getCtx trapping 0).job = true ∧
    (match spill (releaseWaits trapping 0) 0 (getCtx trapping 0) with
      | (_, .at _) => true
      | _ => false) = true ∧
    ringFree (claimed trapping) 0 5 = false ∧
    (cx trapped).status = .dormant ∧ (getPkg (after (.trap 0x12 1) (bare trapping)) 0).claims = [(5, [0])] ∧
    (queueOf (getCore (after (.trap 0x12 1) (bare trapping)) 0) 0).length = 1 := by
  refine ⟨?_, ?_, ?_, ?_, ?_, claimed_ring _, ?_, ?_, ?_⟩ <;> decide +kernel

/-- Which way a thread's frame takes. -/
def spilled (s : State) : Nat :=
  match (spill (releaseWaits s 0) 0 (getCtx s 0)).2 with
  | .at _ => 0
  | .none => 1
  | .failed _ _ => 2
  | .corrupt _ _ => 3
  | .held => 4

/-- A thread without a place for its frame, one whose frame's place cannot be written, and one with a bad register. -/
theorem witness_lost_frames :
    spilled (bare trapping) = 1 ∧
    spilled (modPkg trapping 0 (fun p => { p with jobs := [(5, { baseJob with sps := 0, ovfl := 0x9000 })] })) = 2 ∧
    spilled (base (fun c => { c with badRegs := [vMark 3 0] })) = 3 ∧ unacked (bare trapping) 0 = none ∧ ringFree (bare trapping) 0 5 = true ∧
    cIllegal ≠ cUncorrectable := by decide +kernel

/-- 17 R380-R383: the handler starts at FHADDR with the entry's address in A1, and ERET continues the thread after the trap. -/
theorem test_trap_and_return :
    (cx handlerState).pc = 0x3000 ∧ (cx handlerState).status = .running ∧ (regA handlerState 2).toNat = cSoftTrap ∧
    ready handlerState handlerState [rA 1] = true ∧ (regA handlerState 1).toNat % 64 = 0 ∧
    (match check handlerState (thr handlerState) .both false (regA handlerState 1) 64 with
      | (s1, .ok [(k, 64)]) =>
        (match recallLines (settleBytes (drainTo s1 s1.cur (keyCore k)) k 64) k 64 with
        | (u, none) => firstBad u k 64 == none && (recOf (homeRead u k 64)).ff && (recOf (homeRead u k 64)).fc && (recOf (homeRead u k 64)).job == 5 &&
          (let v := freeEntry (dropL1 (homeWrite u k (leBytes 8 0)) 0 k 64) 0 5 (regA handlerState 1)
           match restored (endHold (releaseWaits v v.cur) (thr v) (cx v).hold) 0 (recOf (homeRead u k 64)) with
           | (_, .ok _) => true
           | _ => false)
        | _ => false)
      | _ => false) = true ∧ unacked handlerState handlerState.cur = none ∧
    (cx (after .eret handlerState)).pc = 0x1004 ∧ (cx (after .eret handlerState)).status = .running ∧ aAfter .eret handlerState 1 = 0x77 ∧
    (getPkg (after .eret handlerState) 0).claims = [(5, [])] := by decide +kernel

theorem witness_fault_ring_entry :
    (jobOn trapping 0 5).isSome ∧ lowestFree (fun i => (kget (getPkg trapping 0).claims [] 5).contains i) 512 0 = some 0 ∧
    (match hwWrite trapping (hwWho (0 * 8192 + baseJob.fcore) 5) (ringBase baseJob + word (128 * 0)) (List.replicate 128 0) with
      | (_, .ok _) => true
      | _ => false) = true := by decide +kernel

/-! The Skidder. -/

/-- A slot word with NEED and DEQ on channels 0 and 1, SA = channel 0, SB = channel 1. -/
def kw (op low : Nat) : Nat := op * 2 ^ 32 + 3 * 2 ^ 44 + 3 * 2 ^ 15 + 2 ^ 26 + low
def elem1 (w : Nat) (a b : List Token) : Elem :=
  { slots := [w, 0, 0, 0, 0, 0, 0, 0], preds := 0, l := [5, 0, 0, 0], ins := [(0, a), (1, b)], ifmt := [], ofmt := [], wofs := 0, gen := none, wave := 0 }
/-- A started stream of job 5 with one element. -/
def stream2 (dir : Bool) (e : Elem) : Stream :=
  { stream1 dir [sub1] with started := true, elems := [(0, e)], passThrough := false }
/-- A 2 MiB near-bank page at 0x200000 (03 R73). -/
def nbPage (s : State) : State := memWrite s 0x103008 (leBytes 8 (0x200000 + 0xCF7))
def skidOn (st : Stream) (s : State) : State := modPkg s 0 (fun p => { p with streams := [(0, st)] })
def skid (w : Nat) (a b : List Token) : State := skidOn (stream2 false (elem1 w a b)) (nbPage (ringState 0 0 0))
def tok (n : Nat) : Token := { data := BitVec.ofNat 32 n, level := 0 }
def turn (op : Nat) (s : State) : Bool := (kTurn s 0 (streamKey 0 0) 0 0 op).isSome
def elemNow (s : State) : Option Elem := (getStream s 0 0).bind (fun st => kfind st.elems 0)
def lNow (s : State) : Nat := ((elemNow s).bind (fun e => e.l[0]?)).getD 0 |>.toNat

theorem witness_SkidderOperations :
    ([0x01, 0x02, 0x03, 0x04, 0x05, 0x06, 0x07, 0x08, 0x09, 0x0A, 0x0B, 0x0C, 0x0D, 0x0E, 0x0F, 0x10, 0x11, 0x12, 0x13, 0x14].all (fun op =>
      turn op (skid (kw op 0) [tok 7] [tok 8]))) = true ∧ streamKey 0 0 = 0 ∧
    turn 0x11 (skid (kw 0x11 (2 * 2 ^ 7)) [marker 7] [tok 8]) = false ∧
    turn 0x11 (skid (kw 0x11 (2 * 2 ^ 7 + 8 * 2 ^ 40)) [marker 7] [tok 8]) = true ∧ turn 0x11 (skid (kw 0x11 (2 * 2 ^ 7 + 8 * 2 ^ 40)) [marker 1] [tok 8]) = true ∧
    turn 0x11 (skid (kw 0x11 (2 * 2 ^ 7 + 8 * 2 ^ 40)) [marker 2] [tok 8]) = true ∧ turn 0x11 (skid (kw 0x11 (2 * 2 ^ 7 + 8 * 2 ^ 40)) [marker 3] [tok 8]) = true ∧
    turn 0x28 (skid (kw 0x28 1) [tok 3] [tok 8]) = true ∧ (kSource (elem1 (kw 0x28 1) [tok 3] [tok 8]) (kSA (kw 0x28 1))).level = 0 := by decide +kernel

def gen1 (frames : List (Nat × Nat × Nat)) : Elem :=
  { elem1 (kw 0x28 2) [tok 3] [] with gen := some { slot := 0, frames := frames, mode := 1, c := 0, depth := 2 } }
def genState1 (frames : List (Nat × Nat × Nat)) : State := skidOn (stream2 false (gen1 frames)) (ringState 0 0 0)
def framesNow (s : State) : List (Nat × Nat × Nat) := ((elemNow s).bind (fun e => e.gen)).elim [] (fun g => g.frames)

/-- 12 R330: the generator's states that the statement names; an inner loop opens on its bound, an index follows, and a level ends. -/
theorem witness_loop_generator :
    getStream (genState1 [(2, 2, 0)]) 0 0 = some (stream2 false (gen1 [(2, 2, 0)])) ∧ kfind (stream2 false (gen1 [(2, 2, 0)])).elems 0 = some (gen1 [(2, 2, 0)]) ∧
    (getPkg (genState1 [(2, 2, 0)]) 0).limit = false ∧ quietJob (genState1 [(2, 2, 0)]) 0 5 = false ∧
    outRoom (stream2 false (gen1 [(2, 2, 0)])) 0 (kOUT (kw 0x28 2)) = true ∧ headOf (gen1 [(2, 2, 0)]) (kSA (kw 0x28 2)) = some (tok 3) ∧
    framesNow (after (.klgen 0 0 0 0 0) (genState1 [(2, 2, 0)])) = [(1, 3, 0), (2, 2, 1)] ∧
    framesNow (after (.klgen 0 0 0 0 0) (genState1 [(1, 3, 0), (2, 2, 1)])) = [(1, 3, 1), (2, 2, 1)] ∧
    framesNow (after (.klgen 0 0 0 0 0) (genState1 [(1, 3, 3), (2, 2, 1)])) = [(2, 2, 1)] := by decide +kernel

/-- 12 R324, R326: KADD with WL, KCMP and KRED leave these values in L[0]. -/
theorem test_skidder_values :
    lNow (after (.kadd 0 0 0 0 0) (skid (kw 0x01 (2 ^ 21)) [tok 7] [tok 8])) = 15 ∧
    lNow (after (.ksub 0 0 0 0 0) (skid (kw 0x02 (2 ^ 21)) [tok 7] [tok 8])) = 2 ^ 32 - 1 ∧
    lNow (after (.kmac 0 0 0 0 0) (skid (kw 0x04 (2 ^ 21)) [tok 7] [tok 8])) = 61 ∧
    lNow (after (.kred 0 0 0 0 0) (skid (kw 0x11 0) [tok 7] [tok 8])) = 12 ∧
    ((elemNow (after (.kadd 0 0 0 0 0) (skid (kw 0x01 0) [tok 7, tok 9] [tok 8]))).map (fun e => e.ins)) = some [(0, [tok 9]), (1, [])] := by decide +kernel

/-- A stream whose base is a near-bank page. -/
def nbStream (e : Elem) : Stream := { stream2 false e with base := 0x200000 }
def nbState (op low a b : Nat) : State := skidOn (nbStream (elem1 (kw op low) [tok a] [tok b])) (nbPage (ringState 0 0 0))
def nbElem (op low a b : Nat) : Elem := elem1 (kw op low) [tok a] [tok b]
/-- A data stream that reads the page of data. -/
def portState (op : Nat) (f : Stream → Stream) (s : State) : State := skidOn (f (stream2 false (elem1 (kw op 1) [tok 7] [tok 8]))) s

theorem witness_SkidderMemory :
    turn 0x20 (portState 0x20 (fun t => { t with pos := 64 }) (ringState 0 0 0)) = true ∧
    turn 0x20 (portState 0x20 (fun t => { t with dir := true }) (ringState 1 1 0)) = true ∧
    (match takeBytes (ringState 1 1 0) { stream2 true (elem1 0 [] []) with dir := true } 4 with
      | some (_, _, .ok _) => true
      | _ => false) = true ∧
    (match takeBytes { ringState 1 1 0 with bad := [scratchKey 0 0x20C0] } { stream2 true (elem1 0 [] []) with dir := true } 4 with
      | some (_, _, .error _) => true
      | _ => false) = true ∧
    turn 0x20 (portState 0x20 id (ringState 0 0 0)) = true ∧
    (skidRead (portState 0x20 id (ringState 0 0 0)) 0 0 (stream2 false (elem1 (kw 0x20 1) [tok 7] [tok 8])) (0x2000 + word 0) 4 false).2.isSome ∧
    turn 0x21 (portState 0x21 (fun t => { t with dir := true }) (ringState 0 0 0)) = true ∧
    (skidWrite (ringState 0 0 0) 0 0 (stream2 true (elem1 0 [] [])) (0x2000 + word 0) (leBytes 4 7)).2 = true ∧
    turn 0x21 (portState 0x21 id (ringState 0 0 0)) = true ∧
    turn 0x21 (portState 0x21 (fun t => { t with part := List.replicate 63 0 }) (ringState 0 0 0)) = true ∧
    ringBad (ringState 0 0 0) (stream2 true (elem1 0 [] [])) = none ∧ turn 0x30 (nbState 0x30 1 4 8) = true ∧ (memRead (nbState 0x30 1 4 8) 0 0 0 (nbStream (nbElem 0x30 1 4 8)) (nbElem 0x30 1 4 8) (kw 0x30 1) (tok 4)).2.isSome ∧
    turn 0x31 (nbState 0x31 1 4 8) = true ∧
    (memWriteElem (nbState 0x31 1 4 8) 0 0 0 (nbStream (nbElem 0x31 1 4 8)) (nbElem 0x31 1 4 8) (kw 0x31 1) (tok 4) (tok 8)).2 = true := by decide +kernel

/-- A write stream that has read the 64 bytes of its ring's slot 0 and writes their last four, from a token of the level. -/
def passing1 (level wrote : Nat) : State :=
  portState 0x21 (fun t => { t with dir := true, wrote := wrote, passing := [(0, 64)], elems := [(0, elem1 (if level = 0 then kw 0x21 1 else 0x21 * 2 ^ 32 + 2 ^ 44 + 8 * 2 ^ 40 + 2 ^ 15 + 1) [{ data := 7, level := level }] [tok 8])] })
    (ringState 1 1 1)
def passed1 (wrote : Nat) : Stream := { stream2 true (elem1 (kw 0x21 1) [tok 7] [tok 8]) with wrote := wrote, passing := [(0, 64)] }
def freedOf (s : State) (st : Stream) (n : Nat) : Option (List (Nat × Nat)) :=
  match freePassed s st n with
  | .ok (_, x) => some x.passing
  | .error _ => none

theorem witness_slots_freed_after_writing :
    turn 0x21 (passing1 0 60) = true ∧ turn 0x21 (passing1 7 64) = true ∧
    (skidWrite (passing1 0 60) 0 0 (passed1 60) (0x2000 + word 60) (leBytes 4 7)).2 = true ∧
    passedCount (wroteOn (passed1 60) 4) = 1 ∧ freedOf (passing1 0 60) (passed1 64) 1 = some [] ∧ freedOf (passing1 7 64) (passed1 64) 1 = some [] ∧
    (subRing (passing1 0 60) sub1).isSome ∧ ringBad (passing1 0 60) (passed1 60) = none ∧
    freedOf { passing1 0 60 with bad := [scratchKey 0 0x2000] } (passed1 64) 1 = none ∧
    passedCount (wroteOn (passed1 56) 4) = 0 ∧ counterRead (after (.kenq 0 0 0 0 0) (passing1 0 60)) (scratchKey 0 0x2080) = 0 := by decide +kernel

theorem witness_near_bank_forms :
    turn 0x38 (nbState 0x38 0 0x4000 0x44000) = true ∧ turn 0x39 (nbState 0x39 0 0x4000 3) = true ∧ turn 0x3A (nbState 0x3A 0 0x4000 0x44000) = true ∧
    (nbCommand (nbState 0x38 0 0x4000 0x44000) (hwWho 0 5) 0 0 0x44000 256 [(0x204000, 0x244000)]).2.2.1 = 0 ∧
    (nbCommand (nbState 0x39 0 0x4000 3) (hwWho 0 5) 1 0 3 256 [(0x204000, 0x204000)]).2.2.1 = 0 ∧
    (nbCommand (nbState 0x3A 0 0x4000 0x44000) (hwWho 0 5) 2 0 0x44000 256 [(0x204000, 0x244000)]).2.2.1 = 0 := by decide +kernel

/-- An element whose slots 0 and 1 are ordered: a write of data 8 at 4, then a read of it (12 R332). -/
def waveElem (lv : Nat) : Elem :=
  { elem1 0 [{ data := 4, level := lv }] [{ data := 8, level := lv }] with slots := [kw 0x30 (1 + 64 + 2 ^ 7), kw 0x31 (1 + 64), 0, 0, 0, 0, 0, 0] }
def waveState (lv : Nat) : State := skidOn (nbStream (waveElem lv)) (nbPage (ringState 0 0 0))

theorem witness_waves :
    getStream (waveState 0) 0 0 = some (nbStream (waveElem 0)) ∧ (nbStream (waveElem 0)).started = true ∧ (nbStream (waveElem 0)).complete = false ∧
    (kBegin (waveState 0) 0 0 0 (waveTurn 0)).any (fun x => waveReady (atStart x.1) 0 x.2.2) = true ∧
    (kBegin (waveState 2) 0 0 0 (waveTurn 0)).any (fun x => waveReady (atStart x.1) 0 x.2.2) = true ∧ waveKept (nbStream (waveElem 0)) 0 (waveElem 0) ≠ nbStream (waveElem 0) ∧
    waveReady (nbStream (waveElem 0)) 0 (waveElem 0) = true ∧ (waveLevels (waveElem 0)).any (fun x => x != 0) = false ∧ (waveLevels (waveElem 0)).headD 0 = 0 ∧
    (match (waveCheck (waveState 0) 0 (nbStream (waveElem 0)) (waveElem 0) (sortOrd (ordSlots (waveElem 0)))).2 with
      | .done _ => true
      | _ => false) = true ∧
    (waveRun (waveCheck (waveState 0) 0 (nbStream (waveElem 0)) (waveElem 0) (sortOrd (ordSlots (waveElem 0)))).1 0 0 0 (waveKept (nbStream (waveElem 0)) 0 (waveElem 0)) 0 (waveElem 0)
      (sortOrd (ordSlots (waveElem 0))) []).2.map (fun l => (l.filter (fun x => kOP x.1 == 0x30)).map (fun x => x.2)) = some [tok 8] ∧
    waveReady (nbStream (waveElem 2)) 0 (waveElem 2) = true ∧ (waveLevels (waveElem 2)).any (fun x => x != 2) = false ∧
    (waveLevels (waveElem 2)).headD 0 = 2 ∧ ((elemNow (after (.wave 0 0 0 0) (waveState 2))).map (fun e => e.wave)) = some 1 := by decide +kernel

/-! Events of engines, the Sawmill, messages and records. -/

def withOps (l : List EngOp) (s : State) : State := coreWith (fun u => { u with ops := l }) s
def copy1 (ph : OpPhase) (status : Word) : EngOp := someOp 0 ph ([64 + 2 ^ 13, 0, 0, 0, status] ++ List.replicate 23 0 ++ [1]) (loc 0x400) (loc 0x800)
def later1 (target : Word) : EngOp := someOp 0 .waiting ([64 + 2 ^ 13, loc 0x100, target, 0, 0] ++ List.replicate 23 0 ++ [1]) (loc 0x400) (loc 0x800)
def opState (o : EngOp) : State := withOps [o] (eng [] [])
def donePair (x : State × EngRes) : Bool :=
  match x.2 with
  | .done _ => true
  | _ => false

theorem witness_EngineEvents :
    (getCore (opState (copy1 .waiting 0)) 0).ops[0]? = some (copy1 .waiting 0) ∧ (getPkg (opState (copy1 .waiting 0)) 0).quiet.contains 5 = false ∧
    afterMet (opState (copy1 .waiting 0)) (opAfter 0 (copy1 .waiting 0)) 0 = true ∧ afterMet (opState (later1 3)) (opAfter 0 (later1 3)) 3 = false ∧
    donePair (engineRead (opState (copy1 .running 0)) (opWho 0 (copy1 .running 0)) 3 (copyReads (copy1 .running 0))) = true ∧
    donePair (engineWrite (opState (copy1 .running 0)) (opWho 0 (copy1 .running 0)) 3 (copyWrites (copy1 .running 0) [List.replicate 64 0])) = true ∧
    copyClash (opState (copy1 .running 0)) (opWho 0 (copy1 .running 0)) (copyMoves (copy1 .running 0)) = false ∧
    (copy1 .finished 0).sets.getD 4 0 = 0 ∧ (copy1 .finished (loc 0x640)).sets.getD 4 0 ≠ 0 ∧
    donePair (engineWrite (opState (copy1 .finished (loc 0x640))) (opWho 0 (copy1 .finished (loc 0x640))) 3
      [(loc 0x640, statusBytes (opState (copy1 .finished (loc 0x640))) 0 (copy1 .finished (loc 0x640)))]) = true := by decide +kernel

/-- 11 R293: ECOPY copies 64 bytes from 0x400 to 0x800. -/
theorem test_copy :
    cellsRead (after (.engineOperationStart 0 0) (poke (opState (copy1 .waiting 0)) 0x438 77)).mem (scratchKey 0 0x838) 8 = leBytes 8 77 ∧
    (getCore (after (.engineOperationCompletion 0 0) (opState (copy1 .finished 0))) 0).ops = [] := by decide +kernel

def saw1 (k : SawKind) (after : Option Nat) : SawOp :=
  { kind := k, word := 0, job := 5, core := 0, after := after, target := 0, done := none, ctx := none }
def groveWith (f : Grove → Grove) : State := modGrove (eng [] []) 0 f
def running1 (k : SawKind) : State := groveWith (fun g => { g with sawRun := some { op := saw1 k none, runs := [] }, tiles := tile5 5 })
def cru1 : SawKind := .cruise (loc 0x1000) (loc 0x1400) (word (2 ^ 16)) (loc 0x1800)

theorem witness_SawmillEvents :
    (getGrove (groveWith (fun g => { g with sawWait := [saw1 (.zero 1 0) none] })) 0).sawWait[0]? = some (saw1 (.zero 1 0) none) ∧
    afterMet (groveWith (fun g => { g with sawWait := [saw1 (.zero 1 0) none] })) none 0 = true ∧
    (getGrove (after (.sawmillQueueEntry 0 0) (groveWith (fun g => { g with sawWait := [saw1 (.zero 1 0) none] }))) 0).saw.length = 1 ∧
    (getGrove (after (.sawmillQueueEntry 0 0) (groveWith (fun g => { g with cruWait := [saw1 cru1 none] }))) 0).cru.length = 1 ∧
    isRead (saw1 (.zero 1 0) none).kind = false ∧ sawReady (groveWith (fun g => { g with saw := [saw1 (.zero 1 0) none] })) 0 = true ∧
    quietJob (groveWith (fun g => { g with saw := [saw1 (.zero 1 0) none] })) (grovePkg 0) 5 = false ∧
    (getGrove (after (.sawmillStart 0) (groveWith (fun g => { g with saw := [saw1 (.zero 1 0) none] }))) 0).sawRun.isSome ∧
    (getGrove (running1 (.zero 1 0)) 0).sawRun = some { op := saw1 (.zero 1 0) none, runs := [] } ∧
    ([SawKind.zero 1 0, .load true 0 0, .run 0 0 0, .masked 0 0 0 0 0 0 false 0 0, .scale 1 [] [] false].all (fun k =>
      (getGrove (after (.sawmillCompletion 0) (running1 k)) 0).sawRun.isNone)) = true ∧
    (doStore (running1 (.store (loc 0x2000) 256 1 false)) (saw1 (.store (loc 0x2000) 256 1 false) none) (loc 0x2000) 256 1 false).2 = true ∧
    (doStore (running1 (.store 0x7000 256 1 false)) (saw1 (.store 0x7000 256 1 false) none) 0x7000 256 1 false).2 = false ∧
    cruAdmits (groveWith (fun g => { g with cru := [saw1 cru1 none] })) (grovePkg 0) = true ∧
    (getGrove (after (.cruiseStart 0) (groveWith (fun g => { g with cru := [saw1 cru1 none] }))) 0).cruRun = some (saw1 cru1 none) ∧
    (match cruRead (eng [] []) (saw1 cru1 none) (loc 0x1000) (geoQBytes (word (2 ^ 16)) / 1024) (geoQN (word (2 ^ 16))),
        cruRead (eng [] []) (saw1 cru1 none) (loc 0x1400) (geoKBytes (word (2 ^ 16)) / 1024) (geoKN (word (2 ^ 16))) with
      | .ok _, .ok _ => true
      | _, _ => false) = true ∧
    addrClass (loc 0x1800) = .localWin ∧ (cruEntries (word (2 ^ 16))).all (fun e => (storeBad (eng [] []) (cruPlace (sawKey 0 (loc 0x1800)) e) 4).isNone) = true := by
  decide +kernel

/-- Job 5 with one handler, at 0x3000 with two slots of 256 bytes from 0x4000 on (02 R20). -/
def entry1 : List Byte := leBytes 8 (0x3000 + 2 ^ 48) ++ leBytes 8 (0x4000 + 4 * 2 ^ 17 + 2 ^ 24)
def job1 : Job := { baseJob with htab := 0x2C00, hcnt := 1, wth := 16 }
def withJob (s : State) : State := memWrite (pkgWith (fun p => { p with jobs := [(5, job1)] }) s) 0x106C00 entry1
def msg1 (payload : List Byte) (left dst : Nat) : Msg :=
  { num := 7, dst := dst, job := 5, handler := 0, prio := 0, arg0 := 11, arg1 := 12, payload := payload, link := 0, origin := 0, left := left, sent := 0, trig := false }
def pkt (ofs size : Nat) : Packet := { src := 0, num := 7, ofs := ofs, size := size }
def sent1 (f : Core → Core) (m : Msg) (p : Packet) : State :=
  { coreWith (fun u => f { u with held := [m] }) (withJob (withA [])) with net := [p] }
def claim1 (last : Nat) : Claim := { msg := msg1 [] 1 0, len := 300, src := 0, num := 7, slot := 0x4000, pc := 0x3000, received := 256, last := last }
def fullQ (u : Core) : Core := { u with q := [(0, List.replicate 32 (plainRec (zeroRec 5 0)))] }
def bytes300 : List Byte := List.replicate 300 9

theorem witness_MessageEvents :
    (sent1 id (msg1 [] 1 0) (pkt 0 0)).net[0]? = some (pkt 0 0) ∧ heldMsg { withA [] with net := [pkt 0 0] } 0 7 = none ∧
    heldMsg (sent1 id (msg1 [] 1 0) (pkt 0 0)) 0 7 = some (msg1 [] 1 0) ∧ (getPkg (sent1 id (msg1 [] 1 0) (pkt 0 0)) 0).unreachable.contains 0 = false ∧
    inCores (sent1 id (msg1 [] 1 1) (pkt 0 0)) 1 5 = false ∧ inCores (sent1 id (msg1 [] 1 0) (pkt 0 0)) 0 5 = true ∧
    (getPkg (pkgWith (fun p => { p with quiet := [5] }) (sent1 id (msg1 [] 1 0) (pkt 0 0))) 0).quiet.contains 5 = true ∧
    (getPkg (sent1 id (msg1 [] 1 0) (pkt 0 0)) 0).quiet.contains 5 = false ∧ fencedFor (sent1 id (msg1 [] 1 0) (pkt 0 0)) (hwWho 0 5) 0 = false ∧
    (getCore (sent1 (fun u => { u with claims := [claim1 0] }) (msg1 bytes300 1 0) (pkt 256 44)) 0).claims.find? (fun c => c.src == 0 && c.num == 7) = some (claim1 0) ∧
    (getCore (sent1 id (msg1 [] 1 0) (pkt 0 0)) 0).claims.find? (fun c => c.src == 0 && c.num == 7) = none ∧
    (match findHandler (netWithout (sent1 id (msg1 [] 1 0) (pkt 0 0)) 0) 0 (msg1 [] 1 0) 0 with
      | (t, .ok h) => (arrive t 0 (launchRec (msg1 [] 1 0) 0 0 h.addr 0)).2
      | _ => false) = true ∧
    (match findHandler (netWithout (sent1 (fun u => { fullQ u with deckOrder := [(0, [5])] }) (msg1 [] 1 0) (pkt 0 0)) 0) 0 (msg1 [] 1 0) 0 with
      | (t, .ok h) => (arrive (setDeck t 0 5 0 { head := 0, tail := 1024 }) 0 (launchRec (msg1 [] 1 0) 0 0 h.addr 0)).2
      | _ => true) = false := by decide +kernel

theorem witness_landing_slots :
    (match findHandler (netWithout (sent1 id (msg1 bytes300 2 0) (pkt 0 256)) 0) 0 (msg1 bytes300 2 0) 200 with
      | (t, .ok h) => lowestFree (fun j => (getCore t 0).slots.contains (h.pool + j * h.size)) h.slots 0 == some 0
      | _ => false) = true ∧
    (match findHandler (netWithout (sent1 (fun u => { u with slots := [0x4000, 0x4100] }) (msg1 bytes300 2 0) (pkt 0 256)) 0) 0 (msg1 bytes300 2 0) 200 with
      | (t, .ok h) => lowestFree (fun j => (getCore t 0).slots.contains (h.pool + j * h.size)) h.slots 0 == none
      | _ => false) = true ∧
    (let s := { withA [] with refused := [{ pkt := pkt 0 0, due := 256 }] }
     s.refused[0]? == some { pkt := pkt 0 0, due := 256 } && decide (s.cycle < 256) && decide (256 ≤ { s with cycle := 300 }.cycle)) = true ∧
    heldMsg (sent1 id (msg1 [] 0 0) (pkt 0 0)) 0 7 = some (msg1 [] 0 0) ∧
    (getCore (after (.messageAcceptance 0 7) (sent1 id (msg1 [] 0 0) (pkt 0 0))) 0).held = [] ∧
    (claim1 0).last + 2 ^ 20 < 2 ^ 21 ∧ (getCore (coreWith (fun u => { u with phys := 24 }) (withA [])) 0).phys ≠ 32 ∧
    apart (pkgWith (fun p => { p with unreachable := [0] }) (withA [])) (corePkg 0) (corePkg (claim1 0).src) = true ∧
    apart (pkgWith (fun p => { p with unreachable := [0] }) (withA [])) 1 0 = false ∧
    apart (pkgWith (fun p => { p with unreachable := [1] }) (withA [])) 1 0 = true := by decide +kernel

/-- A trigger's message that would be refused stays in the network; a handler entry in a page in migration; a packet to a fenced core of the job. -/
theorem witness_trigger_and_fence :
    (let s := sent1 (fun u => { u with slots := [0x4000, 0x4100] }) { msg1 (List.replicate 200 9) 1 0 with trig := true } (pkt 0 200)
     after (.packetArrival 0) s == s) = true ∧
    entryHeld (pkgWith (fun p => { p with migs := [{ job := 5, va := 0, size := 2 ^ 48, src := 0, dst := 0, op := 0, core := 0, parked := [] }] })
      (sent1 id (msg1 [] 1 0) (pkt 0 0))) 0 (msg1 [] 1 0) = true ∧ entryHeld (sent1 id (msg1 [] 1 0) (pkt 0 0)) 0 (msg1 [] 1 0) = false ∧
    fencedFor (sent1 (fun u => { u with fenced := some 0 }) (msg1 [] 1 0) (pkt 0 0)) (hwWho 0 5) 0 = true ∧
    (let s := pkgWith (fun p => { p with migs := [{ job := 5, va := 0, size := 2 ^ 48, src := 0, dst := 0, op := 0, core := 0, parked := [] }] })
        (sent1 (fun u => { u with fenced := some 0 }) (msg1 [] 1 0) (pkt 0 0))
     fencedFor s (hwWho 0 5) 0 = true ∧ entryHeld s 0 (msg1 [] 1 0) = true) ∧
    (after (.packetArrival 0) (sent1 (fun u => { u with fenced := some 0 }) (msg1 [] 1 0) (pkt 0 0))).net = [] := by decide +kernel

/-- 02 R19, R21, R27: a message without a payload becomes a launch record at its handler; one with a payload lands in its slot. -/
theorem test_messages :
    ((queueOf (getCore (after (.packetArrival 0) (sent1 id (msg1 [] 1 0) (pkt 0 0))) 0) 0).map (fun q => (q.r.pc, q.r.args.take 2))) = [(0x3000, [11, 12])] ∧
    (getCore (after (.packetArrival 0) (sent1 id (msg1 (List.replicate 200 9) 1 0) (pkt 0 200))) 0).slots = [0x4000] ∧
    cellsRead (after (.packetArrival 0) (sent1 id (msg1 (List.replicate 200 9) 1 0) (pkt 0 200))).mem (scratchKey 0 0x40C7) 2 = [9, 0] := by decide +kernel

/-- Records of job 5; a core with them in its queues, in the pool, in its deque. -/
def q1 (prio age : Nat) (h : Option Handler) : QRec := { r := zeroRec 5 prio, age := age, handler := h }
def idle (f : Core → Core) : State := coreWith f (withJob { withA [] with ctxs := [] })
def decked : State := setDeck (memWrite (idle (fun u => { u with deckOrder := [(0, [5])] })) 0x106000 (recBytes (zeroRec 5 0))) 0 5 0 { head := 0, tail := 1 }
def atCycle (n : Nat) (s : State) : State := { s with cycle := n }
def waiting1 (since : Nat) : State := withJob (base (fun c => { c with status := .waiting (.counter (scratchKey 0 0x100)) since 0 }))

/-- A thread that waits on a counter in the instruction with word w, its target met. -/
def waiting2 (w : Nat) : State := withJob (base (fun c => { c with status := .waiting (.counter (scratchKey 0 0x100)) 0 0, a := [(5, loc 0x100)], insn := some w }))
def waitsAtContext (s : State) : Bool :=
  match (getCtx s 0).status with
  | .waiting _ _ _ => true
  | _ => false
/-- Core 1 with n records in its deque. -/
def dequed (n : Nat) : State :=
  modCore (pkgWith (fun p => { p with jobs := [(5, { job1 with cores := 3 })] }) (idle id)) 1 (fun u => { u with deque := List.replicate n (q1 0 0 none) })
/-- A record whose frame lies in a page in migration. -/
def framed : QRec := { q1 0 0 none with r := { zeroRec 5 0 with ff := true, w1 := 0x2000 } }
def movingFrame : State :=
  pkgWith (fun p => { p with migs := [{ job := 5, va := 0x2000, size := 4096, src := 0, dst := 0, op := 0, core := 0, parked := [] }] }) (idle id)

theorem witness_RecordEvents :
    (let t := flushLaunches decked 0
     kget (getCore t 0).deckOrder [] 0 == [5] && decide ((queueOf (getCore t 0) 0).length < 32) && (getCore t 0).fenced == none &&
     (match hwRead (deckTaken t 0 0 5 []) (hwWho 0 5) (deckAddr (jobD t 0 5) 0 0 (deckOf t 0 5 0).head) 64 with
      | (_, .ok _) => true
      | _ => false)) = true ∧
    ((queueOf (getCore (after (.deckRefill 0 0) decked) 0) 0).map (fun q => q.r.job)) = [5] ∧
    (queueOf (getCore (atCycle 5000 (idle (fun u => { u with q := [(2, [q1 2 0 none])] }))) 0) 2)[0]? = some (q1 2 0 none) ∧
    (jobD (idle id) 0 5).cap < 2 ∧ (arrive (queueWithout (atCycle 5000 (idle (fun u => { u with q := [(2, [q1 2 0 none])] }))) 0 2 0) 0 (raised (q1 2 0 none) 2).r).2 = true ∧
    ((queueOf (getCore (after (.recordAging 0 2 0) (atCycle 5000 (idle (fun u => { u with q := [(2, [q1 2 0 none])] })))) 0) 1).length) = 1 ∧
    ((queueOf (getCore (after (.recordAging 0 2 0) (atCycle 5000 (idle (fun u => { u with q := [(2, [q1 2 0 (some { entry := 0, notice := none })])] })))) 0) 1).length) = 1 ∧
    overdue (atCycle 5000 (idle (fun u => { u with q := [(2, [q1 2 0 none])] }))) 0 2 (q1 2 0 none) = true ∧
    overdue (atCycle 5000 (idle id)) 0 2 (q1 2 4000 none) = false ∧ requestReady (waiting1 0) 0 = false ∧ requestReady (waiting2 0xE4E5400B) 0 = true ∧ waitsAtContext (waiting2 0xE4E5400B) = true ∧
    frameHeld (idle id) 0 (q1 1 0 none) = false ∧ frameHeld movingFrame 0 framed = true ∧
    unacked (waiting1 0) 0 = none ∧ (getCtx (waiting1 0) 0).lost = false ∧ groupGone (waiting1 0) (.counter (scratchKey 0 0x100)) = false ∧
    groupGone (waiting1 0) (.group 0 5 7 0) = true ∧ (getGrove (idle id) 0).ring = [] ∧ (getGrove (idle id) 0).behind = [] ∧
    dormantCtx (idle id) 0 = some 0 ∧ (getCore (idle id) 0).fenced = none ∧ (getCore (idle id) 0).offMark = false ∧
    queuePick (idle (fun u => { u with q := [(2, [q1 2 0 none])] })) 0 = some (2, q1 2 0 none) ∧ queuePick (idle id) 0 = none ∧
    poolPick (idle id) 0 [q1 1 0 none] = some 0 ∧ poolPick (idle id) 0 [] = none ∧ mayStart (idle id) 0 5 = true ∧
    (getCore (idle (fun u => { u with deque := [q1 0 0 none] })) 0).deque = [q1 0 0 none] ∧
    stealFrom (dequed 2) 0 = some (1, q1 0 0 none) ∧ stealFrom (dequed 1) 0 = none ∧ ownerPops (dequed 1) 1 = true ∧
    stealFrom (modCore (dequed 1) 1 (fun u => { u with offMark := true })) 0 = some (1, q1 0 0 none) ∧
    parkHome 0 (.counter (scratchKey 0 0x100)) = some 0 ∧ 0 < (jobD (waiting1 0) 0 5).wth ∧ (getCore (waiting1 0) 0).park.length < 64 ∧
    (match spill (releaseWaits (atCycle 16 (waiting1 0)) 0) 0 (getCtx (waiting1 0) 0) with
      | (_, .at _) => true
      | _ => false) = true ∧
    (match spill (releaseWaits (pkgWith (fun p => { p with jobs := [(5, { job1 with sps := 0, ovfl := loc 0x800 })] }) (waiting1 0)) 0) 0 (getCtx (waiting1 0) 0) with
      | (_, .none) => true
      | _ => false) = true ∧
    (getCore (after (.hardwareSuspension 0) (atCycle 16 (waiting1 0))) 0).park.length = 1 := by decide +kernel

/-! Events of homes, translation, pages, faults and the host. -/

def pend1 (remote : Bool) : PendingStore :=
  { ctx := 0, job := 5, since := 0, key := scratchKey (if remote then 8192 else 0) 0x100, bytes := leBytes 8 7, remote := remote }
def storing (remote away : Bool) : State :=
  pkgWith (fun p => { p with unreachable := if away then [1] else [] }) { withA [] with stores := [pend1 remote] }
def partial1 (bad : Bool) : Partial := { grove := 3, key := 0x106000, width := 8, op := 0, uns := false, value := 5, bad := bad }
def tlb1 (u : Bool) : TlbEntry := { job := 5, va := 0x2000, size := 4096, pa := 0x106000, leaf := if u then 0x1060F7 else 0x1060F9, leafAt := 0x104010 }
def miss1 (due : Nat) : Miss := { core := 0, job := 5, va := 0x2000, due := due }
def home1 : Nat := transHome 0 5 0x2000
def walking (f : Grove → Grove) : State := modGrove (withA []) home1 f
def walkLeaf (s : State) (va : Nat) : Option TlbEntry :=
  match walk s 0 0 5 va with
  | .leaf e => some e
  | _ => none
def shoot1 : Shoot := { scope := 1, job := 5, va := 0 }

theorem witness_HomeEvents :
    (storing false false).stores[0]? = some (pend1 false) ∧ (pend1 false).remote = false ∧ (pend1 true).remote = true ∧
    awayStore (storing true false) (pend1 true) = false ∧ awayStore (storing true true) (pend1 true) = true ∧
    (after (.storeRegistration 0) (storing false false)).stores = [] ∧ (after (.remoteStoreAcknowledgement 0) (storing true false)).stores = [] ∧
    (List.range 8).any (ownsByte { withA [] with owner := [(0x106000, 0)] } 0 (0x106000 / 8 * 8)) = true ∧
    ({ withA [] with owner := [(0x106000, 0)] }).bad.contains (l1Mark 0 0x106000) = false ∧ (List.range 8).any (ownsByte (withA []) 0 0x106000) = false ∧
    ({ withA [] with partials := [partial1 false] }).partials.findIdx? (partialAt 3 0x106000) = some 0 ∧
    (after (.updateOnlyFlush 3 0x106000) { withA [] with partials := [partial1 false] }).partials = [] ∧
    (after (.updateOnlyFlush 3 0x106000) { withA [] with partials := [partial1 true] }).partials = [] ∧
    (astEntry (withA []) (corePkg 0) 5).getLsbD 0 = true ∧ 0x2000 < 28 * 2 ^ 52 ∧ tlbFind (getCore (withA []) 0).tlb 5 0x2000 = none ∧
    tlbFind (getGrove (walking (fun g => { g with tlb2 := [tlb1 true] })) home1).tlb2 5 0x2000 = some (tlb1 true) ∧
    tlbFind (getGrove (withA []) home1).tlb2 5 0x2000 = none ∧ (getGrove (after (.tlbMissRequest 0 5 0x2000) (withA [])) home1).walks.length = 1 ∧
    migrating (withA []) 0 5 0x2000 = false ∧ migrating movingFrame 0 5 0x2000 = true ∧
    migrating (walkDone (walking (fun g => { g with walks := [miss1 0] })) home1 (miss1 0)) 0 5 0x2000 = false ∧
    (let s := pkgWith (fun p => { p with migs := (getPkg movingFrame 0).migs }) (walking (fun g => { g with walks := [miss1 0] }))
     migrating (walkDone s home1 (miss1 0)) (grovePkg home1) 5 0x2000 = true ∧ (getCore (after (.walkCompletion home1 0) s) 0).tlb = []) ∧
    (getGrove (walking (fun g => { g with walkRef := [miss1 256] })) home1).walkRef[0]? = some (miss1 256) ∧
    (getGrove (walking (fun g => { g with walks := [miss1 0] })) home1).walks[0]? = some (miss1 0) ∧
    (walkLeaf (walkDone (walking (fun g => { g with walks := [miss1 0] })) home1 (miss1 0)) 0x2000).any (permits .read) = true ∧
    walk (withA []) 0 0 5 0x9000 = .absent ∧
    (walkLeaf (memWrite (withA []) 0x104010 [0xF9]) 0x2000).any (fun e => !permits .read e) = true ∧
    ({ storing true false with stores := [], nacked := [pend1 true] }).stores[0]? = none ∧
    ({ storing true false with stores := [], nacked := [pend1 true] }).nacked[0 - 0]? = some (pend1 true) ∧
    (after (.remoteStoreAcknowledgement 0) { storing true false with stores := [], nacked := [pend1 true] }).nacked = [] ∧
    (getPkg (pkgWith (fun p => { p with shoots := [shoot1] }) (withA [])) 0).shoots[0]? = some shoot1 ∧
    (getPkg (after (.tlbinvCompletion 0 0) (pkgWith (fun p => { p with shoots := [shoot1] }) (withA []))) 0).shoots = [] := by decide +kernel

def waitState (o : Obj) (n : Nat) : State := { base (fun c => { c with status := .waiting o 0 0 }) with cycle := n }
def req1 (written : Bool) : PageReq :=
  { job := 5, va := 0x9000, wr := false, fx := false, src := 0, eng := true, parked := [], waiters := [(3, 0x9008)], written := written }
def landed (written : Bool) (count : Nat) : State :=
  pkgWith (fun p => { p with landing := [(2, { gen := 7, req := some (req1 written) })], landOrder := [2], ringCount := word count, ringBase := 0x10000 }) (withA [])

/-- The same with a message that came before and is held. -/
def heldBehind : State := pkgWith (fun p => { p with hostHeld := [{ core := 0, qrec := plainRec (zeroRec 5 0) }] }) (landed true 64)

theorem witness_PageRequests :
    (getCtx (waitState (.landing 0) 300) 0).status = .waiting (.landing 0) 0 0 ∧ 0 + 256 ≤ (waitState (.landing 0) 300).cycle ∧
    (waitState (.landing 0) 3).cycle < 0 + 256 ∧ (cx (after (.landingRetry 0) (waitState (.landing 0) 300))).status = .running ∧
    ((getPkg (landed false 64) 0).landOrder.filterMap (pageWaiting (getPkg (landed false 64) 0))).head? = some (2, 7, req1 false) ∧
    ringRoom (getPkg (landed false 64) 0) = true ∧ ringRoom (getPkg (landed false 0) 0) = false ∧
    (getPkg (after (.pageRequestEntry 0) (landed false 64)) 0).ringHead = 1 ∧
    kfind (getPkg (landed true 64) 0).landing (2 % 4096) = some { gen := 7, req := some (req1 true) } ∧ (2 + 2 ^ 12 + 7 * 2 ^ 32 : Nat) % 4096 = 2 ∧
    (2 + 2 ^ 12 + 7 * 2 ^ 32 : Nat).testBit 12 = true ∧ (2 + 7 * 2 ^ 32 : Nat).testBit 12 = false ∧ (2 + 7 * 2 ^ 32 : Nat) / 2 ^ 32 % 2 ^ 32 = 7 ∧
    (getPkg (landed true 64) 0).hostHeld = [] ∧ (getPkg heldBehind 0).hostHeld ≠ [] ∧
    (getPkg (after (.pageRequestAnswer 0 (2 + 2 ^ 12 + 7 * 2 ^ 32)) heldBehind) 0).hostHeld.length = 2 ∧
    (getPkg (after (.pageRequestAnswer 0 (2 + 8 * 2 ^ 32)) (landed true 64)) 0).stale = 1 ∧
    (getPkg (after (.pageRequestAnswer 0 (2 + 7 * 2 ^ 32)) (landed true 64)) 0).refusedOps = [(3, 0x9008)] := by decide +kernel

def fault1 : FaultInfo := { cause := cSoftTrap, fpc := 0x1000, faddr := 0, finfo := 0, pc := 0x1004 }
def faulting (n : Nat) : State := { base (fun c => { c with status := .faulting fault1 0 }) with cycle := n }
def beating (hbi hb : Nat) : State := pkgWith (fun p => { p with jobs := [(5, { baseJob with hbi := hbi })] }) (base (fun c => { c with hb := hb }))
def fencedState (n : Nat) : State := atCycle n (coreWith (fun u => { u with fenced := some 0 }) (withA []))
def spoiled : State := { withA [] with bad := [0x106000] }

theorem witness_FaultEvents :
    (getCtx (faulting 300) 0).status = .faulting fault1 0 ∧ ringFree (faulting 300) (corePkg (ctxCore 0)) (getCtx (faulting 300) 0).job = true ∧
    ringFree (claimed (faulting 3)) 0 5 = false ∧ (faulting 3).cycle < 0 + 256 ∧
    0 + 256 ≤ (faulting 300).cycle ∧ left (.faultDelivery 0) (faulting 3) ∧ left (.faultDeliveryRetry 0) (faulting 300) ∧
    (getCtx (beating 64 64) 0).status ≠ .dormant ∧ 0 < (jobD (beating 64 64) (corePkg (ctxCore 0)) 5).hbi ∧
    (jobD (beating 64 64) (corePkg (ctxCore 0)) 5).hbi ≤ heartbeat (beating 64 64) 0 ∧ (getCore (beating 64 64) (ctxCore 0)).fenced = none ∧
    (getCore (after (.heartbeatMiss 0) (beating 64 64)) 0).fenced = some 0 ∧ (jobD (beating 0 64) (corePkg (ctxCore 0)) 5).hbi = 0 ∧
    (getCore (fencedState 64) 0).fenced = some 0 ∧ spareOf (fencedState 64) (coreGrove 0) = some 24 ∧ 0 + 64 ≤ (fencedState 64).cycle ∧
    (fencedState 3).cycle < 0 + 64 ∧ (getCore (after (.spareTakeover 0) (fencedState 64)) 0).phys = 24 ∧
    (getCtx (waitState (.event 0) 65536) 0).status = .waiting (.event 0) 0 0 ∧ 0 + 65536 ≤ (waitState (.event 0) 65536).cycle ∧
    (cx (after (.wfeTimeout 0) (waitState (.event 0) 65536))).pc = 0x1004 ∧ (waitState (.event 0) 3).cycle < 0 + 65536 ∧
    0x106000 / 32 < 2 ^ 34 ∧ spoiled.bad.contains (physKey 0 (32 * (0x106000 / 32))) = true ∧ (withA []).bad.contains (physKey 0 0) = false ∧
    hasPower spoiled 0 = true ∧ (getPkg (after (.patrolScrub 0 (0x106000 / 32)) spoiled) 0).unc = [(3, 1)] := by
  refine ⟨?_, ?_, claimed_ring _, ?_⟩ <;> decide +kernel

/-- Job 6's descriptor at 0x180000, a context of a queue pair at 0x190000 (02 R34, 13 R362). -/
def desc6 : List Byte :=
  leBytes 8 (6 + 2 ^ 14) ++ leBytes 8 0x2C00 ++ leBytes 8 1 ++ leBytes 8 (0x1000 * 2 ^ 17) ++ leBytes 8 0x10000 ++ leBytes 8 (0x8000 + 0x4000 * 2 ^ 17)
    ++ leBytes 8 0 ++ leBytes 8 0x3000 ++ leBytes 8 0 ++ leBytes 8 0 ++ List.replicate 0x30 0 ++ leBytes 8 1 ++ List.replicate 760 0
def qpCtx : List Byte := leBytes 8 (5 + 2 * 2 ^ 18 + 1024 * 2 ^ 26) ++ List.replicate 56 0
def hostState (a b c : Nat) (job : Nat) : State :=
  pkgWith (fun p => { p with jta0 := word a, jta1 := word b, jta2 := word c, jobs := [(job, baseJob)] })
    (memWrite (memWrite { withA [] with ctxs := [] } 0x180000 desc6) 0x190000 qpCtx)
def resultOf (s : State) : Nat := (getPkg s 0).result

def noPower : State := pkgWith (fun p => { p with power := .off }) (withA [])

theorem witness_HostCommands :
    hasPower noPower 0 = false ∧ hasPower (hostState 0 0 0 5) 0 = true ∧
    (getPkg (pkgWith (fun p => { p with busy := true }) (withA [])) 0).busy = true ∧ (getPkg (hostState 0 0 0 5) 0).busy = false ∧
    jta (withOp (hostState 0x180000 0 0 5) 0 1) 0 0 % 128 = 0 ∧
    (match physRead (withOp (hostState 0x180000 0 0 5) 0 1) 0 0x180000 896 with
      | (t, some bs) => (descriptorOf bs).1 == 6 && (descriptorOf bs).2.2 && descriptorOk (descriptorOf bs).2.1 true && (jobOn t 0 6).isNone
      | _ => false) = true ∧
    (getPkg (after (.install 0) (hostState 0x180000 0 0 5)) 0).jobs.length = 2 ∧
    jobOn (withOp (hostState 5 0 0 5) 0 2) 0 5 = some baseJob ∧ jobBusy (withOp (hostState 5 0 0 5) 0 2) 0 5 = false ∧
    jobBusy (withOp (withA []) 0 2) 0 5 = true ∧ (getPkg (after (.remove 0) (hostState 5 0 0 5)) 0).jobs = [] ∧
    resultOf (after (.remove 0) (pkgWith (fun p => { p with jta0 := 5 }) (withA []))) = 3 ∧
    jta (withOp (hostState 6 0x110001 0 5) 0 3) 0 0 < 4096 ∧ fld (getPkg (withOp (hostState 6 0x110001 0 5) 0 3) 0).jta1 1 11 = 0 ∧
    fld (getPkg (withOp (hostState 6 0x110001 0 5) 0 3) 0).jta1 52 12 = 0 ∧ (getPkg (after (.aset 0) (hostState 6 0x110001 0 5)) 0).ast.length = 2 ∧
    jta (withOp (hostState 1 5 0 5) 0 4) 0 0 < 3 ∧ (getPkg (after (.shoot 0) (hostState 1 5 0 5)) 0).busy = true ∧
    jta (withOp (hostState 9 5 0 5) 0 5) 0 0 < 4096 ∧ jta (withOp (hostState 9 5 0 5) 0 5) 0 1 / 2 ^ 12 % 2 ^ 51 = 0 ∧
    (jta (withOp (hostState 9 5 0 5) 0 5) 0 1).testBit 63 = false ∧ (jobOn (withOp (hostState 9 5 0 5) 0 5) 0 (5 % 4096)).isSome = true ∧
    (jta (withOp (hostState 9 (2 ^ 63) 0 5) 0 5) 0 1).testBit 63 = true ∧ (getPkg (after (.bind 0) (hostState 9 5 0 5)) 0).binds = [(9, 5)] ∧
    jta (withOp (hostState 5 0x200000 1 5) 0 6) 0 1 % 2 ^ 21 = 0 ∧ 0x200000 + 1 * 2 ^ 21 ≤ 2 ^ 52 ∧
    0 < jta (withOp (hostState 5 0x200000 1 5) 0 6) 0 2 ∧ (kget (getPkg (withOp (hostState 5 0x200000 1 5) 0 6) 0).grants [] 5).length < 16 ∧
    jta (withOp (hostState 5 0x200000 0 5) 0 6) 0 2 = 0 ∧ (getPkg (after (.grant 0) (hostState 5 0x200000 1 5)) 0).grants = [(5, [(0x200000, 2 ^ 21)])] := by
  decide +kernel

def hotState : State := hostState 0 0x1A0000 (2 ^ 16) 5

theorem witness_HostCommands_tables : HotreadOk (withOp hotState 0 7) 0 0 0x1A0000 (2 ^ 16) 0 1 ∧
    resultOf (after (.hotread 0) hotState) = 0 ∧
    jta (withOp (hostState (2 ^ 50 + 5 * 2 ^ 32 + 3) 0x2000 64 5) 0 8) 0 0 < 2 ^ 52 ∧ 0 < jta (withOp (hostState (2 ^ 50 + 5 * 2 ^ 32 + 3) 0x2000 64 5) 0 8) 0 2 ∧
    jta (withOp (hostState (2 ^ 50 + 5 * 2 ^ 32 + 3) 0x2000 64 5) 0 8) 0 2 ≤ 2 ^ 40 ∧ (getPkg (hostState 0 0 0 5) 0).regions.length < 4096 ∧
    (getPkg (after (.region 0) (hostState (2 ^ 50 + 5 * 2 ^ 32 + 3) 0x2000 64 5)) 0).regions.length = 1 ∧
    jta (withOp (hostState 9 0x190000 0 5) 0 9) 0 0 < 1024 ∧ jta (withOp (hostState 9 0 0 5) 0 9) 0 1 = 0 ∧
    jta (withOp (hostState 9 0x190000 0 5) 0 9) 0 1 ≠ 0 ∧
    (match physRead (withOp (hostState 9 0x190000 0 5) 0 9) 0 0x190000 64 with
      | (_, some bs) => (contextOf bs).isSome
      | _ => false) = true ∧
    (getPkg (after (.qpset 0) (hostState 9 0x190000 0 5)) 0).qps.length = 1 := by
  refine ⟨?_, by decide +kernel⟩
  unfold HotreadOk
  decide +kernel

/-- What is refused: arguments out of range, descriptors and contexts that are none, a job that is there or is not, a full table. -/
theorem witness_HostCommands_refused :
    resultOf (after (.install 0) (hostState 0x180001 0 0 5)) = 1 ∧ (physRead (withOp (hostState (2 ^ 51) 0 0 5) 0 1) 0 (2 ^ 51) 896).2 = none ∧
    resultOf (after (.install 0) (hostState (2 ^ 51) 0 0 5)) = 1 ∧ resultOf (after (.install 0) (hostState 0x190000 0 0 5)) = 2 ∧
    resultOf (after (.install 0) (hostState 0x180000 0 0 6)) = 3 ∧ jobOn (withOp (hostState 6 0 0 5) 0 2) 0 6 = none ∧
    resultOf (after (.remove 0) (hostState 6 0 0 5)) = 1 ∧ resultOf (after (.aset 0) (hostState 4096 0 0 5)) = 1 ∧
    resultOf (after (.aset 0) (hostState 6 2 0 5)) = 1 ∧ resultOf (after (.shoot 0) (hostState 3 0 0 5)) = 1 ∧ resultOf (after (.bind 0) (hostState 9 6 0 5)) = 1 ∧
    resultOf (after (.bind 0) (hostState 9 (2 ^ 12) 0 5)) = 1 ∧ resultOf (after (.grant 0) (hostState 5 1 1 5)) = 1 ∧
    resultOf (after (.grant 0) (pkgWith (fun p => { p with grants := [(5, List.replicate 16 (0, 2 ^ 21))] }) (hostState 5 0x200000 1 5))) = 4 ∧
    resultOf (after (.region 0) (hostState (2 ^ 52) 0 64 5)) = 1 ∧ resultOf (after (.qpset 0) (hostState 1024 0 0 5)) = 1 ∧
    resultOf (after (.qpset 0) (hostState 9 (2 ^ 51) 0 5)) = 1 ∧ resultOf (after (.qpset 0) (hostState 9 0x180000 0 5)) = 1 ∧
    resultOf (after (.registerWrite 0 0 (256 + 10) 0) (hostState 0 0 0 5)) = 1 := by decide +kernel

/-- A region table without room. -/
def fullRegions : State :=
  pkgWith (fun p => { p with regions := List.replicate 4096 (4, { job := 5, pd := 0, rd := true, wr := true, base := 0x2000, len := 4096 }) })
    (hostState (2 ^ 50 + 5 * 2 ^ 32 + 3) 0x2000 64 5)

/-- A HOTREAD of a source that is none, and a region table that is full. -/
theorem witness_HostCommands_full :
    (∀ src pa x first n : Nat, ¬ HotreadOk (withOp (hostState 12 0x1A0000 (2 ^ 16) 5) 0 7) 0 src pa x first n) ∧
    4096 ≤ (getPkg (withOp fullRegions 0 8) 0).regions.length ∧ kfind (getPkg (withOp fullRegions 0 8) 0).regions 3 = none ∧
    resultOf (after (.region 0) fullRegions) = 4 := by
  refine ⟨?_, by decide +kernel⟩
  intro src pa x first n h
  have e : jta (withOp (hostState 12 0x1A0000 (2 ^ 16) 5) 0 7) 0 0 = 12 := by decide +kernel
  unfold HotreadOk at h
  omega

/-- A message for core 0 with PC = 0x3000 and two arguments, and a state whose injector page 9 is bound to job 5 (02 R36). -/
def hostData : Nat := 0x3000 * 2 ^ 64 + 11 * 2 ^ 128 + 12 * 2 ^ 192
def bound (held : List HostHeld) : State := pkgWith (fun p => { p with binds := [(9, 5)], hostHeld := held }) (hostState 0 0 0 5)
def held1 : HostHeld := { core := 0, qrec := plainRec (zeroRec 5 0) }

/-- Core 0 full: a queue of 32 records of priority 0, and a deck without room. -/
def fullDeck : State :=
  setDeck (modCore (bound []) 0 (fun u => { u with q := [(0, List.replicate 32 (plainRec (zeroRec 5 0)))], deckOrder := [(0, [5])] })) 0 5 0 { head := 0, tail := 1024 }

theorem witness_HostAccesses :
    (2 + 2 ^ 8 : Nat).testBit 8 = true ∧ (2 : Nat).testBit 8 = false ∧ (getPkg (bound []) 0).busy = false ∧
    (getPkg (after (.registerWrite 0 0x008 77 0) (bound [])) 0).jta0 = 77 ∧ (getPkg (after (.registerWrite 0 0 (2 + 2 ^ 8) 0) (hostState 5 0 0 5)) 0).jobs = [] ∧
    hostTarget (bound []) 0 9 8 64 hostData = none ∧ hostTarget (bound []) 0 9 0 64 hostData = some (5, 0) ∧ (getPkg (bound []) 0).hostHeld = [] ∧
    (hostArrive (accept (bound []) 0 9) 0 (hostRec 0 5 hostData)).2 = true ∧ (getPkg (bound [held1]) 0).hostHeld = [held1] ∧ [held1] ≠ [] ∧
    ((queueOf (getCore (after (.hostActiveMessage 0 9 0 64 hostData) (bound [])) 0) 0).map (fun q => q.r.pc)) = [0x3000] ∧
    (getPkg (pkgWith (fun p => { p with quiet := [5] }) (bound [held1])) 0).quiet.contains held1.qrec.r.job = true ∧
    (getPkg (bound [held1]) 0).quiet.contains held1.qrec.r.job = false ∧
    (hostArrive (heldRest (bound [held1]) 0 []) held1.core held1.qrec.r).2 = true ∧ held1.answer = none ∧
    hasPower (bound []) 0 = true ∧ hasPower noPower 0 = false ∧ hostTarget fullDeck 0 9 0 64 hostData = some (5, 0) ∧
    (hostArrive (accept fullDeck 0 9) 0 (hostRec 0 5 hostData)).2 = false ∧ (hostArrive (heldRest fullDeck 0 []) held1.core held1.qrec.r).2 = false ∧
    (getPkg (after (.hostActiveMessage 0 9 0 64 hostData) fullDeck) 0).hostHeld.length = 1 ∧
    ({ held1 with answer := some 7 } : HostHeld).answer = some 7 ∧ (getPkg (after (.hostMessageRetry 0) (bound [{ held1 with answer := some 7 }])) 0).hostHeld = [] ∧
    0x1A0000 + 8 ≤ (getPkg (bound []) 0).hdm ∧ hasTarget (getPkg (bound []) 0) ioDie 0x1A0000 = true ∧ (getPkg (bound []) 0).hdm < 2 ^ 39 + 8 ∧
    storeBad (recallCounted (bound []) 0 (physKey 0 0x1A0000) 8) (physKey 0 0x1A0000) 8 = none ∧
    firstBad (recallCounted (bound []) 0 (physKey 0 0x1A0000) 8) (physKey 0 0x1A0000) 8 = none ∧
    homeRead (after (.hostHdmAccess 0 1 0x1A0000 8 77) (bound [])) 0x1A0000 8 = leBytes 8 77 := by decide +kernel

/-! Platform, pre-emption, plays, links, Ethernet. -/

def powerState (x : Power) (l : Lifecycle) (level : Nat) : State := pkgWith (fun p => { p with power := x, life := l, debug := level }) (withA [])

/-- Port 0's link is up. -/
def respondState : State := stateOf (withA []) (execCxlPortRecovery 0 0 (withA []))

theorem witness_PlatformEvents :
    hasPower (withA []) 0 = true ∧ hasPower (powerState .off .deployed 0) 0 = false ∧ (atCycle (2 ^ 16) (withA [])).cycle % 2 ^ 16 = 0 ∧
    (getPkg (powerState .standby .deployed 0) 0).recovery = false ∧ traceable (powerState .run .manufacture 1) 0 5 0 = true ∧
    traceable (powerState .run .deployed 1) 0 5 0 = false ∧ traceable (powerState .run .deployed 1) 0 5 1 = true ∧
    (getPkg (powerState .run .deployed 1) 0).debug = 1 ∧ (getPkg (withA []) 0).debug = 0 ∧
    1 ≤ (64 + 32 * 2 ^ 16) % 512 ∧ (64 + 32 * 2 ^ 16) / 2 ^ 16 % 512 ≤ 256 ∧
    (getPkg (after (.govctlWrite 0 (64 + 32 * 2 ^ 16)) (withA [])) 0).govc = 32 ∧ (0 : Nat) % 512 = 0 ∧
    (getPkg (after (.govctlWrite 0 0) (withA [])) 0).govc = 64 ∧ (getPkg (withA []) 0).power ≠ .off ∧
    imageGood { Pkg.reset with revoked := [0, 1, 2, 3] } 9 = false ∧ (getPkg (pkgWith (fun p => { p with recovery := true }) (withA [])) 0).recovery = true ∧
    (getPkg (withA []) 0).life = .deployed ∧ (getPkg (powerState .run .manufacture 0) 0).life ≠ .deployed ∧ 2 ≤ (getPkg (powerState .run .manufacture 2) 0).debug ∧
    (getPkg (withA []) 0).debug < 2 ∧ (getPkg (powerState .off .deployed 0) 0).power = .off ∧ (getPkg (powerState .standby .manufacture 0) 0).power = .standby ∧
    (getPkg (powerState .standby .manufacture 0) 0).life = .manufacture ∧ (getPkg (after (.fuseWrite 0 0 3) (powerState .standby .manufacture 0)) 0).revoked = [3] ∧
    (getPkg (after (.fuseWrite 0 1 8) (powerState .standby .manufacture 0)) 0).rollback = 8 ∧ (getPkg (withA []) 0).power ≠ .standby ∧
    (getPkg (powerState .standby .returned 0) 0).booted = true ∧ (getPkg (powerState .standby .returned 0) 0).recovery = false ∧
    (getPkg (after (.powerStateChange 0 2) (powerState .standby .deployed 0)) 0).power = .run ∧
    (after (.powerStateChange 0 2) (powerState .standby .returned 0)).mem = [] ∧ (getPkg (withA []) 0).power = .run ∧
    (cx (after (.powerStateChange 0 1) (atCycle 9 (withA [])))).hb = 9 ∧ spdmUp respondState 0 = true ∧
    (getPkg (after (.getVersion 0) respondState) 0).spdm = [(0, 0x04), (1, 0x13)] := by decide +kernel

def saved0 : SavedJob :=
  { entries := [], jobs := [5], cores := [], pool := [], tiles := [], groups := [], saw := [], sawWait := [], cru := [], cruWait := [], streams := [], plans := [(1, plan1)], qps := [] }
def savedState : State := pkgWith (fun p => { p with preempted := [(5, saved0)], quiet := [5] }) (withA [])
def marked (st : Status) : State := atCycle (2 ^ 20) (pkgWith (fun p => { p with spmJobs := [5] }) (base (fun c => { c with status := st })))

/-- A thread that waits for a counter to reach n, in a job whose safe-point mode is set. -/
def spmWaiting (n : Nat) : State :=
  let s := marked (.waiting (.counter (scratchKey 0 0x100)) 0 0)
  { s with ctxs := s.ctxs.map (fun c => (c.1, { c.2 with a := [(5, loc 0x100), (8, word n)], insn := some 0xE4E5400B })) }

theorem witness_PreemptionEvents :
    jobList 16 5 = [5] ∧ mayPreempt (withA [(1, 7)]) 0 [5] = true ∧ jobsQuiet (quiesce (withA [(1, 7)]) 0 [5]) 0 [5] = true ∧
    jobsQuiet (quiesce (opState (copy1 .running 0)) 0 [5]) 0 [5] = false ∧ mayPreempt (withA []) 0 (jobList 16 6) = false ∧
    kfind (getPkg savedState 0).preempted 5 = some saved0 ∧ (savedWith savedState 0 saved0).any (placeTaken savedState 0) = false ∧
    (getPkg (after (.restoration 0 5) savedState) 0).quiet = [] ∧
    (savedWith (withPlan savedState) 0 saved0).any (placeTaken (withPlan savedState) 0) = true ∧ (jobOn (withA []) 0 5).isSome ∧
    (getPkg (marked .running) (corePkg (ctxCore 0))).spmJobs.contains 5 = true ∧ (getCtx (marked .running) 0).spMark + 2 ^ 20 ≤ (marked .running).cycle ∧
    (getCtx (marked .running) 0).status = .running ∧ (getPkg (after (.safePointTimeout 0) (marked .running)) 0).safe.length = 1 ∧
    requestReady (marked .running) 0 = false ∧ requestReady (spmWaiting 1) 0 = false ∧ requestReady (spmWaiting 0) 0 = true ∧
    (getPkg (spmWaiting 0) 0).spmJobs.contains 5 = true ∧ (getCtx (performWaiting (spmWaiting 0) 0) 0).status = .running ∧
    (getCtx (performWaiting { bare (spmWaiting 0) with ctxs := (spmWaiting 0).ctxs.map (fun c => (c.1, { c.2 with pc := word (2 ^ 48 - 4) })) } 0) 0).status = .dormant ∧
    (getCtx (marked (.faulting fault1 0)) 0).status = .faulting fault1 0 ∧ (getCore (after (.safePointModeSet 0 5) (withA [])) 0).spm = true ∧
    (getCore (after (.safePointRelease 0 5) (after (.safePointModeSet 0 5) (withA []))) 0).spm = false := by
  refine ⟨?_, ?_, ?_, ?_, ?_, ?_, ?_, ?_, ?_, ?_, ?_, ?_, ?_, ?_, ?_, ?_, ?_, ?_, ?_, ?_⟩ <;> decide +kernel

/-- A pre-emption that waits for started work, and one that can end. -/
def preempting1 (s : State) : State := pkgWith (fun p => { p with preempting := [[5]] }) s

theorem witness_endPreemption :
    (getPkg (after (.preEmption 0 5) (opState (copy1 .running 0))) 0).preempting = [[5]] ∧ mayPreempt (preempting1 (withA [])) 0 [5] = true ∧
    jobsQuiet (quiesce (preempting1 (withA [])) 0 [5]) 0 [5] = true ∧
    jobsQuiet (quiesce (preempting1 (opState (copy1 .running 0))) 0 [5]) 0 [5] = false ∧
    (getPkg (endPreemption (preempting1 (withA [])) 0) 0).preempted.length = 1 ∧ (getPkg (endPreemption (preempting1 (withA [])) 0) 0).preempting = [] := by
  decide +kernel

/-- 17 R395-R398: a pre-empted job's thread leaves its context, and restoration brings it back with its registers. -/
theorem test_preemption :
    (cx (after (.preEmption 0 5) (withA [(1, 7)]))).status = .dormant ∧ (getPkg (after (.preEmption 0 5) (withA [(1, 7)])) 0).preempted.length = 1 ∧
    (cx (after (.restoration 0 5) (after (.preEmption 0 5) (withA [(1, 7)])))).status = .running ∧
    aAfter (.restoration 0 5) (after (.preEmption 0 5) (withA [(1, 7)])) 1 = 7 := by decide +kernel

/-- A play of one member and chunk: a reduction of 8 bytes from 0x400 to 0x800. -/
def chunk1 (waitc : Nat) : Chunk :=
  { kind := 1, op := 0, fmt := 0, srcb := 0, dstb := 1, waitc := waitc, sigc := 0, bytes := 8, sofs := 0, dofs := 0, waitn := 2 }
def play1 (n waitc : Nat) (x : ChunkState) : Play :=
  { slot := 1, job := 5, plan := { plan1 with nctr := 1, chunks := List.replicate n (chunk1 waitc) },
    joined := [{ pkg := 0, core := 0, op := 3, bases := [loc 0x400, loc 0x800], began := true, gone := false, done := false }], ctrs := [], chunks := [(0, x)],
    pushed := [], result := [], wrote := [], cut := [], cause := 0, ended := false, torn := [] }
def fresh1 : ChunkState := { started := false, startedAt := 0, finished := false, alt := false, edges := none, held := none }
def begun1 (alt : Bool) : ChunkState := { started := true, startedAt := 0, finished := false, alt := alt, edges := some [], held := none }
/-- The root keeps the chunk's result. -/
def kept1 : ChunkState := { begun1 false with held := some [(0, leBytes 8 77)] }
/-- The chunk's tree has an edge that no route carries. -/
def broken1 : ChunkState := { begun1 false with edges := none }
def playing (n waitc : Nat) (x : ChunkState) : State := { poke (withA []) 0x400 77 with plays := [play1 n waitc x] }

/-- The play with another destination of its member. -/
def withBase (s : State) (va : Word) : State :=
  { s with plays := s.plays.map (fun y => { y with joined := y.joined.map (fun j => { j with bases := [loc 0x400, va] }) }) }

theorem witness_PlayEvents :
    (playing 1 0xFF fresh1).plays[0]? = some (play1 1 0xFF fresh1) ∧ (play1 1 0xFF fresh1).ended = false ∧ chunkState (play1 1 0xFF fresh1) 0 = fresh1 ∧
    (play1 1 0xFF fresh1).plan.chunks[0]? = some (chunk1 0xFF) ∧ allBegan (play1 1 0xFF fresh1) = true ∧ contributed (play1 1 0xFF fresh1) (chunk1 0xFF) false = true ∧
    kget (play1 1 0 fresh1).ctrs 0 (chunk1 0).waitc < (chunk1 0).waitn ∧ chunkState (play1 1 0xFF (begun1 false)) 0 = begun1 false ∧
    (match readContribs (playing 1 0xFF (begun1 false)) (play1 1 0xFF (begun1 false)) (chunk1 0xFF) (contributors (play1 1 0xFF (begun1 false)) (chunk1 0xFF) false) with
      | (_, .ok got) => chunkHeld (play1 1 0xFF (begun1 false)) (chunk1 0xFF) false got == [(0, leBytes 8 77)]
      | _ => false) = true ∧
    (let t := delivered (playing 1 0xFF kept1) 0 0 (chunk1 0xFF) false [(0, leBytes 8 77)] (receivers (play1 1 0xFF kept1) (chunk1 0xFF) false)
     (t.plays[0]?).any (fun z => (receivers z (chunk1 0xFF) false).all (fun m => z.wrote.contains (0, m)))) = true ∧
    (let t := delivered (withBase (playing 1 0xFF kept1) 0x9000) 0 0 (chunk1 0xFF) false [(0, leBytes 8 77)] (receivers (play1 1 0xFF kept1) (chunk1 0xFF) false)
     (t.plays[0]?).any (fun z => (receivers z (chunk1 0xFF) false).any (fun m => !z.wrote.contains (0, m)))) = true ∧
    (begun1 false).edges ≠ none ∧ broken1.edges = none ∧
    (play1 1 0xFF (begun1 false)).plan.chunks.length = 1 ∧ (chunkState (play1 2 0xFF (begun1 false)) 1).finished = false ∧
    (playing 1 0xFF (begun1 false)).cycle < (begun1 false).startedAt + 2 ^ 20 ∧ (play1 1 0xFF { begun1 false with finished := true }).ended = false ∧
    (begun1 false).startedAt + 2 ^ 20 ≤ (atCycle (2 ^ 20) (playing 1 0xFF (begun1 false))).cycle ∧
    mayAbort (atCycle (2 ^ 20) (playing 1 0xFF (begun1 true))) (play1 1 0xFF (begun1 true)) 1 = true ∧
    mayAbort (playing 1 0xFF fresh1) (play1 1 0xFF fresh1) 1 = false := by decide +kernel

/-- 11 R305, 13 R360, 19 R433: the root keeps the chunk's result; its bytes reach the receiver, and its counter rises. -/
def chunkDone : State :=
  let s := playing 1 0xFF (begun1 false)
  stateOf s (execChunkCompletion 0 0 (stateOf s (execChunkCompletion 0 0 s)))
theorem test_chunk :
    cellsRead chunkDone.mem (scratchKey 0 0x800) 8 = leBytes 8 77 ∧ (chunkDone.plays.map (fun y => (y.ended, y.ctrs))) = [(true, [(0, 1)])] := by
  decide +kernel

def upLink (keys : List Nat) : State :=
  pkgWith (fun p => { p with links := keys.map (fun k => (k, { Link.reset with up := true })) }) (withA [])
def awayState : State := atCycle (2 ^ 22) (pkgWith (fun p => { p with unreachable := [1] })
  { sent1 id (msg1 [] 1 8192) (pkt 0 0) with stores := [pend1 true], ctxs := [(0, { baseCtx with status := .waiting (.away 77) 0 0 })] })

theorem witness_LinkEvents :
    (getLink (after (.linkRetransmission 0 3) (upLink [3])) 0 3).retry = 1 ∧
    hasPower (upLink [3]) 0 = true ∧ 16 ≤ kget (getLink (pkgWith (fun p => { p with links := [(3, { Link.reset with up := true, run := [(1, 16)] })] }) (withA [])) 0 3).run 0 1 ∧
    kget (getLink (upLink [3]) 0 3).run 0 1 < 16 ∧ (getLink (after (.laneDisable 0 3 1) (upLink [3])) 0 3).degr = true ∧
    (getCtx awayState 0).status = .waiting (.away 77) 0 0 ∧ 0 + 2 ^ 22 ≤ awayState.cycle ∧ (atCycle 3 awayState).cycle < 0 + 2 ^ 22 ∧
    awayState.stores[0]? = some (pend1 true) ∧ awayStore awayState (pend1 true) = true ∧ (pend1 true).since + 2 ^ 22 ≤ awayState.cycle ∧
    heldMsg awayState 0 7 = some (msg1 [] 1 8192) ∧ (msg1 [] 1 8192).left ≠ 0 ∧ (getPkg awayState 0).unreachable.contains (corePkg 8192) = true ∧
    (msg1 [] 1 8192).sent + 2 ^ 22 ≤ awayState.cycle ∧ (getCtx (after (.unreachableTimeout 0 0) (bare { awayState with stores := [] })) 0).status = .dormant ∧
    (getLink (upLink [ucieKey 4]) 0 (ucieKey 4)).up = true ∧ (getLink (after (.ucieLaneRepair 0 4) (upLink [ucieKey 4])) 0 (ucieKey 4)).degr = true ∧
    (ucieDies 4).filter (dieAlone (dropLink (upLink ((List.range 10).map ucieKey)) 0 (ucieKey 4)) 0) = [] ∧
    (ucieDies 4).filter (dieAlone (dropLink (upLink [ucieKey 4]) 0 (ucieKey 4)) 0) ≠ [] ∧
    (getPkg (after (.ucieLinkDown 0 4) (upLink [ucieKey 4])) 0).isolated = [0, 1] ∧ portUp (getPkg (after (.cxlPortRecovery 0 2) (withA [])) 0) 2 = true ∧
    portUp (getPkg (after (.cxlPortFailure 0 2 1) (after (.cxlPortRecovery 0 2) (withA []))) 0) 2 = false := by decide +kernel

def work1 (reached : Bool) : WorkEntry :=
  { key := 4, addr := 0x2000, len := 64, wrid := 9, cnt := 0, imm := 0, iv := false, core := 0, reached := reached }
def region1 : Region := { job := 5, pd := 0, rd := true, wr := true, base := 0x2000, len := 4096 }
def etherQ (f : QueuePair → QueuePair) : QueuePair := f { qp1 with mtu := 1024 }
def ether (keys : List Nat) (regions : KMap Region) (f : QueuePair → QueuePair) : State :=
  pkgWith (fun p => { p with regions := regions, qps := [(9, etherQ f)] }) (upLink keys)
def sends1 (reached : Bool) (q : QueuePair) : QueuePair := { q with sends := [work1 reached] }
def recvs1 (reached : Bool) (q : QueuePair) : QueuePair := { q with recvs := [work1 reached] }
def failed1 (q : QueuePair) : QueuePair := { sends1 false q with err := true }
def etherUp (f : QueuePair → QueuePair) : State := ether [ethKey 0] [(4, region1)] f

theorem witness_EthernetEvents :
    getQp (etherUp (sends1 false)) 0 9 = some (etherQ (sends1 false)) ∧ (etherQ (sends1 false)).sends = work1 false :: [] ∧
    (getPkg (etherUp (sends1 false)) 0).quiet.contains 5 = false ∧ (etherQ failed1).err = true ∧ (etherQ failed1).sends = work1 false :: [] ∧
    (getLink (ether [] [] (sends1 false)) 0 (ethKey 0)).up = false ∧ (getLink (etherUp (sends1 false)) 0 (ethKey 0)).up = true ∧
    regionOk (getPkg (ether [ethKey 0] [] (sends1 false)) 0) (etherQ (sends1 false)) (work1 false) true = false ∧
    regionOk (getPkg (etherUp (sends1 false)) 0) (etherQ (sends1 false)) (work1 false) true = true ∧
    donePair (engineRead (etherUp (sends1 false)) (ethWho (etherQ (sends1 false)) (work1 false)) (ethId 9 true) [(0x2000, 64)]) = true ∧
    (etherQ (recvs1 false)).recvs = work1 false :: [] ∧ regionOk (getPkg (etherUp (recvs1 false)) 0) (etherQ (recvs1 false)) (work1 false) false = true ∧
    getQp (reachEntry (etherUp (recvs1 true)) 0 9 false (8, 0, false)) 0 9 = some (etherQ (recvs1 true)) ∧ (etherQ (recvs1 true)).recvs = work1 true :: [] ∧
    donePair (engineWrite (reachEntry (etherUp (recvs1 true)) 0 9 false (8, 0, false)) (ethWho (etherQ (recvs1 true)) (work1 true)) (ethId 9 false) [(0x2000, leBytes (min 8 64) 77)]) = true ∧
    sentHead (etherUp (sends1 true)) 0 9 = some (etherQ (sends1 true), work1 true) ∧ (etherUp (sends1 true)).cycle < (etherQ (sends1 true)).rnrAt + 128000 ∧
    (etherQ (sends1 true)).rnrAt + 128000 ≤ (atCycle 128000 (etherUp (sends1 true))).cycle ∧ (etherQ (sends1 true)).rnr < 7 ∧
    7 ≤ (etherQ (fun q => { sends1 true q with rnr := 7 })).rnr := by decide +kernel

/-- 13 R361-R363: a received message of 8 bytes is written and completed; a port that goes down ends its queue pairs. -/
theorem test_ethernet :
    homeRead (after (.ethReceive 0 9 8 77 0 0) (etherUp (recvs1 true))) 0x106000 8 = leBytes 8 77 ∧
    ((getPkg (after (.ethReceive 0 9 8 77 0 0) (etherUp (recvs1 true))) 0).cqs.map (fun e => (e.1, e.2.map (fun x => (x.bytes, x.st))))) = [(2, [(8, 0)])] ∧
    ((getPkg (after (.ethSendCompletion 0 9) (etherUp (sends1 true))) 0).cqs.map (fun e => (e.1, e.2.map (fun x => (x.wrid, x.st))))) = [(2, [(9, 0)])] ∧
    ((getPkg (after (.ethPortDown 0 0) (etherUp (sends1 true))) 0).qps.map (fun e => e.2.err)) = [true] ∧
    ((getPkg (after (.workEntryReached 0 9 1) (after (.ethPortDown 0 0) (etherUp (sends1 false)))) 0).cqs.map (fun e => (e.1, e.2.map (fun x => (x.wrid, x.st))))) = [(2, [(9, 3)])] := by decide +kernel

/-! The waits and traps beside the completions. A thread at 2^48 - 4 has no next address that a fetch can use. -/

/-- The thread at the last word of the address space. -/
def lastWord (s : State) : State := modCx s (fun c => { c with pc := word (2 ^ 48 - 4) })

/-- A wait whose next address is good, and one whose next address traps first. -/
theorem witness_waits :
    badTarget (nextPc (withA []) (withA [])) = false ∧ waitsOn .wfe (withA []) (.event 0) ∧
    badTarget (nextPc (lastWord (withA [])) (lastWord (withA []))) = true ∧ (cx (lastWord (withA []))).event = false ∧ left .wfe (lastWord (withA [])) ∧
    (lastWord mem1).full.contains (scratchKey 0 0x100) = false ∧ left (.ldfTake 4 1) (lastWord mem1) := by decide +kernel

theorem witness_full_empty_waits :
    (let s := setFull mem1 (scratchKey 0 0x100) true
     unacked s s.cur = none ∧ (releaseWaits s s.cur).full.contains (scratchKey 0 0x100) = true ∧ waitsOn (.ste 1 2) s (.dword (scratchKey 0 0x100) false)) ∧
    scratchObj (away mem1) (thr (away mem1)) (regA (away mem1) 1) 8 cFullEmpty = .key (scratchKey 0 0x100) ∧
    firstBad (away mem1) (scratchKey 0 0x100) 8 = none ∧ (unacked (away mem1) (away mem1).cur).isSome = true ∧ waitsOn (.ste 1 2) (away mem1) (.acks 0) := by
  decide +kernel

theorem witness_atomic_traps :
    (regA (withA [(1, loc 0x102)]) 1).toNat % 2 ^ 2 ≠ 0 ∧ (regA (withA [(1, loc 0x102)]) 1).toNat % 4 ≠ 0 ∧
    left (.aswp 4 1 2 2) (withA [(1, loc 0x102)]) ∧ left (.aupd 1 2 0 0 3) (withA [(1, loc 0x102)]) := by decide +kernel

theorem witness_tag_traps :
    arithTags (regV vec 8).tag = false ∧ left (.vadd 9 8 2 0) vec ∧ sameFormat (regV vec 1) (regV vec 7) = false ∧ left (.vadd 9 1 7 0) vec ∧
    sameFormat (regV vec 1) (regV vec 4) = false ∧ left (.vfma 4 1 2 0) vec ∧ signTags (regV vec 6).tag = false ∧ left (.vabs 9 6 0) vec ∧
    floatTags (regV vec 1).tag = false ∧ left (.vrcp 9 1 0) vec := by decide +kernel

/-- The record of group 0 of the sender's job fails its check. -/
def failedGroup : State := { setGroup sender 0 5 0 (grp 0 0) with bad := [markOf 0 5 0] }

theorem witness_sendm_to_a_failed_record :
    groupFails sender 0 = false ∧ (routeSet failedGroup 0 5 2 (regA failedGroup 1)).isSome ∧
    (sendReady failedGroup (regA failedGroup 2) (fld (regA failedGroup 1) 32 13)).any (fun r => groupFails r.1 (fld (regA failedGroup 1) 0 16)) = true ∧
    ran (.sendm 1 2 2 0 7) failedGroup ∧ (after (.sendm 1 2 2 0 7) failedGroup).net = [] ∧
    getGroup (after (.sendm 1 2 2 0 7) failedGroup) 0 5 0 = none := by decide +kernel

/-- A record in entry 0 of job 5's fault ring, with a frame or without one. -/
def entryState (ff : Bool) : State := memWrite (withA [(1, 0x42000), (4, 0)]) 0x107000 (recBytes { zeroRec 5 0 with ff := ff, fc := false })

theorem witness_resume_of_an_entry :
    entryIndex baseJob 0x42000 = some 0 ∧ (recOf (homeRead (entryState true) 0x107000 64)).ff = true ∧
    (recOf (homeRead (entryState false) 0x107000 64)).ff = false ∧ aAfter (.resume 5 1 4) (entryState true) 5 = 1 ∧
    (recallLines (settleBytes (entryState false) 0x107060 8) 0x107060 8).2 = none ∧ firstBad (entryState false) 0x107060 8 = none ∧
    aAfter (.resume 5 1 4) (entryState false) 5 = 1 ∧ homeRead (after (.resume 5 1 4) (entryState false)) 0x107000 8 = leBytes 8 0 := by decide +kernel

/-- A position and a slot state that cannot be read. -/
theorem witness_ring_traps :
    (let r : Ring := { key := scratchKey 0 0x2000, ns := 3, size := 64, cmask := 3 }
     (let s := { ringState 1 1 0 with bad := [scratchKey 0 0x2040] }
      (firstBad s (r.posKey 0) 8).isSome = true ∧ firstBad s r.key 64 = none ∧ left (.rtake 4 1 3) s) ∧
     (let s := { ringState 1 0 0 with bad := [scratchKey 0 0x2080] }
      ((putReads s r 0).findSome? (fun j => firstBad s (r.stateKey j) 2)).isSome = true ∧ slotReserved s r 0 = true ∧ left (.rput 1 2) s) ∧
     (putReads (ringState 1 0 0) r 0).findSome? (fun j => firstBad (ringState 1 0 0) (r.stateKey j) 2) = none ∧
     (freeReads (ringState 1 1 3) r 0 0).findSome? (fun j => firstBad (ringState 1 1 3) (r.stateKey j) 2) = none ∧
     firstBad (ringState 1 1 0) (r.posKey 0) 8 = none) := by decide +kernel

/-- A GBAR whose Ad is its Ab: it waits with its group's number, and returns the phase (09 R234). -/
theorem witness_gbar_of_one_register :
    (let s := groupState { grp 0 0 with members := (grp 0 0).members ++ otherMember.members }
     (cx s).status = .running ∧ waitsOn (.gbar 1 1) s (.group 0 5 7 0) ∧ gbarNum (after (.gbar 1 1) s) 1 = 7) ∧
    (let s := modCx { groupState { grp 0 1 with dones := [(0, 5)] } with cycle := 2 ^ 20 } (fun c => { c with status := .waiting (.group 0 5 7 0) 3 0 })
     gbarNum s 2 = 7 ∧ ran (.gbar 2 2) s ∧ aAfter (.gbar 2 2) s 2 = 0) := by decide +kernel

/-- Sixteen operations in one engine's waiting room. -/
def crowdedRoom (unit : Nat) (s : State) : State := modCore s 0 (fun u => { u with ops := List.replicate 16 (someOp unit .waiting [] 0 0) })

theorem witness_engine_waits :
    waitsOn (.ecopy 1 2 0) (crowdedRoom 0 (eng copyRegs [])) (.engineRoom 0 0) ∧
    waitsOn (.egath 1 2 0 7) (crowdedRoom 1 (eng [(0, 8 + 2 ^ 16)] [])) (.engineRoom 0 1) ∧
    waitsOn (.escat 1 2 0 3) (crowdedRoom 1 (eng [(0, 8 + 2 ^ 16)] [])) (.engineRoom 0 1) ∧
    waitsOn (.enear 1 2 0) (crowdedRoom 2 (eng [(6, 256)] [])) (.engineRoom 0 2) ∧
    waitsOn (.qplay 1 0) (crowdedRoom 4 (withPlan (eng [(8, loc 0x100), (9, loc 0x200)] [(1, 1)]))) (.engineRoom 0 4) ∧
    waitsOn (.eqry 1 0) (crowdedRoom 3 (eng [(0, 2 ^ 16)] [])) (.engineRoom 0 3) ∧
    waitsOn (.qload 1 2 0) (crowdedRoom 4 (eng [] [(1, loc 0x100), (2, 63)])) (.engineRoom 0 4) ∧
    waitsOn (.ebind 0 2 0) (crowdedRoom 2 (eng [(6, 64), (7, 64)] [(2, 0x2000)])) (.engineRoom 0 2) := by decide +kernel

/-- Registers that no operation accepts: a control word of ones, and a status address that is not aligned. -/
theorem witness_engine_traps :
    (engSets (eng [] []) 0 4).any (fun l => !copyOk l) = true ∧ left (.ecopy 1 2 0) (eng [] []) ∧ left (.ecopy 1 2 0) (eng ((4, 8) :: copyRegs) []) ∧
    (engSets (eng [(0, -1)] []) 0 2).any (fun l => !gatherOk 0 false l && !gatherOk 0 true l && !nearOk 0 0 l && l.getD 0 0 != 0) = true ∧
    left (.egath 1 2 0 0) (eng [(0, -1)] []) ∧ left (.qplay 1 0) (eng [(0, -1)] []) ∧
    (engSets (eng [(0, -1)] []) 0 1).any (fun l => !queryOk 0 l && !bindOk 0 0 l && l.getD 0 0 != 0) = true ∧ left (.eqry 1 0) (eng [(0, -1)] []) ∧
    left (.migr 1 2 0) (eng [(0, -1)] []) ∧ left (.ebind 1 2 0) (eng [(0, -1)] []) ∧ engSets (withA []) 0 4 = none ∧ left (.ecopy 1 2 0) (withA []) ∧
    engSets (withA []) 0 2 = none ∧ engSets (withA []) 0 1 = none := by decide +kernel

theorem witness_matrix_traps :
    loadCtlOk (regA (eng [] sawRegs) 9) false = false ∧ loadCtlOk (regA (eng [] sawRegs) 9) true = false ∧ left (.mlda 1 9) (eng [] sawRegs) ∧
    panelKey (eng [] sawRegs) (thr (eng [] sawRegs)) 6 128 (loc 0x1001) = none ∧ left (.mlda 10 3) (setA (eng [] sawRegs) 10 (loc 0x1001)) ∧
    ctlCheck (regA (eng [] sawRegs) 9) true = .operand ∧ left (.mpost 9 6) (eng [] sawRegs) ∧
    ctlCheck (word (16 + 8 * 2 ^ 7 + 2 ^ 11 + 6 * 2 ^ 14 + 2 ^ 31)) true = .tags ∧ ctlCheck (word (16 + 8 * 2 ^ 7 + 2 ^ 11 + 6 * 2 ^ 14)) false = .tags ∧
    ctlCheck 0 false = .operand ∧ left (.mop 6 7 0) (eng [] sawRegs) ∧ left (.mop 6 7 0) (eng [(0, ctl1), (5, 1)] sawRegs) ∧
    fld (16 : Word) 4 60 ≠ 0 ∧ left (.mst 8 9 0) (eng [(0, 16)] sawRegs) ∧ left (.mopm 6 7 0 0) (eng [(0, ctl1), (7, 1)] sawRegs) ∧
    fld (word (2 ^ 12)) 12 52 ≠ 0 ∧ left (.mrd 10 11 1) (setA (eng [] sawRegs) 11 (2 ^ 12)) ∧
    scalesOk (List.replicate 128 0xFF) = false ∧
    left (.mscale 8 0 1 1) (memWrite (eng [] sawRegs) (scratchKey 0 0x2000) (List.replicate 128 0xFF)) := by decide +kernel

theorem witness_blaze_traps :
    geoOk (-1) = false ∧ left (.cruise 1 2 0) (eng [(0, -1)] [(1, loc 0x1000)]) ∧ (loc 0x1001).toNat % 64 ≠ 0 ∧ (loc 0x1001).toNat % 32 ≠ 0 ∧
    left (.blaze 4 3 0 2) (setA blazing 4 (loc 0x1001)) ∧ fld (0 : Word) 0 8 = 0 ∧ left (.blaze 1 0 0 2) blazing ∧ left (.blzmovLoad 1 0 2) blazing ∧
    256 ≤ (regA blazing 3).toNat ∧ maskDesc blazing 0 = 0 ∧ left (.blzmovStore 1 0) blazing ∧ left (.blzmov 0 3) blazing ∧ left (.blzmovAnd 0 1) blazing ∧
    maskDesc (withB blazing) 0 ≠ maskDesc (withB blazing) 3 ∧ left (.blzpop 6 5 0) blazing ∧ fld (word 32) 5 59 ≠ 0 ∧
    maskDesc (withB blazing) 0 % 16 < fld (2 : Word) 0 4 ∧ (2 : Word).getLsbD 4 = false ∧ left (.blzpop 6 10 0) (setA (withB blazing) 10 2) := by
  decide +kernel

/-- A live map that the table does not hold; a source register that cannot be read; a frame that meets one, in a trap that another such register caused. -/
theorem witness_more_traps :
    (getCore safeState 0).lmapn.toNat ≤ 2 ∧ left (.safept 2) safeState ∧
    (let s := base (fun c => { c with badRegs := [vMark 3 0, 2] })
     [rA 1].any (regBad (cx s)) = false ∧ regBad (cx s) (rA 2) = true ∧ underWay s = false ∧ left (.add 3 1 2) s ∧
     (match spill (releaseWaits s 0) 0 (getCtx s 0) with
      | (_, .corrupt _ _) => true
      | _ => false) = true) := by decide +kernel

/-- The first of two records that are due has a full deck; the other is of another job, and moves. -/
def aging : State :=
  let s := pkgWith (fun p => { p with jobs := (6, { job1 with deck := 0x3000 }) :: p.jobs })
    (atCycle 5000 (idle (fun u => { u with q := [(1, List.replicate 32 (plainRec (zeroRec 5 1))), (2, [q1 2 0 none, { q1 2 0 none with r := zeroRec 6 2 }])] })))
  setDeck s 0 5 1 { head := 0, tail := 1024 }

theorem witness_aging_passes_a_full_deck :
    (agedMove aging 0 2 0).isNone = true ∧ overdue aging 0 2 (q1 2 0 none) = true := by decide +kernel

/-- A host read of bytes that fail their check; a chunk whose one member does not run. -/
theorem witness_host_and_chunk :
    firstBad (recallCounted { bound [] with bad := [physKey 0 0x1A0000] } 0 (physKey 0 0x1A0000) 8) (physKey 0 0x1A0000) 8 = some (physKey 0 0x1A0000) ∧
    (getPkg (after (.hostHdmAccess 0 0 0x1A0000 8 0) (after (.hostHdmAccess 0 1 0x1A0000 8 77) (bound []))) 0).hdmRead = some 77 ∧
    powered (bound []) 0 = true ∧ powered noPower 0 = false ∧
    (∀ m ∈ rootOf (play1 1 0xFF (begun1 false)) false :: contributors (play1 1 0xFF (begun1 false)) (chunk1 0xFF) false,
      powered (playing 1 0xFF (begun1 false)) (memberPkg (play1 1 0xFF (begun1 false)) m) = true) ∧
    (let s := pkgWith (fun p => { p with power := .standby }) (playing 1 0xFF (begun1 false))
     ∃ m ∈ rootOf (play1 1 0xFF (begun1 false)) false :: contributors (play1 1 0xFF (begun1 false)) (chunk1 0xFF) false,
      powered s (memberPkg (play1 1 0xFF (begun1 false)) m) = false) := by decide +kernel

end Sys2Proof.Machine
end

/-! PROOFS of the family 05_formats: the order of the zeros (05 R120). The two zeros compare equal as exact values (05 R116), so the minimum and the
maximum choose between them by their bit patterns, and −0.0 has the larger one. -/

namespace Sys2Proof.Machine

open Sys2Proof

/-! ## The formats of the floating-point tags (05 R140) -/

theorem isFloatTag_iff (t : Nat) : isFloatTag t = true ↔ t = 5 ∨ t = 6 ∨ t = 7 := by
  simp [isFloatTag, or_assoc]

theorem fmtOf_eb_pos (t : Nat) : 0 < (fmtOf t).eb := by
  unfold fmtOf
  split
  · decide
  · split <;> decide

/-- The sign is the topmost bit of a floating-point element: it stands above the exponent and the fraction. -/
theorem tagWidth_sub_one_of_float {t : Nat} (ht : isFloatTag t = true) : tagWidth t - 1 = (fmtOf t).eb + (fmtOf t).mb := by
  obtain rfl | rfl | rfl := (isFloatTag_iff t).1 ht <;> rfl

theorem signBit_of_float {t : Nat} (ht : isFloatTag t = true) : signBit (fmtOf t) true = 2 ^ (tagWidth t - 1) := by
  simp [signBit, tagWidth_sub_one_of_float ht]

/-! ## The zeros as exact values (05 R116) -/

theorem Fmt.top_ne_zero {f : Fmt} (hf : 0 < f.eb) : f.top ≠ 0 := by
  have h : 1 < 2 ^ f.eb := Nat.one_lt_two_pow hf.ne'
  unfold Fmt.top
  omega

/-- Exponent and fraction fields of zero make a zero of the sign bit's sign, at the subnormals' unit. -/
theorem unpack_signBit {f : Fmt} (hf : 0 < f.eb) (neg : Bool) : unpack f (signBit f neg) = .fin neg 0 (1 - (f.bias : Int) - f.mb) := by
  have hex : signBit f neg / 2 ^ f.mb % 2 ^ f.eb = 0 := by
    cases neg
    · simp [signBit]
    · simp [signBit, pow_add]
  have hfr : signBit f neg % 2 ^ f.mb = 0 := by
    cases neg
    · simp [signBit]
    · simp [signBit, pow_add]
  have hneg : (signBit f neg / 2 ^ (f.eb + f.mb) % 2 == 1) = neg := by
    cases neg
    · simp [signBit]
    · simp [signBit, Nat.div_self]
  simp [unpack, hex, hfr, hneg, (Fmt.top_ne_zero hf).symm]

theorem fcmp_zeros (a b : Bool) (e d : Int) : fcmp (.fin a 0 e) (.fin b 0 d) = some .eq := by
  simp [fcmp, alignTo]

theorem fcmp_signBits {f : Fmt} (hf : 0 < f.eb) (a b : Bool) : fcmp (unpack f (signBit f a)) (unpack f (signBit f b)) = some .eq := by
  rw [unpack_signBit hf, unpack_signBit hf, fcmp_zeros]

/-! ## The minimum and the maximum of values that compare equal -/

theorem fminmax_false_of_eq {f : Fmt} {x y : Nat} (h : fcmp (unpack f x) (unpack f y) = some .eq) : (fminmax f false x y).1 = max x y := by
  simp only [fminmax, h, Bool.false_eq_true, if_false]
  split <;> omega

theorem fminmax_true_of_eq {f : Fmt} {x y : Nat} (h : fcmp (unpack f x) (unpack f y) = some .eq) : (fminmax f true x y).1 = min x y := by
  simp only [fminmax, h, if_true]
  split <;> omega

/-- A minimum of two zeros is −0.0 when one of them is. -/
theorem fminmax_false_signBit {f : Fmt} (hf : 0 < f.eb) (a b : Bool) : (fminmax f false (signBit f a) (signBit f b)).1 = signBit f (a || b) := by
  rw [fminmax_false_of_eq (fcmp_signBits hf a b)]
  cases a <;> cases b <;> simp [signBit]

/-- A maximum of two zeros is −0.0 only when both of them are. -/
theorem fminmax_true_signBit {f : Fmt} (hf : 0 < f.eb) (a b : Bool) : (fminmax f true (signBit f a) (signBit f b)).1 = signBit f (a && b) := by
  rw [fminmax_true_of_eq (fcmp_signBits hf a b)]
  cases a <;> cases b <;> simp [signBit]

/-! ## The operations that take a minimum or a maximum -/

theorem minElem_of_float {t : Nat} (ht : isFloatTag t = true) (x y : Nat) : minElem t x y = fminmax (fmtOf t) false x y := by
  simp [minElem, ht]

theorem maxElem_of_float {t : Nat} (ht : isFloatTag t = true) (x y : Nat) : maxElem t x y = fminmax (fmtOf t) true x y := by
  simp [maxElem, ht]

theorem opBits_one_of_float {t : Nat} (ht : isFloatTag t = true) (x y : Nat) : opBits 1 t x y = fminmax (fmtOf t) false x y := by
  simp [opBits, ht]

theorem opBits_two_of_float {t : Nat} (ht : isFloatTag t = true) (x y : Nat) : opBits 2 t x y = fminmax (fmtOf t) true x y := by
  simp [opBits, ht]

/-- Settles O60: all four operations are the one minimum or maximum of the format, whose value on two zeros is known for each pair of signs. -/
theorem zeroOrder : Obligations.ZeroOrder := by
  intro t ht
  have hmin := fminmax_false_signBit (fmtOf_eb_pos t)
  have hmax := fminmax_true_signBit (fmtOf_eb_pos t)
  have hpos : signBit (fmtOf t) false = 0 := rfl
  rw [minElem_of_float ht, minElem_of_float ht, maxElem_of_float ht, maxElem_of_float ht, opBits_one_of_float ht, opBits_one_of_float ht,
    opBits_two_of_float ht, opBits_two_of_float ht, ← signBit_of_float ht, ← hpos]
  exact ⟨hmin true false, hmin false true, hmax true false, hmax false true,
    hmin true false, hmin false true, hmax true false, hmax false true⟩

end Sys2Proof.Machine

/-! PROOFS of the family 07_isa_scalar: the results of the divisions (07 R186). Each of the four is an operation of two sources, so it completes with what
its function of the two words gives; what remains is the value of that function in the cases of R186. -/

namespace Sys2Proof.Machine

open Sys2Proof

/-! ## Operations of two sources -/

/-- Where the checks of the loop levels lead: to what level 1 answers, else to what level 0 answers, else to t (02 R63). -/
theorem loopEnd_snd (c : Ctx) (pc t : Word) : (loopEnd c pc t).2 = ((levelEnd c.l1 pc).2.or (levelEnd c.l0 pc).2).getD t := by
  unfold loopEnd
  split
  · next h1 => rw [h1]; rfl
  · next h1 =>
    split
    · next h0 => rw [h1, h0]; rfl
    · next h0 => rw [h1, h0]; rfl

/-- A write of Ad leaves the loop levels and the PC, so it does not change where the thread goes on. -/
theorem nextPc_setA (s t : State) (d : Nat) (v : Word) : nextPc s (setA t d v) = nextPc s t := by
  simp only [nextPc, loopEnd_snd, cx_setA_l0, cx_setA_l1]

theorem goes_setA_iff (s t : State) (d : Nat) (v : Word) : Goes s (setA t d v) ↔ Goes s t := by
  simp only [Goes, nextPc_setA]

/-- An operation of two sources writes its function of them to Ad, and the thread goes on; the first two hypotheses are closed by rfl. -/
theorem exec_of_op2 {i : Instr} {s : State} {d a b : Nat} {f : Word → Word → Word} {v : Word} (he : exec i s = op2 i d a b f s)
    (hr : isRelease i = false) (hv : f (regA s a) (regA s b) = v) :
    SrcsGood s [rA a, rA b] → Goes s s → exec i s = .next (advance s (setA s d v)) := by
  intro hsrc hgo
  subst hv
  exact completes_of he rfl (.inl hr) hsrc ((goes_setA_iff s s d _).2 hgo)

section
variable {s : State} {d a b : Nat} {v : Word}

theorem exec_div (hv : divS (regA s a) (regA s b) = v) :
    SrcsGood s [rA a, rA b] → Goes s s → exec (.div d a b) s = .next (advance s (setA s d v)) := exec_of_op2 rfl rfl hv
theorem exec_divu (hv : divU (regA s a) (regA s b) = v) :
    SrcsGood s [rA a, rA b] → Goes s s → exec (.divu d a b) s = .next (advance s (setA s d v)) := exec_of_op2 rfl rfl hv
theorem exec_rem (hv : remS (regA s a) (regA s b) = v) :
    SrcsGood s [rA a, rA b] → Goes s s → exec (.rem d a b) s = .next (advance s (setA s d v)) := exec_of_op2 rfl rfl hv
theorem exec_remu (hv : remU (regA s a) (regA s b) = v) :
    SrcsGood s [rA a, rA b] → Goes s s → exec (.remu d a b) s = .next (advance s (setA s d v)) := exec_of_op2 rfl rfl hv

end

/-! ## The divisions by cases of the divisor (07 R186) -/

section
variable {x y : Word}

theorem divS_of_zero (h : y = 0) : divS x y = BitVec.allOnes 64 := if_pos h
theorem divU_of_zero (h : y = 0) : divU x y = BitVec.allOnes 64 := if_pos h
theorem remS_of_zero (h : y = 0) : remS x y = x := if_pos h
theorem remU_of_zero (h : y = 0) : remU x y = x := if_pos h

theorem divS_of_ne_zero (h : y ≠ 0) : divS x y = BitVec.ofInt 64 (x.toInt.tdiv y.toInt) := if_neg h
theorem divU_of_ne_zero (h : y ≠ 0) : divU x y = word (x.toNat / y.toNat) := if_neg h
theorem remS_of_ne_zero (h : y ≠ 0) : remS x y = BitVec.ofInt 64 (x.toInt.tmod y.toInt) := if_neg h
theorem remU_of_ne_zero (h : y ≠ 0) : remU x y = word (x.toNat % y.toNat) := if_neg h

end

theorem allOnes_ne_zero : BitVec.allOnes 64 ≠ 0 := by decide

/-- A divisor of −1 negates, and the negation of −2^63 wraps to itself. -/
theorem divS_intMin_allOnes : divS (BitVec.intMin 64) (BitVec.allOnes 64) = BitVec.intMin 64 := by
  rw [divS_of_ne_zero allOnes_ne_zero, show (BitVec.allOnes 64).toInt = -1 from rfl, Int.tdiv_neg, Int.tdiv_one, BitVec.ofInt_neg, BitVec.ofInt_toInt,
    BitVec.neg_intMin]

/-- A divisor of −1 leaves no remainder. -/
theorem remS_allOnes (x : Word) : remS x (BitVec.allOnes 64) = 0 := by
  rw [remS_of_ne_zero allOnes_ne_zero, show (BitVec.allOnes 64).toInt = -1 from rfl, Int.tmod_neg, Int.tmod_one]
  rfl

/-- Settles O11: each division completes with its function of the two words, whose value is known for a divisor of 0, for any other, and for −1 on the
lowest dividend. -/
theorem divisionResults : Obligations.DivisionResults := by
  intro s d a b
  refine ⟨fun hzero => ?_, fun hne => ?_, fun hmin hones => ?_⟩
  · exact ⟨exec_div (divS_of_zero hzero), exec_divu (divU_of_zero hzero), exec_rem (remS_of_zero hzero), exec_remu (remU_of_zero hzero)⟩
  · exact ⟨exec_div (divS_of_ne_zero hne), exec_divu (divU_of_ne_zero hne), exec_rem (remS_of_ne_zero hne), exec_remu (remU_of_ne_zero hne)⟩
  · have hdiv : divS (regA s a) (regA s b) = BitVec.intMin 64 := by rw [hmin, hones, divS_intMin_allOnes]
    have hrem : remS (regA s a) (regA s b) = 0 := by rw [hones, remS_allOnes]
    exact ⟨exec_div hdiv, exec_rem hrem⟩

end Sys2Proof.Machine
section

-- One proof after the other, as in the files above: side by side they need more memory than the check gives.
set_option Elab.async false

/-! PROOFS of the encoding (06 R147-R182): the round trip from instruction to word and back, the round trip from word to instruction and back, and
words laid out by hand. -/

namespace Sys2Proof.Machine

open Sys2Proof

/-- Settles O1, by cases of the instruction: each core instruction has its own round trip in the family RoundTrip, and no other one is a core word. -/
theorem decodeEncodeRoundTrip : Obligations.DecodeEncodeRoundTrip := by
  intro i hw hcore
  cases i with
  | add d a b => exact Laws.RoundTrip.add d a b hw hcore
  | sub d a b => exact Laws.RoundTrip.sub d a b hw hcore
  | and d a b => exact Laws.RoundTrip.and d a b hw hcore
  | or d a b => exact Laws.RoundTrip.or d a b hw hcore
  | xor d a b => exact Laws.RoundTrip.xor d a b hw hcore
  | andn d a b => exact Laws.RoundTrip.andn d a b hw hcore
  | sll d a b => exact Laws.RoundTrip.sll d a b hw hcore
  | srl d a b => exact Laws.RoundTrip.srl d a b hw hcore
  | sra d a b => exact Laws.RoundTrip.sra d a b hw hcore
  | rol d a b => exact Laws.RoundTrip.rol d a b hw hcore
  | mul d a b => exact Laws.RoundTrip.mul d a b hw hcore
  | mulh d a b => exact Laws.RoundTrip.mulh d a b hw hcore
  | mulhu d a b => exact Laws.RoundTrip.mulhu d a b hw hcore
  | div d a b => exact Laws.RoundTrip.div d a b hw hcore
  | divu d a b => exact Laws.RoundTrip.divu d a b hw hcore
  | rem d a b => exact Laws.RoundTrip.rem d a b hw hcore
  | remu d a b => exact Laws.RoundTrip.remu d a b hw hcore
  | min d a b => exact Laws.RoundTrip.min d a b hw hcore
  | max d a b => exact Laws.RoundTrip.max d a b hw hcore
  | minu d a b => exact Laws.RoundTrip.minu d a b hw hcore
  | maxu d a b => exact Laws.RoundTrip.maxu d a b hw hcore
  | slt d a b => exact Laws.RoundTrip.slt d a b hw hcore
  | sltu d a b => exact Laws.RoundTrip.sltu d a b hw hcore
  | seq d a b => exact Laws.RoundTrip.seq d a b hw hcore
  | clz d a => exact Laws.RoundTrip.clz d a hw hcore
  | ctz d a => exact Laws.RoundTrip.ctz d a hw hcore
  | popc d a => exact Laws.RoundTrip.popc d a hw hcore
  | brev d a => exact Laws.RoundTrip.brev d a hw hcore
  | bswap d a => exact Laws.RoundTrip.bswap d a hw hcore
  | sext d a b => exact Laws.RoundTrip.sext d a b hw hcore
  | zext d a b => exact Laws.RoundTrip.zext d a b hw hcore
  | extr d a b => exact Laws.RoundTrip.extr d a b hw hcore
  | insr d a b => exact Laws.RoundTrip.insr d a b hw hcore
  | sel d a b => exact Laws.RoundTrip.sel d a b hw hcore
  | addi d a i => exact Laws.RoundTrip.addi d a i hw hcore
  | andi d a i => exact Laws.RoundTrip.andi d a i hw hcore
  | ori d a i => exact Laws.RoundTrip.ori d a i hw hcore
  | xori d a i => exact Laws.RoundTrip.xori d a i hw hcore
  | slti d a i => exact Laws.RoundTrip.slti d a i hw hcore
  | slli d a s => exact Laws.RoundTrip.slli d a s hw hcore
  | srli d a s => exact Laws.RoundTrip.srli d a s hw hcore
  | srai d a s => exact Laws.RoundTrip.srai d a s hw hcore
  | lih d a i => exact Laws.RoundTrip.lih d a i hw hcore
  | lil d i => exact Laws.RoundTrip.lil d i hw hcore
  | lea d a i => exact Laws.RoundTrip.lea d a i hw hcore
  | addpc d i => exact Laws.RoundTrip.addpc d i hw hcore
  | ldB d a i => exact Laws.RoundTrip.ldB d a i hw hcore
  | ldH d a i => exact Laws.RoundTrip.ldH d a i hw hcore
  | ldW d a i => exact Laws.RoundTrip.ldW d a i hw hcore
  | ldD d a i => exact Laws.RoundTrip.ldD d a i hw hcore
  | ldBZ d a i => exact Laws.RoundTrip.ldBZ d a i hw hcore
  | ldHZ d a i => exact Laws.RoundTrip.ldHZ d a i hw hcore
  | ldWZ d a i => exact Laws.RoundTrip.ldWZ d a i hw hcore
  | stB a b i => exact Laws.RoundTrip.stB a b i hw hcore
  | stH a b i => exact Laws.RoundTrip.stH a b i hw hcore
  | stW a b i => exact Laws.RoundTrip.stW a b i hw hcore
  | stD a b i => exact Laws.RoundTrip.stD a b i hw hcore
  | ldx d a b x z w => exact Laws.RoundTrip.ldx d a b x z w hw hcore
  | stx d a b x w => exact Laws.RoundTrip.stx d a b x w hw hcore
  | ldfTake d a => exact Laws.RoundTrip.ldfTake d a hw hcore
  | ldfPeek d a => exact Laws.RoundTrip.ldfPeek d a hw hcore
  | ste a b => exact Laws.RoundTrip.ste a b hw hcore
  | tagset a b => exact Laws.RoundTrip.tagset a b hw hcore
  | tagget d a => exact Laws.RoundTrip.tagget d a hw hcore
  | acq => exact Laws.RoundTrip.acq hw hcore
  | rel => exact Laws.RoundTrip.rel hw hcore
  | fenceE a b => exact Laws.RoundTrip.fenceE a b hw hcore
  | pref a => exact Laws.RoundTrip.pref a hw hcore
  | aadd d a b w => exact Laws.RoundTrip.aadd d a b w hw hcore
  | amin d a b u w => exact Laws.RoundTrip.amin d a b u w hw hcore
  | amax d a b u w => exact Laws.RoundTrip.amax d a b u w hw hcore
  | aand d a b w => exact Laws.RoundTrip.aand d a b w hw hcore
  | aor d a b w => exact Laws.RoundTrip.aor d a b w hw hcore
  | axor d a b w => exact Laws.RoundTrip.axor d a b w hw hcore
  | aswp d a b w => exact Laws.RoundTrip.aswp d a b w hw hcore
  | acas d a b w => exact Laws.RoundTrip.acas d a b w hw hcore
  | afadd d a b => exact Laws.RoundTrip.afadd d a b hw hcore
  | aupd a b o u w => exact Laws.RoundTrip.aupd a b o u w hw hcore
  | beq a b i => exact Laws.RoundTrip.beq a b i hw hcore
  | bne a b i => exact Laws.RoundTrip.bne a b i hw hcore
  | blt a b i => exact Laws.RoundTrip.blt a b i hw hcore
  | bge a b i => exact Laws.RoundTrip.bge a b i hw hcore
  | bltu a b i => exact Laws.RoundTrip.bltu a b i hw hcore
  | bgeu a b i => exact Laws.RoundTrip.bgeu a b i hw hcore
  | bz a i => exact Laws.RoundTrip.bz a i hw hcore
  | bnz a i => exact Laws.RoundTrip.bnz a i hw hcore
  | jmp j => exact Laws.RoundTrip.jmp j hw hcore
  | jal j => exact Laws.RoundTrip.jal j hw hcore
  | jr a => exact Laws.RoundTrip.jr a hw hcore
  | jalr d a => exact Laws.RoundTrip.jalr d a hw hcore
  | loop l c n => exact Laws.RoundTrip.loop l c n hw hcore
  | loopi l k n => exact Laws.RoundTrip.loopi l k n hw hcore
  | vadd d a b m => exact Laws.RoundTrip.vadd d a b m hw hcore
  | vsub d a b m => exact Laws.RoundTrip.vsub d a b m hw hcore
  | vmul d a b m => exact Laws.RoundTrip.vmul d a b m hw hcore
  | vfma d a b m => exact Laws.RoundTrip.vfma d a b m hw hcore
  | vfms d a b m => exact Laws.RoundTrip.vfms d a b m hw hcore
  | vmin d a b m => exact Laws.RoundTrip.vmin d a b m hw hcore
  | vmax d a b m => exact Laws.RoundTrip.vmax d a b m hw hcore
  | vabs d a m => exact Laws.RoundTrip.vabs d a m hw hcore
  | vneg d a m => exact Laws.RoundTrip.vneg d a m hw hcore
  | vand d a b m => exact Laws.RoundTrip.vand d a b m hw hcore
  | vor d a b m => exact Laws.RoundTrip.vor d a b m hw hcore
  | vxor d a b m => exact Laws.RoundTrip.vxor d a b m hw hcore
  | vshl d a b m => exact Laws.RoundTrip.vshl d a b m hw hcore
  | vshr d a b m => exact Laws.RoundTrip.vshr d a b m hw hcore
  | vcmp d a b m c => exact Laws.RoundTrip.vcmp d a b m c hw hcore
  | vsel d a b m => exact Laws.RoundTrip.vsel d a b m hw hcore
  | vrcp d a m => exact Laws.RoundTrip.vrcp d a m hw hcore
  | vrsq d a m => exact Laws.RoundTrip.vrsq d a m hw hcore
  | vexp2 d a m => exact Laws.RoundTrip.vexp2 d a m hw hcore
  | vlog2 d a m => exact Laws.RoundTrip.vlog2 d a m hw hcore
  | vpack d a b => exact Laws.RoundTrip.vpack d a b hw hcore
  | vunpk d a h => exact Laws.RoundTrip.vunpk d a h hw hcore
  | vsplat d a t m => exact Laws.RoundTrip.vsplat d a t m hw hcore
  | vext d a b => exact Laws.RoundTrip.vext d a b hw hcore
  | vins d a b => exact Laws.RoundTrip.vins d a b hw hcore
  | vperm d a b m => exact Laws.RoundTrip.vperm d a b m hw hcore
  | vred d a m o => exact Laws.RoundTrip.vred d a m o hw hcore
  | vscan d a m o => exact Laws.RoundTrip.vscan d a m o hw hcore
  | vcvt d a r m t => exact Laws.RoundTrip.vcvt d a r m t hw hcore
  | vld d a m t => exact Laws.RoundTrip.vld d a m t hw hcore
  | vst d a m t => exact Laws.RoundTrip.vst d a m t hw hcore
  | vlds d a b m t => exact Laws.RoundTrip.vlds d a b m t hw hcore
  | vsts d a b m t => exact Laws.RoundTrip.vsts d a b m t hw hcore
  | vldi d a b m t => exact Laws.RoundTrip.vldi d a b m t hw hcore
  | vsti d a b m t => exact Laws.RoundTrip.vsti d a b m t hw hcore
  | vldp d a m n => exact Laws.RoundTrip.vldp d a m n hw hcore
  | vstp d a m => exact Laws.RoundTrip.vstp d a m hw hcore
  | vnzs d a m => exact Laws.RoundTrip.vnzs d a m hw hcore
  | vband d a b m => exact Laws.RoundTrip.vband d a b m hw hcore
  | vpopp d a m => exact Laws.RoundTrip.vpopp d a m hw hcore
  | visect d a b m => exact Laws.RoundTrip.visect d a b m hw hcore
  | vmovmMaskToVector d a => exact Laws.RoundTrip.vmovmMaskToVector d a hw hcore
  | mand d a b => exact Laws.RoundTrip.mand d a b hw hcore
  | mor d a b => exact Laws.RoundTrip.mor d a b hw hcore
  | mnot d a => exact Laws.RoundTrip.mnot d a hw hcore
  | mpop d a => exact Laws.RoundTrip.mpop d a hw hcore
  | vmovmVectorToMask d a => exact Laws.RoundTrip.vmovmVectorToMask d a hw hcore
  | send a b p h => exact Laws.RoundTrip.send a b p h hw hcore
  | sendi a b p h => exact Laws.RoundTrip.sendi a b p h hw hcore
  | sendm a b r p h => exact Laws.RoundTrip.sendm a b r p h hw hcore
  | spawn a b p h => exact Laws.RoundTrip.spawn a b p h hw hcore
  | xdsp a b p h => exact Laws.RoundTrip.xdsp a b p h hw hcore
  | endThread => exact Laws.RoundTrip.endThread hw hcore
  | yield => exact Laws.RoundTrip.yield hw hcore
  | suspend a b => exact Laws.RoundTrip.suspend a b hw hcore
  | resume d a b => exact Laws.RoundTrip.resume d a b hw hcore
  | hbeat => exact Laws.RoundTrip.hbeat hw hcore
  | cnti a b => exact Laws.RoundTrip.cnti a b hw hcore
  | cnta d a b => exact Laws.RoundTrip.cnta d a b hw hcore
  | cntaRel d a b => exact Laws.RoundTrip.cntaRel d a b hw hcore
  | cntw d a b => exact Laws.RoundTrip.cntw d a b hw hcore
  | cntt d a b => exact Laws.RoundTrip.cntt d a b hw hcore
  | barinit a b => exact Laws.RoundTrip.barinit a b hw hcore
  | bararv d a => exact Laws.RoundTrip.bararv d a hw hcore
  | bardrop a => exact Laws.RoundTrip.bardrop a hw hcore
  | barwait a b => exact Laws.RoundTrip.barwait a b hw hcore
  | bartx a b => exact Laws.RoundTrip.bartx a b hw hcore
  | gjoin d b => exact Laws.RoundTrip.gjoin d b hw hcore
  | gleave d b => exact Laws.RoundTrip.gleave d b hw hcore
  | gld d a t o => exact Laws.RoundTrip.gld d a t o hw hcore
  | gldf d a t o => exact Laws.RoundTrip.gldf d a t o hw hcore
  | gbar d b => exact Laws.RoundTrip.gbar d b hw hcore
  | ginfo d b => exact Laws.RoundTrip.ginfo d b hw hcore
  | fork a b => exact Laws.RoundTrip.fork a b hw hcore
  | join a => exact Laws.RoundTrip.join a hw hcore
  | dqpush d a => exact Laws.RoundTrip.dqpush d a hw hcore
  | dqpop d a => exact Laws.RoundTrip.dqpop d a hw hcore
  | rget d a => exact Laws.RoundTrip.rget d a hw hcore
  | rput a b => exact Laws.RoundTrip.rput a b hw hcore
  | rtake d a b => exact Laws.RoundTrip.rtake d a b hw hcore
  | rfree d a b => exact Laws.RoundTrip.rfree d a b hw hcore
  | ecopy a b s => exact Laws.RoundTrip.ecopy a b s hw hcore
  | egath a b s o => exact Laws.RoundTrip.egath a b s o hw hcore
  | escat a b s o => exact Laws.RoundTrip.escat a b s o hw hcore
  | esub a b => exact Laws.RoundTrip.esub a b hw hcore
  | ebind a b s => exact Laws.RoundTrip.ebind a b s hw hcore
  | enear a b s => exact Laws.RoundTrip.enear a b s hw hcore
  | eqry a s => exact Laws.RoundTrip.eqry a s hw hcore
  | qload a b s => exact Laws.RoundTrip.qload a b s hw hcore
  | qplay a s => exact Laws.RoundTrip.qplay a s hw hcore
  | nsend a b => exact Laws.RoundTrip.nsend a b hw hcore
  | nrecv a b => exact Laws.RoundTrip.nrecv a b hw hcore
  | npoll a b s => exact Laws.RoundTrip.npoll a b s hw hcore
  | migr a b s => exact Laws.RoundTrip.migr a b s hw hcore
  | mzero m t => exact Laws.RoundTrip.mzero m t hw hcore
  | mlda a b => exact Laws.RoundTrip.mlda a b hw hcore
  | mldb a b => exact Laws.RoundTrip.mldb a b hw hcore
  | mpost a b => exact Laws.RoundTrip.mpost a b hw hcore
  | mop a b s => exact Laws.RoundTrip.mop a b s hw hcore
  | mopm a b k s => exact Laws.RoundTrip.mopm a b k s hw hcore
  | mst a b s => exact Laws.RoundTrip.mst a b s hw hcore
  | mrd a b t => exact Laws.RoundTrip.mrd a b t hw hcore
  | mscale a b p t => exact Laws.RoundTrip.mscale a b p t hw hcore
  | mstat a c t => exact Laws.RoundTrip.mstat a c t hw hcore
  | cruise a b s => exact Laws.RoundTrip.cruise a b s hw hcore
  | blaze a b m d => exact Laws.RoundTrip.blaze a b m d hw hcore
  | blzmov s d => exact Laws.RoundTrip.blzmov s d hw hcore
  | blzmovStore a s => exact Laws.RoundTrip.blzmovStore a s hw hcore
  | blzmovLoad a b d => exact Laws.RoundTrip.blzmovLoad a b d hw hcore
  | blzmovAnd s d => exact Laws.RoundTrip.blzmovAnd s d hw hcore
  | blzpop a b s => exact Laws.RoundTrip.blzpop a b s hw hcore
  | ewr a n => exact Laws.RoundTrip.ewr a n hw hcore
  | erd a n => exact Laws.RoundTrip.erd a n hw hcore
  | nop => exact Laws.RoundTrip.nop hw hcore
  | trap d a => exact Laws.RoundTrip.trap d a hw hcore
  | eret => exact Laws.RoundTrip.eret hw hcore
  | wfe => exact Laws.RoundTrip.wfe hw hcore
  | synci => exact Laws.RoundTrip.synci hw hcore
  | tlbinvPage a => exact Laws.RoundTrip.tlbinvPage a hw hcore
  | tlbinvJob => exact Laws.RoundTrip.tlbinvJob hw hcore
  | brk d => exact Laws.RoundTrip.brk d hw hcore
  | crd d i => exact Laws.RoundTrip.crd d i hw hcore
  | cwr a i => exact Laws.RoundTrip.cwr a i hw hcore
  | safept i => exact Laws.RoundTrip.safept i hw hcore
  | _ => exact absurd hcore Bool.false_ne_true

/-- What the decoder accepts is a well-formed term whose own word is the word that was read (06 R152). -/
theorem decodeWord_eq_some {w : Nat} {i : Instr} (h : decodeWord w = some i) : wellFormed i = true ∧ encode i = w := by
  unfold decodeWord at h
  split at h
  · next j _ =>
    split at h
    · next hj =>
      obtain rfl := Option.some.inj h
      simpa using hj
    · cases h
  · cases h

/-- Settles O2: the decoder itself checks the term that it picks and encodes it again. -/
theorem decodedWordsAreEncodings : Obligations.DecodedWordsAreEncodings := fun _ _ h => decodeWord_eq_some h

/-- Settles O3, by evaluating the decoder on each word. -/
theorem decodeWords : Obligations.DecodeWords := by
  unfold Obligations.DecodeWords
  decide

end Sys2Proof.Machine

/-! PROOFS of the canonical form of the memory: what each operation of the model leaves of it. Memory is written by memWrite, homeWrite and the filters
of a lost scratchpad or device alone, so an operation either leaves the cells as they are (`_mem`) or keeps their form (`_wf`). One lemma stands here
for each operation, in the order of the model's files; its proof cites the lemmas of the operations that it calls. -/

namespace Sys2Proof.Machine

open Sys2Proof


/-! ## The canonical form of what an effect ends in -/

/-- The state in which an instruction's own effect ends has its memory in canonical form. -/
def Res.wf : Res → Prop
  | .ok s => Memory.wf s.mem
  | .skip s _ => Memory.wf s.mem
  | .taken s _ _ => Memory.wf s.mem
  | .left s => Memory.wf s.mem
  | .trap s _ _ _ => Memory.wf s.mem
  | .badReg s => Memory.wf s.mem
  | .absent s _ _ _ => Memory.wf s.mem
  | .held s _ => Memory.wf s.mem
  | .wait s _ => Memory.wf s.mem

/-- A next state, where there is one, has its memory in canonical form. -/
def OutcomeWf (o : Host.Outcome State Fault Refusal) : Prop := ∀ t, o = .next t → Memory.wf t.mem

theorem ite_wf {c : Prop} [Decidable c] {s t : State} (hs : Memory.wf s.mem) (ht : Memory.wf t.mem) : Memory.wf (if c then s else t).mem := by
  split
  · exact hs
  · exact ht

/-- The state of a pair has its memory in canonical form when the pair it is split from has. -/
theorem wf_of_eq {α : Type} {p : State × α} {t : State} {a : α} (h : p = (t, a)) (hp : Memory.wf p.1.mem) : Memory.wf t.mem := by
  subst h
  exact hp

theorem setA_ok_wf (s : State) (d : Nat) (v : Word) (hs : Memory.wf s.mem) : Res.wf (.ok (setA s d v)) := by
  show Memory.wf (setA s d v).mem
  rw [setA_mem]
  exact hs

/-! ## Folds over states -/

theorem foldl_mem {α : Type} (f : State → α → State) (hf : ∀ s a, (f s a).mem = s.mem) (l : List α) (s : State) : (l.foldl f s).mem = s.mem := by
  induction l generalizing s with
  | nil => rfl
  | cons a l ih => exact (ih _).trans (hf s a)

theorem foldl_pair_wf {α β : Type} (f : State × β → α → State × β) (hf : ∀ p a, Memory.wf p.1.mem → Memory.wf (f p a).1.mem) (l : List α)
    (p : State × β) (h : Memory.wf p.1.mem) : Memory.wf (l.foldl f p).1.mem := by
  induction l generalizing p with
  | nil => exact h
  | cons a l ih => exact ih _ (hf p a h)


/-! ## Memory.lea -/
@[simp] theorem registerByte_mem (s : State) (c k : Nat) (b : Byte) : (registerByte s c k b).mem = s.mem := rfl
@[simp] theorem acquire_mem (s : State) (c : Nat) : (acquire s c).mem = s.mem := rfl
@[simp] theorem hotCount_mem (s : State) (pkg port pa dlv stv : Nat) : (hotCount s pkg port pa dlv stv).mem = s.mem := rfl
@[simp] theorem uncBump_mem (s : State) (pkg cls : Nat) : (uncBump s pkg cls).mem = s.mem := rfl

/-! ## Translate.lea -/
@[simp] theorem cxlLines_mem (s : State) (waits : Bool) (f : Nat → Bool) (pa k n : Nat) : (cxlLines s waits f pa k n).mem = s.mem := by
  unfold cxlLines
  grind [hotCount_mem, freeStep_mem, foldl_mem]
@[simp] theorem paDeliver_mem (s : State) (pa : Nat) (l : List (Nat × Nat)) : (paDeliver s pa l).mem = s.mem := by
  fun_induction paDeliver s pa l <;> grind [cxlLines_mem]
@[simp] theorem installAt_mem (s : State) (core home : Nat) (e : TlbEntry) : (installAt s core home e).mem = s.mem := rfl
@[simp] theorem installTlb_mem (s : State) (w : Who) (va : Nat) (e : TlbEntry) : (installTlb s w va e).mem = s.mem := rfl
@[simp] theorem usedHit_mem (s : State) (w : Who) (acc : Acc) (va : Nat) : (usedHit s w acc va).1.mem = s.mem := by
  unfold usedHit
  grind [freeStep_mem]
theorem translate_wf (s : State) (w : Who) (acc : Acc) (va : Nat) (hs : Memory.wf s.mem) : Memory.wf (translate s w acc va).1.mem := by
  unfold translate
  grind [setAD_wf, installTlb_mem, usedHit_mem]
@[simp] theorem cxlDelivers_mem (s : State) (w : Who) (va : Nat) (f : Nat → Bool) (k n : Nat) : (cxlDelivers s w va f k n).mem = s.mem := by
  unfold cxlDelivers
  grind [cxlLines_mem]
@[simp] theorem spansDeliver_mem (s : State) (w : Who) (f : Nat → Bool) (n : Nat) (l : List (Nat × Nat)) : (spansDeliver s w f n l).mem = s.mem := by
  fun_induction spansDeliver s w f n l <;> grind [cxlDelivers_mem]
@[simp] theorem uncMet_mem (s : State) (w : Who) (va : Word) : (uncMet s w va).mem = s.mem := by
  unfold uncMet
  grind [uncBump_mem]
@[simp] theorem uncAt_mem (s : State) (w : Who) (va : Word) (cls : Nat) : (uncAt s w va cls).mem = s.mem := by
  unfold uncAt
  grind [uncBump_mem, uncMet_mem]
theorem checkPages_wf (s : State) (w : Who) (acc : Acc) (l : List (Nat × Nat)) (l1 : List (Nat × Nat)) (hs : Memory.wf s.mem) :
    Memory.wf (checkPages s w acc l l1).1.mem := by
  fun_induction checkPages s w acc l l1 <;> grind [translate_wf]
theorem check_wf (s : State) (w : Who) (acc : Acc) (ap : Bool) (va : Word) (n : Nat) (hs : Memory.wf s.mem) :
    Memory.wf (check s w acc ap va n).1.mem := by
  unfold check
  grind [checkPages_wf]

/-! ## Access.lea -/
@[simp] theorem dropL1_mem (s : State) (c k n : Nat) : (dropL1 s c k n).mem = s.mem := by
  unfold dropL1
  grind [modCore_mem]
@[simp] theorem spansMiss_mem (s : State) (c : Nat) (l : List (Nat × Nat)) : (spansMiss s c l).mem = s.mem := by
  fun_induction spansMiss s c l <;> grind [viewMiss_mem]
theorem spansDrain_wf (s : State) (ctx : Nat) (l : List (Nat × Nat)) (hs : Memory.wf s.mem) : Memory.wf (spansDrain s ctx l).mem := by
  fun_induction spansDrain s ctx l <;> grind [drainTo_wf]
theorem spansSettle_wf (s : State) (ctx : Nat) (l : List (Nat × Nat)) (hs : Memory.wf s.mem) : Memory.wf (spansSettle s ctx l).mem := by
  unfold spansSettle
  grind [drainWith_wf]
@[simp] theorem aperturePush_mem (s : State) (pkg slot ofs : Nat) (bs : List Byte) : (aperturePush s pkg slot ofs bs).mem = s.mem := by
  unfold aperturePush
  grind
theorem agentRead_wf (s : State) (w : Who) (va : Word) (n : Nat) (hs : Memory.wf s.mem) : Memory.wf (agentRead s w va n).1.mem := by
  unfold agentRead
  grind [check_wf, recallSpans_wf, spansDeliver_mem]
theorem agentWrite_wf (s : State) (w : Who) (va : Word) (bs : List Byte) (hs : Memory.wf s.mem) : Memory.wf (agentWrite s w va bs).1.mem := by
  unfold agentWrite
  grind [check_wf, recallSpans_wf, spansWrite_wf]
@[simp] theorem hwOf_mem (x : State × Acs) : (hwOf x).1.mem = x.1.mem := by
  unfold hwOf
  grind
@[simp] theorem hwCount_mem (w : Who) (x : State × Except (Nat × Word) (List Byte)) : (hwCount w x).1.mem = x.1.mem := by
  unfold hwCount
  grind [uncMet_mem]
theorem hwRead_wf (s : State) (w : Who) (va : Word) (n : Nat) (hs : Memory.wf s.mem) : Memory.wf (hwRead s w va n).1.mem := by
  unfold hwRead
  grind [hwCount_mem, hwOf_mem, agentRead_wf]
theorem hwWrite_wf (s : State) (w : Who) (va : Word) (bs : List Byte) (hs : Memory.wf s.mem) : Memory.wf (hwWrite s w va bs).1.mem := by
  unfold hwWrite
  grind [hwCount_mem, hwOf_mem, agentWrite_wf]
theorem checkMany_wf (s : State) (w : Who) (acc : Acc) (ap : Bool) (l : List (Word × Nat)) (l1 : List Chk) (hs : Memory.wf s.mem) :
    Memory.wf (checkMany s w acc ap l l1).1.mem := by
  fun_induction checkMany s w acc ap l l1 <;> grind [check_wf]
theorem chkRes_wf (s : State) (wr : Bool) (l : List Chk) (hs : Memory.wf s.mem) (r : Res) (hr : chkRes s wr l = some r) : Res.wf r := by
  fun_induction chkRes s wr l <;> grind [Res.wf]
theorem recallMany_wf (s : State) (l : List (Word × Nat)) (l1 : List Chk) (hs : Memory.wf s.mem) : Memory.wf (recallMany s l l1).1.mem := by
  fun_induction recallMany s l l1 <;> grind [recallSpans_wf]
theorem readMany_wf (s : State) (w : Who) (ctx : Nat) (l : List (Word × Nat)) (l1 : List Chk) (hs : Memory.wf s.mem) :
    Memory.wf (readMany s w ctx l l1).1.mem := by
  fun_induction readMany s w ctx l l1 <;> grind [acquire_mem, spansSettle_wf, spansDrain_wf, spansDeliver_mem, spansMiss_mem]
theorem writeMany_wf (s : State) (w : Who) (ctx : Nat) (l : List (List Byte)) (l1 : List Chk) (hs : Memory.wf s.mem) :
    Memory.wf (writeMany s w ctx l l1).mem := by
  fun_induction writeMany s w ctx l l1 <;> grind [aperturePush_mem, spansStore_wf]
theorem loads_wf (s : State) (ap : Bool) (l : List (Word × Nat)) (k : State → List (List Byte) → Res) (hs : Memory.wf s.mem) (hk : ∀ t bs, Memory.wf t.mem → Res.wf (k t bs)) :
    Res.wf (loads s ap l k) := by
  unfold loads
  grind [checkMany_wf, chkRes_wf, recallMany_wf, readMany_wf, Res.wf]
theorem stores_wf (s : State) (ap : Bool) (l : List (Word × List Byte)) (k : State → Res) (hs : Memory.wf s.mem) (hk : ∀ t, Memory.wf t.mem → Res.wf (k t)) :
    Res.wf (stores s ap l k) := by
  unfold stores
  grind [checkMany_wf, chkRes_wf, recallMany_wf, writeMany_wf, Res.wf]
theorem checked_wf (s : State) (acc : Acc) (l : List (Word × Nat)) (k : State → Res) (hs : Memory.wf s.mem) (hk : ∀ t, Memory.wf t.mem → Res.wf (k t)) :
    Res.wf (checked s acc l k) := by
  unfold checked
  grind [checkMany_wf, chkRes_wf, Res.wf]
theorem load1_wf (s : State) (ap : Bool) (va : Word) (n : Nat) (k : State → List Byte → Res) (hs : Memory.wf s.mem) (hk : ∀ t bs, Memory.wf t.mem → Res.wf (k t bs)) :
    Res.wf (load1 s ap va n k) := by
  unfold load1
  grind [loads_wf, Res.wf]
theorem store1_wf (s : State) (ap : Bool) (va : Word) (bs : List Byte) (k : State → Res) (hs : Memory.wf s.mem) (hk : ∀ t, Memory.wf t.mem → Res.wf (k t)) :
    Res.wf (store1 s ap va bs k) := by
  unfold store1
  grind [stores_wf, Res.wf]

/-! ## Queues.lea -/
theorem popOverflow_wf (s : State) (w : Who) (d : Job) (hs : Memory.wf s.mem) : Memory.wf (popOverflow s w d).1.mem := by
  unfold popOverflow
  grind [hwRead_wf, hwWrite_wf]
theorem allocFrame_wf (s : State) (core job : Nat) (hs : Memory.wf s.mem) : Memory.wf (allocFrame s core job).1.mem := by
  unfold allocFrame
  grind [modCore_mem, popOverflow_wf]
@[simp] theorem eventsWhere_mem (s : State) (f : Nat → Bool) : (eventsWhere s f).mem = s.mem := rfl
theorem ringPush_wf (s : State) (g : Nat) (q : QRec) (hs : Memory.wf s.mem) : Memory.wf (ringPush s g q).mem := by
  unfold ringPush
  grind [mend_mem, homeWrite_wf, modGrove_mem]
theorem poolPush_wf (s : State) (g : Nat) (q : QRec) (hs : Memory.wf s.mem) : Memory.wf (poolPush s g q).mem := by
  unfold poolPush
  grind [eventsWhere_mem, modGrove_mem, ringPush_wf]
theorem wake_wf (s : State) (core : Nat) (f : Obj → Bool) (hs : Memory.wf s.mem) : Memory.wf (wake s core f).mem := by
  unfold wake
  grind [modCore_mem, poolPush_wf, foldl_wf]
@[simp] theorem enqueue_mem (s : State) (core : Nat) (q : QRec) : (enqueue s core q).mem = s.mem := rfl
@[simp] theorem launchPush_mem (s : State) (core src : Nat) (q : QRec) : (launchPush s core src q).mem = s.mem := by
  unfold launchPush
  grind [modPkg_mem, enqueue_mem]
@[simp] theorem flushLaunches_mem (s : State) (core : Nat) : (flushLaunches s core).mem = s.mem := by
  unfold flushLaunches
  exact foldl_mem _ (fun t x => by grind [enqueue_mem, modPkg_mem]) _ _
theorem deliver_wf (s : State) (pkg : Nat) (n : Notice) (hs : Memory.wf s.mem) : Memory.wf (deliver s pkg n).1.mem := by
  unfold deliver
  split
  · exact hs
  · dsimp only
    split
    · exact hs
    · split
      · next heq => exact (modPkg_mem _ _ _).symm ▸ wf_of_eq heq (hwWrite_wf _ _ _ _ hs)
      · next heq =>
        rw [launchPush_mem, modPkg_mem]
        exact wf_of_eq heq (hwWrite_wf _ _ _ _ hs)
theorem report_wf (s : State) (pkg : Nat) (n : Notice) (hs : Memory.wf s.mem) : Memory.wf (report s pkg n).mem := by
  unfold report
  grind [deliver_wf, modPkg_mem]
theorem retryNotices_wf (s : State) (pkg : Nat) (hs : Memory.wf s.mem) : Memory.wf (retryNotices s pkg).mem := by
  unfold retryNotices
  grind [report_wf, modPkg_mem, foldl_wf]
theorem memNotice_wf (s : State) (pkg job coreId cause : Nat) (faddr : Word) (finfo : Nat) (hs : Memory.wf s.mem) :
    Memory.wf (memNotice s pkg job coreId cause faddr finfo).mem := by
  unfold memNotice
  grind [report_wf]
theorem lostNotice_wf (s : State) (pkg job coreId cls : Nat) (faddr : Word) (hs : Memory.wf s.mem) :
    Memory.wf (lostNotice s pkg job coreId cls faddr).mem := by
  unfold lostNotice
  grind [memNotice_wf, uncBump_mem]
theorem poolMove_wf (n : Nat) (s : State) (n1 : Nat) (hs : Memory.wf s.mem) : Memory.wf (poolMove n s n1).mem := by
  fun_induction poolMove n s n1 <;> grind [modGrove_mem, lostNotice_wf, ringPush_wf, poolPush_wf]
theorem poolSettle_wf (s : State) (g : Nat) (hs : Memory.wf s.mem) : Memory.wf (poolSettle s g).mem := by
  unfold poolSettle
  grind [poolMove_wf]
theorem poolTake_wf (s : State) (g i : Nat) (hs : Memory.wf s.mem) : Memory.wf (poolTake s g i).1.mem := by
  unfold poolTake
  grind [poolSettle_wf, modGrove_mem, lostNotice_wf]
theorem poolDrop_wf (s : State) (g : Nat) (f : QRec → Bool) (hs : Memory.wf s.mem) : Memory.wf (poolDrop s g f).1.mem := by
  unfold poolDrop
  grind [poolSettle_wf, modGrove_mem]
theorem freeEntry_wf (s : State) (pkg job : Nat) (a : Word) (hs : Memory.wf s.mem) : Memory.wf (freeEntry s pkg job a).mem := by
  unfold freeEntry
  split
  · exact hs
  · exact ite_wf (retryNotices_wf _ pkg hs) hs
theorem pushOverflow_wf (s : State) (w : Who) (d : Job) (addr : Word) (hs : Memory.wf s.mem) : Memory.wf (pushOverflow s w d addr).mem := by
  unfold pushOverflow
  grind [memNotice_wf, hwRead_wf, hwWrite_wf]
theorem freeFrame_wf (s : State) (core job : Nat) (addr : Word) (hs : Memory.wf s.mem) : Memory.wf (freeFrame s core job addr).mem := by
  unfold freeFrame
  grind [modCore_mem, modPkg_mem, pushOverflow_wf]
theorem flushPushes_wf (s : State) (pkg : Nat) (hs : Memory.wf s.mem) : Memory.wf (flushPushes s pkg).mem := by
  unfold flushPushes
  exact foldl_wf _ (fun t x ht => by grind [freeFrame_wf, modPkg_mem]) _ _ (by grind [freeFrame_wf, modPkg_mem])
@[simp] theorem setDeck_mem (s : State) (core job p : Nat) (k : Deck) : (setDeck s core job p k).mem = s.mem := rfl
@[simp] theorem freeSlot_mem (s : State) (hold : Word) : (freeSlot s hold).mem = s.mem := rfl
theorem discardRec_wf (s : State) (core : Nat) (r : Rec) (cause : Nat) (faddr : Word) (finfo : Nat) (hold : Word) (hs : Memory.wf s.mem) :
    Memory.wf (discardRec s core r cause faddr finfo hold).mem := by
  unfold discardRec
  grind [report_wf]
theorem deckLoss_wf (s : State) (core : Nat) (r : Rec) (e : Nat × Word) (hs : Memory.wf s.mem) : Memory.wf (deckLoss s core r e).mem := by
  unfold deckLoss
  grind [freeSlot_mem, discardRec_wf]
theorem arrive_wf (s : State) (core : Nat) (r : Rec) (hs : Memory.wf s.mem) : Memory.wf (arrive s core r).1.mem := by
  unfold arrive
  dsimp only
  split
  · exact hs
  · split
    · exact hs
    · have hw := fun w va bs => hwWrite_wf s w va bs hs
      split <;> next heq =>
        have hw := wf_of_eq heq (hw _ _ _)
        first
          | exact deckLoss_wf _ _ _ _ hw
          | exact hw
@[simp] theorem inject_mem (s : State) (core : Nat) (m : Msg) : (inject s core m).mem = s.mem := rfl
@[simp] theorem injectLater_mem (s : State) (core : Nat) (m : Msg) : (injectLater s core m).mem = s.mem := by
  unfold injectLater
  grind [inject_mem, modCore_mem]
@[simp] theorem flushSends_mem (n : Nat) (s : State) (n1 : Nat) : (flushSends n s n1).mem = s.mem := by
  fun_induction flushSends n s n1 <;> grind [modCore_mem, inject_mem]
@[simp] theorem sawEnter_mem (s : State) (op : SawOp) : (sawEnter s op).mem = s.mem := by
  unfold sawEnter
  grind [modGrove_mem]
@[simp] theorem fire_mem (s : State) (core : Nat) (t : Trig) : (fire s core t).mem = s.mem := by
  unfold fire
  grind [injectLater_mem, sawEnter_mem]
@[simp] theorem trigTest_mem (s : State) (key : Nat) : (trigTest s key).mem = s.mem := by
  unfold trigTest
  grind [fire_mem, modCore_mem]
theorem counterSet_wf (s : State) (key : Nat) (v : Word) (hs : Memory.wf s.mem) : Memory.wf (counterSet s key v).mem := by
  unfold counterSet
  grind [mend_mem, memWrite_wf, eventsWhere_mem, trigTest_mem, wake_wf]
theorem counterAdd_wf (s : State) (key : Nat) (d : Word) (hs : Memory.wf s.mem) : Memory.wf (counterAdd s key d).mem := by
  unfold counterAdd
  grind [counterSet_wf]
theorem endHold_wf (s : State) (w : Who) (hold : Word) (hs : Memory.wf s.mem) : Memory.wf (endHold s w hold).mem := by
  unfold endHold
  grind [freeSlot_mem, counterAdd_wf]

/-! ## Ops.lea -/
@[simp] theorem dropICache_mem (s : State) (core : Nat) : (dropICache s core).mem = s.mem := rfl
theorem startLaunch_wf (s : State) (ctx : Nat) (q : QRec) (hs : Memory.wf s.mem) : Memory.wf (startLaunch s ctx q).mem := by
  unfold startLaunch
  grind [acquire_mem, setCtx_mem, hwRead_wf]
theorem restored_wf (s : State) (core : Nat) (r : Rec) (hs : Memory.wf s.mem) : Memory.wf (restored s core r).1.mem := by
  unfold restored
  dsimp only
  split
  · grind [hwRead_wf]
  · split
    · exact hs
    · split
      · grind [hwRead_wf]
      · refine foldl_pair_wf _ (fun p i hp => ?_) _ _ (foldl_pair_wf _ (fun p i hp => ?_) _ _ ?_)
        all_goals grind [hwRead_wf]
theorem frameLost_wf (s : State) (core : Nat) (q : QRec) (e : Nat × Word) (hs : Memory.wf s.mem) : Memory.wf (frameLost s core q e).mem := by
  unfold frameLost
  grind [hwOf_mem, agentRead_wf, report_wf]
theorem startResume_wf (s : State) (ctx : Nat) (q : QRec) (hs : Memory.wf s.mem) : Memory.wf (startResume s ctx q).mem := by
  unfold startResume
  grind [dropICache_mem, acquire_mem, restored_wf, frameLost_wf, setCtx_mem, freeFrame_wf, Res.wf]
@[simp] theorem dormant_mem (s : State) (ctx : Nat) : (dormant s ctx).mem = s.mem := rfl
theorem spill_wf (s : State) (core : Nat) (c : Ctx) (hs : Memory.wf s.mem) : Memory.wf (spill s core c).1.mem := by
  unfold spill
  grind [allocFrame_wf, hwWrite_wf, uncBump_mem]
theorem deliverTrap_wf (s : State) (ctx : Nat) (f : FaultInfo) (hs : Memory.wf s.mem) : Memory.wf (deliverTrap s ctx f).mem := by
  unfold deliverTrap
  grind [modCtx_mem, releaseWaits_wf, spill_wf, report_wf, dormant_mem]
theorem trapAs_wf (s : State) (i : Instr) (cause : Nat) (faddr : Word) (hi : Nat) (hs : Memory.wf s.mem) :
    Memory.wf (trapAs s i cause faddr hi).mem := by
  unfold trapAs
  grind [report_wf, deliverTrap_wf, setCtx_mem]
theorem takeTrap_wf (s : State) (i : Instr) (cause : Nat) (faddr : Word) (hi : Nat) (hs : Memory.wf s.mem) :
    Memory.wf (takeTrap s i cause faddr hi).mem := by
  unfold takeTrap
  grind [trapAs_wf, uncMet_mem]
theorem regTrap_wf (s : State) (i : Instr) (hs : Memory.wf s.mem) : Memory.wf (regTrap s i).mem := by
  unfold regTrap
  grind [trapAs_wf, uncBump_mem]
@[simp] theorem pageRequest_mem (s : State) (core job : Nat) (va : Word) (wr fx eng : Bool) : (pageRequest s core job va wr fx eng).1.mem = s.mem := by
  unfold pageRequest
  grind [modPkg_mem]
@[simp] theorem parkOnPage_mem (s : State) (pk i core : Nat) (q : QRec) (va : Word) (w : Nat) : (parkOnPage s pk i core q va w).mem = s.mem := rfl
@[simp] theorem waitOn_mem (s : State) (o : Obj) : (waitOn s o).mem = s.mem := by
  unfold waitOn
  grind [modCx_mem]
theorem spillFault_wf (s : State) (w : Nat) (cause : Nat) (faddr : Word) (ff : Bool) (addr : Word) (hs : Memory.wf s.mem) :
    Memory.wf (spillFault s w cause faddr ff addr).mem := by
  unfold spillFault
  grind [modCx_mem, freeFrame_wf, report_wf, dormant_mem]
theorem pageAbsent_wf (s : State) (w : Nat) (va : Word) (wr fx : Bool) (hs : Memory.wf s.mem) : Memory.wf (pageAbsent s w va wr fx).mem := by
  unfold pageAbsent
  grind [waitOn_mem, pageRequest_mem, releaseWaits_wf, spill_wf, dormant_mem, parkOnPage_mem, spillFault_wf]
theorem pageHeld_wf (s : State) (w : Nat) (va : Word) (hs : Memory.wf s.mem) : Memory.wf (pageHeld s w va).mem := by
  unfold pageHeld
  grind [waitOn_mem, spill_wf, releaseWaits_wf, dormant_mem, modPkg_mem, spillFault_wf]
theorem takeEntry_wf (s : State) (core job : Nat) (entry : Word) (hs : Memory.wf s.mem) : Memory.wf (takeEntry s core job entry).1.mem := by
  unfold takeEntry
  grind [hwRead_wf, hwWrite_wf, freeEntry_wf]
theorem abandon_wf (s : State) (core job : Nat) (entry : Word) (hs : Memory.wf s.mem) : Memory.wf (abandon s core job entry).mem := by
  unfold abandon
  grind [takeEntry_wf, endHold_wf, freeFrame_wf]
theorem retireThread_wf (s : State) (ctx : Nat) (hs : Memory.wf s.mem) : Memory.wf (retireThread s ctx).mem := by
  unfold retireThread
  grind [releaseWaits_wf, abandon_wf, modCore_mem, dormant_mem, endHold_wf]
theorem withNext_wf (s : State) (k : Ctx → Word → Res) (hs : Memory.wf s.mem) (hk : ∀ c v, Res.wf (k c v)) : Res.wf (withNext s k) := by
  unfold withNext
  grind [Res.wf]
@[simp] theorem goOn_mem (s : State) (c : Ctx) (t : Word) : (goOn s c t).mem = s.mem := rfl
theorem unlessBad_wf (i : Instr) (s t : State) (hs : Memory.wf s.mem) (ht : Memory.wf t.mem) : Memory.wf (unlessBad i s t).mem := by
  unfold unlessBad
  grind [takeTrap_wf]
theorem settle_wf (i : Instr) (s : State) (r : Res) (hs : Memory.wf s.mem) (hr : Res.wf r) : Memory.wf (settle i s r).mem := by
  unfold settle
  grind [takeTrap_wf, goOn_mem, regTrap_wf, unlessBad_wf, pageAbsent_wf, pageHeld_wf, waitOn_mem, Res.wf]
theorem releaseHeld_wf (i : Instr) (s : State) (r : Res) (hs : Memory.wf s.mem) (hr : Res.wf r) : Res.wf (releaseHeld i s r) := by
  unfold releaseHeld
  grind [Res.wf]
theorem finish_wf (i : Instr) (srcs : List Nat) (body : State → Res) (s : State) (hbody : ∀ t, Memory.wf t.mem → Res.wf (body t)) (hs : Memory.wf s.mem) :
    OutcomeWf (finish i srcs body s) := by
  unfold finish
  grind [settle_wf, releaseHeld_wf, OutcomeWf, Res.wf]
theorem event_wf (s : State) (hs : Memory.wf s.mem) : OutcomeWf (event s) := by
  unfold event
  grind [OutcomeWf, Res.wf]
theorem pkgEvent_wf (s : State) (pkg : Nat) (t : State) (hs : Memory.wf s.mem) (ht : Memory.wf t.mem) : OutcomeWf (pkgEvent s pkg t) := by
  unfold pkgEvent
  grind [event_wf, OutcomeWf, Res.wf]

/-! ## Operands.lea -/
theorem Place.get_wf (p : Place) (s : State) (k : Nat → Res) (hs : Memory.wf s.mem) (hk : ∀ n, Res.wf (k n)) : Res.wf (Place.get p s k) := by
  unfold Place.get
  grind [Res.wf]
theorem dwordAt_wf (s : State) (va : Word) (k : Nat → Res) (hs : Memory.wf s.mem) (hk : ∀ n, Res.wf (k n)) : Res.wf (dwordAt s va k) := by
  unfold dwordAt
  grind [Place.get_wf, Res.wf]
theorem counterAt_wf (s : State) (va : Word) (k : Nat → Res) (hs : Memory.wf s.mem) (hk : ∀ n, Res.wf (k n)) : Res.wf (counterAt s va k) := by
  unfold counterAt
  grind [Place.get_wf, Res.wf]
theorem barrierAt_wf (s : State) (va : Word) (k : Nat → Res) (hs : Memory.wf s.mem) (hk : ∀ n, Res.wf (k n)) : Res.wf (barrierAt s va k) := by
  unfold barrierAt
  grind [Place.get_wf, Res.wf]
theorem readable_wf (s : State) (key n : Nat) (va : Word) (r : Res) (hs : Memory.wf s.mem) (hr : Res.wf r) : Res.wf (readable s key n va r) := by
  unfold readable
  grind [Res.wf]

/-! ## Branch.lea -/
theorem branch_wf (n : Instr) (a b i : Nat) (f : Word → Word → Bool) (s : State) (hs : Memory.wf s.mem) : OutcomeWf (branch n a b i f s) := by
  unfold branch
  grind [finish_wf, OutcomeWf, Res.wf]
theorem execJmp_wf (j : Nat) (s : State) (hs : Memory.wf s.mem) : OutcomeWf (execJmp j s) := by
  unfold execJmp
  grind [finish_wf, OutcomeWf, Res.wf]
theorem execJal_wf (j : Nat) (s : State) (hs : Memory.wf s.mem) : OutcomeWf (execJal j s) := by
  unfold execJal
  grind [finish_wf, setA_mem, OutcomeWf, Res.wf]
theorem execJr_wf (a : Nat) (s : State) (hs : Memory.wf s.mem) : OutcomeWf (execJr a s) := by
  unfold execJr
  grind [finish_wf, OutcomeWf, Res.wf]
theorem execJalr_wf (d a : Nat) (s : State) (hs : Memory.wf s.mem) : OutcomeWf (execJalr d a s) := by
  unfold execJalr
  grind [finish_wf, setA_mem, OutcomeWf, Res.wf]
theorem loopSet_wf (l n : Nat) (count : Word) (s : State) (hs : Memory.wf s.mem) : Res.wf (loopSet l n count s) := by
  unfold loopSet
  grind [modCx_mem, Res.wf]
theorem execLoop_wf (l c n : Nat) (s : State) (hs : Memory.wf s.mem) : OutcomeWf (execLoop l c n s) := by
  unfold execLoop
  grind [finish_wf, loopSet_wf, OutcomeWf, Res.wf]
theorem execLoopi_wf (l k n : Nat) (s : State) (hs : Memory.wf s.mem) : OutcomeWf (execLoopi l k n s) := by
  unfold execLoopi
  grind [finish_wf, loopSet_wf, OutcomeWf, Res.wf]

/-! ## Flags.lea -/
@[simp] theorem orFlags_mem (s : State) (f : Nat) : (orFlags s f).mem = s.mem := by
  unfold orFlags
  grind [setStat_mem]
@[simp] theorem setStale_mem (s : State) : (setStale s).mem = s.mem := rfl
@[simp] theorem setGroupFlags_mem (s : State) (gsh : Bool) (gcnt : Nat) : (setGroupFlags s gsh gcnt).mem = s.mem := rfl
@[simp] theorem setMaskDesc_mem (s : State) (i v : Nat) : (setMaskDesc s i v).mem = s.mem := rfl

/-! ## ScalarMemory.lea -/
theorem loadTo_wf (i : Instr) (srcs : List Nat) (d n : Nat) (z ap : Bool) (addr : State → Word) (s : State) (hs : Memory.wf s.mem) :
    OutcomeWf (loadTo i srcs d n z ap addr s) := by
  unfold loadTo
  grind [finish_wf, load1_wf, setA_mem, OutcomeWf, Res.wf]
theorem storeFrom_wf (i : Instr) (srcs : List Nat) (r n : Nat) (ap : Bool) (addr : State → Word) (s : State) (hs : Memory.wf s.mem) :
    OutcomeWf (storeFrom i srcs r n ap addr s) := by
  unfold storeFrom
  grind [finish_wf, store1_wf, OutcomeWf, Res.wf]
theorem setFull_wf (s : State) (key : Nat) (f : Bool) (hs : Memory.wf s.mem) : Memory.wf (setFull s key f).mem := by
  unfold setFull
  grind [wake_wf]
theorem atDword_wf (s : State) (va : Word) (k : State → Nat → Res) (hs : Memory.wf s.mem) (hk : ∀ t n, Memory.wf t.mem → Res.wf (k t n)) :
    Res.wf (atDword s va k) := by
  unfold atDword
  grind [dwordAt_wf, readable_wf, drainTo_wf, Res.wf]
theorem ldfBody_wf (d a : Nat) (take : Bool) (s : State) (hs : Memory.wf s.mem) : Res.wf (ldfBody d a take s) := by
  unfold ldfBody
  grind [atDword_wf, setFull_wf, setA_mem, acquire_mem, Res.wf]
theorem execLdfTake_wf (d a : Nat) (s : State) (hs : Memory.wf s.mem) : OutcomeWf (execLdfTake d a s) := by
  unfold execLdfTake
  grind [finish_wf, ldfBody_wf, OutcomeWf, Res.wf]
theorem execLdfPeek_wf (d a : Nat) (s : State) (hs : Memory.wf s.mem) : OutcomeWf (execLdfPeek d a s) := by
  unfold execLdfPeek
  grind [finish_wf, ldfBody_wf, OutcomeWf, Res.wf]
theorem execSte_wf (a b : Nat) (s : State) (hs : Memory.wf s.mem) : OutcomeWf (execSte a b s) := by
  unfold execSte
  grind [finish_wf, dwordAt_wf, readable_wf, releaseWaits_wf, setFull_wf, memWrite_wf, OutcomeWf, Res.wf]
theorem execTagset_wf (a b : Nat) (s : State) (hs : Memory.wf s.mem) : OutcomeWf (execTagset a b s) := by
  unfold execTagset
  grind [finish_wf, atDword_wf, setFull_wf, OutcomeWf, Res.wf]
theorem execTagget_wf (d a : Nat) (s : State) (hs : Memory.wf s.mem) : OutcomeWf (execTagget d a s) := by
  unfold execTagget
  grind [finish_wf, atDword_wf, setA_mem, OutcomeWf, Res.wf]
theorem execAcq_wf (s : State) (hs : Memory.wf s.mem) : OutcomeWf (execAcq s) := by
  unfold execAcq
  grind [finish_wf, acquire_mem, OutcomeWf, Res.wf]
theorem execRel_wf (s : State) (hs : Memory.wf s.mem) : OutcomeWf (execRel s) := by
  unfold execRel
  grind [finish_wf, releaseWaits_wf, OutcomeWf, Res.wf]
theorem execFenceE_wf (a b : Nat) (s : State) (hs : Memory.wf s.mem) : OutcomeWf (execFenceE a b s) := by
  unfold execFenceE
  grind [finish_wf, counterAt_wf, readable_wf, drainTo_wf, acquire_mem, OutcomeWf, Res.wf]
@[simp] theorem fillLine_mem (s : State) (c : Nat) (n : Nat) (n1 : Nat) : (fillLine s c n n1).mem = s.mem := by
  fun_induction fillLine s c n n1 <;> grind [fillDword_mem]
@[simp] theorem dropSpec_mem (s : State) (core : Nat) : (dropSpec s core).mem = s.mem := rfl
theorem speculateAt_wf (s : State) (w : Who) (fill : Bool) (va : Word) (hs : Memory.wf s.mem) : Memory.wf (speculateAt s w fill va).mem := by
  unfold speculateAt
  grind [recallLines_wf, dropSpec_mem, fillLine_mem, cxlLines_mem]
theorem execPref_wf (a : Nat) (s : State) (hs : Memory.wf s.mem) : OutcomeWf (execPref a s) := by
  unfold execPref
  grind [finish_wf, speculateAt_wf, OutcomeWf, Res.wf]
theorem atomicAt_wf (s : State) (va : Word) (n : Nat) (upd : Bool) (k : State → Nat → Res) (hs : Memory.wf s.mem) (hk : ∀ t n, Memory.wf t.mem → Res.wf (k t n)) :
    Res.wf (atomicAt s va n upd k) := by
  unfold atomicAt
  grind [check_wf, readable_wf, Res.wf]
theorem settleBytes_wf (s : State) (key n : Nat) (hs : Memory.wf s.mem) : Memory.wf (settleBytes s key n).mem := by
  unfold settleBytes
  grind [drainWith_wf]
theorem atomicDo_wf (s : State) (va : Word) (key n op : Nat) (uns : Bool) (v cmp : Word) (k : State → Nat → Res) (hs : Memory.wf s.mem) (hk : ∀ t n, Memory.wf t.mem → Res.wf (k t n)) :
    Res.wf (atomicDo s va key n op uns v cmp k) := by
  unfold atomicDo
  grind [settleBytes_wf, drainTo_wf, recallLines_wf, cxlDelivers_mem, dropL1_mem, mend_mem, homeWrite_wf, Res.wf]
theorem atomicOp_wf (i : Instr) (d a b w op : Nat) (uns : Bool) (s : State) (hs : Memory.wf s.mem) : OutcomeWf (atomicOp i d a b w op uns s) := by
  unfold atomicOp
  grind [finish_wf, atomicAt_wf, atomicDo_wf, setA_mem, OutcomeWf, Res.wf]
theorem execAupd_wf (a b o u w : Nat) (s : State) (hs : Memory.wf s.mem) : OutcomeWf (execAupd a b o u w s) := by
  unfold execAupd
  grind [finish_wf, atomicAt_wf, atomicDo_wf, settleBytes_wf, OutcomeWf, Res.wf]

/-! ## Messages.lea -/
theorem sendTo_wf (s : State) (payload : Word) (len : Nat) (k : State → List Byte → Res) (hs : Memory.wf s.mem) (hk : ∀ t bs, Memory.wf t.mem → Res.wf (k t bs)) :
    Res.wf (sendTo s payload len k) := by
  unfold sendTo
  grind [checked_wf, load1_wf, releaseWaits_wf, Res.wf]
theorem sendBody_wf (a b p h : Nat) (s : State) (hs : Memory.wf s.mem) : Res.wf (sendBody a b p h s) := by
  unfold sendBody
  grind [sendTo_wf, inject_mem, Res.wf]
theorem execSend_wf (a b p h : Nat) (s : State) (hs : Memory.wf s.mem) : OutcomeWf (execSend a b p h s) := by
  unfold execSend
  grind [finish_wf, sendBody_wf, OutcomeWf, Res.wf]
theorem execSendi_wf (a b p h : Nat) (s : State) (hs : Memory.wf s.mem) : OutcomeWf (execSendi a b p h s) := by
  unfold execSendi
  grind [finish_wf, releaseWaits_wf, inject_mem, OutcomeWf, Res.wf]
@[simp] theorem armTrig_mem (s : State) (t : Trig) : (armTrig s t).mem = s.mem := by
  unfold armTrig
  grind [trigTest_mem, modCore_mem]
theorem execSpawn_wf (a b p h : Nat) (s : State) (hs : Memory.wf s.mem) : OutcomeWf (execSpawn a b p h s) := by
  unfold execSpawn
  grind [finish_wf, counterAt_wf, releaseWaits_wf, armTrig_mem, counterSet_wf, modCore_mem, OutcomeWf, Res.wf]
theorem execSpawnSequencerSend_wf (core : Nat) (s : State) (hs : Memory.wf s.mem) : OutcomeWf (execSpawnSequencerSend core s) := by
  unfold execSpawnSequencerSend
  grind [event_wf, inject_mem, modCore_mem, OutcomeWf, Res.wf]
theorem execXdsp_wf (a b p h : Nat) (s : State) (hs : Memory.wf s.mem) : OutcomeWf (execXdsp a b p h s) := by
  unfold execXdsp
  refine finish_wf _ _ _ _ (fun t ht => Place.get_wf _ _ _ ht (fun key => ?_)) hs
  dsimp only
  split
  · exact ht
  · split
    · exact ht
    · refine sendTo_wf _ _ _ _ ht (fun t bs ht => readable_wf _ _ _ _ _ (drainTo_wf _ _ _ ht) ?_)
      grind [drainTo_wf, Res.wf, inject_mem, memWrite_wf]

/-! ## Sync.lea -/
theorem atCounter_wf (s : State) (va : Word) (k : State → Nat → Res) (hs : Memory.wf s.mem) (hk : ∀ t n, Memory.wf t.mem → Res.wf (k t n)) :
    Res.wf (atCounter s va k) := by
  unfold atCounter
  grind [counterAt_wf, drainTo_wf, Res.wf]
theorem execCnti_wf (a b : Nat) (s : State) (hs : Memory.wf s.mem) : OutcomeWf (execCnti a b s) := by
  unfold execCnti
  grind [finish_wf, atCounter_wf, counterSet_wf, OutcomeWf, Res.wf]
theorem addCounter_wf (d a b : Nat) (s : State) (hs : Memory.wf s.mem) : Res.wf (addCounter d a b s) := by
  unfold addCounter
  grind [atCounter_wf, readable_wf, setA_mem, counterSet_wf, Res.wf]
theorem execCnta_wf (d a b : Nat) (s : State) (hs : Memory.wf s.mem) : OutcomeWf (execCnta d a b s) := by
  unfold execCnta
  grind [finish_wf, addCounter_wf, OutcomeWf, Res.wf]
theorem execCntaRel_wf (d a b : Nat) (s : State) (hs : Memory.wf s.mem) : OutcomeWf (execCntaRel d a b s) := by
  unfold execCntaRel
  grind [finish_wf, addCounter_wf, releaseWaits_wf, OutcomeWf, Res.wf]
theorem execCntw_wf (d a b : Nat) (s : State) (hs : Memory.wf s.mem) : OutcomeWf (execCntw d a b s) := by
  unfold execCntw
  grind [finish_wf, atCounter_wf, readable_wf, setA_mem, acquire_mem, OutcomeWf, Res.wf]
theorem execCntt_wf (d a b : Nat) (s : State) (hs : Memory.wf s.mem) : OutcomeWf (execCntt d a b s) := by
  unfold execCntt
  grind [finish_wf, counterAt_wf, readable_wf, armTrig_mem, releaseWaits_wf, OutcomeWf, Res.wf]
theorem writeBarrier_wf (s : State) (key : Nat) (b : Barrier) (hs : Memory.wf s.mem) : Memory.wf (writeBarrier s key b).mem := by
  unfold writeBarrier
  grind [memWrite_wf, wake_wf]
theorem barrierDeliver_wf (s : State) (key n : Nat) (hs : Memory.wf s.mem) : Memory.wf (barrierDeliver s key n).mem := by
  unfold barrierDeliver
  grind [writeBarrier_wf]
theorem atBarrier_wf (s : State) (va : Word) (operandOk : Bool) (k : State → Nat → Barrier → Res) (hs : Memory.wf s.mem) (hk : ∀ t n o, Memory.wf t.mem → Res.wf (k t n o)) :
    Res.wf (atBarrier s va operandOk k) := by
  unfold atBarrier
  grind [barrierAt_wf, drainTo_wf, readable_wf, Res.wf]
theorem execBarinit_wf (a b : Nat) (s : State) (hs : Memory.wf s.mem) : OutcomeWf (execBarinit a b s) := by
  unfold execBarinit
  grind [finish_wf, atBarrier_wf, writeBarrier_wf, OutcomeWf, Res.wf]
theorem execBararv_wf (d a : Nat) (s : State) (hs : Memory.wf s.mem) : OutcomeWf (execBararv d a s) := by
  unfold execBararv
  grind [finish_wf, atBarrier_wf, setA_mem, writeBarrier_wf, releaseWaits_wf, OutcomeWf, Res.wf]
theorem execBardrop_wf (a : Nat) (s : State) (hs : Memory.wf s.mem) : OutcomeWf (execBardrop a s) := by
  unfold execBardrop
  grind [finish_wf, atBarrier_wf, writeBarrier_wf, OutcomeWf, Res.wf]
theorem execBarwait_wf (a b : Nat) (s : State) (hs : Memory.wf s.mem) : OutcomeWf (execBarwait a b s) := by
  refine finish_wf _ _ _ s (fun t ht => atBarrier_wf t _ _ _ ht (fun u key o hu => ?_)) hs
  have ha : Memory.wf (acquire u (cxCore u)).mem := hu
  dsimp only
  split
  · exact hu
  · exact ite_wf ha ha
theorem execBartx_wf (a b : Nat) (s : State) (hs : Memory.wf s.mem) : OutcomeWf (execBartx a b s) := by
  unfold execBartx
  grind [finish_wf, atBarrier_wf, writeBarrier_wf, OutcomeWf, Res.wf]
theorem setDword_wf (s : State) (key : Nat) (v : Word) (hs : Memory.wf s.mem) : Memory.wf (setDword s key v).mem := by
  unfold setDword
  grind [memWrite_wf]
theorem setSlotState_wf (s : State) (r : Ring) (i v : Nat) (hs : Memory.wf s.mem) : Memory.wf (setSlotState s r i v).mem := by
  unfold setSlotState
  grind [memWrite_wf]
theorem ringWake_wf (s : State) (r : Ring) (hs : Memory.wf s.mem) : Memory.wf (ringWake s r).mem := by
  unfold ringWake
  grind [wake_wf]
theorem atRing_wf (s : State) (va : Word) (k : State → Ring → Res) (hs : Memory.wf s.mem) (hk : ∀ t r, Memory.wf t.mem → Res.wf (k t r)) :
    Res.wf (atRing s va k) := by
  unfold atRing
  refine Place.get_wf _ _ _ hs (fun key => readable_wf _ _ _ _ _ (drainTo_wf _ _ _ hs) ?_)
  grind [drainTo_wf, Res.wf]
theorem countPut_wf (r : Ring) (n : Nat) (s : State) (hs : Memory.wf s.mem) : Memory.wf (countPut r n s).mem := by
  fun_induction countPut r n s <;> grind [setDword_wf, setSlotState_wf]
theorem countFree_wf (r : Ring) (n : Nat) (s : State) (hs : Memory.wf s.mem) : Memory.wf (countFree r n s).mem := by
  fun_induction countFree r n s <;> grind [setDword_wf]
theorem statesGood_wf (s : State) (r : Ring) (va : Word) (l : List Nat) (res : Res) (hs : Memory.wf s.mem) (hres : Res.wf res) :
    Res.wf (statesGood s r va l res) := by
  unfold statesGood
  grind [Res.wf]
theorem ringPut_wf (s : State) (r : Ring) (i : Nat) (hs : Memory.wf s.mem) : Memory.wf (ringPut s r i).mem := by
  unfold ringPut
  grind [countPut_wf, setSlotState_wf, ringWake_wf]
theorem ringGet_wf (s : State) (r : Ring) (hs : Memory.wf s.mem) (t : State) (i : Nat) (hp : ringGet s r = some (t, i)) : Memory.wf t.mem := by
  simp only [ringGet, Option.ite_none_right_eq_some, Option.some.injEq, Prod.mk.injEq] at hp
  obtain ⟨_, rfl, _⟩ := hp
  exact setDword_wf _ _ _ hs
theorem ringFree'_wf (s : State) (r : Ring) (i c : Nat) (hs : Memory.wf s.mem) : Memory.wf (ringFree' s r i c).mem := by
  unfold ringFree'
  grind [countFree_wf, setSlotState_wf, ringWake_wf]
theorem execRget_wf (d a : Nat) (s : State) (hs : Memory.wf s.mem) : OutcomeWf (execRget d a s) := by
  unfold execRget
  refine finish_wf _ _ _ _ (fun t ht => atRing_wf _ _ _ ht (fun t r ht => ?_)) hs
  grind [ringGet_wf, Res.wf, setA_mem]
theorem execRput_wf (a b : Nat) (s : State) (hs : Memory.wf s.mem) : OutcomeWf (execRput a b s) := by
  unfold execRput
  grind [finish_wf, atRing_wf, statesGood_wf, ringPut_wf, releaseWaits_wf, OutcomeWf, Res.wf]
theorem execRtake_wf (d a b : Nat) (s : State) (hs : Memory.wf s.mem) : OutcomeWf (execRtake d a b s) := by
  unfold execRtake
  grind [finish_wf, atRing_wf, readable_wf, setA_mem, acquire_mem, setDword_wf, OutcomeWf, Res.wf]
theorem execRfree_wf (d a b : Nat) (s : State) (hs : Memory.wf s.mem) : OutcomeWf (execRfree d a b s) := by
  unfold execRfree
  grind [finish_wf, atRing_wf, statesGood_wf, ringFree'_wf, OutcomeWf, Res.wf]

/-! ## EngineOps.lea -/
theorem withSets_wf (s : State) (set k : Nat) (f : List Word → Res) (hs : Memory.wf s.mem) (hf : ∀ l, Res.wf (f l)) : Res.wf (withSets s set k f) := by
  unfold withSets
  grind [Res.wf]
theorem optCounter_wf (s : State) (va : Word) (k : Option Nat → Res) (hs : Memory.wf s.mem) (hk : ∀ o, Res.wf (k o)) : Res.wf (optCounter s va k) := by
  unfold optCounter
  grind [counterAt_wf, Res.wf]
theorem bumpDone_wf (s : State) (w : Who) (done : Option Nat) (hs : Memory.wf s.mem) : Memory.wf (bumpDone s w done).mem := by
  unfold bumpDone
  grind [counterAdd_wf]
@[simp] theorem enginePage_mem (s : State) (w : Who) (id : Nat) (va : Word) (wr : Bool) : (enginePage s w id va wr).mem = s.mem := by
  unfold enginePage
  grind [pageRequest_mem, modPkg_mem]
@[simp] theorem leaveLanding_mem (s : State) (pkg id : Nat) : (leaveLanding s pkg id).mem = s.mem := by
  unfold leaveLanding
  grind [modPkg_mem]
theorem engineCheck_wf (s : State) (w : Who) (id : Nat) (acc : Acc) (l : List (Word × Nat)) (hs : Memory.wf s.mem) :
    Memory.wf (engineCheck s w id acc l).1.mem := by
  unfold engineCheck
  grind [modPkg_mem, checkMany_wf, chkRes_wf, enginePage_mem, recallMany_wf]
theorem placesWrite_wf (s : State) (l : List Chk) (l1 : List (List Byte)) (hs : Memory.wf s.mem) : Memory.wf (placesWrite s l l1).mem := by
  fun_induction placesWrite s l l1 <;> grind [spansWrite_wf]
@[simp] theorem placesDeliver_mem (s : State) (w : Who) (f : Nat → Bool) (l : List (Word × Nat)) (l1 : List Chk) :
    (placesDeliver s w f l l1).mem = s.mem := by
  fun_induction placesDeliver s w f l l1 <;> grind [spansDeliver_mem]
theorem engineReadOn_wf (s : State) (w : Who) (id : Nat) (f : Nat → Bool) (l : List (Word × Nat)) (hs : Memory.wf s.mem) :
    Memory.wf (engineReadOn s w id f l).1.mem := by
  unfold engineReadOn
  grind [engineCheck_wf, placesDeliver_mem]
theorem engineRead_wf (s : State) (w : Who) (id : Nat) (l : List (Word × Nat)) (hs : Memory.wf s.mem) : Memory.wf (engineRead s w id l).1.mem := by
  unfold engineRead
  grind [engineReadOn_wf]
theorem accessTry_wf (s : State) (w : Who) (acc : Acc) (a : Word) (n : Nat) (hs : Memory.wf s.mem) : Memory.wf (accessTry s w acc a n).1.mem := by
  unfold accessTry
  grind [checkMany_wf, chkRes_wf, recallMany_wf]
theorem writeSome_wf (s : State) (w : Who) (l : List (Word × List Byte)) (hs : Memory.wf s.mem) : Memory.wf (writeSome s w l).1.mem := by
  unfold writeSome
  refine foldl_pair_wf _ (fun p e hp => ?_) _ _ hs
  grind [accessTry_wf, placesWrite_wf]
theorem writeFailed_wf (s : State) (w : Who) (l : List (Word × List Byte)) (x : EngRes) (hs : Memory.wf s.mem) :
    Memory.wf (writeFailed s w l x).1.mem := by
  unfold writeFailed
  grind [writeSome_wf]
theorem copyPieces_wf (s : State) (w : Who) (l) (hs : Memory.wf s.mem) : Memory.wf (copyPieces s w l).1.mem := by
  unfold copyPieces
  refine foldl_pair_wf _ (fun p e hp => ?_) _ _ hs
  grind [accessTry_wf]
theorem copyFailed_wf (s : State) (w : Who) (l : List (Word × Word × Nat)) (r : EngRes) (hs : Memory.wf s.mem) :
    Memory.wf (copyFailed s w l r).1.mem := by
  unfold copyFailed
  grind [copyPieces_wf, writeSome_wf, freeStep_mem]
theorem engineWrite_wf (s : State) (w : Who) (id : Nat) (l : List (Word × List Byte)) (hs : Memory.wf s.mem) :
    Memory.wf (engineWrite s w id l).1.mem := by
  unfold engineWrite
  grind [engineCheck_wf, placesWrite_wf]
@[simp] theorem finishEng_mem (s : State) (core id code detail : Nat) (at_ : Word) : (finishEng s core id code detail at_).mem = s.mem := by
  unfold finishEng
  grind [uncAt_mem, modCore_mem, leaveLanding_mem]

/-! ## NearBank.lea -/
theorem nbOperand_wf (s : State) (w : Who) (acc : Acc) (va : Word) (n : Nat) (hs : Memory.wf s.mem) : Memory.wf (nbOperand s w acc va n).1.mem := by
  unfold nbOperand
  grind [translate_wf]
theorem nbCheck_wf (s : State) (w : Who) (op f : Nat) (dst src : Word) (n : Nat) (hs : Memory.wf s.mem) :
    Memory.wf (nbCheck s w op f dst src n).1.mem := by
  unfold nbCheck
  grind [nbOperand_wf]
theorem nbCheckAll_wf (s : State) (w : Who) (op f n : Nat) (l : List (Word × Word)) (hs : Memory.wf s.mem) :
    Memory.wf (nbCheckAll s w op f n l).1.mem := by
  fun_induction nbCheckAll s w op f n l <;> grind [nbCheck_wf]
theorem nbRead_wf (s : State) (pkg pa n : Nat) (hs : Memory.wf s.mem) : Memory.wf (nbRead s pkg pa n).1.mem := by
  unfold nbRead
  grind [recallLines_wf]
theorem nbWrite_wf (s : State) (pkg pa : Nat) (bs : List Byte) (hs : Memory.wf s.mem) : Memory.wf (nbWrite s pkg pa bs).mem := by
  unfold nbWrite
  grind [mend_mem, homeWrite_wf]
theorem nbBlock_wf (s : State) (pkg op f scal : Nat) (dst src : Word) (d c : Nat) (o : Nat) (hs : Memory.wf s.mem) :
    Memory.wf (nbBlock s pkg op f scal dst src d c o).1.mem := by
  unfold nbBlock
  grind [nbRead_wf, nbWrite_wf]
theorem nbBlocks_wf (s : State) (pkg op f scal : Nat) (dst src : Word) (d c : Nat) (l : List Nat) (n : Nat) (hs : Memory.wf s.mem) :
    Memory.wf (nbBlocks s pkg op f scal dst src d c l n).1.mem := by
  fun_induction nbBlocks s pkg op f scal dst src d c l n <;> grind [nbBlock_wf]
theorem nbTotal_wf (s : State) (pkg f : Nat) (src : Word) (c : Nat) (l : List Nat) (n : Nat) (hs : Memory.wf s.mem) :
    Memory.wf (nbTotal s pkg f src c l n).1.mem := by
  fun_induction nbTotal s pkg f src c l n <;> grind [nbRead_wf]
theorem nbPass_wf (s : State) (pkg op f scal : Nat) (dst src : Word) (d c n : Nat) (hs : Memory.wf s.mem) :
    Memory.wf (nbPass s pkg op f scal dst src d c n).1.mem := by
  unfold nbPass
  grind [nbTotal_wf, nbRead_wf, nbWrite_wf, nbBlocks_wf]
theorem nbRunAll_wf (s : State) (pkg op f scal n : Nat) (l : List (Word × Word)) (l1 : List (Nat × Nat)) (n1 : Nat) (hs : Memory.wf s.mem) :
    Memory.wf (nbRunAll s pkg op f scal n l l1 n1).1.mem := by
  fun_induction nbRunAll s pkg op f scal n l l1 n1 <;> grind [nbPass_wf]
theorem nbCommand_wf (s : State) (w : Who) (op f scal n : Nat) (passes : List (Word × Word)) (hs : Memory.wf s.mem) :
    Memory.wf (nbCommand s w op f scal n passes).1.mem := by
  unfold nbCommand
  grind [nbCheckAll_wf, nbRunAll_wf]

/-! ## Vector.lea -/
theorem tagTrap_wf (s : State) (operand : Nat) (v : VReg) (hs : Memory.wf s.mem) : Res.wf (tagTrap s operand v) := by
  unfold tagTrap
  grind [Res.wf]
theorem lanes_wf (s : State) (d w n : Nat) (mask : Nat → Bool) (tag planes : Nat) (f : Nat → Nat × Nat) (hs : Memory.wf s.mem) :
    Res.wf (lanes s d w n mask tag planes f) := by
  unfold lanes
  grind [orFlags_mem, setVPart_mem, Res.wf]
theorem vop2_wf (i : Instr) (d a b m : Nat) (ok : Nat → Bool) (f : Nat → Nat → Nat → Nat × Nat) (s : State) (hs : Memory.wf s.mem) :
    OutcomeWf (vop2 i d a b m ok f s) := by
  unfold vop2
  grind [finish_wf, tagTrap_wf, lanes_wf, OutcomeWf, Res.wf]
theorem vop3_wf (i : Instr) (d a b m : Nat) (f : Nat → Nat → Nat → Nat → Nat × Nat) (s : State) (hs : Memory.wf s.mem) :
    OutcomeWf (vop3 i d a b m f s) := by
  unfold vop3
  grind [finish_wf, tagTrap_wf, lanes_wf, OutcomeWf, Res.wf]
theorem vop1_wf (i : Instr) (d a m : Nat) (ok : Nat → Bool) (f : Nat → Nat → Nat × Nat) (s : State) (hs : Memory.wf s.mem) :
    OutcomeWf (vop1 i d a m ok f s) := by
  unfold vop1
  grind [finish_wf, tagTrap_wf, lanes_wf, OutcomeWf, Res.wf]
theorem vlogic_wf (i : Instr) (d a b m : Nat) (f : Nat → Nat → Nat) (s : State) (hs : Memory.wf s.mem) : OutcomeWf (vlogic i d a b m f s) := by
  unfold vlogic
  grind [finish_wf, lanes_wf, OutcomeWf, Res.wf]
theorem execVcmp_wf (d a b m c : Nat) (s : State) (hs : Memory.wf s.mem) : OutcomeWf (execVcmp d a b m c s) := by
  unfold execVcmp
  grind [finish_wf, tagTrap_wf, orFlags_mem, setM_mem, OutcomeWf, Res.wf]
theorem execVsel_wf (d a b m : Nat) (s : State) (hs : Memory.wf s.mem) : OutcomeWf (execVsel d a b m s) := by
  unfold execVsel
  grind [finish_wf, tagTrap_wf, lanes_wf, OutcomeWf, Res.wf]
theorem execVcvt_wf (d a r m t : Nat) (s : State) (hs : Memory.wf s.mem) : OutcomeWf (execVcvt d a r m t s) := by
  unfold execVcvt
  grind [finish_wf, tagTrap_wf, setV_mem, orFlags_mem, modCx_mem, OutcomeWf, Res.wf]
theorem execVpack_wf (d a b : Nat) (s : State) (hs : Memory.wf s.mem) : OutcomeWf (execVpack d a b s) := by
  unfold execVpack
  grind [finish_wf, tagTrap_wf, setV_mem, OutcomeWf, Res.wf]
theorem execVunpk_wf (d a h : Nat) (s : State) (hs : Memory.wf s.mem) : OutcomeWf (execVunpk d a h s) := by
  unfold execVunpk
  grind [finish_wf, setV_mem, OutcomeWf, Res.wf]
theorem execVsplat_wf (d a t m : Nat) (s : State) (hs : Memory.wf s.mem) : OutcomeWf (execVsplat d a t m s) := by
  unfold execVsplat
  grind [finish_wf, lanes_wf, OutcomeWf, Res.wf]
theorem execVext_wf (d a b : Nat) (s : State) (hs : Memory.wf s.mem) : OutcomeWf (execVext d a b s) := by
  unfold execVext
  grind [finish_wf, setA_mem, OutcomeWf, Res.wf]
theorem execVins_wf (d a b : Nat) (s : State) (hs : Memory.wf s.mem) : OutcomeWf (execVins d a b s) := by
  unfold execVins
  grind [finish_wf, lanes_wf, OutcomeWf, Res.wf]
theorem execVperm_wf (d a b m : Nat) (s : State) (hs : Memory.wf s.mem) : OutcomeWf (execVperm d a b m s) := by
  unfold execVperm
  grind [finish_wf, tagTrap_wf, lanes_wf, OutcomeWf, Res.wf]
theorem execVred_wf (d a m o : Nat) (s : State) (hs : Memory.wf s.mem) : OutcomeWf (execVred d a m o s) := by
  unfold execVred
  grind [finish_wf, tagTrap_wf, orFlags_mem, setV_mem, OutcomeWf, Res.wf]
theorem execVscan_wf (d a m o : Nat) (s : State) (hs : Memory.wf s.mem) : OutcomeWf (execVscan d a m o s) := by
  unfold execVscan
  grind [finish_wf, tagTrap_wf, orFlags_mem, setV_mem, OutcomeWf, Res.wf]
theorem execVband_wf (d a b m : Nat) (s : State) (hs : Memory.wf s.mem) : OutcomeWf (execVband d a b m s) := by
  unfold execVband
  grind [finish_wf, tagTrap_wf, lanes_wf, OutcomeWf, Res.wf]
theorem execVpopp_wf (d a m : Nat) (s : State) (hs : Memory.wf s.mem) : OutcomeWf (execVpopp d a m s) := by
  unfold execVpopp
  grind [finish_wf, tagTrap_wf, lanes_wf, OutcomeWf, Res.wf]
theorem execVisect_wf (d a b m : Nat) (s : State) (hs : Memory.wf s.mem) : OutcomeWf (execVisect d a b m s) := by
  unfold execVisect
  grind [finish_wf, tagTrap_wf, setV_mem, OutcomeWf, Res.wf]
theorem execVnzs_wf (d a m : Nat) (s : State) (hs : Memory.wf s.mem) : OutcomeWf (execVnzs d a m s) := by
  unfold execVnzs
  grind [finish_wf, tagTrap_wf, setV_mem, OutcomeWf, Res.wf]
theorem execVmovmMaskToVector_wf (d a : Nat) (s : State) (hs : Memory.wf s.mem) : OutcomeWf (execVmovmMaskToVector d a s) := by
  unfold execVmovmMaskToVector
  grind [finish_wf, setV_mem, OutcomeWf, Res.wf]
theorem execVmovmVectorToMask_wf (d a : Nat) (s : State) (hs : Memory.wf s.mem) : OutcomeWf (execVmovmVectorToMask d a s) := by
  unfold execVmovmVectorToMask
  grind [finish_wf, setM_mem, OutcomeWf, Res.wf]
theorem execMand_wf (d a b : Nat) (s : State) (hs : Memory.wf s.mem) : OutcomeWf (execMand d a b s) := by
  unfold execMand
  grind [finish_wf, setM_mem, OutcomeWf, Res.wf]
theorem execMor_wf (d a b : Nat) (s : State) (hs : Memory.wf s.mem) : OutcomeWf (execMor d a b s) := by
  unfold execMor
  grind [finish_wf, setM_mem, OutcomeWf, Res.wf]
theorem execMnot_wf (d a : Nat) (s : State) (hs : Memory.wf s.mem) : OutcomeWf (execMnot d a s) := by
  unfold execMnot
  grind [finish_wf, setM_mem, OutcomeWf, Res.wf]
theorem execMpop_wf (d a : Nat) (s : State) (hs : Memory.wf s.mem) : OutcomeWf (execMpop d a s) := by
  unfold execMpop
  grind [finish_wf, setA_mem, OutcomeWf, Res.wf]

/-! ## Skidder.lea -/
@[simp] theorem setStream_mem (s : State) (pkg key : Nat) (st : Stream) : (setStream s pkg key st).mem = s.mem := rfl
theorem deliverTile_wf (s : State) (st : Stream) (tile : List Byte) (hs : Memory.wf s.mem) : Memory.wf (deliverTile s st tile).mem := by
  unfold deliverTile
  refine foldl_wf _ (fun t x ht => ringPut_wf _ _ _ ?_) _ _ (foldl_pair_wf _ (fun p r hp => ?_) _ _ hs)
  · rw [mend_mem]; exact memWrite_wf _ _ _ ht
  · grind [ringGet_wf]
theorem freePassed_wf (s : State) (st : Stream) (n : Nat) (hs : Memory.wf s.mem) (t : State) (u : Stream) (hp : freePassed s st n = .ok (t, u)) : Memory.wf t.mem := by
  unfold freePassed at hp
  grind [foldl_wf, ringFree'_wf]
@[simp] theorem kClose_mem (pkg key : Nat) (s : State) : (kClose pkg key s).mem = s.mem := by
  unfold kClose
  grind [finishEng_mem, setStream_mem]
@[simp] theorem endStream_mem (s : State) (pkg key : Nat) (st : Stream) (code detail : Nat) (at_ : Word) :
    (endStream s pkg key st code detail at_).mem = s.mem := by
  unfold endStream
  grind [kClose_mem, setStream_mem]
@[simp] theorem runError_mem (s : State) (pkg key : Nat) (st : Stream) (el isl kind wave : Nat) :
    (runError s pkg key st el isl kind wave).mem = s.mem := by
  unfold runError
  grind [endStream_mem]
theorem passIdle_wf (pkg key : Nat) (s : State) (hs : Memory.wf s.mem) : Memory.wf (passIdle pkg key s).mem := by
  unfold passIdle
  grind [freePassed_wf, setStream_mem, endStream_mem]
theorem kEvent_wf (pkg key : Nat) (s : State) (hs : Memory.wf s.mem) : OutcomeWf (kEvent pkg key s) := by
  unfold kEvent
  grind [event_wf, kClose_mem, passIdle_wf, OutcomeWf, Res.wf]
theorem kPure_wf (op : Nat) (f : Nat → Token → Token → Nat → Nat → Token) (pkg stk slot el isl : Nat) (s : State) (hs : Memory.wf s.mem) :
    OutcomeWf (kPure op f pkg stk slot el isl s) := by
  unfold kPure
  grind [kEvent_wf, setStream_mem, OutcomeWf, Res.wf]
theorem execKcvt_wf (pkg stk slot el isl : Nat) (s : State) (hs : Memory.wf s.mem) : OutcomeWf (execKcvt pkg stk slot el isl s) := by
  unfold execKcvt
  grind [kEvent_wf, setStream_mem, freeStep_mem, OutcomeWf, Res.wf]
theorem kPreds_wf (op : Nat) (f : Nat → Nat → Nat) (pkg stk slot el isl : Nat) (s : State) (hs : Memory.wf s.mem) :
    OutcomeWf (kPreds op f pkg stk slot el isl s) := by
  unfold kPreds
  grind [kEvent_wf, setStream_mem, OutcomeWf, Res.wf]
theorem execKred_wf (pkg stk slot el isl : Nat) (s : State) (hs : Memory.wf s.mem) : OutcomeWf (execKred pkg stk slot el isl s) := by
  unfold execKred
  grind [kEvent_wf, setStream_mem, freeStep_mem, OutcomeWf, Res.wf]
@[simp] theorem skidLines_mem (s : State) (pkg stk : Nat) (st : Stream) (va : Word) (n : Nat) (goesOn : Bool) :
    (skidLines s pkg stk st va n goesOn).mem = s.mem := by
  unfold skidLines
  exact foldl_mem _ (fun t x => by grind [hotCount_mem]) _ _
theorem skidRead_wf (s : State) (pkg key : Nat) (st : Stream) (va : Word) (n : Nat) (goesOn : Bool) (hs : Memory.wf s.mem) :
    Memory.wf (skidRead s pkg key st va n goesOn).1.mem := by
  unfold skidRead
  grind [engineReadOn_wf, setStream_mem, endStream_mem]
theorem skidWrite_wf (s : State) (pkg key : Nat) (st : Stream) (va : Word) (bs : List Byte) (hs : Memory.wf s.mem) :
    Memory.wf (skidWrite s pkg key st va bs).1.mem := by
  unfold skidWrite
  grind [engineWrite_wf, setStream_mem, endStream_mem, writeFailed_wf]
theorem takeBytes_wf (s : State) (st : Stream) (n : Nat) (hs : Memory.wf s.mem) (t u x) (hp : takeBytes s st n = some (t, u, x)) : Memory.wf t.mem := by
  unfold takeBytes at hp
  cases htake : st.taking with
  | none => grind [setDword_wf, Option.map_eq_some_iff]
  | some x => grind [Option.map_eq_some_iff]
theorem execKdeq_wf (pkg stk slot el isl : Nat) (s : State) (hs : Memory.wf s.mem) : OutcomeWf (execKdeq pkg stk slot el isl s) := by
  unfold execKdeq
  refine kEvent_wf _ _ _ ?_
  grind [takeBytes_wf, setStream_mem, endStream_mem, skidRead_wf, skidLines_mem]
theorem execKenq_wf (pkg stk slot el isl : Nat) (s : State) (hs : Memory.wf s.mem) : OutcomeWf (execKenq pkg stk slot el isl s) := by
  unfold execKenq
  refine kEvent_wf _ _ _ ?_
  grind [freePassed_wf, setStream_mem, endStream_mem, skidWrite_wf, skidLines_mem, runError_mem, freeStep_mem, deliverTile_wf]
@[simp] theorem genStep_mem (s : State) (pkg key : Nat) (st : Stream) (el : Nat) (e : Elem) (g : GenState) :
    (genStep s pkg key st el e g).mem = s.mem := by
  unfold genStep
  grind [setStream_mem, runError_mem]
@[simp] theorem genStart_mem (s : State) (pkg key : Nat) (st : Stream) (el isl : Nat) (e e0 : Elem) (w : Nat) :
    (genStart s pkg key st el isl e e0 w).mem = s.mem := by
  unfold genStart
  grind [freeStep_mem, setStream_mem]
theorem execKlgen_wf (pkg stk slot el isl : Nat) (s : State) (hs : Memory.wf s.mem) : OutcomeWf (execKlgen pkg stk slot el isl s) := by
  unfold execKlgen
  grind [kEvent_wf, genStep_mem, genStart_mem, OutcomeWf, Res.wf]
theorem memRead_wf (s : State) (pkg key stk : Nat) (st : Stream) (e : Elem) (w : Nat) (t : Token) (hs : Memory.wf s.mem) :
    Memory.wf (memRead s pkg key stk st e w t).1.mem := by
  unfold memRead
  grind [skidRead_wf, skidLines_mem]
theorem memWriteElem_wf (s : State) (pkg key stk : Nat) (st : Stream) (e : Elem) (w : Nat) (t d : Token) (hs : Memory.wf s.mem) :
    Memory.wf (memWriteElem s pkg key stk st e w t d).1.mem := by
  unfold memWriteElem
  grind [skidWrite_wf, skidLines_mem]
theorem execKmrd_wf (pkg stk slot el isl : Nat) (s : State) (hs : Memory.wf s.mem) : OutcomeWf (execKmrd pkg stk slot el isl s) := by
  unfold execKmrd
  grind [kEvent_wf, memRead_wf, setStream_mem, OutcomeWf, Res.wf]
theorem execKmwr_wf (pkg stk slot el isl : Nat) (s : State) (hs : Memory.wf s.mem) : OutcomeWf (execKmwr pkg stk slot el isl s) := by
  unfold execKmwr
  grind [kEvent_wf, runError_mem, memWriteElem_wf, setStream_mem, freeStep_mem, OutcomeWf, Res.wf]
theorem kNear_wf (op nb pkg stk slot el isl : Nat) (s : State) (hs : Memory.wf s.mem) : OutcomeWf (kNear op nb pkg stk slot el isl s) := by
  unfold kNear
  grind [kEvent_wf, nbCommand_wf, setStream_mem, freeStep_mem, endStream_mem, OutcomeWf, Res.wf]
theorem waveCheck_wf (s : State) (key : Nat) (st : Stream) (e : Elem) (l : List Nat) (hs : Memory.wf s.mem) :
    Memory.wf (waveCheck s key st e l).1.mem := by
  fun_induction waveCheck s key st e l <;> grind [engineCheck_wf]
theorem waveRun_wf (s : State) (pkg key stk : Nat) (st : Stream) (el : Nat) (e : Elem) (l : List Nat) (l1 : List (Nat × Token)) (hs : Memory.wf s.mem) :
    Memory.wf (waveRun s pkg key stk st el e l l1).1.mem := by
  fun_induction waveRun s pkg key stk st el e l l1 <;> grind [memRead_wf, memWriteElem_wf, freeStep_mem]
theorem waveMarkers_mem  (l ws) (s : State) : (waveMarkers l ws s).1.mem = s.mem := by
  unfold waveMarkers
  refine List.foldlRecOn (motive := fun (p : State × List (Nat × Token)) => p.1.mem = s.mem) _ _ rfl (fun p hp w _ => ?_)
  grind [freeStep_mem]
theorem execWave_wf (pkg stk slot el : Nat) (s : State) (hs : Memory.wf s.mem) : OutcomeWf (execWave pkg stk slot el s) := by
  unfold execWave
  grind [kEvent_wf, setStream_mem, runError_mem, waveMarkers_mem, waveCheck_wf, waveRun_wf, OutcomeWf, Res.wf]

/-! ## Engines.lea -/
theorem withPlace_wf (s : State) (unit : Nat) (k : Nat → Res) (hs : Memory.wf s.mem) (hk : ∀ n, Res.wf (k n)) : Res.wf (withPlace s unit k) := by
  unfold withPlace
  grind [Res.wf]
@[simp] theorem addOp_mem (s : State) (unit : Nat) (i : Instr) (a b : Word) (sets : List Word) (opt : Nat) :
    (addOp s unit i a b sets opt).mem = s.mem := rfl
theorem headerOk_wf (s : State) (l : List Word) (k : Res) (hs : Memory.wf s.mem) (hk : Res.wf k) : Res.wf (headerOk s l k) := by
  unfold headerOk
  grind [optCounter_wf, barrierAt_wf, Res.wf]
theorem issueEngine_wf (i : Instr) (unit n k a b opt : Nat) (ok : State → List Word → Bool) (s : State) (hs : Memory.wf s.mem) :
    OutcomeWf (issueEngine i unit n k a b opt ok s) := by
  unfold issueEngine
  grind [finish_wf, withSets_wf, headerOk_wf, withPlace_wf, addOp_mem, OutcomeWf, Res.wf]
theorem execEbind_wf (a b n : Nat) (s : State) (hs : Memory.wf s.mem) : OutcomeWf (execEbind a b n s) := by
  unfold execEbind
  grind [finish_wf, withSets_wf, headerOk_wf, withPlace_wf, setStream_mem, addOp_mem, OutcomeWf, Res.wf]
theorem addConsumer_wf (s : State) (r : Ring) (c : Nat) (hs : Memory.wf s.mem) : Memory.wf (addConsumer s r c).mem := by
  unfold addConsumer
  grind [memWrite_wf]
theorem execEsub_wf (a b : Nat) (s : State) (hs : Memory.wf s.mem) : OutcomeWf (execEsub a b s) := by
  unfold execEsub
  grind [finish_wf, atRing_wf, setStream_mem, addConsumer_wf, OutcomeWf, Res.wf]
theorem execQload_wf (a b n : Nat) (s : State) (hs : Memory.wf s.mem) : OutcomeWf (execQload a b n s) := by
  unfold execQload
  grind [finish_wf, withSets_wf, headerOk_wf, withPlace_wf, addOp_mem, OutcomeWf, Res.wf]
@[simp] theorem joinPlay_mem (s : State) (slot : Nat) (p : Plan) (j : Joined) : (joinPlay s slot p j).mem = s.mem := by
  unfold joinPlay
  grind
theorem execQplay_wf (a n : Nat) (s : State) (hs : Memory.wf s.mem) : OutcomeWf (execQplay a n s) := by
  unfold execQplay
  grind [finish_wf, withSets_wf, headerOk_wf, withPlace_wf, joinPlay_mem, addOp_mem, OutcomeWf, Res.wf]

/-! ## Collectives.lea -/
@[simp] theorem beginPlay_mem (s : State) (pkg core id : Nat) : (beginPlay s pkg core id).mem = s.mem := by
  unfold beginPlay
  grind
@[simp] theorem modPlay_mem (s : State) (i : Nat) (f : Play → Play) : (modPlay s i f).mem = s.mem := rfl
theorem execChunkStart_wf (play chunk : Nat) (s : State) (hs : Memory.wf s.mem) : OutcomeWf (execChunkStart play chunk s) := by
  unfold execChunkStart
  grind [event_wf, modPlay_mem, OutcomeWf, Res.wf]
theorem readContribs_wf (s : State) (y : Play) (c : Chunk) (l : List Nat) (hs : Memory.wf s.mem) : Memory.wf (readContribs s y c l).1.mem := by
  fun_induction readContribs s y c l <;> grind [engineRead_wf]
@[simp] theorem endMember_mem (s : State) (play : Nat) (j : Joined) (code detail : Nat) (at_ : Word) :
    (endMember s play j code detail at_).mem = s.mem := by
  unfold endMember
  grind [finishEng_mem, modPlay_mem]
@[simp] theorem endMembers_mem (s : State) (play : Nat) : (endMembers s play).mem = s.mem := by
  unfold endMembers
  grind [endMember_mem, foldl_mem]
@[simp] theorem endPlay_mem (s : State) (play cause : Nat) : (endPlay s play cause).mem = s.mem := by
  unfold endPlay
  grind [endMembers_mem, modPlay_mem]
@[simp] theorem abortPlay_mem (s : State) (play cause : Nat) : (abortPlay s play cause).mem = s.mem := by
  unfold abortPlay
  grind [endPlay_mem]
@[simp] theorem startPlay_mem (s : State) (core id : Nat) : (startPlay s core id).mem = s.mem := by
  unfold startPlay
  grind [endMembers_mem]
theorem gatherChunk_wf (s : State) (play chunk : Nat) (y : Play) (c : Chunk) (x : ChunkState) (hs : Memory.wf s.mem) :
    Memory.wf (gatherChunk s play chunk y c x).mem := by
  unfold gatherChunk
  grind [readContribs_wf, abortPlay_mem, uncAt_mem, endMember_mem, modPlay_mem]
theorem deliverTo_wf (s : State) (play chunk : Nat) (c : Chunk) (alt : Bool) (bs : List Byte) (m : Nat) (hs : Memory.wf s.mem) :
    Memory.wf (deliverTo s play chunk c alt bs m).mem := by
  unfold deliverTo
  grind [modPlay_mem, engineWrite_wf, endMember_mem]
@[simp] theorem acknowledged_mem (s : State) (play chunk : Nat) (c : Chunk) (x : ChunkState) : (acknowledged s play chunk c x).mem = s.mem := by
  unfold acknowledged
  grind [modPlay_mem, endPlay_mem]
theorem execChunkCompletion_wf (play chunk : Nat) (s : State) (hs : Memory.wf s.mem) : OutcomeWf (execChunkCompletion play chunk s) := by
  unfold execChunkCompletion
  grind [event_wf, gatherChunk_wf, acknowledged_mem, deliverTo_wf, OutcomeWf, Res.wf, foldl_wf]
theorem execChunkRedo_wf (play chunk : Nat) (s : State) (hs : Memory.wf s.mem) : OutcomeWf (execChunkRedo play chunk s) := by
  unfold execChunkRedo
  grind [event_wf, modPlay_mem, OutcomeWf, Res.wf]
@[simp] theorem rerouteThePlays_mem (s : State) : (rerouteThePlays s).mem = s.mem := rfl
theorem execPlayAbort_wf (play cause : Nat) (s : State) (hs : Memory.wf s.mem) : OutcomeWf (execPlayAbort play cause s) := by
  unfold execPlayAbort
  grind [event_wf, endMembers_mem, abortPlay_mem, OutcomeWf, Res.wf]

/-! ## Matrix.lea -/
@[simp] theorem setTile_mem (s : State) (g t : Nat) (z : Tile) : (setTile s g t z).mem = s.mem := rfl
theorem ownerNotice_wf (s : State) (op : SawOp) (t : Nat) (hs : Memory.wf s.mem) : Memory.wf (ownerNotice s op t).mem := by
  unfold ownerNotice
  grind [memNotice_wf]
theorem ownedTile_wf (s : State) (op : SawOp) (t : Nat) (f : Tile → State) (hs : Memory.wf s.mem) (hf : ∀ z, Memory.wf (f z).mem) :
    Memory.wf (ownedTile s op t f).mem := by
  unfold ownedTile
  grind [ownerNotice_wf]
theorem doRun_wf (s : State) (op : SawOp) (st : Staged) (hs : Memory.wf s.mem) : Memory.wf (doRun s op st).mem := by
  unfold doRun
  grind [ownerNotice_wf, setTile_mem]
theorem doZero_wf (s : State) (op : SawOp) (t mode : Nat) (hs : Memory.wf s.mem) : Memory.wf (doZero s op t mode).mem := by
  unfold doZero
  grind [setTile_mem, ownerNotice_wf]
theorem doLoad_wf (s : State) (op : SawOp) (isB : Bool) (ctl : Word) (st : Staged) (hs : Memory.wf s.mem) : Memory.wf (doLoad s op isB ctl st).mem := by
  unfold doLoad
  grind [modGrove_mem, memNotice_wf]
theorem doStore_wf (s : State) (op : SawOp) (dst stride : Word) (t : Nat) (cvt : Bool) (hs : Memory.wf s.mem) :
    Memory.wf (doStore s op dst stride t cvt).1.mem := by
  unfold doStore
  extract_lets g z
  generalize (List.range 64).map (fun i => (dst + word i * stride, tileRow z i cvt)) = l
  have hw := engineWrite_wf s (hwWho op.core op.job) (sawId g) l hs
  grind [ownerNotice_wf, setTile_mem]
theorem doScale_wf (s : State) (op : SawOp) (t : Nat) (rows cols : List Word) (pl : Bool) (hs : Memory.wf s.mem) :
    Memory.wf (doScale s op t rows cols pl).mem := by
  unfold doScale
  grind [ownedTile_wf, setTile_mem]
@[simp] theorem countStart_mem (s : State) (p : Nat) : (countStart s p).mem = s.mem := rfl
theorem execSawmillStart_wf (grove : Nat) (s : State) (hs : Memory.wf s.mem) : OutcomeWf (execSawmillStart grove s) := by
  unfold execSawmillStart
  grind [event_wf, uncBump_mem, countStart_mem, modGrove_mem, OutcomeWf, Res.wf]
theorem execSawmillCompletion_wf (grove : Nat) (s : State) (hs : Memory.wf s.mem) : OutcomeWf (execSawmillCompletion grove s) := by
  unfold execSawmillCompletion
  grind [event_wf, doZero_wf, doLoad_wf, doRun_wf, doStore_wf, doScale_wf, bumpDone_wf, modGrove_mem, OutcomeWf, Res.wf, foldl_wf]
theorem execSawmillQueueEntry_wf (grove n : Nat) (s : State) (hs : Memory.wf s.mem) : OutcomeWf (execSawmillQueueEntry grove n s) := by
  unfold execSawmillQueueEntry
  grind [event_wf, modGrove_mem, OutcomeWf, Res.wf]
theorem queueIssue_wf (s : State) (o room : Obj) (wait queue : List SawOp) (op : SawOp) (put : Bool → State) (hs : Memory.wf s.mem) (hput : ∀ b, Memory.wf (put b).mem) :
    Res.wf (queueIssue s o room wait queue op put) := by
  unfold queueIssue
  grind [Res.wf]
theorem sawIssue_wf (s : State) (op : SawOp) (hs : Memory.wf s.mem) : Res.wf (sawIssue s op) := by
  unfold sawIssue
  grind [queueIssue_wf, modGrove_mem, Res.wf]
theorem withCounters_wf (s : State) (l : List Word) (op : SawOp) (k : SawOp → Res) (hs : Memory.wf s.mem) (hk : ∀ op, Res.wf (k op)) :
    Res.wf (withCounters s l op k) := by
  unfold withCounters
  grind [optCounter_wf, Res.wf]
theorem ctlTrap_wf (s : State) (x : Word) (c : CtlCheck) (k : Res) (hs : Memory.wf s.mem) (hk : Res.wf k) : Res.wf (ctlTrap s x c k) := by
  unfold ctlTrap
  grind [Res.wf]
theorem execMzero_wf (m t : Nat) (s : State) (hs : Memory.wf s.mem) : OutcomeWf (execMzero m t s) := by
  unfold execMzero
  grind [finish_wf, sawIssue_wf, OutcomeWf, Res.wf]
theorem latchLoad_wf (i : Instr) (a b : Nat) (isB : Bool) (s : State) (hs : Memory.wf s.mem) : Res.wf (latchLoad i a b isB s) := by
  unfold latchLoad
  grind [sawIssue_wf, releaseWaits_wf, Res.wf]
theorem execMlda_wf (a b : Nat) (s : State) (hs : Memory.wf s.mem) : OutcomeWf (execMlda a b s) := by
  unfold execMlda
  grind [finish_wf, latchLoad_wf, OutcomeWf, Res.wf]
theorem execMldb_wf (a b : Nat) (s : State) (hs : Memory.wf s.mem) : OutcomeWf (execMldb a b s) := by
  unfold execMldb
  grind [finish_wf, latchLoad_wf, OutcomeWf, Res.wf]
theorem execMpost_wf (a b : Nat) (s : State) (hs : Memory.wf s.mem) : OutcomeWf (execMpost a b s) := by
  unfold execMpost
  grind [finish_wf, ctlTrap_wf, sawIssue_wf, releaseWaits_wf, OutcomeWf, Res.wf]
theorem execMop_wf (a b n : Nat) (s : State) (hs : Memory.wf s.mem) : OutcomeWf (execMop a b n s) := by
  unfold execMop
  grind [finish_wf, withSets_wf, ctlTrap_wf, withCounters_wf, sawIssue_wf, OutcomeWf, Res.wf]
theorem execMopm_wf (a b k n : Nat) (s : State) (hs : Memory.wf s.mem) : OutcomeWf (execMopm a b k n s) := by
  unfold execMopm
  grind [finish_wf, withSets_wf, ctlTrap_wf, withCounters_wf, sawIssue_wf, OutcomeWf, Res.wf]
theorem execMst_wf (a b n : Nat) (s : State) (hs : Memory.wf s.mem) : OutcomeWf (execMst a b n s) := by
  unfold execMst
  grind [finish_wf, withSets_wf, withCounters_wf, sawIssue_wf, OutcomeWf, Res.wf]
theorem queuedRead_wf (s : State) (op : SawOp) (k : State → Res) (hs : Memory.wf s.mem) (hk : ∀ t, Memory.wf t.mem → Res.wf (k t)) :
    Res.wf (queuedRead s op k) := by
  unfold queuedRead
  grind [modGrove_mem, withNext_wf, sawIssue_wf, Res.wf]
theorem execMrd_wf (a b t : Nat) (s : State) (hs : Memory.wf s.mem) : OutcomeWf (execMrd a b t s) := by
  unfold execMrd
  grind [finish_wf, queuedRead_wf, setA_mem, OutcomeWf, Res.wf]
theorem execMscale_wf (a b p t : Nat) (s : State) (hs : Memory.wf s.mem) : OutcomeWf (execMscale a b p t s) := by
  unfold execMscale
  grind [finish_wf, loads_wf, sawIssue_wf, OutcomeWf, Res.wf]
theorem execMstat_wf (a c t : Nat) (s : State) (hs : Memory.wf s.mem) : OutcomeWf (execMstat a c t s) := by
  unfold execMstat
  grind [finish_wf, setA_mem, queuedRead_wf, OutcomeWf, Res.wf]
@[simp] theorem withdrawReads_mem (s : State) (ctx : Nat) : (withdrawReads s ctx).mem = s.mem := rfl

/-! ## Cruise.lea -/
theorem execCruise_wf (a b n : Nat) (s : State) (hs : Memory.wf s.mem) : OutcomeWf (execCruise a b n s) := by
  unfold execCruise
  grind [finish_wf, withSets_wf, withCounters_wf, queueIssue_wf, modGrove_mem, OutcomeWf, Res.wf]
@[simp] theorem countCruise_mem (s : State) (p : Nat) : (countCruise s p).mem = s.mem := rfl
theorem execCruiseStart_wf (grove : Nat) (s : State) (hs : Memory.wf s.mem) : OutcomeWf (execCruiseStart grove s) := by
  unfold execCruiseStart
  grind [event_wf, countCruise_mem, modGrove_mem, OutcomeWf, Res.wf]
theorem execCruiseCompletion_wf (grove : Nat) (s : State) (hs : Memory.wf s.mem) : OutcomeWf (execCruiseCompletion grove s) := by
  unfold execCruiseCompletion
  grind [event_wf, memWrite_wf, uncBump_mem, modCore_mem, bumpDone_wf, modGrove_mem, OutcomeWf, Res.wf, foldl_wf]
theorem execBlaze_wf (a b m d : Nat) (s : State) (hs : Memory.wf s.mem) : OutcomeWf (execBlaze a b m d s) := by
  unfold execBlaze
  grind [finish_wf, loads_wf, setMaskDesc_mem, setB_mem, OutcomeWf, Res.wf]
theorem descTrap_wf (s : State) (hs : Memory.wf s.mem) : Res.wf (descTrap s) := by
  unfold descTrap
  grind [Res.wf]
theorem execBlzmov_wf (b d : Nat) (s : State) (hs : Memory.wf s.mem) : OutcomeWf (execBlzmov b d s) := by
  unfold execBlzmov
  grind [finish_wf, descTrap_wf, setMaskDesc_mem, setB_mem, OutcomeWf, Res.wf]
theorem execBlzmovStore_wf (a b : Nat) (s : State) (hs : Memory.wf s.mem) : OutcomeWf (execBlzmovStore a b s) := by
  unfold execBlzmovStore
  grind [finish_wf, descTrap_wf, store1_wf, OutcomeWf, Res.wf]
theorem execBlzmovLoad_wf (a b d : Nat) (s : State) (hs : Memory.wf s.mem) : OutcomeWf (execBlzmovLoad a b d s) := by
  unfold execBlzmovLoad
  grind [finish_wf, load1_wf, setMaskDesc_mem, setB_mem, OutcomeWf, Res.wf]
theorem execBlzmovAnd_wf (b d : Nat) (s : State) (hs : Memory.wf s.mem) : OutcomeWf (execBlzmovAnd b d s) := by
  unfold execBlzmovAnd
  grind [finish_wf, descTrap_wf, setB_mem, OutcomeWf, Res.wf]
theorem execBlzpop_wf (a b n : Nat) (s : State) (hs : Memory.wf s.mem) : OutcomeWf (execBlzpop a b n s) := by
  unfold execBlzpop
  grind [finish_wf, descTrap_wf, setA_mem, OutcomeWf, Res.wf]

/-! ## Threads.lea -/
theorem execEndThread_wf (s : State) (hs : Memory.wf s.mem) : OutcomeWf (execEndThread s) := by
  unfold execEndThread
  grind [finish_wf, retireThread_wf, OutcomeWf, Res.wf]
theorem execHbeat_wf (s : State) (hs : Memory.wf s.mem) : OutcomeWf (execHbeat s) := by
  unfold execHbeat
  grind [finish_wf, modCx_mem, OutcomeWf, Res.wf]
theorem yieldBody_wf (s : State) (hs : Memory.wf s.mem) : Res.wf (yieldBody s) := by
  unfold yieldBody
  grind [withNext_wf, releaseWaits_wf, spill_wf, dormant_mem, poolPush_wf, spillFault_wf, Res.wf]
theorem execYield_wf (s : State) (hs : Memory.wf s.mem) : OutcomeWf (execYield s) := by
  unfold execYield
  grind [finish_wf, yieldBody_wf, OutcomeWf, Res.wf]
theorem suspendBody_wf (a b : Nat) (s : State) (hs : Memory.wf s.mem) : Res.wf (suspendBody a b s) := by
  unfold suspendBody
  grind [withNext_wf, releaseWaits_wf, stores_wf, dormant_mem, endHold_wf, Res.wf]
theorem execSuspend_wf (a b : Nat) (s : State) (hs : Memory.wf s.mem) : OutcomeWf (execSuspend a b s) := by
  unfold execSuspend
  grind [finish_wf, suspendBody_wf, OutcomeWf, Res.wf]
theorem recordAt_wf (s : State) (addr : Word) (acc : Acc) (k : State → Nat → List Byte → Res) (hs : Memory.wf s.mem) (hk : ∀ t n bs, Memory.wf t.mem → Res.wf (k t n bs)) :
    Res.wf (recordAt s addr acc k) := by
  unfold recordAt
  grind [check_wf, settleBytes_wf, drainTo_wf, recallLines_wf, readable_wf, cxlDelivers_mem, Res.wf]
theorem eretBody_wf (s : State) (hs : Memory.wf s.mem) : Res.wf (eretBody s) := by
  unfold eretBody
  grind [recordAt_wf, freeEntry_wf, dropL1_mem, homeWrite_wf, endHold_wf, releaseWaits_wf, restored_wf, frameLost_wf, dormant_mem, freeFrame_wf,
    setCtx_mem, dropICache_mem, acquire_mem, Res.wf]
theorem holdAt_wf (s : State) (addr : Word) (key : Nat) (r : Rec) (k : State → Option Word → Res) (hs : Memory.wf s.mem) (hk : ∀ t o, Memory.wf t.mem → Res.wf (k t o)) :
    Res.wf (holdAt s addr key r k) := by
  unfold holdAt
  grind [recallLines_wf, settleBytes_wf, readable_wf, dropL1_mem, Res.wf]
theorem resumeBody_wf (d a b : Nat) (s : State) (hs : Memory.wf s.mem) : Res.wf (resumeBody d a b s) := by
  unfold resumeBody
  dsimp only
  split
  · exact hs
  · refine recordAt_wf s _ _ _ hs (fun t key bs ht => ?_)
    have hd : Memory.wf (dropL1 t (cxCore s) key 64).mem := (dropL1_mem t _ key 64).symm ▸ ht
    split
    · exact setA_ok_wf _ d 0 hd
    · split
      · exact hd
      · refine holdAt_wf _ _ _ _ _ hd (fun u o hu => ?_)
        split
        · exact hu
        · have hf : Memory.wf (match o with
              | none => homeWrite u key (leBytes 8 0)
              | some h => homeWrite (endHold (homeWrite u key (leBytes 8 0)) (thr (homeWrite u key (leBytes 8 0))) h) (key + 0x60) (leBytes 8 0)).mem := by
            split
            · exact homeWrite_wf _ _ _ hu
            · exact homeWrite_wf _ _ _ (endHold_wf _ _ _ (homeWrite_wf _ _ _ hu))
          exact setA_ok_wf _ d 1 (poolPush_wf _ _ _ (ite_wf (freeEntry_wf _ _ _ _ hf) hf))
theorem execResume_wf (d a b : Nat) (s : State) (hs : Memory.wf s.mem) : OutcomeWf (execResume d a b s) := by
  unfold execResume
  grind [finish_wf, resumeBody_wf, OutcomeWf, Res.wf]
theorem dequePush_wf (s : State) (core : Nat) (q : QRec) (hs : Memory.wf s.mem) : Memory.wf (dequePush s core q).1.mem := by
  unfold dequePush
  grind [modCore_mem, poolPush_wf]
theorem execFork_wf (a b : Nat) (s : State) (hs : Memory.wf s.mem) : OutcomeWf (execFork a b s) := by
  unfold execFork
  grind [finish_wf, counterAt_wf, readable_wf, releaseWaits_wf, dequePush_wf, counterAdd_wf, OutcomeWf, Res.wf]
theorem execJoin_wf (a : Nat) (s : State) (hs : Memory.wf s.mem) : OutcomeWf (execJoin a s) := by
  unfold execJoin
  grind [finish_wf, counterAt_wf, readable_wf, releaseWaits_wf, counterSet_wf, acquire_mem, retireThread_wf, OutcomeWf, Res.wf]
theorem execDqpush_wf (d a : Nat) (s : State) (hs : Memory.wf s.mem) : OutcomeWf (execDqpush d a s) := by
  unfold execDqpush
  grind [finish_wf, load1_wf, dequePush_wf, setA_mem, OutcomeWf, Res.wf]
theorem execDqpop_wf (d a : Nat) (s : State) (hs : Memory.wf s.mem) : OutcomeWf (execDqpop d a s) := by
  unfold execDqpop
  grind [finish_wf, checked_wf, setA_mem, store1_wf, modCore_mem, OutcomeWf, Res.wf]

/-! ## System.lea -/
@[simp] theorem claimSet_mem (s : State) (core set job : Nat) : (claimSet s core set job).mem = s.mem := by
  unfold claimSet
  grind [modCore_mem]
theorem execEwr_wf (a n : Nat) (s : State) (hs : Memory.wf s.mem) : OutcomeWf (execEwr a n s) := by
  unfold execEwr
  grind [finish_wf, modCore_mem, claimSet_mem, OutcomeWf, Res.wf]
theorem execErd_wf (a n : Nat) (s : State) (hs : Memory.wf s.mem) : OutcomeWf (execErd a n s) := by
  unfold execErd
  grind [finish_wf, withSets_wf, setA_mem, OutcomeWf, Res.wf]
theorem execNop_wf (s : State) (hs : Memory.wf s.mem) : OutcomeWf (execNop s) := by
  unfold execNop
  grind [finish_wf, OutcomeWf, Res.wf]
theorem execTrap_wf (d a : Nat) (s : State) (hs : Memory.wf s.mem) : OutcomeWf (execTrap d a s) := by
  unfold execTrap
  grind [finish_wf, OutcomeWf, Res.wf]
theorem execEret_wf (s : State) (hs : Memory.wf s.mem) : OutcomeWf (execEret s) := by
  unfold execEret
  grind [finish_wf, eretBody_wf, OutcomeWf, Res.wf]
@[simp] theorem wfeDone_mem (s : State) : (wfeDone s).mem = s.mem := rfl
theorem execWfe_wf (s : State) (hs : Memory.wf s.mem) : OutcomeWf (execWfe s) := by
  unfold execWfe
  grind [finish_wf, event_wf, wfeDone_mem, OutcomeWf, Res.wf]
theorem execWfeTimeout_wf (ctx : Nat) (s : State) (hs : Memory.wf s.mem) : OutcomeWf (execWfeTimeout ctx s) := by
  refine event_wf _ ?_
  split
  · dsimp only
    split
    · exact settle_wf .wfe { s with cur := ctx } (.ok (wfeDone { s with cur := ctx })) hs hs
    · exact hs
  · exact hs
theorem execSynci_wf (s : State) (hs : Memory.wf s.mem) : OutcomeWf (execSynci s) := by
  unfold execSynci
  grind [finish_wf, dropICache_mem, releaseWaits_wf, OutcomeWf, Res.wf]
theorem shootdown_wf (s : State) (pkg : Nat) (x : Shoot) (hs : Memory.wf s.mem) : Memory.wf (shootdown s pkg x).mem := by
  unfold shootdown
  grind [drainWith_wf]
theorem execTlbinvPage_wf (a : Nat) (s : State) (hs : Memory.wf s.mem) : OutcomeWf (execTlbinvPage a s) := by
  unfold execTlbinvPage
  grind [finish_wf, shootdown_wf, releaseWaits_wf, OutcomeWf, Res.wf]
theorem execTlbinvJob_wf (s : State) (hs : Memory.wf s.mem) : OutcomeWf (execTlbinvJob s) := by
  unfold execTlbinvJob
  grind [finish_wf, shootdown_wf, releaseWaits_wf, OutcomeWf, Res.wf]
theorem execTlbinvCompletion_wf (pkg n : Nat) (s : State) (hs : Memory.wf s.mem) : OutcomeWf (execTlbinvCompletion pkg n s) := by
  unfold execTlbinvCompletion
  grind [event_wf, modPkg_mem, shootdown_wf, OutcomeWf, Res.wf]
@[simp] theorem stopCtx_mem (s : State) : (stopCtx s).mem = s.mem := rfl
theorem execBrk_wf (d : Nat) (s : State) (hs : Memory.wf s.mem) : OutcomeWf (execBrk d s) := by
  unfold execBrk
  grind [finish_wf, stopCtx_mem, OutcomeWf, Res.wf]
@[simp] theorem setLoop_mem (s : State) (n : Nat) (f : LoopLevel → LoopLevel) : (setLoop s n f).mem = s.mem := rfl
@[simp] theorem controlWrite_mem (s : State) (i : Nat) (v : Word) : (controlWrite s i v).mem = s.mem := by
  unfold controlWrite
  grind [setStat_mem, modCx_mem, setLoop_mem, modCore_mem]
theorem execCrd_wf (d i : Nat) (s : State) (hs : Memory.wf s.mem) : OutcomeWf (execCrd d i s) := by
  unfold execCrd
  grind [finish_wf, setA_mem, OutcomeWf, Res.wf]
theorem execCwr_wf (a i : Nat) (s : State) (hs : Memory.wf s.mem) : OutcomeWf (execCwr a i s) := by
  unfold execCwr
  grind [finish_wf, controlWrite_mem, OutcomeWf, Res.wf]
@[simp] theorem holdSafe_mem (s : State) (ctx : Nat) (c : Ctx) (sp : Bool) : (holdSafe s ctx c sp).mem = s.mem := rfl
theorem execSafept_wf (i : Nat) (s : State) (hs : Memory.wf s.mem) : OutcomeWf (execSafept i s) := by
  unfold execSafept
  grind [finish_wf, load1_wf, holdSafe_mem, releaseWaits_wf, OutcomeWf, Res.wf]

/-! ## EngineRun.lea -/
@[simp] theorem setOpPhase_mem (s : State) (core id : Nat) (p : OpPhase) : (setOpPhase s core id p).mem = s.mem := rfl
theorem opDeliver_wf (s : State) (core : Nat) (o : EngOp) (n : Nat) (hs : Memory.wf s.mem) : Memory.wf (opDeliver s core o n).mem := by
  unfold opDeliver
  grind [barrierDeliver_wf]
theorem opEnd_wf (s : State) (core : Nat) (o : EngOp) (n : Nat) (x : EngRes) (hs : Memory.wf s.mem) : Memory.wf (opEnd s core o n x).mem := by
  unfold opEnd
  grind [opDeliver_wf, finishEng_mem]
theorem copyEnd_wf (s : State) (core : Nat) (o : EngOp) (l : List (Word × Word × Nat)) (k : Nat) (r : EngRes) (hs : Memory.wf s.mem) :
    Memory.wf (copyEnd s core o l k r).mem := by
  unfold copyEnd
  grind [copyFailed_wf, opEnd_wf]
theorem copyBytes_wf (s : State) (got : KMap Byte) (n : Nat) (l : List CopyByte) (hs : Memory.wf s.mem) : Memory.wf (copyBytes s got n l).mem := by
  induction n generalizing s got l with
  | zero => exact hs
  | succ n ih =>
    unfold copyBytes
    split
    · exact hs
    · exact ih _ _ _ (foldl_wf _ (fun t x ht => homeWrite_wf t _ _ ht) _ _ hs)
theorem copyFree_wf (s : State) (w : Who) (l) (hs : Memory.wf s.mem) : Memory.wf (copyFree s w l).mem := by
  unfold copyFree
  have hr := foldl_wf (fun s (e : Nat × Nat) => (recallLines s e.1 e.2).1) (fun t e => recallLines_wf t e.1 e.2)
    (l.flatMap (fun e => accessKeys s w .write e.2.1 e.2.2)) s hs
  refine foldl_wf _ (fun t e ht => by rw [mend_mem]; exact ht) _ _ (copyBytes_wf _ _ _ _ ?_)
  refine foldl_pair_wf _ ?_ _ (_, _) hr
  exact fun p n hp => hp
theorem startCopy_wf (s : State) (core : Nat) (o : EngOp) (hs : Memory.wf s.mem) : Memory.wf (startCopy s core o).mem := by
  unfold startCopy
  grind [engineRead_wf, engineWrite_wf, opEnd_wf, copyFree_wf, copyEnd_wf]
theorem startGather_wf (s : State) (core : Nat) (o : EngOp) (hs : Memory.wf s.mem) : Memory.wf (startGather s core o).mem := by
  unfold startGather
  dsimp only
  split
  · next heq =>
    have h1 := wf_of_eq heq <| engineRead_wf _ _ _ _ hs
    split
    all_goals
      split
      · next heq =>
        have h2 := wf_of_eq heq <| engineRead_wf _ _ _ _ h1
        split
        · next heq => exact opEnd_wf _ _ _ _ _ (wf_of_eq heq <| engineWrite_wf _ _ _ _ h2)
        · next heq =>
          have h3 := wf_of_eq heq <| engineWrite_wf _ _ _ _ h2
          first
            | exact copyEnd_wf _ _ _ _ _ _ h3
            | exact copyEnd_wf _ _ _ _ _ _ (writeFailed_wf _ _ _ _ h3)
      · next heq => exact copyEnd_wf _ _ _ _ _ _ (wf_of_eq heq <| engineRead_wf _ _ _ _ h1)
  · next heq => exact opEnd_wf _ _ _ _ _ (wf_of_eq heq <| engineRead_wf _ _ _ _ hs)
theorem startBind_wf (s : State) (core : Nat) (o : EngOp) (hs : Memory.wf s.mem) : Memory.wf (startBind s core o).mem := by
  unfold startBind
  dsimp only
  split
  · exact hs
  · split
    · exact hs
    · grind [engineRead_wf, endStream_mem, setStream_mem]
theorem startNear_wf (s : State) (core : Nat) (o : EngOp) (hs : Memory.wf s.mem) : Memory.wf (startNear s core o).mem := by
  unfold startNear
  grind [nbCommand_wf, opDeliver_wf, finishEng_mem]
theorem copyHot_wf (s : State) (w : Who) (a : Word) (i : Nat) (clear : State → Nat → State) (hs : Memory.wf s.mem) (hclear : ∀ t n, Memory.wf t.mem → Memory.wf (clear t n).mem) :
    Memory.wf (copyHot s w a i clear).mem := by
  unfold copyHot
  grind [freeStep_mem, accessTry_wf, placesWrite_wf]
theorem startQuery_wf (s : State) (core : Nat) (o : EngOp) (hs : Memory.wf s.mem) : Memory.wf (startQuery s core o).mem := by
  unfold startQuery
  grind [modPkg_mem, engineWrite_wf, opEnd_wf, copyHot_wf, foldl_wf]
theorem startLoad_wf (s : State) (core : Nat) (o : EngOp) (hs : Memory.wf s.mem) : Memory.wf (startLoad s core o).mem := by
  unfold startLoad
  grind [finishEng_mem, modPkg_mem, engineRead_wf, opEnd_wf]
theorem releaseBeside_wf (s : State) (job key : Nat) (core : Nat) (q : QRec) (hs : Memory.wf s.mem) :
    Memory.wf (releaseBeside s job key core q).mem := by
  unfold releaseBeside
  grind [poolPush_wf]
theorem endMigration_wf (s : State) (pkg key : Nat) (m : Migration) (hs : Memory.wf s.mem) : Memory.wf (endMigration s pkg key m).mem := by
  unfold endMigration
  grind [modPkg_mem, flushPushes_wf, releaseBeside_wf, foldl_wf]
theorem startMigr_wf (s : State) (core : Nat) (o : EngOp) (hs : Memory.wf s.mem) : Memory.wf (startMigr s core o).mem := by
  unfold startMigr
  grind [finishEng_mem, modPkg_mem, shootdown_wf]
theorem runMigr_wf (s : State) (core : Nat) (o : EngOp) (m : Migration) (hs : Memory.wf s.mem) : Memory.wf (runMigr s core o m).mem := by
  unfold runMigr
  grind [finishEng_mem, endMigration_wf, recallSpans_wf, spansWrite_wf, paDeliver_mem, homeWrite_wf, foldl_wf]
theorem runOp_wf (s : State) (core : Nat) (o : EngOp) (hs : Memory.wf s.mem) : Memory.wf (runOp s core o).mem := by
  unfold runOp
  grind [startCopy_wf, startGather_wf, startBind_wf, startNear_wf, startQuery_wf, startPlay_mem, startLoad_wf, runMigr_wf, startMigr_wf]
theorem execEngineOperationStart_wf (core n : Nat) (s : State) (hs : Memory.wf s.mem) : OutcomeWf (execEngineOperationStart core n s) := by
  unfold execEngineOperationStart
  grind [event_wf, runOp_wf, setOpPhase_mem, rerouteThePlays_mem, beginPlay_mem, OutcomeWf, Res.wf]
@[simp] theorem dropOp_mem (s : State) (core : Nat) (o : EngOp) : (dropOp s core o).mem = s.mem := by
  unfold dropOp
  grind [modCore_mem, modPkg_mem]
theorem execEngineOperationCompletion_wf (core n : Nat) (s : State) (hs : Memory.wf s.mem) : OutcomeWf (execEngineOperationCompletion core n s) := by
  unfold execEngineOperationCompletion
  grind [event_wf, finish_wf, bumpDone_wf, dropOp_mem, engineWrite_wf, uncAt_mem, memNotice_wf, OutcomeWf, Res.wf]

/-! ## Groups.lea -/
@[simp] theorem setGroup_mem (s : State) (pkg job n : Nat) (g : Group) : (setGroup s pkg job n g).mem = s.mem := rfl
@[simp] theorem delGroup_mem (s : State) (pkg job n : Nat) : (delGroup s pkg job n).mem = s.mem := rfl
@[simp] theorem staggerGroves_mem (s : State) (l : List Member) : (staggerGroves s l).mem = s.mem := by
  fun_induction staggerGroves s l <;> grind [modGrove_mem]
@[simp] theorem completePhases_mem (s : State) (slice job : Nat) (n : Nat) (x : Group) : (completePhases s slice job n x).1.mem = s.mem := by
  fun_induction completePhases s slice job n x <;> grind [staggerGroves_mem]
theorem settleGroup_wf (s : State) (pkg job n : Nat) (g : Group) (hs : Memory.wf s.mem) : Memory.wf (settleGroup s pkg job n g).mem := by
  unfold settleGroup
  grind [wake_wf, delGroup_mem, completePhases_mem, setGroup_mem, foldl_wf]
theorem resetGroup_wf (s : State) (pkg job n : Nat) (hs : Memory.wf s.mem) : Memory.wf (resetGroup s pkg job n).mem := by
  unfold resetGroup
  grind [settleGroup_wf]
theorem groupGood_wf (s : State) (n : Nat) (k : State → Res) (hs : Memory.wf s.mem) (hk : ∀ t, Memory.wf t.mem → Res.wf (k t)) :
    Res.wf (groupGood s n k) := by
  unfold groupGood
  grind [resetGroup_wf, Res.wf]
theorem groupNum_wf (s : State) (x : Word) (k : Nat → Res) (hs : Memory.wf s.mem) (hk : ∀ n, Res.wf (k n)) : Res.wf (groupNum s x k) := by
  unfold groupNum
  grind [groupGood_wf, Res.wf]
@[simp] theorem sendCopies_mem (m : Nat → Msg) (l : List Nat) (s : State) : (sendCopies m l s).mem = s.mem := by
  fun_induction sendCopies m l s <;> grind [injectLater_mem]
theorem execSendm_wf (a b r p h : Nat) (s : State) (hs : Memory.wf s.mem) : OutcomeWf (execSendm a b r p h s) := by
  unfold execSendm
  grind [finish_wf, sendTo_wf, uncBump_mem, resetGroup_wf, sendCopies_mem, OutcomeWf, Res.wf]
theorem execGjoin_wf (d b : Nat) (s : State) (hs : Memory.wf s.mem) : OutcomeWf (execGjoin d b s) := by
  unfold execGjoin
  grind [finish_wf, groupNum_wf, setA_mem, settleGroup_wf, OutcomeWf, Res.wf]
theorem execGleave_wf (d b : Nat) (s : State) (hs : Memory.wf s.mem) : OutcomeWf (execGleave d b s) := by
  unfold execGleave
  grind [finish_wf, groupNum_wf, releaseWaits_wf, setA_mem, settleGroup_wf, OutcomeWf, Res.wf]
theorem execGinfo_wf (d b : Nat) (s : State) (hs : Memory.wf s.mem) : OutcomeWf (execGinfo d b s) := by
  unfold execGinfo
  grind [finish_wf, groupNum_wf, setA_mem, OutcomeWf, Res.wf]
theorem groupAddr_wf (s : State) (va : Word) (size : Nat) (k : Nat → Nat → Res) (hs : Memory.wf s.mem) (hk : ∀ n n', Res.wf (k n n')) :
    Res.wf (groupAddr s va size k) := by
  unfold groupAddr
  grind [Res.wf]
@[simp] theorem countMember_mem (s : State) (job size : Nat) (g : GroupLoad) (m : Nat × Nat) : (countMember s job size g m).mem = s.mem := by
  unfold countMember
  grind [uncBump_mem]
@[simp] theorem readMembers_mem (s : State) (job size : Nat) (g : GroupLoad) : (readMembers s job size g).1.mem = s.mem := by
  unfold readMembers
  grind [countMember_mem, freeStep_mem]
@[simp] theorem gldDone_mem (s : State) (d t o : Nat) (g : GroupLoad) : (gldDone s d t o g).mem = s.mem := by
  unfold gldDone
  grind [modCx_mem, acquire_mem, setGroupFlags_mem, setA_mem]
theorem gldBody_wf (d a t o : Nat) (full : Bool) (s : State) (hs : Memory.wf s.mem) : Res.wf (gldBody d a t o full s) := by
  unfold gldBody
  grind [groupAddr_wf, groupGood_wf, drainWith_wf, readMembers_mem, gldDone_mem, modCx_mem, Res.wf]
theorem execGld_wf (d a t o : Nat) (s : State) (hs : Memory.wf s.mem) : OutcomeWf (execGld d a t o s) := by
  unfold execGld
  grind [finish_wf, gldBody_wf, OutcomeWf, Res.wf]
theorem execGldf_wf (d a t o : Nat) (s : State) (hs : Memory.wf s.mem) : OutcomeWf (execGldf d a t o s) := by
  unfold execGldf
  grind [finish_wf, gldBody_wf, OutcomeWf, Res.wf]
theorem gbarWait_wf (s : State) (d pkg job n : Nat) (g : Group) (t : Nat) (fresh : Bool) (hs : Memory.wf s.mem) :
    Res.wf (gbarWait s d pkg job n g t fresh) := by
  have ha : Memory.wf (setA (acquire s (cxCore s)) d (word t)).mem := by rw [setA_mem]; exact hs
  unfold gbarWait
  dsimp only
  split
  · exact hs
  · exact ite_wf ha ha
theorem execGbar_wf (d b : Nat) (s : State) (hs : Memory.wf s.mem) : OutcomeWf (execGbar d b s) := by
  unfold execGbar
  refine finish_wf _ _ _ _ (fun t ht => groupNum_wf _ _ _ ht (fun n => ?_)) hs
  dsimp only
  split
  · exact ht
  · split
    · exact ht
    · split
      · exact gbarWait_wf _ _ _ _ _ _ _ _ ht
      · grind [Res.wf, gbarWait_wf, releaseWaits_wf, settleGroup_wf, setA_mem]
theorem execGbarRelease_wf (pkg grp core : Nat) (s : State) (hs : Memory.wf s.mem) : OutcomeWf (execGbarRelease pkg grp core s) := by
  unfold execGbarRelease
  grind [event_wf, wake_wf, OutcomeWf, Res.wf]

/-! ## Records.lea -/
theorem findHandler_wf (s : State) (core : Nat) (m : Msg) (len : Nat) (hs : Memory.wf s.mem) : Memory.wf (findHandler s core m len).1.mem := by
  unfold findHandler
  grind [hwRead_wf]
theorem entryPc_wf (s : State) (core : Nat) (m : Msg) (hs : Memory.wf s.mem) : Memory.wf (entryPc s core m).1.mem := by
  unfold entryPc
  grind [findHandler_wf]
@[simp] theorem modHeld_mem (s : State) (core num : Nat) (f : Msg → Msg) : (modHeld s core num f).mem = s.mem := rfl
@[simp] theorem purgeMsg_mem (s : State) (src num : Nat) : (purgeMsg s src num).mem = s.mem := rfl
theorem discardMsg_wf (s : State) (core src : Nat) (m : Msg) (len cause pc : Nat) (faddr : Word) (hs : Memory.wf s.mem) :
    Memory.wf (discardMsg s core src m len cause pc faddr).mem := by
  unfold discardMsg
  grind [discardRec_wf]
@[simp] theorem dropClaim_mem (s : State) (core : Nat) (c : Claim) : (dropClaim s core c).mem = s.mem := rfl
@[simp] theorem acceptPacket_mem (s : State) (p : Packet) : (acceptPacket s p).mem = s.mem := rfl
@[simp] theorem refusePacket_mem (s : State) (p : Packet) : (refusePacket s p).mem = s.mem := rfl
theorem placePacket_wf (s : State) (core slot : Nat) (p : Packet) (m : Msg) (hs : Memory.wf s.mem) : Memory.wf (placePacket s core slot p m).mem := by
  unfold placePacket
  grind [mend_mem, memWrite_wf]
theorem morePacket_wf (s : State) (core : Nat) (p : Packet) (m : Msg) (c : Claim) (hs : Memory.wf s.mem) : Memory.wf (morePacket s core p m c).mem := by
  unfold morePacket
  grind [placePacket_wf, acceptPacket_mem, modCore_mem, arrive_wf, refusePacket_mem]
theorem firstPacket_wf (s : State) (core : Nat) (p : Packet) (m : Msg) (hs : Memory.wf s.mem) : Memory.wf (firstPacket s core p m).mem := by
  unfold firstPacket
  grind [findHandler_wf, purgeMsg_mem, discardMsg_wf, arrive_wf, refusePacket_mem, acceptPacket_mem, modCore_mem, morePacket_wf]
theorem pushOr_wf (s t : State) (m : Msg) (hs : Memory.wf s.mem) (ht : Memory.wf t.mem) : Memory.wf (pushOr s t m).mem := by
  unfold pushOr
  grind
theorem execPacketArrival_wf (n : Nat) (s : State) (hs : Memory.wf s.mem) : OutcomeWf (execPacketArrival n s) := by
  unfold execPacketArrival
  grind [event_wf, purgeMsg_mem, pushOr_wf, refusePacket_mem, dropClaim_mem, entryPc_wf, discardMsg_wf, morePacket_wf, firstPacket_wf, OutcomeWf,
    Res.wf]
theorem execPacketResend_wf (n : Nat) (s : State) (hs : Memory.wf s.mem) : OutcomeWf (execPacketResend n s) := by
  unfold execPacketResend
  grind [event_wf, OutcomeWf, Res.wf]
theorem execMessageAcceptance_wf (core num : Nat) (s : State) (hs : Memory.wf s.mem) : OutcomeWf (execMessageAcceptance core num s) := by
  unfold execMessageAcceptance
  grind [event_wf, modCore_mem, flushSends_mem, OutcomeWf, Res.wf]
theorem execPartialMessageDiscard_wf (core n : Nat) (s : State) (hs : Memory.wf s.mem) : OutcomeWf (execPartialMessageDiscard core n s) := by
  refine event_wf _ ?_
  split
  · exact hs
  · next c _ =>
    exact ite_wf ((dropClaim_mem s core c).symm ▸ hs) <| ite_wf (discardMsg_wf _ _ _ _ _ _ _ _ <|
      (purgeMsg_mem _ _ _).symm ▸ (dropClaim_mem _ core c).symm ▸ entryPc_wf s core c.msg hs) hs
theorem refillOne_wf (s : State) (core prio : Nat) (hs : Memory.wf s.mem) : Memory.wf (refillOne s core prio).mem := by
  unfold refillOne
  dsimp only
  split
  · exact (flushLaunches_mem s core).symm ▸ hs
  · split
    · exact hs
    · next job rest _ _ =>
      split <;> next heq =>
        have hr := wf_of_eq heq <| hwRead_wf _ _ _ _ hs
        rw [flushLaunches_mem]
        first
          | exact hr
          | exact deckLoss_wf _ _ _ _ hr
theorem execDeckRefill_wf (core prio : Nat) (s : State) (hs : Memory.wf s.mem) : OutcomeWf (execDeckRefill core prio s) := by
  unfold execDeckRefill
  grind [event_wf, refillOne_wf, OutcomeWf, Res.wf]
theorem agedMove_wf (s : State) (core prio n : Nat) (hs : Memory.wf s.mem) (t : State) (ht : agedMove s core prio n = some t) : Memory.wf t.mem := by
  unfold agedMove at ht
  split at ht
  · cases ht
  · dsimp only at ht
    split at ht
    · cases ht
    · split at ht
      · cases ht
        rw [flushLaunches_mem, launchPush_mem]
        exact hs
      · split at ht
        · next heq =>
          cases ht
          rw [flushLaunches_mem]
          exact wf_of_eq heq <| arrive_wf _ _ _ hs
        · cases ht
theorem execRecordAging_wf (core prio n : Nat) (s : State) (hs : Memory.wf s.mem) : OutcomeWf (execRecordAging core prio n s) := by
  unfold execRecordAging
  refine event_wf _ ?_
  split
  · exact hs
  · cases ha : agedMove s core prio n with
    | none => exact hs
    | some t => exact agedMove_wf s core prio n hs t ha
theorem execRecordStart_wf (core : Nat) (s : State) (hs : Memory.wf s.mem) : OutcomeWf (execRecordStart core s) := by
  unfold execRecordStart
  grind [event_wf, flushLaunches_mem, startLaunch_wf, modCore_mem, poolTake_wf, startResume_wf, OutcomeWf, Res.wf]
theorem nextOf_wf (s : State) (x : Host.Outcome State Fault Refusal) (hs : Memory.wf s.mem) (hx : OutcomeWf x) : Memory.wf (nextOf s x).mem := by
  unfold nextOf
  split
  · exact hx _ rfl
  · exact hs
theorem performWaiting_wf (s : State) (ctx : Nat) (hs : Memory.wf s.mem) : Memory.wf (performWaiting s ctx).mem := by
  unfold performWaiting
  grind [nextOf_wf, execLdfTake_wf, execLdfPeek_wf, execSte_wf, execCntw_wf, execBarwait_wf, execRtake_wf]
theorem performReady_wf (ctxs : List Nat) (n : Nat) (s : State) (hs : Memory.wf s.mem) : Memory.wf (performReady ctxs n s).mem := by
  induction n generalizing s with
  | zero => exact hs
  | succ n ih =>
    unfold performReady
    split
    · exact ih _ (performWaiting_wf s _ hs)
    · exact hs
theorem wakeWritten_wf (s : State) (core : Nat) (hs : Memory.wf s.mem) : Memory.wf (wakeWritten s core).mem := by
  unfold wakeWritten
  grind [wake_wf]
@[simp] theorem noteGroup_mem (s : State) (core : Nat) (x : Obj) : (noteGroup s core x).mem = s.mem := by
  unfold noteGroup
  grind [setGroup_mem]
theorem execHardwareSuspension_wf (ctx : Nat) (s : State) (hs : Memory.wf s.mem) : OutcomeWf (execHardwareSuspension ctx s) := by
  unfold execHardwareSuspension
  grind [event_wf, spill_wf, releaseWaits_wf, dormant_mem, noteGroup_mem, modCore_mem, spillFault_wf, OutcomeWf, Res.wf]

/-! ## Links.lea -/
@[simp] theorem modLink_mem (s : State) (pkg k : Nat) (f : Link → Link) : (modLink s pkg k f).mem = s.mem := rfl
@[simp] theorem signalUp_mem (s t : State) (pkg k : Nat) : (signalUp s t pkg k).mem = t.mem := by
  unfold signalUp
  split <;> rfl
theorem signalUp_wf (s t : State) (pkg k : Nat) (hs : Memory.wf s.mem) (ht : Memory.wf t.mem) : Memory.wf (signalUp s t pkg k).mem := by
  unfold signalUp
  grind [modPkg_mem]
@[simp] theorem rerouteIn_mem (s : State) (ext : List Nat) : (rerouteIn s ext).mem = s.mem := by
  unfold rerouteIn
  exact foldl_mem _ (fun t x => by grind [rerouteThePlays_mem, modPkg_mem]) _ _
@[simp] theorem reroute_mem (s : State) (pkg : Nat) : (reroute s pkg).mem = s.mem := by
  unfold reroute
  grind [rerouteIn_mem]
theorem execLinkRetransmission_wf (pkg port : Nat) (s : State) (hs : Memory.wf s.mem) : OutcomeWf (execLinkRetransmission pkg port s) := by
  unfold execLinkRetransmission
  grind [pkgEvent_wf, modLink_mem, freeStep_mem, OutcomeWf, Res.wf]
theorem dropEnd_mem (s : State) (pkg k : Nat) : (dropEnd s pkg k).mem = s.mem := by
  unfold dropEnd signalUp
  split <;> rfl
@[simp] theorem dropBoth_mem (s : State) (pkg k : Nat) : (dropBoth s pkg k).mem = s.mem := by
  unfold dropBoth
  grind [dropEnd_mem]
@[simp] theorem dropDies_mem (s : State) (pkg : Nat) (dies : List Nat) : (dropDies s pkg dies).mem = s.mem := by
  unfold dropDies
  exact foldl_mem _ (fun t x => by grind [dropBoth_mem]) _ _
@[simp] theorem laneGone_mem (s : State) (pkg port lane : Nat) : (laneGone s pkg port lane).mem = s.mem := by
  unfold laneGone
  grind [modLink_mem]
@[simp] theorem loseLane_mem (s : State) (pkg port lane : Nat) : (loseLane s pkg port lane).mem = s.mem := by
  unfold loseLane
  grind [laneGone_mem, modLink_mem, reroute_mem, dropBoth_mem]
theorem execLaneDown_wf (pkg port lane : Nat) (s : State) (hs : Memory.wf s.mem) : OutcomeWf (execLaneDown pkg port lane s) := by
  unfold execLaneDown
  grind [pkgEvent_wf, loseLane_mem, OutcomeWf, Res.wf]
@[simp] theorem setRate_mem (s : State) (pkg port lane rate : Nat) : (setRate s pkg port lane rate).mem = s.mem := rfl
theorem execLaneDisable_wf (pkg port lane : Nat) (s : State) (hs : Memory.wf s.mem) : OutcomeWf (execLaneDisable pkg port lane s) := by
  unfold execLaneDisable
  grind [pkgEvent_wf, loseLane_mem, setRate_mem, OutcomeWf, Res.wf]
@[simp] theorem abortPlaysOf_mem (s : State) (pkg : Nat) : (abortPlaysOf s pkg).mem = s.mem := by
  unfold abortPlaysOf
  exact foldl_mem _ (fun t x => by grind [abortPlay_mem]) _ _
theorem execRouterUncorrectable_wf (pkg : Nat) (s : State) (hs : Memory.wf s.mem) : OutcomeWf (execRouterUncorrectable pkg s) := by
  unfold execRouterUncorrectable
  grind [modPkg_mem, uncBump_mem, pkgEvent_wf, abortPlaysOf_mem, reroute_mem, dropBoth_mem, OutcomeWf, Res.wf, foldl_wf]
theorem trainPort_mem (s : State) (pkg k : Nat) : (trainPort s pkg k).mem = s.mem := by
  unfold trainPort
  dsimp only
  split <;> simp only [signalUp_mem, modLink_mem]
@[simp] theorem trainPelrek_mem (s : State) (pkg : Nat) : (trainPelrek s pkg).mem = s.mem := by
  unfold trainPelrek
  exact foldl_mem _ (fun t x => by grind [trainPort_mem]) _ _
@[simp] theorem trainPorts_mem (s : State) (pkg : Nat) : (trainPorts s pkg).mem = s.mem := by
  unfold trainPorts
  exact foldl_mem _ (fun t x => by grind [trainPort_mem]) _ _
theorem execUnreachableTimeout_wf (kind n : Nat) (s : State) (hs : Memory.wf s.mem) : OutcomeWf (execUnreachableTimeout kind n s) := by
  refine event_wf _ ?_
  split
  · split
    · exact ite_wf (deliverTrap_wf _ _ _ hs) hs
    · exact hs
  · split
    · exact hs
    · exact ite_wf (memNotice_wf _ _ _ _ _ _ _ hs) hs
  · dsimp only
    split
    · exact hs
    · next m _ => exact ite_wf (memNotice_wf _ _ _ _ _ _ _ ((purgeMsg_mem s _ m.num).symm ▸ hs)) hs
theorem execUcieLaneRepair_wf (pkg link : Nat) (s : State) (hs : Memory.wf s.mem) : OutcomeWf (execUcieLaneRepair pkg link s) := by
  unfold execUcieLaneRepair
  grind [pkgEvent_wf, modLink_mem, OutcomeWf, Res.wf]
@[simp] theorem modPort_mem (s : State) (pkg port : Nat) (f : CxlPort → CxlPort) : (modPort s pkg port f).mem = s.mem := rfl
theorem execCxlPortFailure_wf (pkg port tmo : Nat) (s : State) (hs : Memory.wf s.mem) : OutcomeWf (execCxlPortFailure pkg port tmo s) := by
  unfold execCxlPortFailure
  grind [pkgEvent_wf, modPkg_mem, modPort_mem, OutcomeWf, Res.wf]
theorem execCxlPortRecovery_wf (pkg port : Nat) (s : State) (hs : Memory.wf s.mem) : OutcomeWf (execCxlPortRecovery pkg port s) := by
  unfold execCxlPortRecovery
  grind [pkgEvent_wf, modPort_mem, OutcomeWf, Res.wf]

/-! ## Ethernet.lea -/
@[simp] theorem modQp_mem (s : State) (pkg qp : Nat) (f : QueuePair → QueuePair) : (modQp s pkg qp f).mem = s.mem := by
  unfold modQp
  grind [modPkg_mem]
theorem finishEntry_wf (s : State) (pkg qp : Nat) (snd : Bool) (st bytes imm : Nat) (iv : Bool) (hs : Memory.wf s.mem) :
    Memory.wf (finishEntry s pkg qp snd st bytes imm iv).mem := by
  unfold finishEntry
  grind [modQp_mem, modPkg_mem, bumpDone_wf]
@[simp] theorem leavePages_mem (s : State) (pkg qp : Nat) : (leavePages s pkg qp).mem = s.mem := by
  unfold leavePages
  grind [leaveLanding_mem]
@[simp] theorem failQp_mem (s : State) (pkg qp : Nat) : (failQp s pkg qp).mem = s.mem := by
  unfold failQp
  grind [modQp_mem, leavePages_mem]
theorem failEntry_wf (s : State) (pkg qp : Nat) (snd : Bool) (st : Nat) (got : Arrived) (hs : Memory.wf s.mem) :
    Memory.wf (failEntry s pkg qp snd st got).mem := by
  unfold failEntry
  grind [failQp_mem, finishEntry_wf]
@[simp] theorem ethCount_mem (s : State) (w : Who) (code : Nat) (a : Word) : (ethCount s w code a).mem = s.mem := by
  unfold ethCount
  grind [uncAt_mem]
theorem postEntry_wf (snd : Bool) (a b : Nat) (s : State) (hs : Memory.wf s.mem) : Res.wf (postEntry snd a b s) := by
  unfold postEntry
  grind [load1_wf, optCounter_wf, modQp_mem, releaseWaits_wf, Res.wf]
theorem execNsend_wf (a b : Nat) (s : State) (hs : Memory.wf s.mem) : OutcomeWf (execNsend a b s) := by
  unfold execNsend
  grind [finish_wf, postEntry_wf, OutcomeWf, Res.wf]
theorem execNrecv_wf (a b : Nat) (s : State) (hs : Memory.wf s.mem) : OutcomeWf (execNrecv a b s) := by
  unfold execNrecv
  grind [finish_wf, postEntry_wf, OutcomeWf, Res.wf]
theorem execNpoll_wf (a b n : Nat) (s : State) (hs : Memory.wf s.mem) : OutcomeWf (execNpoll a b n s) := by
  unfold execNpoll
  grind [finish_wf, withSets_wf, store1_wf, modPkg_mem, setA_mem, acquire_mem, OutcomeWf, Res.wf]
@[simp] theorem markReached_mem (s : State) (pkg qp : Nat) (snd : Bool) : (markReached s pkg qp snd).mem = s.mem := by
  unfold markReached
  grind [modQp_mem]
theorem reachEntry_wf (s : State) (pkg qp : Nat) (snd : Bool) (got : Arrived) (hs : Memory.wf s.mem) : Memory.wf (reachEntry s pkg qp snd got).mem := by
  unfold reachEntry
  grind [finishEntry_wf, failEntry_wf, markReached_mem, engineRead_wf, ethCount_mem]
theorem execWorkEntryReached_wf (pkg qp snd : Nat) (s : State) (hs : Memory.wf s.mem) : OutcomeWf (execWorkEntryReached pkg qp snd s) := by
  unfold execWorkEntryReached
  grind [event_wf, reachEntry_wf, OutcomeWf, Res.wf]
theorem execEthReceive_wf (pkg qp len data imm iv : Nat) (s : State) (hs : Memory.wf s.mem) : OutcomeWf (execEthReceive pkg qp len data imm iv s) := by
  unfold execEthReceive
  grind [reachEntry_wf, event_wf, engineWrite_wf, finishEntry_wf, failEntry_wf, writeFailed_wf, ethCount_mem, OutcomeWf, Res.wf]
theorem execEthSendCompletion_wf (pkg qp : Nat) (s : State) (hs : Memory.wf s.mem) : OutcomeWf (execEthSendCompletion pkg qp s) := by
  unfold execEthSendCompletion
  grind [event_wf, finishEntry_wf, OutcomeWf, Res.wf]
theorem execRnrRetry_wf (pkg qp : Nat) (s : State) (hs : Memory.wf s.mem) : OutcomeWf (execRnrRetry pkg qp s) := by
  unfold execRnrRetry
  grind [event_wf, modQp_mem, failEntry_wf, OutcomeWf, Res.wf]
theorem portDown_wf (port pkg : Nat) (s : State) (e : Nat × QueuePair) (hs : Memory.wf s.mem) : Memory.wf (portDown port pkg s e).mem := by
  unfold portDown
  grind [failEntry_wf]
theorem execEthPortDown_wf (pkg port : Nat) (s : State) (hs : Memory.wf s.mem) : OutcomeWf (execEthPortDown pkg port s) := by
  unfold execEthPortDown
  grind [pkgEvent_wf, portDown_wf, signalUp_wf, modLink_mem, OutcomeWf, Res.wf, foldl_wf]

/-! ## Homes.lea -/
theorem reachHome_wf (s : State) (n : Nat) (hs : Memory.wf s.mem) : Memory.wf (reachHome s n).mem := by
  unfold reachHome
  grind [drainWith_wf]
theorem execStoreRegistration_wf (n : Nat) (s : State) (hs : Memory.wf s.mem) : OutcomeWf (execStoreRegistration n s) := by
  unfold execStoreRegistration
  grind [event_wf, reachHome_wf, OutcomeWf, Res.wf]
theorem execRemoteStoreAcknowledgement_wf (n : Nat) (s : State) (hs : Memory.wf s.mem) : OutcomeWf (execRemoteStoreAcknowledgement n s) := by
  unfold execRemoteStoreAcknowledgement
  grind [event_wf, reachHome_wf, memNotice_wf, OutcomeWf, Res.wf]
theorem keyNotice_wf (s : State) (coreId key : Nat) (hs : Memory.wf s.mem) : Memory.wf (keyNotice s coreId key).mem := by
  unfold keyNotice
  grind [lostNotice_wf, uncBump_mem]
theorem evictWord_wf (s : State) (core k : Nat) (hs : Memory.wf s.mem) : Memory.wf (evictWord s core k).mem := by
  unfold evictWord
  grind [modCore_mem, keyNotice_wf, unownByte_wf, foldl_wf]
theorem fitL1_wf (n : Nat) (s : State) (n1 : Nat) (hs : Memory.wf s.mem) : Memory.wf (fitL1 n s n1).mem := by
  fun_induction fitL1 n s n1 <;> grind [evictWord_wf, freeStep_mem]
@[simp] theorem fitICache_mem (n : Nat) (s : State) (n1 : Nat) : (fitICache n s n1).mem = s.mem := by
  fun_induction fitICache n s n1 <;> grind [modCore_mem, freeStep_mem]
theorem fitICache_wf (n : Nat) (s : State) (n1 : Nat) (hs : Memory.wf s.mem) : Memory.wf (fitICache n s n1).mem := by
  rw [fitICache_mem]
  exact hs
theorem fitCore_wf (s : State) (core : Nat) (hs : Memory.wf s.mem) : Memory.wf (fitCore s core).mem :=
  fitICache_wf _ _ _ (fitL1_wf _ s core hs)
theorem fitCaches_wf (s : State) (hs : Memory.wf s.mem) : Memory.wf (fitCaches s).mem := by
  unfold fitCaches
  exact foldl_wf _ (fun t x ht => by grind [fitCore_wf]) _ _ (by grind [fitCore_wf])
theorem execOwnedWordEviction_wf (core key : Nat) (s : State) (hs : Memory.wf s.mem) : OutcomeWf (execOwnedWordEviction core key s) := by
  unfold execOwnedWordEviction
  grind [event_wf, evictWord_wf, OutcomeWf, Res.wf]
theorem execUpdateOnlyFlush_wf (grove line : Nat) (s : State) (hs : Memory.wf s.mem) : OutcomeWf (execUpdateOnlyFlush grove line s) := by
  unfold execUpdateOnlyFlush
  grind [event_wf, keyNotice_wf, combine_wf, OutcomeWf, Res.wf]
@[simp] theorem missArrives_mem (s : State) (g : Nat) (m : Miss) : (missArrives s g m).mem = s.mem := rfl
theorem execTlbMissRequest_wf (core job va : Nat) (s : State) (hs : Memory.wf s.mem) : OutcomeWf (execTlbMissRequest core job va s) := by
  unfold execTlbMissRequest
  grind [event_wf, installAt_mem, missArrives_mem, OutcomeWf, Res.wf]
theorem execWalkRetry_wf (grove n : Nat) (s : State) (hs : Memory.wf s.mem) : OutcomeWf (execWalkRetry grove n s) := by
  unfold execWalkRetry
  grind [event_wf, missArrives_mem, modGrove_mem, OutcomeWf, Res.wf]
theorem execWalkCompletion_wf (grove n : Nat) (s : State) (hs : Memory.wf s.mem) : OutcomeWf (execWalkCompletion grove n s) := by
  unfold execWalkCompletion
  grind [event_wf, modGrove_mem, setAD_wf, installAt_mem, OutcomeWf, Res.wf, foldl_wf]
theorem execLandingRetry_wf (ctx : Nat) (s : State) (hs : Memory.wf s.mem) : OutcomeWf (execLandingRetry ctx s) := by
  unfold execLandingRetry
  grind [event_wf, modCtx_mem, OutcomeWf, Res.wf]
theorem execPageRequestEntry_wf (pkg : Nat) (s : State) (hs : Memory.wf s.mem) : OutcomeWf (execPageRequestEntry pkg s) := by
  unfold execPageRequestEntry
  grind [event_wf, homeWrite_wf, modPkg_mem, OutcomeWf, Res.wf]
@[simp] theorem freeLandSlot_mem (s : State) (pkg i : Nat) : (freeLandSlot s pkg i).mem = s.mem := rfl
theorem frameHold_wf (s : State) (core : Nat) (r : Rec) (hs : Memory.wf s.mem) : Memory.wf (frameHold s core r).1.mem := by
  unfold frameHold
  grind [hwRead_wf]
@[simp] theorem joinImage_mem (s : State) (pkg job : Nat) (e : Nat × QRec × Nat) : (joinImage s pkg job e).mem = s.mem := rfl
theorem answerYes_wf (s : State) (pkg : Nat) (q : PageReq) (e : Nat × QRec × Nat) (hs : Memory.wf s.mem) : Memory.wf (answerYes s pkg q e).mem := by
  unfold answerYes
  grind [joinImage_mem, releaseBeside_wf, poolPush_wf]
theorem answerNo_wf (s : State) (pkg : Nat) (e : Nat × QRec × Nat) (hs : Memory.wf s.mem) : Memory.wf (answerNo s pkg e).mem := by
  unfold answerNo
  grind [joinImage_mem, frameHold_wf, report_wf]
theorem actAnswer_wf (s : State) (pkg value : Nat) (hs : Memory.wf s.mem) : Memory.wf (actAnswer s pkg value).mem := by
  unfold actAnswer
  grind [modPkg_mem, freeLandSlot_mem, answerYes_wf, answerNo_wf, foldl_wf]
theorem pageAnswer_wf (s : State) (pkg value : Nat) (hs : Memory.wf s.mem) : Memory.wf (pageAnswer s pkg value).mem := by
  unfold pageAnswer
  grind [modPkg_mem, actAnswer_wf]
theorem execPageRequestAnswer_wf (pkg value : Nat) (s : State) (hs : Memory.wf s.mem) : OutcomeWf (execPageRequestAnswer pkg value s) := by
  unfold execPageRequestAnswer
  grind [event_wf, pageAnswer_wf, OutcomeWf, Res.wf]

/-! ## Fencing.lea -/
theorem execFaultDelivery_wf (ctx : Nat) (s : State) (hs : Memory.wf s.mem) : OutcomeWf (execFaultDelivery ctx s) := by
  unfold execFaultDelivery
  grind [event_wf, deliverTrap_wf, OutcomeWf, Res.wf]
theorem execFaultDeliveryRetry_wf (ctx : Nat) (s : State) (hs : Memory.wf s.mem) : OutcomeWf (execFaultDeliveryRetry ctx s) := by
  unfold execFaultDeliveryRetry
  grind [event_wf, deliverTrap_wf, OutcomeWf, Res.wf]
theorem writeBack_wf (s : State) (core : Nat) (hs : Memory.wf s.mem) : Memory.wf (writeBack s core).mem := by
  unfold writeBack
  exact foldl_wf _ (fun t x ht => by grind [evictWord_wf]) _ _ (by grind [evictWord_wf])
@[simp] theorem dropWaiting_mem (s : State) (core : Nat) : (dropWaiting s core).mem = s.mem := by
  unfold dropWaiting
  exact foldl_mem _ (fun t x => by grind [dropOp_mem]) _ _
@[simp] theorem dropRings_mem (s : State) (core : Nat) : (dropRings s core).mem = s.mem := rfl
theorem settleGroupsOf_wf (s : State) (core : Nat) (hs : Memory.wf s.mem) : Memory.wf (settleGroupsOf s core).mem := by
  unfold settleGroupsOf
  exact foldl_wf _ (fun t x ht => by grind [settleGroup_wf]) _ _ (by grind [settleGroup_wf])
theorem cutOff_wf (s : State) (pkg : Nat) (hs : Memory.wf s.mem) : Memory.wf (cutOff s pkg).mem := by
  unfold cutOff
  exact foldl_wf _ (fun t x ht => by grind [modPkg_mem, settleGroup_wf]) _ _ (by grind [modPkg_mem, settleGroup_wf])
theorem execUcieLinkDown_wf (pkg link : Nat) (s : State) (hs : Memory.wf s.mem) : OutcomeWf (execUcieLinkDown pkg link s) := by
  unfold execUcieLinkDown
  grind [pkgEvent_wf, signalUp_wf, modLink_mem, cutOff_wf, reroute_mem, dropDies_mem, modPkg_mem, OutcomeWf, Res.wf]
@[simp] theorem strandLaunches_mem (s : State) (core : Nat) : (strandLaunches s core).mem = s.mem := rfl
theorem fenceCore_wf (s : State) (core : Nat) (hs : Memory.wf s.mem) : Memory.wf (fenceCore s core).mem := by
  unfold fenceCore
  grind [performReady_wf, dropRings_mem, dropWaiting_mem, writeBack_wf, drainWith_wf, modGrove_mem, modCore_mem, strandLaunches_mem,
    settleGroupsOf_wf]
theorem execHeartbeatMiss_wf (ctx : Nat) (s : State) (hs : Memory.wf s.mem) : OutcomeWf (execHeartbeatMiss ctx s) := by
  unfold execHeartbeatMiss
  grind [event_wf, dormant_mem, fenceCore_wf, OutcomeWf, Res.wf]
theorem zeroScratch_wf (s : State) (core : Nat) (hs : Memory.wf s.mem) : Memory.wf (zeroScratch s core).mem := cellsWf_filter _ _ hs
theorem execSpareTakeover_wf (core : Nat) (s : State) (hs : Memory.wf s.mem) : OutcomeWf (execSpareTakeover core s) := by
  unfold execSpareTakeover
  grind [event_wf, zeroScratch_wf, modCore_mem, report_wf, flushLaunches_mem, OutcomeWf, Res.wf, foldl_wf]
theorem execCorePoweredDown_wf (core : Nat) (s : State) (hs : Memory.wf s.mem) : OutcomeWf (execCorePoweredDown core s) := by
  unfold execCorePoweredDown
  grind [pkgEvent_wf, settleGroupsOf_wf, modCore_mem, OutcomeWf, Res.wf]
theorem lostRecord_wf (s : State) (pkg coreId : Nat) (q : QRec) (hs : Memory.wf s.mem) : Memory.wf (lostRecord s pkg coreId q).mem := by
  unfold lostRecord
  grind [lostNotice_wf]
theorem loseQueued_wf (s : State) (core p i : Nat) (hs : Memory.wf s.mem) : Memory.wf (loseQueued s core p i).mem := by
  unfold loseQueued
  grind [flushLaunches_mem, lostRecord_wf, modCore_mem]
theorem loseStolen_wf (s : State) (core i : Nat) (hs : Memory.wf s.mem) : Memory.wf (loseStolen s core i).mem := by
  unfold loseStolen
  grind [lostRecord_wf, modCore_mem]
theorem loseParked_wf (s : State) (core i : Nat) (hs : Memory.wf s.mem) : Memory.wf (loseParked s core i).mem := by
  unfold loseParked
  grind [lostRecord_wf, modCore_mem]
theorem losePooled_wf (s : State) (g i : Nat) (hs : Memory.wf s.mem) : Memory.wf (losePooled s g i).mem := by
  unfold losePooled
  grind [poolSettle_wf, lostRecord_wf, modGrove_mem]
@[simp] theorem spoilL1_mem (s : State) (core k : Nat) : (spoilL1 s core k).mem = s.mem := by
  unfold spoilL1
  grind [modCore_mem]
@[simp] theorem spoilRegister_mem (s : State) (ctx r : Nat) : (spoilRegister s ctx r).mem = s.mem := by
  unfold spoilRegister
  grind [modCtx_mem]
@[simp] theorem spoilRegion_mem (s : State) (pkg key : Nat) : (spoilRegion s pkg key).mem = s.mem := by
  unfold spoilRegion
  grind [endStream_mem]
@[simp] theorem spoilGroup_mem (s : State) (g k : Nat) : (spoilGroup s g k).mem = s.mem := by
  unfold spoilGroup
  grind
@[simp] theorem spoilPlay_mem (s : State) (n pkg : Nat) : (spoilPlay s n pkg).mem = s.mem := by
  unfold spoilPlay
  grind [abortPlay_mem, uncBump_mem]
theorem execSoftError_wf (kind key : Nat) (s : State) (hs : Memory.wf s.mem) : OutcomeWf (execSoftError kind key s) := by
  unfold execSoftError
  grind [event_wf, spoilRegister_mem, spoilL1_mem, loseQueued_wf, loseStolen_wf, loseParked_wf, losePooled_wf, spoilGroup_mem, modCore_mem,
    spoilRegion_mem, modPkg_mem, spoilPlay_mem, OutcomeWf, Res.wf]
@[simp] theorem scrubAll_mem (s : State) (pkg : Nat) : (scrubAll s pkg).mem = s.mem := by
  unfold scrubAll
  exact foldl_mem _ (fun t x => by grind [uncBump_mem]) _ _
theorem execPatrolScrub_wf (pkg block : Nat) (s : State) (hs : Memory.wf s.mem) : OutcomeWf (execPatrolScrub pkg block s) := by
  unfold execPatrolScrub
  grind [pkgEvent_wf, uncBump_mem, OutcomeWf, Res.wf]

/-! ## Host.lea -/
@[simp] theorem discard_mem (s : State) (pkg page : Nat) : (discard s pkg page).mem = s.mem := rfl
@[simp] theorem accept_mem (s : State) (pkg page : Nat) : (accept s pkg page).mem = s.mem := rfl
theorem hostArrive_wf (s : State) (core : Nat) (r : Rec) (hs : Memory.wf s.mem) : Memory.wf (hostArrive s core r).1.mem := by
  unfold hostArrive
  grind [discardRec_wf, arrive_wf]
theorem execHostActiveMessage_wf (pkg page ofs size data : Nat) (s : State) (hs : Memory.wf s.mem) :
    OutcomeWf (execHostActiveMessage pkg page ofs size data s) := by
  unfold execHostActiveMessage
  grind [pkgEvent_wf, discard_mem, accept_mem, modPkg_mem, hostArrive_wf, OutcomeWf, Res.wf]
theorem execHostMessageRetry_wf (pkg : Nat) (s : State) (hs : Memory.wf s.mem) : OutcomeWf (execHostMessageRetry pkg s) := by
  unfold execHostMessageRetry
  grind [event_wf, modPkg_mem, actAnswer_wf, hostArrive_wf, OutcomeWf, Res.wf]
@[simp] theorem countUnit_mem (s : State) (pkg : Nat) (x : Option Nat) : (countUnit s pkg x).mem = s.mem := by
  unfold countUnit
  grind [uncBump_mem]
theorem recallCounted_wf (s : State) (pkg k n : Nat) (hs : Memory.wf s.mem) : Memory.wf (recallCounted s pkg k n).mem := by
  unfold recallCounted
  grind [recallLines_wf, uncBump_mem]
@[simp] theorem hdmRead_mem (s : State) (pkg k n : Nat) : (hdmRead s pkg k n).mem = s.mem := by
  unfold hdmRead
  grind [modPkg_mem, countUnit_mem]
theorem execHostHdmAccess_wf (pkg wr ofs size value : Nat) (s : State) (hs : Memory.wf s.mem) :
    OutcomeWf (execHostHdmAccess pkg wr ofs size value s) := by
  unfold execHostHdmAccess
  grind [pkgEvent_wf, recallCounted_wf, hdmRead_mem, mend_mem, homeWrite_wf, OutcomeWf, Res.wf]
@[simp] theorem result_mem (s : State) (pkg r : Nat) : (result s pkg r).mem = s.mem := rfl
theorem physRead_wf (s : State) (pkg pa n : Nat) (hs : Memory.wf s.mem) : Memory.wf (physRead s pkg pa n).1.mem := by
  unfold physRead
  grind [recallSpans_wf, uncBump_mem, countUnit_mem, paDeliver_mem]
theorem cmdInstall_wf (s : State) (pkg : Nat) (hs : Memory.wf s.mem) : Memory.wf (cmdInstall s pkg).mem := by
  unfold cmdInstall
  grind [result_mem, physRead_wf, modPkg_mem]
@[simp] theorem cmdAset_mem (s : State) (pkg : Nat) : (cmdAset s pkg).mem = s.mem := by
  unfold cmdAset
  grind [result_mem, modPkg_mem]
@[simp] theorem cmdShoot_mem (s : State) (pkg : Nat) : (cmdShoot s pkg).mem = s.mem := by
  unfold cmdShoot
  grind [result_mem, modPkg_mem]
@[simp] theorem cmdBind_mem (s : State) (pkg : Nat) : (cmdBind s pkg).mem = s.mem := by
  unfold cmdBind
  grind [result_mem, modPkg_mem]
@[simp] theorem cmdGrant_mem (s : State) (pkg : Nat) : (cmdGrant s pkg).mem = s.mem := by
  unfold cmdGrant
  grind [result_mem, modPkg_mem]
theorem cmdHotread_wf (s : State) (pkg : Nat) (hs : Memory.wf s.mem) : Memory.wf (cmdHotread s pkg).mem := by
  unfold cmdHotread
  grind [result_mem, mend_mem, homeWrite_wf, recallCounted_wf]
@[simp] theorem cmdRegion_mem (s : State) (pkg : Nat) : (cmdRegion s pkg).mem = s.mem := by
  unfold cmdRegion
  grind [result_mem, modPkg_mem]
theorem cmdQpset_wf (s : State) (pkg : Nat) (hs : Memory.wf s.mem) : Memory.wf (cmdQpset s pkg).mem := by
  unfold cmdQpset
  grind [result_mem, modPkg_mem, leavePages_mem, physRead_wf]

/-! ## Jobs.lea -/
@[simp] theorem dropHold_mem (s : State) (hold : Word) : (dropHold s hold).mem = s.mem := by
  unfold dropHold
  grind [freeSlot_mem]
@[simp] theorem dropLaunch_mem (s : State) (q : QRec) : (dropLaunch s q).mem = s.mem := by
  unfold dropLaunch
  grind [dropHold_mem]
theorem dropResume_wf (s : State) (core : Nat) (r : Rec) (hs : Memory.wf s.mem) : Memory.wf (dropResume s core r).mem := by
  unfold dropResume
  grind [frameHold_wf, freeFrame_wf, dropHold_mem, Res.wf]
@[simp] theorem dropDeck_mem (s : State) (core job p : Nat) : (dropDeck s core job p).mem = s.mem := by
  unfold dropDeck
  exact foldl_mem _ (fun t x => by grind [dropLaunch_mem, modPkg_mem, modCore_mem]) _ _
theorem dropEntry_wf (s : State) (pkg job : Nat) (d : Job) (i : Nat) (hs : Memory.wf s.mem) : Memory.wf (dropEntry s pkg job d i).mem := by
  unfold dropEntry
  dsimp only
  have hr := hwRead_wf s (hwWho (pkg * 8192 + d.fcore) job) (ringBase d + word (128 * i)) 128 hs
  split <;> next heq =>
    rw [heq] at hr
    first
      | exact hr
      | exact ite_wf hr ((dropHold_mem _ _).symm ▸ ite_wf (freeFrame_wf _ _ _ _ hr) hr)
theorem dropNotice_wf (s : State) (pkg : Nat) (n : Notice) (hs : Memory.wf s.mem) : Memory.wf (dropNotice s pkg n).mem := by
  unfold dropNotice
  grind [dropHold_mem, freeFrame_wf]
theorem dropOnCore_wf (s : State) (job core : Nat) (hs : Memory.wf s.mem) : Memory.wf (dropOnCore s job core).mem := by
  unfold dropOnCore
  grind [dropDeck_mem, dropLaunch_mem, dropResume_wf, dropClaim_mem, dropOp_mem, modCore_mem, foldl_wf]
theorem dropOnGrove_wf (s : State) (job g : Nat) (hs : Memory.wf s.mem) : Memory.wf (dropOnGrove s job g).mem := by
  unfold dropOnGrove
  grind [poolDrop_wf, dropResume_wf, modGrove_mem, foldl_wf]
theorem dropLanding_wf (s : State) (pkg job : Nat) (hs : Memory.wf s.mem) : Memory.wf (dropLanding s pkg job).mem := by
  unfold dropLanding
  grind [freeLandSlot_mem, dropResume_wf, foldl_wf]
theorem dropOnPkg_wf (s : State) (pkg job : Nat) (d : Job) (hs : Memory.wf s.mem) : Memory.wf (dropOnPkg s pkg job d).mem := by
  unfold dropOnPkg
  dsimp only
  rw [modPkg_mem, foldl_mem (fun t (r : SafeRec) => dropHold t r.ctx.hold) (fun t r => dropHold_mem t r.ctx.hold)]
  exact foldl_wf _ (fun t n ht => dropNotice_wf t pkg n ht) _ _
    (foldl_wf _ (fun t i ht => dropEntry_wf t pkg job d i ht) _ _ (dropLanding_wf s pkg job hs))
theorem teardown_zeroWords_wf (s : State) (core : Nat) (hs : Memory.wf s.mem) : Memory.wf (teardown.zeroWords s core).mem := zeroScratch_wf s core hs
theorem teardown_wf (s : State) (pkg job : Nat) (d : Job) (hs : Memory.wf s.mem) : Memory.wf (teardown s pkg job d).mem := by
  unfold teardown
  have hg := foldl_wf (fun s (e : Nat × Grove) => dropOnGrove s job e.1) (fun t e => dropOnGrove_wf t job e.1)
    ((dropOnPkg s pkg job d).groves.filter (fun e => grovePkg e.1 == pkg)) _ (dropOnPkg_wf s pkg job d hs)
  have hc := foldl_wf (fun s c => dropOnCore s job c) (fun t c => dropOnCore_wf t job c) (jobCores s pkg d) _ hg
  have hl := foldl_wf flushLaunches (fun t c ht => by rw [flushLaunches_mem]; exact ht) (jobCores s pkg d) _ hc
  dsimp only [modPkg_mem]
  split
  · exact foldl_wf teardown.zeroWords teardown_zeroWords_wf _ _ hl
  · exact hl
theorem cmdRemove_wf (s : State) (pkg : Nat) (hs : Memory.wf s.mem) : Memory.wf (cmdRemove s pkg).mem := by
  unfold cmdRemove
  grind [result_mem, teardown_wf]
theorem command_wf (s : State) (pkg op : Nat) (hs : Memory.wf s.mem) : Memory.wf (command s pkg op).mem := by
  unfold command
  grind [cmdInstall_wf, cmdRemove_wf, cmdAset_mem, cmdShoot_mem, cmdBind_mem, cmdGrant_mem, cmdHotread_wf, cmdRegion_mem, cmdQpset_wf, result_mem]
theorem startCommand_wf (s : State) (pkg op : Nat) (hs : Memory.wf s.mem) : Memory.wf (startCommand s pkg op).mem := by
  unfold startCommand
  grind [command_wf, modPkg_mem]
theorem execInstall_wf (pkg : Nat) (s : State) (hs : Memory.wf s.mem) : OutcomeWf (execInstall pkg s) := by
  unfold execInstall
  grind [event_wf, startCommand_wf, OutcomeWf, Res.wf]
theorem execRemove_wf (pkg : Nat) (s : State) (hs : Memory.wf s.mem) : OutcomeWf (execRemove pkg s) := by
  unfold execRemove
  grind [event_wf, startCommand_wf, OutcomeWf, Res.wf]
theorem execAset_wf (pkg : Nat) (s : State) (hs : Memory.wf s.mem) : OutcomeWf (execAset pkg s) := by
  unfold execAset
  grind [event_wf, startCommand_wf, OutcomeWf, Res.wf]
theorem execShoot_wf (pkg : Nat) (s : State) (hs : Memory.wf s.mem) : OutcomeWf (execShoot pkg s) := by
  unfold execShoot
  grind [event_wf, startCommand_wf, OutcomeWf, Res.wf]
theorem execBind_wf (pkg : Nat) (s : State) (hs : Memory.wf s.mem) : OutcomeWf (execBind pkg s) := by
  unfold execBind
  grind [event_wf, startCommand_wf, OutcomeWf, Res.wf]
theorem execGrant_wf (pkg : Nat) (s : State) (hs : Memory.wf s.mem) : OutcomeWf (execGrant pkg s) := by
  unfold execGrant
  grind [event_wf, startCommand_wf, OutcomeWf, Res.wf]
theorem execHotread_wf (pkg : Nat) (s : State) (hs : Memory.wf s.mem) : OutcomeWf (execHotread pkg s) := by
  unfold execHotread
  grind [event_wf, startCommand_wf, OutcomeWf, Res.wf]
theorem execRegion_wf (pkg : Nat) (s : State) (hs : Memory.wf s.mem) : OutcomeWf (execRegion pkg s) := by
  unfold execRegion
  grind [event_wf, startCommand_wf, OutcomeWf, Res.wf]
theorem execQpset_wf (pkg : Nat) (s : State) (hs : Memory.wf s.mem) : OutcomeWf (execQpset pkg s) := by
  unfold execQpset
  grind [event_wf, startCommand_wf, OutcomeWf, Res.wf]
theorem dropPooled_wf (s : State) (pkg : Nat) (hs : Memory.wf s.mem) : Memory.wf (dropPooled s pkg).mem :=
  cellsWf_filter _ _ (foldl_wf _ (fun t (o : Nat × Nat) => unownByte_wf t o.1) _ _ hs)
theorem showPooled_wf (s : State) (pkg : Nat) (hs : Memory.wf s.mem) : Memory.wf (showPooled s pkg).mem := by
  unfold showPooled
  exact foldl_wf _ (fun t x ht => by grind [memWrite_wf]) _ _ (by grind [memWrite_wf])
theorem setDecoder_wf (s : State) (pkg i : Nat) (e : Word) (hs : Memory.wf s.mem) : Memory.wf (setDecoder s pkg i e).mem := by
  unfold setDecoder
  grind [unownByte_wf, showPooled_wf, modPkg_mem, dropPooled_wf, foldl_wf]
@[simp] theorem firmwareSet_mem (s : State) (pkg i v : Nat) : (firmwareSet s pkg i v).mem = s.mem := by
  unfold firmwareSet
  grind [rerouteIn_mem, trainPelrek_mem, modPkg_mem, modGrove_mem]
@[simp] theorem govWrite_mem (s : State) (pkg value : Nat) : (govWrite s pkg value).mem = s.mem := rfl
@[simp] theorem hotClear_mem (s : State) (pkg i v : Nat) : (hotClear s pkg i v).mem = s.mem := by
  unfold hotClear
  grind [modPkg_mem]
theorem regWrite_wf (s : State) (pkg ofs v : Nat) (fw : Bool) (hs : Memory.wf s.mem) : Memory.wf (regWrite s pkg ofs v fw).mem := by
  have hlink : Memory.wf (match linkAt ofs with
      | some k => if v.testBit 2 then modLink s pkg k (fun l => { l with fail := false }) else s
      | none => s).mem := by
    split
    · exact ite_wf hs hs
    · exact hs
  unfold regWrite
  exact ite_wf (ite_wf (startCommand_wf s pkg _ hs) hs) <| ite_wf hs <| ite_wf hs <| ite_wf hs <| ite_wf hs <| ite_wf hs <| ite_wf hs <|
    ite_wf (pageAnswer_wf s pkg v hs) <| ite_wf (ite_wf (setDecoder_wf s pkg _ _ hs) hs) <| ite_wf (ite_wf hs hs) <| ite_wf (ite_wf hs hs) <|
    ite_wf ((firmwareSet_mem s pkg _ v).symm ▸ hs) <| ite_wf (ite_wf ((hotClear_mem s pkg _ v).symm ▸ hs) hs) hlink
theorem execRegisterWrite_wf (pkg ofs value fw : Nat) (s : State) (hs : Memory.wf s.mem) : OutcomeWf (execRegisterWrite pkg ofs value fw s) := by
  unfold execRegisterWrite
  grind [pkgEvent_wf, regWrite_wf, OutcomeWf, Res.wf]

/-! ## Preempt.lea -/
theorem takePools_wf (s : State) (pkg : Nat) (jobs : List Nat) (hs : Memory.wf s.mem) : Memory.wf (takePools s pkg jobs).1.mem := by
  unfold takePools
  refine foldl_pair_wf _ (fun p e hp => ?_) _ _ hs
  exact foldl_wf _ (fun t x => lostNotice_wf t _ _ _ _ _) _ _ (poolDrop_wf _ _ _ hp)
theorem clearJobs_wf (s : State) (pkg : Nat) (jobs cores : List Nat) (hs : Memory.wf s.mem) : Memory.wf (clearJobs s pkg jobs cores).mem := by
  unfold clearJobs
  exact foldl_wf _ (fun t x ht => by grind [modCore_mem, zeroScratch_wf, modPkg_mem]) _ _ (by grind [modCore_mem, zeroScratch_wf, modPkg_mem])
theorem stopThread_wf (s : State) (ctx : Nat) (hs : Memory.wf s.mem) : Memory.wf (stopThread s ctx).mem := by
  unfold stopThread
  grind [withdrawReads_mem, releaseWaits_wf, deliverTrap_wf, modCtx_mem]
theorem quiesce_wf (s : State) (pkg : Nat) (jobs : List Nat) (hs : Memory.wf s.mem) : Memory.wf (quiesce s pkg jobs).mem := by
  unfold quiesce
  exact foldl_wf _ (fun t x ht => by grind [modPkg_mem, performReady_wf, stopThread_wf]) _ _ (by grind [modPkg_mem, performReady_wf, stopThread_wf])
theorem refillAll_wf (core prio : Nat) (n : Nat) (s : State) (hs : Memory.wf s.mem) : Memory.wf (refillAll core prio n s).mem := by
  fun_induction refillAll core prio n s <;> grind [refillOne_wf]
theorem refillCores_wf (s : State) (cores : List Nat) (hs : Memory.wf s.mem) : Memory.wf (refillCores s cores).mem := by
  unfold refillCores
  grind [refillAll_wf, foldl_wf]
theorem saveJobs_wf (s : State) (pkg : Nat) (jobs : List Nat) (hs : Memory.wf s.mem) : Memory.wf (saveJobs s pkg jobs).mem := by
  unfold saveJobs
  grind [refillCores_wf, takePools_wf, clearJobs_wf, modPkg_mem]
theorem execPreEmption_wf (pkg job : Nat) (s : State) (hs : Memory.wf s.mem) : OutcomeWf (execPreEmption pkg job s) := by
  unfold execPreEmption
  grind [event_wf, quiesce_wf, saveJobs_wf, modPkg_mem, OutcomeWf, Res.wf]
theorem endPreemption_wf (s : State) (pkg : Nat) (hs : Memory.wf s.mem) : Memory.wf (endPreemption s pkg).mem := by
  unfold endPreemption
  grind [quiesce_wf, saveJobs_wf]
theorem heldFault_wf (s : State) (r : SafeRec) (cause : Nat) (faddr : Word) (ff : Bool) (addr : Word) (hs : Memory.wf s.mem) :
    Memory.wf (heldFault s r cause faddr ff addr).mem := by
  unfold heldFault
  grind [report_wf]
theorem poolHeld_wf (s : State) (r : SafeRec) (hs : Memory.wf s.mem) : Memory.wf (poolHeld s r).mem := by
  unfold poolHeld
  grind [spill_wf, poolPush_wf, heldFault_wf, modPkg_mem]
theorem restoreCtx_wf (s : State) (e : Nat × Ctx) (hs : Memory.wf s.mem) : Memory.wf (restoreCtx s e).mem := by
  unfold restoreCtx
  grind [dormant_mem, dropICache_mem, acquire_mem, setCtx_mem, poolHeld_wf]
theorem restoreCore_wf (s : State) (v : SavedCore) (hs : Memory.wf s.mem) : Memory.wf (restoreCore s v).mem := by
  unfold restoreCore
  grind [memWrite_wf, zeroScratch_wf, modCore_mem, restoreCtx_wf, trigTest_mem, foldl_wf]
theorem restoreJob_wf (s : State) (pkg : Nat) (v : SavedJob) (hs : Memory.wf s.mem) : Memory.wf (restoreJob s pkg v).mem := by
  unfold restoreJob
  grind [modGrove_mem, modPkg_mem, restoreCore_wf, poolPush_wf, foldl_wf]
theorem execRestoration_wf (pkg job : Nat) (s : State) (hs : Memory.wf s.mem) : OutcomeWf (execRestoration pkg job s) := by
  unfold execRestoration
  grind [event_wf, modPkg_mem, restoreJob_wf, OutcomeWf, Res.wf, foldl_wf]
theorem execSafePointModeSet_wf (pkg job : Nat) (s : State) (hs : Memory.wf s.mem) : OutcomeWf (execSafePointModeSet pkg job s) := by
  unfold execSafePointModeSet
  grind [event_wf, modPkg_mem, modCore_mem, OutcomeWf, Res.wf, foldl_wf]
theorem execSafePointTimeout_wf (ctx : Nat) (s : State) (hs : Memory.wf s.mem) : OutcomeWf (execSafePointTimeout ctx s) := by
  unfold execSafePointTimeout
  grind [event_wf, dormant_mem, performReady_wf, deliverTrap_wf, withdrawReads_mem, releaseWaits_wf, holdSafe_mem, OutcomeWf, Res.wf]
theorem releaseSafe_wf (s : State) (pkg job : Nat) (hs : Memory.wf s.mem) : Memory.wf (releaseSafe s pkg job).mem := by
  unfold releaseSafe
  exact foldl_wf _ (fun t x ht => by grind [poolHeld_wf, modPkg_mem]) _ _ (by grind [poolHeld_wf, modPkg_mem])
theorem retryReleased_wf (s : State) (pkg : Nat) (hs : Memory.wf s.mem) : Memory.wf (retryReleased s pkg).mem := by
  unfold retryReleased
  exact foldl_wf _ (fun t x ht => by grind [poolHeld_wf, modPkg_mem]) _ _ (by grind [poolHeld_wf, modPkg_mem])
theorem execSafePointRelease_wf (pkg job : Nat) (s : State) (hs : Memory.wf s.mem) : OutcomeWf (execSafePointRelease pkg job s) := by
  unfold execSafePointRelease
  grind [modPkg_mem, modCore_mem, event_wf, releaseSafe_wf, OutcomeWf, Res.wf, foldl_wf]

/-! ## Platform.lea -/
theorem execGovctlWrite_wf (pkg value : Nat) (s : State) (hs : Memory.wf s.mem) : OutcomeWf (execGovctlWrite pkg value s) := by
  unfold execGovctlWrite
  grind [pkgEvent_wf, govWrite_mem, OutcomeWf, Res.wf]
@[simp] theorem halveHot_mem (s : State) (pkg : Nat) : (halveHot s pkg).mem = s.mem := rfl
theorem execHotnessHalving_wf (pkg : Nat) (s : State) (hs : Memory.wf s.mem) : OutcomeWf (execHotnessHalving pkg s) := by
  unfold execHotnessHalving
  grind [event_wf, halveHot_mem, OutcomeWf, Res.wf]
@[simp] theorem refresh_mem (s : State) (pkg n temp vcore : Nat) : (refresh s pkg n temp vcore).mem = s.mem := rfl
theorem execMonitorRefresh_wf (pkg n temp vcore : Nat) (s : State) (hs : Memory.wf s.mem) : OutcomeWf (execMonitorRefresh pkg n temp vcore s) := by
  unfold execMonitorRefresh
  grind [pkgEvent_wf, refresh_mem, OutcomeWf, Res.wf]
@[simp] theorem refreshAll_mem (s : State) (pkg : Nat) : (refreshAll s pkg).mem = s.mem := by
  unfold refreshAll
  exact foldl_mem _ (fun t x => by grind [refresh_mem, freeStep_mem]) _ _
@[simp] theorem refreshPackages_mem (s : State) : (refreshPackages s).mem = s.mem := by
  unfold refreshPackages
  exact foldl_mem _ (fun t x => by grind [refreshAll_mem]) _ _
@[simp] theorem markHeld_mem (s : State) (pkg : Nat) : (markHeld s pkg).mem = s.mem := rfl
theorem execCurrentLimit_wf (pkg : Nat) (s : State) (hs : Memory.wf s.mem) : OutcomeWf (execCurrentLimit pkg s) := by
  unfold execCurrentLimit
  grind [pkgEvent_wf, modPkg_mem, OutcomeWf, Res.wf]
theorem execCurrentFallsBelowLimit_wf (pkg : Nat) (s : State) (hs : Memory.wf s.mem) : OutcomeWf (execCurrentFallsBelowLimit pkg s) := by
  unfold execCurrentFallsBelowLimit
  grind [pkgEvent_wf, modPkg_mem, OutcomeWf, Res.wf]
theorem dropNeighbours_mem (s : State) (ext : List Nat) (pkg : Nat) : (dropNeighbours s ext pkg).mem = s.mem := by
  unfold dropNeighbours
  refine foldl_mem _ (fun t w => ?_) _ _
  dsimp only
  split
  · rfl
  · exact foldl_mem _ (fun t i => dropEnd_mem t _ _) _ _
theorem losePackage_wf (s : State) (pkg : Nat) (hs : Memory.wf s.mem) : Memory.wf (losePackage s pkg).mem := by
  unfold losePackage
  dsimp only
  rw [rerouteIn_mem, dropNeighbours_mem]
  exact cellsWf_filter _ _ hs
theorem execThermalTrip_wf (pkg : Nat) (s : State) (hs : Memory.wf s.mem) : OutcomeWf (execThermalTrip pkg s) := by
  unfold execThermalTrip
  grind [event_wf, losePackage_wf, OutcomeWf, Res.wf]
theorem zeroHbm_wf (s : State) (pkg : Nat) (b : Bool) (hs : Memory.wf s.mem) : Memory.wf (zeroHbm s pkg b).mem := cellsWf_filter _ _ hs
@[simp] theorem trainLinks_mem (s : State) (pkg : Nat) : (trainLinks s pkg).mem = s.mem := by
  unfold trainLinks
  grind [reroute_mem, modPort_mem, trainPorts_mem, foldl_mem]
theorem startFirmware_wf (s : State) (pkg image : Nat) (hs : Memory.wf s.mem) : Memory.wf (startFirmware s pkg image).mem := by
  unfold startFirmware
  grind [zeroHbm_wf, trainLinks_mem, modPkg_mem]
theorem execBoot_wf (pkg image : Nat) (s : State) (hs : Memory.wf s.mem) : OutcomeWf (execBoot pkg image s) := by
  unfold execBoot
  grind [event_wf, startFirmware_wf, modPkg_mem, OutcomeWf, Res.wf]
theorem execRecoveryImageWrite_wf (pkg image : Nat) (s : State) (hs : Memory.wf s.mem) : OutcomeWf (execRecoveryImageWrite pkg image s) := by
  unfold execRecoveryImageWrite
  grind [event_wf, startFirmware_wf, OutcomeWf, Res.wf]
theorem execFuseWrite_wf (pkg kind value : Nat) (s : State) (hs : Memory.wf s.mem) : OutcomeWf (execFuseWrite pkg kind value s) := by
  unfold execFuseWrite
  grind [event_wf, modPkg_mem, OutcomeWf, Res.wf]
@[simp] theorem answer_mem (s : State) (pkg code value : Nat) : (answer s pkg code value).mem = s.mem := by
  unfold answer
  grind [modPkg_mem]
@[simp] theorem unsupported_mem (s : State) (pkg : Nat) : (unsupported s pkg).mem = s.mem := by
  unfold unsupported
  grind [answer_mem]
theorem execGetVersion_wf (pkg : Nat) (s : State) (hs : Memory.wf s.mem) : OutcomeWf (execGetVersion pkg s) := by
  unfold execGetVersion
  grind [event_wf, answer_mem, OutcomeWf, Res.wf]
theorem execGetCapabilities_wf (pkg : Nat) (s : State) (hs : Memory.wf s.mem) : OutcomeWf (execGetCapabilities pkg s) := by
  unfold execGetCapabilities
  grind [event_wf, answer_mem, OutcomeWf, Res.wf]
theorem execNegotiateAlgorithms_wf (pkg asym hash : Nat) (s : State) (hs : Memory.wf s.mem) : OutcomeWf (execNegotiateAlgorithms pkg asym hash s) := by
  unfold execNegotiateAlgorithms
  grind [event_wf, modPkg_mem, answer_mem, OutcomeWf, Res.wf]
theorem execGetDigests_wf (pkg : Nat) (s : State) (hs : Memory.wf s.mem) : OutcomeWf (execGetDigests pkg s) := by
  unfold execGetDigests
  grind [event_wf, answer_mem, OutcomeWf, Res.wf]
theorem execGetCertificate_wf (pkg slot ofs len : Nat) (s : State) (hs : Memory.wf s.mem) : OutcomeWf (execGetCertificate pkg slot ofs len s) := by
  unfold execGetCertificate
  grind [event_wf, answer_mem, OutcomeWf, Res.wf]
theorem execChallenge_wf (pkg slot nonce : Nat) (s : State) (hs : Memory.wf s.mem) : OutcomeWf (execChallenge pkg slot nonce s) := by
  unfold execChallenge
  grind [event_wf, answer_mem, OutcomeWf, Res.wf]
theorem execGetMeasurements_wf (pkg index : Nat) (s : State) (hs : Memory.wf s.mem) : OutcomeWf (execGetMeasurements pkg index s) := by
  unfold execGetMeasurements
  grind [event_wf, answer_mem, unsupported_mem, OutcomeWf, Res.wf]
theorem execSpdmOtherRequest_wf (pkg _code : Nat) (s : State) (hs : Memory.wf s.mem) : OutcomeWf (execSpdmOtherRequest pkg _code s) := by
  unfold execSpdmOtherRequest
  grind [event_wf, unsupported_mem, OutcomeWf, Res.wf]
theorem execDebugToken_wf (pkg level token : Nat) (s : State) (hs : Memory.wf s.mem) : OutcomeWf (execDebugToken pkg level token s) := by
  unfold execDebugToken
  grind [event_wf, modPkg_mem, OutcomeWf, Res.wf]
theorem execLifecycleChange_wf (pkg next : Nat) (s : State) (hs : Memory.wf s.mem) : OutcomeWf (execLifecycleChange pkg next s) := by
  unfold execLifecycleChange
  grind [pkgEvent_wf, modPkg_mem, OutcomeWf, Res.wf]
@[simp] theorem turnBeats_mem (s : State) (pkg : Nat) (stop : Bool) : (turnBeats s pkg stop).mem = s.mem := rfl
theorem execPowerStateChange_wf (pkg next : Nat) (s : State) (hs : Memory.wf s.mem) : OutcomeWf (execPowerStateChange pkg next s) := by
  unfold execPowerStateChange
  grind [event_wf, losePackage_wf, modPkg_mem, turnBeats_mem, zeroHbm_wf, OutcomeWf, Res.wf]
theorem execDeviceReset_wf (s : State) (hs : Memory.wf s.mem) : OutcomeWf (execDeviceReset s) :=
  event_wf _ (cellsWf_filter _ _ hs)
theorem debugWrite_wf (s : State) (pkg space addr size value : Nat) (hs : Memory.wf s.mem) : Memory.wf (debugWrite s pkg space addr size value).mem := by
  unfold debugWrite
  grind [mend_mem, homeWrite_wf, recallLines_wf, memWrite_wf, regWrite_wf, modCtx_mem]
@[simp] theorem readReg_mem (s : State) (pkg ofs : Nat) : (readReg s pkg ofs).mem = s.mem := rfl
theorem debugRead_wf (s : State) (pkg space addr size : Nat) (hs : Memory.wf s.mem) : Memory.wf (debugRead s pkg space addr size).mem := by
  unfold debugRead
  grind [modPkg_mem, recallLines_wf]
theorem execDebugAccess_wf (pkg wr space addr size value : Nat) (s : State) (hs : Memory.wf s.mem) :
    OutcomeWf (execDebugAccess pkg wr space addr size value s) := by
  unfold execDebugAccess
  grind [event_wf, debugWrite_wf, readReg_mem, debugRead_wf, OutcomeWf, Res.wf]

/-! ## Scalar.lea -/
theorem op2_wf (i : Instr) (d a b : Nat) (f : Word → Word → Word) (s : State) (hs : Memory.wf s.mem) : OutcomeWf (op2 i d a b f s) := by
  unfold op2
  grind [finish_wf, setA_mem, OutcomeWf, Res.wf]
theorem op1_wf (i : Instr) (d a : Nat) (f : Word → Word) (s : State) (hs : Memory.wf s.mem) : OutcomeWf (op1 i d a f s) := by
  unfold op1
  grind [finish_wf, setA_mem, OutcomeWf, Res.wf]
theorem op3_wf (i : Instr) (d a b : Nat) (f : Word → Word → Word → Word) (s : State) (hs : Memory.wf s.mem) : OutcomeWf (op3 i d a b f s) := by
  unfold op3
  grind [finish_wf, setA_mem, OutcomeWf, Res.wf]
theorem execLil_wf (d i : Nat) (s : State) (hs : Memory.wf s.mem) : OutcomeWf (execLil d i s) := by
  unfold execLil
  grind [finish_wf, setA_mem, OutcomeWf, Res.wf]
theorem execAddpc_wf (d i : Nat) (s : State) (hs : Memory.wf s.mem) : OutcomeWf (execAddpc d i s) := by
  unfold execAddpc
  grind [finish_wf, setA_mem, OutcomeWf, Res.wf]

/-! ## VectorMemory.lea -/
theorem vectorLoad_wf (s : State) (ap : Bool) (d m t lim : Nat) (addr : Nat → Word) (hs : Memory.wf s.mem) :
    Res.wf (vectorLoad s ap d m t lim addr) := by
  unfold vectorLoad
  grind [loads_wf, setVPart_mem, Res.wf]
theorem vectorStore_wf (s : State) (ap : Bool) (d m t lim : Nat) (addr : Nat → Word) (hs : Memory.wf s.mem) :
    Res.wf (vectorStore s ap d m t lim addr) := by
  unfold vectorStore
  grind [tagTrap_wf, stores_wf, Res.wf]
theorem execVld_wf (d a m t : Nat) (s : State) (hs : Memory.wf s.mem) : OutcomeWf (execVld d a m t s) := by
  unfold execVld
  grind [finish_wf, vectorLoad_wf, OutcomeWf, Res.wf]
theorem execVst_wf (d a m t : Nat) (s : State) (hs : Memory.wf s.mem) : OutcomeWf (execVst d a m t s) := by
  unfold execVst
  grind [finish_wf, vectorStore_wf, OutcomeWf, Res.wf]
theorem execVlds_wf (d a b m t : Nat) (s : State) (hs : Memory.wf s.mem) : OutcomeWf (execVlds d a b m t s) := by
  unfold execVlds
  grind [finish_wf, vectorLoad_wf, OutcomeWf, Res.wf]
theorem execVsts_wf (d a b m t : Nat) (s : State) (hs : Memory.wf s.mem) : OutcomeWf (execVsts d a b m t s) := by
  unfold execVsts
  grind [finish_wf, vectorStore_wf, OutcomeWf, Res.wf]
theorem execVldi_wf (d a b m t : Nat) (s : State) (hs : Memory.wf s.mem) : OutcomeWf (execVldi d a b m t s) := by
  unfold execVldi
  grind [finish_wf, tagTrap_wf, vectorLoad_wf, OutcomeWf, Res.wf]
theorem execVsti_wf (d a b m t : Nat) (s : State) (hs : Memory.wf s.mem) : OutcomeWf (execVsti d a b m t s) := by
  unfold execVsti
  grind [finish_wf, tagTrap_wf, vectorStore_wf, OutcomeWf, Res.wf]
theorem execVldp_wf (d a m n : Nat) (s : State) (hs : Memory.wf s.mem) : OutcomeWf (execVldp d a m n s) := by
  unfold execVldp
  grind [finish_wf, loads_wf, lanes_wf, OutcomeWf, Res.wf]
theorem mergePlanes_wf (mask l cs) (s : State) (hs : Memory.wf s.mem) : Memory.wf (mergePlanes s mask l cs).mem := by
  induction l generalizing s cs with
  | nil => unfold mergePlanes; exact hs
  | cons e l ih =>
    unfold mergePlanes
    split
    · next heq =>
      cases heq
      refine ih _ _ (foldl_wf _ (fun t x ht => ?_) _ _ (spansWrite_wf _ _ _ (foldl_wf _ (fun t x ht => ?_) _ _ hs)))
      · rw [dropL1_mem]; exact ht
      · grind [settleBytes_wf, drainTo_wf]
    · exact hs
theorem execVstp_wf (d a m : Nat) (s : State) (hs : Memory.wf s.mem) : OutcomeWf (execVstp d a m s) := by
  unfold execVstp
  grind [finish_wf, tagTrap_wf, stores_wf, checkMany_wf, chkRes_wf, recallMany_wf, mergePlanes_wf, OutcomeWf, Res.wf]

/-! ## Schedule.lea -/
@[simp] theorem starve_mem (s : State) (pkg : Nat) (p : Pkg) : (starve s pkg p).mem = s.mem := by
  unfold starve
  exact foldl_mem _ (fun t x => by grind [hotCount_mem]) _ _
@[simp] theorem lines_mem (s : State) : (lines s).mem = s.mem := by
  unfold lines
  exact foldl_mem _ (fun t x => by grind [modPkg_mem]) _ _
theorem tick_wf (s : State) (hs : Memory.wf s.mem) : Memory.wf (tick s).mem := by
  unfold tick
  grind [fitCaches_wf, starve_mem, lines_mem, markHeld_mem, refreshPackages_mem, scrubAll_mem, halveHot_mem, foldl_wf]
theorem fetchTrap_wf (s : State) (cause : Nat) (faddr : Word) (hs : Memory.wf s.mem) : Memory.wf (fetchTrap s cause faddr).mem := by
  unfold fetchTrap
  grind [deliverTrap_wf, uncMet_mem]
@[simp] theorem cachedWord_mem (s : State) (k : Nat) : (cachedWord s k).1.mem = s.mem := by
  unfold cachedWord
  grind [freeStep_mem]
theorem illegal_wf (s : State) (w : Nat) (hs : Memory.wf s.mem) : Memory.wf (illegal s w).mem := by
  unfold illegal
  grind [deliverTrap_wf]
@[simp] theorem begun_mem (s : State) (w : Nat) : (begun s w).mem = s.mem := rfl
@[simp] theorem selectCtx_mem (s : State) (ctx : Nat) : (selectCtx s ctx).mem = s.mem := rfl
theorem speculate_wf (s : State) (hs : Memory.wf s.mem) : Memory.wf (speculate s).mem := by
  unfold speculate
  grind [freeStep_mem, dormant_mem, speculateAt_wf]

end Sys2Proof.Machine

/-! PROOFS of the canonical form of the memory (2): every instruction and event keeps it, and so does every step. -/

namespace Sys2Proof.Machine

open Sys2Proof

/-! ## The pure, predicate and near-bank operations of the Skidder -/

theorem execKadd_wf (pkg stk slot el isl : Nat) (s : State) (hs : Memory.wf s.mem) : OutcomeWf (execKadd pkg stk slot el isl s) := by
  delta execKadd
  exact kPure_wf _ _ _ _ _ _ _ s hs
theorem execKsub_wf (pkg stk slot el isl : Nat) (s : State) (hs : Memory.wf s.mem) : OutcomeWf (execKsub pkg stk slot el isl s) := by
  delta execKsub
  exact kPure_wf _ _ _ _ _ _ _ s hs
theorem execKmul_wf (pkg stk slot el isl : Nat) (s : State) (hs : Memory.wf s.mem) : OutcomeWf (execKmul pkg stk slot el isl s) := by
  delta execKmul
  exact kPure_wf _ _ _ _ _ _ _ s hs
theorem execKmac_wf (pkg stk slot el isl : Nat) (s : State) (hs : Memory.wf s.mem) : OutcomeWf (execKmac pkg stk slot el isl s) := by
  delta execKmac
  exact kPure_wf _ _ _ _ _ _ _ s hs
theorem execKand_wf (pkg stk slot el isl : Nat) (s : State) (hs : Memory.wf s.mem) : OutcomeWf (execKand pkg stk slot el isl s) := by
  delta execKand
  exact kPure_wf _ _ _ _ _ _ _ s hs
theorem execKor_wf (pkg stk slot el isl : Nat) (s : State) (hs : Memory.wf s.mem) : OutcomeWf (execKor pkg stk slot el isl s) := by
  delta execKor
  exact kPure_wf _ _ _ _ _ _ _ s hs
theorem execKxor_wf (pkg stk slot el isl : Nat) (s : State) (hs : Memory.wf s.mem) : OutcomeWf (execKxor pkg stk slot el isl s) := by
  delta execKxor
  exact kPure_wf _ _ _ _ _ _ _ s hs
theorem execKshl_wf (pkg stk slot el isl : Nat) (s : State) (hs : Memory.wf s.mem) : OutcomeWf (execKshl pkg stk slot el isl s) := by
  delta execKshl
  exact kPure_wf _ _ _ _ _ _ _ s hs
theorem execKshr_wf (pkg stk slot el isl : Nat) (s : State) (hs : Memory.wf s.mem) : OutcomeWf (execKshr pkg stk slot el isl s) := by
  delta execKshr
  exact kPure_wf _ _ _ _ _ _ _ s hs
theorem execKcmp_wf (pkg stk slot el isl : Nat) (s : State) (hs : Memory.wf s.mem) : OutcomeWf (execKcmp pkg stk slot el isl s) := by
  delta execKcmp
  exact kPure_wf _ _ _ _ _ _ _ s hs
theorem execKsel_wf (pkg stk slot el isl : Nat) (s : State) (hs : Memory.wf s.mem) : OutcomeWf (execKsel pkg stk slot el isl s) := by
  delta execKsel
  exact kPure_wf _ _ _ _ _ _ _ s hs
theorem execKmin_wf (pkg stk slot el isl : Nat) (s : State) (hs : Memory.wf s.mem) : OutcomeWf (execKmin pkg stk slot el isl s) := by
  delta execKmin
  exact kPure_wf _ _ _ _ _ _ _ s hs
theorem execKmax_wf (pkg stk slot el isl : Nat) (s : State) (hs : Memory.wf s.mem) : OutcomeWf (execKmax pkg stk slot el isl s) := by
  delta execKmax
  exact kPure_wf _ _ _ _ _ _ _ s hs
theorem execKpopc_wf (pkg stk slot el isl : Nat) (s : State) (hs : Memory.wf s.mem) : OutcomeWf (execKpopc pkg stk slot el isl s) := by
  delta execKpopc
  exact kPure_wf _ _ _ _ _ _ _ s hs
theorem execKpass_wf (pkg stk slot el isl : Nat) (s : State) (hs : Memory.wf s.mem) : OutcomeWf (execKpass pkg stk slot el isl s) := by
  delta execKpass
  exact kPure_wf _ _ _ _ _ _ _ s hs
theorem execKend_wf (pkg stk slot el isl : Nat) (s : State) (hs : Memory.wf s.mem) : OutcomeWf (execKend pkg stk slot el isl s) := by
  delta execKend
  exact kPure_wf _ _ _ _ _ _ _ s hs
theorem execKsetp_wf (pkg stk slot el isl : Nat) (s : State) (hs : Memory.wf s.mem) : OutcomeWf (execKsetp pkg stk slot el isl s) := by
  delta execKsetp
  exact kPreds_wf _ _ _ _ _ _ _ s hs
theorem execKclrp_wf (pkg stk slot el isl : Nat) (s : State) (hs : Memory.wf s.mem) : OutcomeWf (execKclrp pkg stk slot el isl s) := by
  delta execKclrp
  exact kPreds_wf _ _ _ _ _ _ _ s hs
theorem execKnbadd_wf (pkg stk slot el isl : Nat) (s : State) (hs : Memory.wf s.mem) : OutcomeWf (execKnbadd pkg stk slot el isl s) := by
  delta execKnbadd
  exact kNear_wf _ _ _ _ _ _ _ s hs
theorem execKnbscl_wf (pkg stk slot el isl : Nat) (s : State) (hs : Memory.wf s.mem) : OutcomeWf (execKnbscl pkg stk slot el isl s) := by
  delta execKnbscl
  exact kNear_wf _ _ _ _ _ _ _ s hs
theorem execKnbsum_wf (pkg stk slot el isl : Nat) (s : State) (hs : Memory.wf s.mem) : OutcomeWf (execKnbsum pkg stk slot el isl s) := by
  delta execKnbsum
  exact kNear_wf _ _ _ _ _ _ _ s hs

/-! ## Every meaning keeps the canonical form -/

theorem exec_wf (i : Instr) (s : State) (hs : Memory.wf s.mem) : OutcomeWf (exec i s) := by
  cases i with
  | add | sub | and | or | xor | andn | sll | srl | sra | rol | mul | mulh | mulhu | div | divu | rem | remu | min | max | minu | maxu | slt | sltu |
    seq | sext | zext | extr =>
    delta exec
    dsimp only
    exact op2_wf _ _ _ _ _ s hs
  | clz | ctz | popc | brev | bswap | addi | andi | ori | xori | slti | slli | srli | srai | lih | lea =>
    delta exec
    dsimp only
    exact op1_wf _ _ _ _ s hs
  | insr | sel =>
    delta exec
    dsimp only
    exact op3_wf _ _ _ _ _ s hs
  | ldB | ldH | ldW | ldD | ldBZ | ldHZ | ldWZ | ldx =>
    delta exec
    dsimp only
    exact loadTo_wf _ _ _ _ _ _ _ s hs
  | stB | stH | stW | stD | stx =>
    delta exec
    dsimp only
    exact storeFrom_wf _ _ _ _ _ _ s hs
  | aadd | amin | amax | aand | aor | axor | aswp | acas | afadd =>
    delta exec
    dsimp only
    exact atomicOp_wf _ _ _ _ _ _ _ s hs
  | beq | bne | blt | bge | bltu | bgeu | bz | bnz =>
    delta exec
    dsimp only
    exact branch_wf _ _ _ _ _ s hs
  | vadd | vsub | vmul | vmin | vmax | vshl | vshr =>
    delta exec
    dsimp only
    exact vop2_wf _ _ _ _ _ _ _ s hs
  | vfma | vfms =>
    delta exec
    dsimp only
    exact vop3_wf _ _ _ _ _ _ s hs
  | vabs | vneg | vrcp | vrsq | vexp2 | vlog2 =>
    delta exec
    dsimp only
    exact vop1_wf _ _ _ _ _ _ s hs
  | vand | vor | vxor =>
    delta exec
    dsimp only
    exact vlogic_wf _ _ _ _ _ _ s hs
  | ecopy | egath | escat | enear | eqry | migr =>
    delta exec
    dsimp only
    exact issueEngine_wf _ _ _ _ _ _ _ _ s hs
  | kadd => exact execKadd_wf _ _ _ _ _ s hs
  | ksub => exact execKsub_wf _ _ _ _ _ s hs
  | kmul => exact execKmul_wf _ _ _ _ _ s hs
  | kmac => exact execKmac_wf _ _ _ _ _ s hs
  | kand => exact execKand_wf _ _ _ _ _ s hs
  | kor => exact execKor_wf _ _ _ _ _ s hs
  | kxor => exact execKxor_wf _ _ _ _ _ s hs
  | kshl => exact execKshl_wf _ _ _ _ _ s hs
  | kshr => exact execKshr_wf _ _ _ _ _ s hs
  | kcmp => exact execKcmp_wf _ _ _ _ _ s hs
  | ksel => exact execKsel_wf _ _ _ _ _ s hs
  | kmin => exact execKmin_wf _ _ _ _ _ s hs
  | kmax => exact execKmax_wf _ _ _ _ _ s hs
  | kpopc => exact execKpopc_wf _ _ _ _ _ s hs
  | kpass => exact execKpass_wf _ _ _ _ _ s hs
  | kend => exact execKend_wf _ _ _ _ _ s hs
  | ksetp => exact execKsetp_wf _ _ _ _ _ s hs
  | kclrp => exact execKclrp_wf _ _ _ _ _ s hs
  | knbadd => exact execKnbadd_wf _ _ _ _ _ s hs
  | knbscl => exact execKnbscl_wf _ _ _ _ _ s hs
  | knbsum => exact execKnbsum_wf _ _ _ _ _ s hs
  | lil => exact execLil_wf _ _ s hs
  | addpc => exact execAddpc_wf _ _ s hs
  | ldfTake => exact execLdfTake_wf _ _ s hs
  | ldfPeek => exact execLdfPeek_wf _ _ s hs
  | ste => exact execSte_wf _ _ s hs
  | tagset => exact execTagset_wf _ _ s hs
  | tagget => exact execTagget_wf _ _ s hs
  | acq => exact execAcq_wf s hs
  | rel => exact execRel_wf s hs
  | fenceE => exact execFenceE_wf _ _ s hs
  | pref => exact execPref_wf _ s hs
  | aupd => exact execAupd_wf _ _ _ _ _ s hs
  | jmp => exact execJmp_wf _ s hs
  | jal => exact execJal_wf _ s hs
  | jr => exact execJr_wf _ s hs
  | jalr => exact execJalr_wf _ _ s hs
  | loop => exact execLoop_wf _ _ _ s hs
  | loopi => exact execLoopi_wf _ _ _ s hs
  | vcmp => exact execVcmp_wf _ _ _ _ _ s hs
  | vsel => exact execVsel_wf _ _ _ _ s hs
  | vpack => exact execVpack_wf _ _ _ s hs
  | vunpk => exact execVunpk_wf _ _ _ s hs
  | vsplat => exact execVsplat_wf _ _ _ _ s hs
  | vext => exact execVext_wf _ _ _ s hs
  | vins => exact execVins_wf _ _ _ s hs
  | vperm => exact execVperm_wf _ _ _ _ s hs
  | vred => exact execVred_wf _ _ _ _ s hs
  | vscan => exact execVscan_wf _ _ _ _ s hs
  | vcvt => exact execVcvt_wf _ _ _ _ _ s hs
  | vld => exact execVld_wf _ _ _ _ s hs
  | vst => exact execVst_wf _ _ _ _ s hs
  | vlds => exact execVlds_wf _ _ _ _ _ s hs
  | vsts => exact execVsts_wf _ _ _ _ _ s hs
  | vldi => exact execVldi_wf _ _ _ _ _ s hs
  | vsti => exact execVsti_wf _ _ _ _ _ s hs
  | vldp => exact execVldp_wf _ _ _ _ s hs
  | vstp => exact execVstp_wf _ _ _ s hs
  | vnzs => exact execVnzs_wf _ _ _ s hs
  | vband => exact execVband_wf _ _ _ _ s hs
  | vpopp => exact execVpopp_wf _ _ _ s hs
  | visect => exact execVisect_wf _ _ _ _ s hs
  | vmovmMaskToVector => exact execVmovmMaskToVector_wf _ _ s hs
  | mand => exact execMand_wf _ _ _ s hs
  | mor => exact execMor_wf _ _ _ s hs
  | mnot => exact execMnot_wf _ _ s hs
  | mpop => exact execMpop_wf _ _ s hs
  | vmovmVectorToMask => exact execVmovmVectorToMask_wf _ _ s hs
  | send => exact execSend_wf _ _ _ _ s hs
  | sendi => exact execSendi_wf _ _ _ _ s hs
  | sendm => exact execSendm_wf _ _ _ _ _ s hs
  | spawn => exact execSpawn_wf _ _ _ _ s hs
  | xdsp => exact execXdsp_wf _ _ _ _ s hs
  | endThread => exact execEndThread_wf s hs
  | yield => exact execYield_wf s hs
  | suspend => exact execSuspend_wf _ _ s hs
  | resume => exact execResume_wf _ _ _ s hs
  | hbeat => exact execHbeat_wf s hs
  | cnti => exact execCnti_wf _ _ s hs
  | cnta => exact execCnta_wf _ _ _ s hs
  | cntaRel => exact execCntaRel_wf _ _ _ s hs
  | cntw => exact execCntw_wf _ _ _ s hs
  | cntt => exact execCntt_wf _ _ _ s hs
  | barinit => exact execBarinit_wf _ _ s hs
  | bararv => exact execBararv_wf _ _ s hs
  | bardrop => exact execBardrop_wf _ s hs
  | barwait => exact execBarwait_wf _ _ s hs
  | bartx => exact execBartx_wf _ _ s hs
  | gjoin => exact execGjoin_wf _ _ s hs
  | gleave => exact execGleave_wf _ _ s hs
  | gld => exact execGld_wf _ _ _ _ s hs
  | gldf => exact execGldf_wf _ _ _ _ s hs
  | gbar => exact execGbar_wf _ _ s hs
  | ginfo => exact execGinfo_wf _ _ s hs
  | gbarRelease => exact execGbarRelease_wf _ _ _ s hs
  | fork => exact execFork_wf _ _ s hs
  | join => exact execJoin_wf _ s hs
  | dqpush => exact execDqpush_wf _ _ s hs
  | dqpop => exact execDqpop_wf _ _ s hs
  | rget => exact execRget_wf _ _ s hs
  | rput => exact execRput_wf _ _ s hs
  | rtake => exact execRtake_wf _ _ _ s hs
  | rfree => exact execRfree_wf _ _ _ s hs
  | esub => exact execEsub_wf _ _ s hs
  | ebind => exact execEbind_wf _ _ _ s hs
  | qload => exact execQload_wf _ _ _ s hs
  | qplay => exact execQplay_wf _ _ s hs
  | nsend => exact execNsend_wf _ _ s hs
  | nrecv => exact execNrecv_wf _ _ s hs
  | npoll => exact execNpoll_wf _ _ _ s hs
  | mzero => exact execMzero_wf _ _ s hs
  | mlda => exact execMlda_wf _ _ s hs
  | mldb => exact execMldb_wf _ _ s hs
  | mpost => exact execMpost_wf _ _ s hs
  | mop => exact execMop_wf _ _ _ s hs
  | mopm => exact execMopm_wf _ _ _ _ s hs
  | mst => exact execMst_wf _ _ _ s hs
  | mrd => exact execMrd_wf _ _ _ s hs
  | mscale => exact execMscale_wf _ _ _ _ s hs
  | mstat => exact execMstat_wf _ _ _ s hs
  | cruise => exact execCruise_wf _ _ _ s hs
  | blaze => exact execBlaze_wf _ _ _ _ s hs
  | blzmov => exact execBlzmov_wf _ _ s hs
  | blzmovStore => exact execBlzmovStore_wf _ _ s hs
  | blzmovLoad => exact execBlzmovLoad_wf _ _ _ s hs
  | blzmovAnd => exact execBlzmovAnd_wf _ _ s hs
  | blzpop => exact execBlzpop_wf _ _ _ s hs
  | ewr => exact execEwr_wf _ _ s hs
  | erd => exact execErd_wf _ _ s hs
  | nop => exact execNop_wf s hs
  | trap => exact execTrap_wf _ _ s hs
  | eret => exact execEret_wf s hs
  | wfe => exact execWfe_wf s hs
  | synci => exact execSynci_wf s hs
  | tlbinvPage => exact execTlbinvPage_wf _ s hs
  | tlbinvJob => exact execTlbinvJob_wf s hs
  | brk => exact execBrk_wf _ s hs
  | crd => exact execCrd_wf _ _ s hs
  | cwr => exact execCwr_wf _ _ s hs
  | safept => exact execSafept_wf _ s hs
  | kcvt => exact execKcvt_wf _ _ _ _ _ s hs
  | kred => exact execKred_wf _ _ _ _ _ s hs
  | kdeq => exact execKdeq_wf _ _ _ _ _ s hs
  | kenq => exact execKenq_wf _ _ _ _ _ s hs
  | klgen => exact execKlgen_wf _ _ _ _ _ s hs
  | kmrd => exact execKmrd_wf _ _ _ _ _ s hs
  | kmwr => exact execKmwr_wf _ _ _ _ _ s hs
  | wave => exact execWave_wf _ _ _ _ s hs
  | packetArrival => exact execPacketArrival_wf _ s hs
  | packetResend => exact execPacketResend_wf _ s hs
  | messageAcceptance => exact execMessageAcceptance_wf _ _ s hs
  | deckRefill => exact execDeckRefill_wf _ _ s hs
  | recordAging => exact execRecordAging_wf _ _ _ s hs
  | recordStart => exact execRecordStart_wf _ s hs
  | hardwareSuspension => exact execHardwareSuspension_wf _ s hs
  | spawnSequencerSend => exact execSpawnSequencerSend_wf _ s hs
  | engineOperationStart => exact execEngineOperationStart_wf _ _ s hs
  | engineOperationCompletion => exact execEngineOperationCompletion_wf _ _ s hs
  | sawmillQueueEntry => exact execSawmillQueueEntry_wf _ _ s hs
  | sawmillStart => exact execSawmillStart_wf _ s hs
  | sawmillCompletion => exact execSawmillCompletion_wf _ s hs
  | cruiseStart => exact execCruiseStart_wf _ s hs
  | cruiseCompletion => exact execCruiseCompletion_wf _ s hs
  | tlbMissRequest => exact execTlbMissRequest_wf _ _ _ s hs
  | walkRetry => exact execWalkRetry_wf _ _ s hs
  | walkCompletion => exact execWalkCompletion_wf _ _ s hs
  | tlbinvCompletion => exact execTlbinvCompletion_wf _ _ s hs
  | storeRegistration => exact execStoreRegistration_wf _ s hs
  | ownedWordEviction => exact execOwnedWordEviction_wf _ _ s hs
  | updateOnlyFlush => exact execUpdateOnlyFlush_wf _ _ s hs
  | landingRetry => exact execLandingRetry_wf _ s hs
  | pageRequestEntry => exact execPageRequestEntry_wf _ s hs
  | pageRequestAnswer => exact execPageRequestAnswer_wf _ _ s hs
  | faultDelivery => exact execFaultDelivery_wf _ s hs
  | faultDeliveryRetry => exact execFaultDeliveryRetry_wf _ s hs
  | heartbeatMiss => exact execHeartbeatMiss_wf _ s hs
  | spareTakeover => exact execSpareTakeover_wf _ s hs
  | partialMessageDiscard => exact execPartialMessageDiscard_wf _ _ s hs
  | wfeTimeout => exact execWfeTimeout_wf _ s hs
  | hostActiveMessage => exact execHostActiveMessage_wf _ _ _ _ _ s hs
  | hostMessageRetry => exact execHostMessageRetry_wf _ s hs
  | install => exact execInstall_wf _ s hs
  | remove => exact execRemove_wf _ s hs
  | aset => exact execAset_wf _ s hs
  | shoot => exact execShoot_wf _ s hs
  | bind => exact execBind_wf _ s hs
  | grant => exact execGrant_wf _ s hs
  | hotread => exact execHotread_wf _ s hs
  | region => exact execRegion_wf _ s hs
  | qpset => exact execQpset_wf _ s hs
  | govctlWrite => exact execGovctlWrite_wf _ _ s hs
  | registerWrite => exact execRegisterWrite_wf _ _ _ _ s hs
  | hotnessHalving => exact execHotnessHalving_wf _ s hs
  | monitorRefresh => exact execMonitorRefresh_wf _ _ _ _ s hs
  | currentLimit => exact execCurrentLimit_wf _ s hs
  | thermalTrip => exact execThermalTrip_wf _ s hs
  | boot => exact execBoot_wf _ _ s hs
  | recoveryImageWrite => exact execRecoveryImageWrite_wf _ _ s hs
  | fuseWrite => exact execFuseWrite_wf _ _ _ s hs
  | getVersion => exact execGetVersion_wf _ s hs
  | getCapabilities => exact execGetCapabilities_wf _ s hs
  | negotiateAlgorithms => exact execNegotiateAlgorithms_wf _ _ _ s hs
  | getDigests => exact execGetDigests_wf _ s hs
  | getCertificate => exact execGetCertificate_wf _ _ _ _ s hs
  | challenge => exact execChallenge_wf _ _ _ s hs
  | getMeasurements => exact execGetMeasurements_wf _ _ s hs
  | spdmOtherRequest pkg code => exact execSpdmOtherRequest_wf pkg code s hs
  | debugToken => exact execDebugToken_wf _ _ _ s hs
  | lifecycleChange => exact execLifecycleChange_wf _ _ s hs
  | powerStateChange => exact execPowerStateChange_wf _ _ s hs
  | deviceReset => exact execDeviceReset_wf s hs
  | preEmption => exact execPreEmption_wf _ _ s hs
  | restoration => exact execRestoration_wf _ _ s hs
  | safePointModeSet => exact execSafePointModeSet_wf _ _ s hs
  | safePointTimeout => exact execSafePointTimeout_wf _ s hs
  | safePointRelease => exact execSafePointRelease_wf _ _ s hs
  | chunkStart => exact execChunkStart_wf _ _ s hs
  | chunkCompletion => exact execChunkCompletion_wf _ _ s hs
  | chunkRedo => exact execChunkRedo_wf _ _ s hs
  | playAbort => exact execPlayAbort_wf _ _ s hs
  | linkRetransmission => exact execLinkRetransmission_wf _ _ s hs
  | laneDown => exact execLaneDown_wf _ _ _ s hs
  | routerUncorrectable => exact execRouterUncorrectable_wf _ s hs
  | unreachableTimeout => exact execUnreachableTimeout_wf _ _ s hs
  | ucieLaneRepair => exact execUcieLaneRepair_wf _ _ s hs
  | ucieLinkDown => exact execUcieLinkDown_wf _ _ s hs
  | cxlPortFailure => exact execCxlPortFailure_wf _ _ _ s hs
  | cxlPortRecovery => exact execCxlPortRecovery_wf _ _ s hs
  | ethReceive => exact execEthReceive_wf _ _ _ _ _ _ s hs
  | ethSendCompletion => exact execEthSendCompletion_wf _ _ s hs
  | rnrRetry => exact execRnrRetry_wf _ _ s hs
  | ethPortDown => exact execEthPortDown_wf _ _ s hs
  | patrolScrub => exact execPatrolScrub_wf _ _ s hs
  | hostHdmAccess => exact execHostHdmAccess_wf _ _ _ _ _ s hs
  | remoteStoreAcknowledgement => exact execRemoteStoreAcknowledgement_wf _ s hs
  | currentFallsBelowLimit => exact execCurrentFallsBelowLimit_wf _ s hs
  | laneDisable => exact execLaneDisable_wf _ _ _ s hs
  | corePoweredDown => exact execCorePoweredDown_wf _ s hs
  | debugAccess => exact execDebugAccess_wf _ _ _ _ _ _ s hs
  | workEntryReached => exact execWorkEntryReached_wf _ _ _ s hs
  | softError => exact execSoftError_wf _ _ s hs

/-! ## Fetching -/

/-- What a fetch leaves has its memory in canonical form. -/
def Fetched.wf : Fetched → Prop
  | .word s _ => Memory.wf s.mem
  | .stop s => Memory.wf s.mem

theorem fetchKey_wf (s : State) (k : Nat) (hs : Memory.wf s.mem) : Fetched.wf (fetchKey s k) := by
  unfold fetchKey
  grind [Fetched.wf, cachedWord_mem, recallLines_wf, fetchTrap_wf, modCore_mem, cxlDelivers_mem]

theorem fetchWord_wf (s : State) (hs : Memory.wf s.mem) : Fetched.wf (fetchWord s) := by
  unfold fetchWord
  grind [Fetched.wf, check_wf, fetchKey_wf, fetchTrap_wf, pageAbsent_wf, pageHeld_wf]

theorem nextWord_wf (s : State) (hs : Memory.wf s.mem) : Fetched.wf (nextWord s) := by
  unfold nextWord
  have hf := fetchWord_wf (modCx s (fun c => { c with insn := none })) hs
  split
  · exact hs
  · split
    · next heq => rw [heq] at hf; exact hf
    · next heq => rw [heq] at hf; exact hf

/-- A thread that takes a trap, or whose fetch gives none, ends its turn; any other one runs the instruction that it holds. -/
theorem runThread_wf (s : State) (hs : Memory.wf s.mem) : OutcomeWf (runThread s) := by
  unfold runThread
  have hf := nextWord_wf s hs
  split
  · next t heq => rw [heq] at hf; exact event_wf t hf
  · next t w heq =>
    rw [heq] at hf
    split
    · exact exec_wf _ t hf
    · exact event_wf _ (illegal_wf t w hf)

/-! ## Hardware events -/

/-- An event that keeps the canonical form of the memory. -/
def KeepsWf (a : Act) : Prop := ∀ s, Memory.wf s.mem → OutcomeWf (a s)

theorem keepsWf_event : KeepsWf event := event_wf

theorem keepsWf_firstDue {n : Nat} {f : Nat → Act} (h : ∀ i, KeepsWf (f i)) : KeepsWf (firstDue n f) := by
  intro s hs
  unfold firstDue
  split
  · exact h _ s hs
  · exact event_wf s hs

theorem keepsWf_ifPowered {s : State} {pkgs : List Nat} {a : Act} (h : KeepsWf a) : KeepsWf (ifPowered s pkgs a) := by
  unfold ifPowered
  split
  · exact h
  · exact keepsWf_event

theorem keepsWf_listed {α : Type} {s : State} {l : List α} {pkgs : α → List Nat} {f : Nat → Act} (h : ∀ i, KeepsWf (f i)) (n : Nat) :
    KeepsWf (listed s l pkgs f n) := keepsWf_ifPowered (h n)

theorem keepsWf_ctxEvents (k : Nat) : ∀ a ∈ ctxEvents k, KeepsWf a := by
  simp only [ctxEvents, List.forall_mem_cons, List.not_mem_nil, false_implies, implies_true, and_true]
  exact ⟨execLandingRetry_wf k, execFaultDeliveryRetry_wf k, execWfeTimeout_wf k, execHardwareSuspension_wf k, execSafePointTimeout_wf k,
    execUnreachableTimeout_wf 0 k⟩

theorem keepsWf_coreEvents (c : Nat) (u : Core) : ∀ a ∈ coreEvents c u, KeepsWf a := by
  intro a ha
  simp only [coreEvents, List.mem_append, List.mem_cons, List.not_mem_nil, or_false, List.mem_flatMap, List.mem_map] at ha
  obtain ((((((rfl | rfl | rfl | rfl | rfl) | hd) | ⟨p, -, rfl | ⟨n, -, rfl⟩⟩) | ⟨n, -, rfl⟩) | ⟨n, -, rfl | rfl⟩) | ⟨m, -, rfl | rfl⟩) := ha
  · exact execSpawnSequencerSend_wf c
  · exact execRecordStart_wf c
  · exact execSpareTakeover_wf c
  · exact fun s hs => event_wf _ (wakeWritten_wf s c hs)
  · exact fun s hs => event_wf _ (by rw [flushLaunches_mem]; exact hs)
  · split at hd
    · cases hd
    · obtain ⟨i, -, rfl⟩ := List.mem_map.1 hd
      exact execRecordStart_wf _
  · exact execDeckRefill_wf c p
  · exact execRecordAging_wf c p n
  · exact execPartialMessageDiscard_wf c n
  · exact execEngineOperationStart_wf c n
  · exact execEngineOperationCompletion_wf c n
  · exact execMessageAcceptance_wf c m.num
  · exact execUnreachableTimeout_wf 2 _

theorem keepsWf_groveEvents (g : Nat) (u : Grove) : ∀ a ∈ groveEvents g u, KeepsWf a := by
  intro a ha
  simp only [groveEvents, List.mem_append, List.mem_cons, List.not_mem_nil, or_false, List.mem_flatMap, List.mem_map] at ha
  obtain (((((rfl | rfl | rfl | rfl) | ⟨n, -, rfl⟩) | ⟨n, -, rfl⟩) | ⟨n, -, rfl⟩) | ⟨e, -, c, -, rfl⟩) | ⟨i, -, rfl⟩ := ha
  · exact execSawmillStart_wf g
  · exact execSawmillCompletion_wf g
  · exact execCruiseStart_wf g
  · exact execCruiseCompletion_wf g
  · exact execSawmillQueueEntry_wf g n
  · exact execWalkRetry_wf g n
  · exact execWalkCompletion_wf g n
  · exact execGbarRelease_wf _ _ c
  · exact execRecordStart_wf _

/-- The step of a configuration slot is that of its operation's row (12 R325). -/
theorem keepsWf_slotEvent {op pkg stk slot el isl : Nat} {a : Act} (h : slotEvent op pkg stk slot el isl = some a) : KeepsWf a := by
  unfold slotEvent at h
  split at h
  case h_29 => cases h
  all_goals
    obtain rfl := Option.some.inj h
    intro s hs
  case h_1 => exact execKadd_wf _ _ _ _ _ s hs
  case h_2 => exact execKsub_wf _ _ _ _ _ s hs
  case h_3 => exact execKmul_wf _ _ _ _ _ s hs
  case h_4 => exact execKmac_wf _ _ _ _ _ s hs
  case h_5 => exact execKand_wf _ _ _ _ _ s hs
  case h_6 => exact execKor_wf _ _ _ _ _ s hs
  case h_7 => exact execKxor_wf _ _ _ _ _ s hs
  case h_8 => exact execKshl_wf _ _ _ _ _ s hs
  case h_9 => exact execKshr_wf _ _ _ _ _ s hs
  case h_10 => exact execKcmp_wf _ _ _ _ _ s hs
  case h_11 => exact execKsel_wf _ _ _ _ _ s hs
  case h_12 => exact execKmin_wf _ _ _ _ _ s hs
  case h_13 => exact execKmax_wf _ _ _ _ _ s hs
  case h_14 => exact execKcvt_wf _ _ _ _ _ s hs
  case h_15 => exact execKpopc_wf _ _ _ _ _ s hs
  case h_16 => exact execKpass_wf _ _ _ _ _ s hs
  case h_17 => exact execKred_wf _ _ _ _ _ s hs
  case h_18 => exact execKend_wf _ _ _ _ _ s hs
  case h_19 => exact execKsetp_wf _ _ _ _ _ s hs
  case h_20 => exact execKclrp_wf _ _ _ _ _ s hs
  case h_21 => exact execKdeq_wf _ _ _ _ _ s hs
  case h_22 => exact execKenq_wf _ _ _ _ _ s hs
  case h_23 => exact execKlgen_wf _ _ _ _ _ s hs
  case h_24 => exact execKmrd_wf _ _ _ _ _ s hs
  case h_25 => exact execKmwr_wf _ _ _ _ _ s hs
  case h_26 => exact execKnbadd_wf _ _ _ _ _ s hs
  case h_27 => exact execKnbscl_wf _ _ _ _ _ s hs
  case h_28 => exact execKnbsum_wf _ _ _ _ _ s hs

theorem keepsWf_streamEvents (pkg : Nat) (e : Nat × Stream) : ∀ a ∈ streamEvents pkg e, KeepsWf a := by
  intro a ha
  simp only [streamEvents, List.mem_cons, List.mem_flatMap, List.mem_filterMap] at ha
  obtain rfl | ⟨x, -, rfl | ⟨i, -, hi⟩⟩ := ha
  · exact kEvent_wf pkg e.1
  · exact execWave_wf _ _ _ _
  · exact keepsWf_slotEvent hi

theorem keepsWf_pkgEvents (p : Nat) (u : Pkg) : ∀ a ∈ pkgEvents p u, KeepsWf a := by
  intro a ha
  simp only [pkgEvents, List.mem_append, List.mem_cons, List.not_mem_nil, or_false, List.mem_flatMap, List.mem_map] at ha
  obtain ((((rfl | rfl) | rfl | rfl) | ⟨n, -, rfl⟩) | ⟨q, -, rfl | rfl⟩) | ⟨e, -, he⟩ := ha
  · exact execPageRequestEntry_wf p
  · exact execHostMessageRetry_wf p
  · exact fun s hs => event_wf _ (retryReleased_wf s p hs)
  · exact fun s hs => event_wf _ (endPreemption_wf s p hs)
  · exact execTlbinvCompletion_wf p n
  · exact execWorkEntryReached_wf p q.1 0
  · exact execWorkEntryReached_wf p q.1 1
  · exact keepsWf_streamEvents p e a he

theorem keepsWf_laneEvents (p : Nat) (u : Pkg) : ∀ a ∈ laneEvents p u, KeepsWf a := by
  intro a ha
  simp only [laneEvents, List.mem_flatMap, List.mem_map] at ha
  obtain ⟨e, -, r, -, rfl⟩ := ha
  exact execLaneDown_wf p e.1 r.1

theorem keepsWf_playDue (s : State) (i : Nat) (y : Play) : ∀ a ∈ playDue s i y, KeepsWf a := by
  intro a ha
  simp only [playDue, List.mem_flatMap, List.mem_cons] at ha
  obtain ⟨c, -, rfl | hc⟩ := ha
  · exact keepsWf_ifPowered (execChunkStart_wf i c)
  · split at hc
    · simp only [List.mem_cons, List.not_mem_nil, or_false] at hc
      obtain rfl | rfl := hc
      · exact execChunkCompletion_wf i c
      · exact execChunkRedo_wf i c
    · cases hc

theorem keepsWf_playAborts (s : State) (i : Nat) (y : Play) : ∀ a ∈ playAborts s i y, KeepsWf a := by
  intro a ha
  unfold playAborts at ha
  split at ha
  · simp only [List.mem_cons, List.not_mem_nil, or_false] at ha
    obtain rfl | rfl | rfl := ha
    · exact execPlayAbort_wf i 1
    · exact execPlayAbort_wf i 2
    · exact execPlayAbort_wf i 4
  · cases ha

/-- Every hardware event that a state gives rise to keeps the canonical form, whether it is due or not. -/
theorem keepsWf_allEvents (s : State) : ∀ a ∈ allEvents s, KeepsWf a := by
  intro a ha
  simp only [allEvents, List.mem_append, List.mem_cons, List.not_mem_nil, or_false, List.mem_flatMap] at ha
  obtain ((((((rfl | rfl | rfl | rfl | rfl) | ⟨e, -, he⟩) | ⟨e, -, he⟩) | ⟨e, -, he⟩) | ⟨e, -, he⟩) | ⟨e, -, he⟩) | ⟨i, -, hi⟩ := ha
  · exact keepsWf_firstDue (keepsWf_listed execPacketArrival_wf)
  · exact keepsWf_firstDue (keepsWf_listed execPacketResend_wf)
  · exact keepsWf_firstDue (keepsWf_listed execStoreRegistration_wf)
  · exact keepsWf_firstDue (keepsWf_listed execRemoteStoreAcknowledgement_wf)
  · exact keepsWf_firstDue (keepsWf_listed (execUnreachableTimeout_wf 1))
  · exact keepsWf_ctxEvents e.1 a he
  · exact keepsWf_coreEvents e.1 e.2 a he
  · exact keepsWf_groveEvents e.1 e.2 a he
  · exact keepsWf_pkgEvents e.1 e.2 a he
  · exact keepsWf_laneEvents e.1 e.2 a he
  · split at hi
    · rcases List.mem_append.1 hi with hi | hi
      · exact keepsWf_playDue s i _ a hi
      · exact keepsWf_playAborts s i _ a hi
    · cases hi

theorem keepsWf_nextEvent {s : State} {a : Act} (h : nextEvent s = some a) : KeepsWf a := by
  have hmem := List.mem_of_find?_eq_some h
  rcases List.mem_append.1 hmem with hm | hm
  · exact keepsWf_allEvents s a (List.mem_of_mem_drop hm)
  · exact keepsWf_allEvents s a (List.mem_of_mem_take hm)

theorem keepsWf_fenceNow {s : State} {a : Act} (h : fenceNow s = some a) : KeepsWf a := by
  obtain ⟨e, -, rfl⟩ := List.mem_map.1 (List.mem_of_find?_eq_some h)
  exact execHeartbeatMiss_wf e.1

/-! ## The choice and the step -/

theorem runEvent_wf (s : State) (hs : Memory.wf s.mem) : OutcomeWf (runEvent s) := by
  have hspec := speculate_wf s hs
  unfold runEvent
  dsimp only
  split
  · next a ha => exact keepsWf_nextEvent ha _ hspec
  · exact event_wf _ hspec

theorem issue_wf (s : State) (c : Nat) (hs : Memory.wf s.mem) : OutcomeWf (issue s c) := runThread_wf _ hs

theorem runChoice_wf (s : State) (hs : Memory.wf s.mem) : OutcomeWf (runChoice s) := by
  unfold runChoice
  split
  · exact issue_wf s _ hs
  · split
    · next a ha => exact keepsWf_fenceNow ha s hs
    · split
      · exact runThread_wf _ hs
      · split
        · exact runEvent_wf s hs
        · split
          · next a ha => exact keepsWf_nextEvent ha _ hs
          · exact issue_wf s _ hs
        · exact issue_wf s _ hs

theorem runInput_wf (i : Instr) (s : State) (hs : Memory.wf s.mem) : OutcomeWf (runInput i s) := by
  unfold runInput
  split
  · exact event_wf s hs
  · exact exec_wf i s hs

theorem step_wf (s : State) (hs : Memory.wf s.mem) : OutcomeWf (step s) := by
  unfold step
  split
  · exact runInput_wf _ _ (tick_wf _ hs)
  · exact runChoice_wf _ (tick_wf _ hs)

/-- Settles O7: a step passes a cycle and runs one instruction or one event, and each of these keeps the canonical form. -/
theorem stepKeepsInvariant : Obligations.StepKeepsInvariant := fun s t hs hstep => step_wf s hs t hstep

/-- Settles O6: after reset no cell is listed. -/
theorem resetHasInvariant : Obligations.ResetHasInvariant := by
  unfold Obligations.ResetHasInvariant
  rfl

end Sys2Proof.Machine

/-! PROOFS of the register and immediate operations (07 R184-R187): what each writes to Ad, the bit counts bit by bit, and what one write of Ad leaves
unchanged. -/

namespace Sys2Proof.Machine

open Sys2Proof

/-! ## Words as numbers -/

section
variable (x y : Word) (n : Nat)

theorem add_eq_word : x + y = word (x.toNat + y.toNat) := BitVec.eq_of_toNat_eq (by simp [word])

theorem mul_eq_word : x * y = word (x.toNat * y.toNat) := BitVec.eq_of_toNat_eq (by simp [word])

theorem sub_eq_ofInt : x - y = BitVec.ofInt 64 (x.toInt - y.toInt) :=
  BitVec.eq_of_toInt_eq (by rw [BitVec.toInt_sub, BitVec.toInt_ofInt])

theorem add_eq_ofInt : x + y = BitVec.ofInt 64 (x.toInt + y.toInt) :=
  BitVec.eq_of_toInt_eq (by rw [BitVec.toInt_add, BitVec.toInt_ofInt])

theorem shiftLeft_eq_word : x <<< n = word (x.toNat * 2 ^ n) := BitVec.eq_of_toNat_eq (by simp [word, Nat.shiftLeft_eq])

theorem shiftRight_eq_word : x >>> n = word (x.toNat / 2 ^ n) := by
  have h : x.toNat / 2 ^ n < 2 ^ 64 := (Nat.div_le_self _ _).trans_lt x.isLt
  exact BitVec.eq_of_toNat_eq (by rw [BitVec.toNat_ushiftRight, Nat.shiftRight_eq_div_pow, word, BitVec.toNat_ofNat, Nat.mod_eq_of_lt h])

theorem sshiftRight_eq_ofInt : x.sshiftRight n = BitVec.ofInt 64 (x.toInt / 2 ^ n) := by
  rw [BitVec.sshiftRight, Int.shiftRight_eq_div_pow]
  rfl

theorem boolWord_decide (c : Prop) [Decidable c] : boolWord (decide c) = if c then 1 else 0 := by
  unfold boolWord
  split <;> simp_all

theorem boolWord_beq : boolWord (x == y) = if x = y then 1 else 0 := by
  rw [← boolWord_decide, Bool.beq_eq_decide_eq]

end

/-- The 16-bit immediate, sign-extended, as a word (06 R150). -/
theorem sx16_eq_ofInt {i : Nat} (hi : i < 65536) : sx16 i = BitVec.ofInt 64 (toSigned 16 i) := by
  have hm : i % 2 ^ 16 = i := Nat.mod_eq_of_lt hi
  apply BitVec.eq_of_toNat_eq
  unfold sx16 signExt toSigned
  rw [hm]
  dsimp only
  split <;> split <;> simp only [word, BitVec.toNat_ofNat, BitVec.toNat_ofInt] <;> omega

theorem sx16_toInt {i : Nat} (hi : i < 65536) : (sx16 i).toInt = toSigned 16 i := by
  have h : toSigned 16 i < 2 ^ 63 ∧ -2 ^ 63 ≤ toSigned 16 i := by
    unfold toSigned
    split <;> omega
  rw [sx16_eq_ofInt hi, BitVec.toInt_ofInt]
  exact Int.bmod_eq_of_le (by omega) (by omega)

/-! ## The bit counts and reversals, bit by bit (07 R184) -/

theorem popcW_toNat (x : Word) : (popcW x).toNat = ((List.range 64).filter (fun i => x.getLsbD i)).length := by
  have h := List.length_filter_le (fun i => x.getLsbD i) (List.range 64)
  rw [List.length_range] at h
  rw [popcW, word, BitVec.toNat_ofNat, Nat.mod_eq_of_lt (by omega)]

theorem lt_two_pow_bitLen (m : Nat) : m < 2 ^ bitLen m := by
  unfold bitLen
  split
  · next h => simp [h]
  · exact Nat.lt_log2_self

theorem bitLen_le_iff {m n : Nat} : bitLen m ≤ n ↔ m < 2 ^ n := by
  constructor
  · exact fun h => (lt_two_pow_bitLen m).trans_le (Nat.pow_le_pow_right (by norm_num) h)
  · intro h
    unfold bitLen
    split
    · exact Nat.zero_le n
    · next hm => exact (Nat.log2_lt hm).2 h

/-- The highest bit of a number that is not 0. -/
theorem testBit_bitLen {m : Nat} (hm : m ≠ 0) : m.testBit (bitLen m - 1) = true := by
  rw [bitLen, if_neg hm, Nat.add_sub_cancel]
  exact Nat.testBit_log2 hm

theorem clzW_toNat (x : Word) : (clzW x).toNat = 64 - bitLen x.toNat := by
  rw [clzW, word, BitVec.toNat_ofNat, Nat.mod_eq_of_lt (by omega)]

theorem clzW_bits (x : Word) : (clzW x).toNat ≤ 64 ∧ (∀ i, i < (clzW x).toNat → x.getLsbD (63 - i) = false) ∧
    ((clzW x).toNat < 64 → x.getLsbD (63 - (clzW x).toNat) = true) := by
  have hl : bitLen x.toNat ≤ 64 := bitLen_le_iff.2 x.isLt
  rw [clzW_toNat]
  refine ⟨by omega, fun i hi => ?_, fun h => ?_⟩
  · have hx : x.toNat < 2 ^ (63 - i) := bitLen_le_iff.1 (by omega)
    exact Nat.testBit_lt_two_pow hx
  · have hx : x.toNat ≠ 0 := fun h0 => by simp [h0, bitLen] at h
    rw [show 63 - (64 - bitLen x.toNat) = bitLen x.toNat - 1 by omega]
    exact testBit_bitLen hx

/-- The number whose bits, highest first, are those that f gives below n. -/
def foldBits (f : Nat → Bool) (n : Nat) : Nat := (List.range n).foldl (fun m i => 2 * m + (f i).toNat) 0

theorem foldBits_succ (f : Nat → Bool) (n : Nat) : foldBits f (n + 1) = 2 * foldBits f n + (f n).toNat := by
  simp [foldBits, List.range_succ]

theorem foldBits_testBit (f : Nat → Bool) (n i : Nat) : (foldBits f n).testBit i = (decide (i < n) && f (n - 1 - i)) := by
  induction n generalizing i with
  | zero => simp [foldBits]
  | succ n ih =>
    rw [foldBits_succ]
    cases i with
    | zero => cases h : f n <;> simp [Nat.testBit_zero, h]
    | succ i =>
      rw [Nat.testBit_succ, show (2 * foldBits f n + (f n).toNat) / 2 = foldBits f n by have := (f n).toNat_lt; omega, ih]
      simp [Nat.sub_sub, Nat.add_comm]

theorem brevW_getLsbD (x : Word) {i : Nat} (hi : i < 64) : (brevW x).getLsbD i = x.getLsbD (63 - i) := by
  rw [show brevW x = word (foldBits (fun i => x.getLsbD i) 64) from rfl, word, BitVec.getLsbD_ofNat, foldBits_testBit]
  simp [hi]

/-! ## Operations of one and of three sources -/

/-- An operation of one source writes its function of it to Ad, and the thread goes on; the first two hypotheses are closed by rfl. -/
theorem exec_of_op1 {i : Instr} {s : State} {d a : Nat} {f : Word → Word} {v : Word} (he : exec i s = op1 i d a f s)
    (hr : isRelease i = false) (hv : f (regA s a) = v) : SrcsGood s [rA a] → Goes s s → exec i s = .next (advance s (setA s d v)) := by
  intro hsrc hgo
  subst hv
  exact completes_of he rfl (.inl hr) hsrc ((goes_setA_iff s s d _).2 hgo)

/-- An operation of three sources, the first of which is Ad, writes its function of them to Ad, and the thread goes on. -/
theorem exec_of_op3 {i : Instr} {s : State} {d a b : Nat} {f : Word → Word → Word → Word} {v : Word} (he : exec i s = op3 i d a b f s)
    (hr : isRelease i = false) (hv : f (regA s d) (regA s a) (regA s b) = v) :
    SrcsGood s [rA d, rA a, rA b] → Goes s s → exec i s = .next (advance s (setA s d v)) := by
  intro hsrc hgo
  subst hv
  exact completes_of he rfl (.inl hr) hsrc ((goes_setA_iff s s d _).2 hgo)

/-! ## The obligations -/

/-- Settles O10: each operation is one of one, two or three sources, with its function of them as a number. -/
theorem registerResults : Obligations.RegisterResults := by
  unfold Obligations.RegisterResults
  refine ⟨fun s d a b => ?_, fun x => ⟨clzW_bits x, fun i hi => brevW_getLsbD x hi, popcW_toNat x⟩⟩
  exact
    ⟨exec_of_op2 (f := fun x y => x + y) rfl rfl (add_eq_word _ _),
     exec_of_op2 (f := fun x y => x - y) rfl rfl (sub_eq_ofInt _ _),
     exec_of_op2 (f := fun x y => x &&& y) rfl rfl rfl,
     exec_of_op2 (f := fun x y => x ||| y) rfl rfl rfl,
     exec_of_op2 (f := fun x y => x ^^^ y) rfl rfl rfl,
     exec_of_op2 (f := fun x y => x &&& ~~~y) rfl rfl rfl,
     exec_of_op2 (f := fun x y => x <<< amount y) rfl rfl (shiftLeft_eq_word _ _),
     exec_of_op2 (f := fun x y => x >>> amount y) rfl rfl (shiftRight_eq_word _ _),
     exec_of_op2 (f := fun x y => x.sshiftRight (amount y)) rfl rfl (sshiftRight_eq_ofInt _ _),
     exec_of_op2 (f := fun x y => x.rotateLeft (amount y)) rfl rfl rfl,
     exec_of_op2 (f := fun x y => x * y) rfl rfl (mul_eq_word _ _),
     exec_of_op2 (f := mulh) rfl rfl rfl,
     exec_of_op2 (f := mulhu) rfl rfl rfl,
     exec_of_op2 (f := fun x y => if x.toInt ≤ y.toInt then x else y) rfl rfl rfl,
     exec_of_op2 (f := fun x y => if x.toInt ≤ y.toInt then y else x) rfl rfl rfl,
     exec_of_op2 (f := fun x y => if x ≤ y then x else y) rfl rfl rfl,
     exec_of_op2 (f := fun x y => if x ≤ y then y else x) rfl rfl rfl,
     exec_of_op2 (f := fun x y => boolWord (sltS x y)) rfl rfl (boolWord_decide _),
     exec_of_op2 (f := fun x y => boolWord (decide (x < y))) rfl rfl (boolWord_decide _),
     exec_of_op2 (f := fun x y => boolWord (x == y)) rfl rfl (boolWord_beq _ _),
     exec_of_op1 (f := clzW) rfl rfl rfl,
     exec_of_op1 (f := ctzW) rfl rfl rfl,
     exec_of_op1 (f := popcW) rfl rfl rfl,
     exec_of_op1 (f := brevW) rfl rfl rfl,
     exec_of_op1 (f := bswapW) rfl rfl rfl,
     exec_of_op2 (f := sextW) rfl rfl rfl,
     exec_of_op2 (f := zextW) rfl rfl rfl,
     exec_of_op2 (f := extrW) rfl rfl rfl,
     exec_of_op3 (f := insrW) rfl rfl rfl,
     exec_of_op3 (f := fun o x y => if o ≠ 0 then x else y) rfl rfl (ite_not _ _ _)⟩

theorem lea_eq_ofInt (x : Word) {i : Nat} (hi : i < 65536) :
    x + sx16 i * 65536 = BitVec.ofInt 64 (x.toInt + toSigned 16 i * 65536) := by
  rw [BitVec.ofInt_add, BitVec.ofInt_mul, ← sx16_eq_ofInt hi, BitVec.ofInt_toInt]
  rfl

theorem addpc_eq_ofInt (x : Word) {i : Nat} (hi : i < 65536) : x + dist 16 i = BitVec.ofInt 64 (x.toInt + 4 * toSigned 16 i) := by
  rw [BitVec.ofInt_add, BitVec.ofInt_mul, ← sx16_eq_ofInt hi, BitVec.ofInt_toInt, BitVec.mul_comm]
  rfl

theorem lih_eq_word (x : Word) {i : Nat} (hi : i < 65536) : (x <<< 16) ||| word i = word (x.toNat * 65536 + i) := by
  apply BitVec.eq_of_toNat_eq
  rw [BitVec.toNat_or, BitVec.toNat_shiftLeft, word, BitVec.toNat_ofNat, BitVec.toNat_ofNat, Nat.shiftLeft_eq, Nat.mod_eq_of_lt (a := i) (by omega)]
  have h : x.toNat * 2 ^ 16 % 2 ^ 64 = 2 ^ 16 * (x.toNat % 2 ^ 48) := by omega
  rw [h, ← Nat.two_pow_add_eq_or_of_lt (by omega)]
  omega

/-- Settles O12: each operation is one of one source or of none, with its immediate extended as 06 R150 says. -/
theorem immediateResults : Obligations.ImmediateResults := by
  unfold Obligations.ImmediateResults
  intro s d a i n hi hn
  have hadd (x : Word) : x + sx16 i = BitVec.ofInt 64 (x.toInt + toSigned 16 i) := by rw [add_eq_ofInt, sx16_toInt hi]
  have hslt (x : Word) : boolWord (sltS x (sx16 i)) = if x.toInt < toSigned 16 i then 1 else 0 := by
    rw [← sx16_toInt hi]
    exact boolWord_decide _
  exact
    ⟨exec_of_op1 (f := fun x => x + sx16 i) rfl rfl (hadd _),
     exec_of_op1 (f := fun x => x &&& word i) rfl rfl rfl,
     exec_of_op1 (f := fun x => x ||| word i) rfl rfl rfl,
     exec_of_op1 (f := fun x => x ^^^ word i) rfl rfl rfl,
     exec_of_op1 (f := fun x => boolWord (sltS x (sx16 i))) rfl rfl (hslt _),
     exec_of_op1 (f := fun x => x <<< n) rfl rfl (shiftLeft_eq_word _ _),
     exec_of_op1 (f := fun x => x >>> n) rfl rfl (shiftRight_eq_word _ _),
     exec_of_op1 (f := fun x => x.sshiftRight n) rfl rfl (sshiftRight_eq_ofInt _ _),
     exec_of_op1 (f := fun x => (x <<< 16) ||| word i) rfl rfl (lih_eq_word _ hi),
     fun hsrc hgo => completes_of (body := fun s => .ok (setA s d (word i))) rfl rfl (.inl rfl) hsrc ((goes_setA_iff s s d _).2 hgo),
     exec_of_op1 (f := fun x => x + sx16 i * 65536) rfl rfl (lea_eq_ofInt _ hi),
     fun hsrc hgo => by
      rw [← addpc_eq_ofInt _ hi]
      exact completes_of (body := fun s => .ok (setA s d ((cx s).pc + dist 16 i))) rfl rfl (.inl rfl) hsrc ((goes_setA_iff s s d _).2 hgo)⟩

/-! ## The frame of a register write -/

/-- The end-of-body checks change the loop levels of a context alone. -/
theorem loopEnd_fst (c : Ctx) (pc t : Word) : ∃ l0 l1, (loopEnd c pc t).1 = { c with l0 := l0, l1 := l1 } := by
  unfold loopEnd
  split
  · exact ⟨_, _, rfl⟩
  · split <;> exact ⟨_, _, rfl⟩

/-- Going on changes the levels, the PC, the status and the heartbeat of the running context alone. -/
theorem advance_eq (s t : State) : ∃ l0 l1 pc st hb,
    advance s t = setCtx t t.cur { cx t with l0 := l0, l1 := l1, pc := pc, status := st, hbMark := hb } := by
  obtain ⟨l0, l1, h⟩ := loopEnd_fst (cx t) (cx s).pc ((cx s).pc + 4)
  exact ⟨l0, l1, nextPc s t, .running, goOnMark t (loopEnd (cx t) (cx s).pc ((cx s).pc + 4)).1, by rw [advance, goOn, h]⟩

/-- Settles O13: the write changes register Ad of the running context, and going on its levels, PC and status. -/
theorem registerWriteFrame : Obligations.RegisterWriteFrame := by
  unfold Obligations.RegisterWriteFrame
  intro s d v
  obtain ⟨l0, l1, pc, st, hb, he⟩ := advance_eq s (setA s d v)
  have hcx : cx (advance s (setA s d v)) = { cx (setA s d v) with l0 := l0, l1 := l1, pc := pc, status := st, hbMark := hb } := by
    rw [he]
    exact getCtx_setCtx _ _ _
  have hA (j : Nat) : regA (advance s (setA s d v)) j = regA (setA s d v) j := by rw [regA, hcx]; rfl
  refine ⟨fun j hj => (hA j).trans (regA_setA_other s v hj), (hA d).trans (regA_setA s d v), fun j => ?_, fun j => ?_, fun j => ?_, ?_, fun c hc => ?_,
    ?_, ?_, ?_, fun k => ?_, ?_⟩
  · rw [regV, hcx, regV, getV, getV, cx_setA_v]
  · rw [regM, hcx, regM, getM, getM, cx_setA_m]
  · rw [regB, hcx, regB, getB, getB, cx_setA_b]
  · rw [hcx, cx_setA_stat]
  · rw [he, getCtx_setCtx_other _ _ (by simpa using hc)]
    unfold setA
    split
    · rfl
    · exact getCtx_setCtx_other _ _ hc
  · rw [he]; simp
  · rw [he]; simp
  · rw [he]; simp
  · rw [he]; simp
  · rw [he]; simp

end Sys2Proof.Machine

/-! PROOFS of what a step runs, and of what device reset leaves. -/

namespace Sys2Proof.Machine

open Sys2Proof

/-! ## The choice of a step (log 3) -/

/-- A thread that issues next is the one that the choice runs. -/
theorem runChoice_of_issuesNext {s u : State} {c : Nat} (h : IssuesNext s c u) : runChoice s = runThread u := by
  obtain ⟨rfl, hc, ht⟩ | ⟨rfl, ht, hf, hv⟩ := h
  · unfold runChoice
    rw [hc]
    obtain h | ⟨hf, hv, h | ⟨h, hn⟩⟩ := ht
    · rw [h]; rfl
    · rw [h, hf, hv]; rfl
    · rw [h, hf, hv, hn]; rfl
  · unfold runChoice
    rw [hf, hv]
    cases h : s.turn with
    | first => exact absurd h ht
    | thread => rfl
    | hardware => rfl

/-- Without an input from outside, the thread that issues next is what a step runs. -/
theorem step_of_issuesNext {s u : State} {c : Nat} (ha : s.agenda = []) (h : IssuesNext (tick s) c u) : step s = runThread u := by
  unfold step
  rw [ha]
  exact runChoice_of_issuesNext h

theorem nextWord_of_held {u : State} {w : Nat} (h : heldWord u = some w) : nextWord u = .word u w := by
  unfold nextWord
  rw [h]

theorem nextWord_of_fetch {u t : State} {w : Nat} (h : heldWord u = none) (hf : fetchWord (unheld u) = .word t w) : nextWord u = .word (begun t w) w := by
  unfold unheld at hf
  unfold nextWord
  rw [h, hf]

theorem runThread_of_decoded {u t : State} {w : Nat} {i : Instr} (hn : nextWord u = .word t w) (hd : decodeWord w = some i) :
    runThread u = exec i t := by
  unfold runThread
  rw [hn]
  dsimp only
  rw [hd]

theorem runThread_of_illegal {u t : State} {w : Nat} (hn : nextWord u = .word t w) (hd : decodeWord w = none) : runThread u = .next (illegal t w) := by
  unfold runThread
  rw [hn]
  dsimp only
  rw [hd]

/-- The trap of a word that encodes nothing, of a thread that has just begun it. -/
theorem illegal_begun (t : State) (w : Nat) :
    illegal (begun t w) w = deliverTrap (begun t w) t.cur { cause := cIllegal, fpc := (cx t).pc, faddr := 0, finfo := word w, pc := (cx t).pc } := by
  unfold illegal begun
  rw [cx_modCx, modCx_cur]

/-- Settles O4: the choice runs the thread that issues next, with the word that it holds or fetches. -/
theorem stepRunsDecoded : Obligations.StepRunsDecoded := by
  unfold Obligations.StepRunsDecoded
  intro s u t c w i ha hi hd
  rw [step_of_issuesNext ha hi]
  exact ⟨fun hh hf => runThread_of_decoded (nextWord_of_fetch hh hf) hd, fun hh => runThread_of_decoded (nextWord_of_held hh) hd⟩

/-- Settles O5: a fetched word that decodes to nothing traps, and an input from outside comes before the choice. -/
theorem stepOtherwise : Obligations.StepOtherwise := by
  unfold Obligations.StepOtherwise
  constructor
  · intro s u t c w ha hi hh hf hd
    rw [step_of_issuesNext ha hi, runThread_of_illegal (nextWord_of_fetch hh hf) hd, illegal_begun]
  · intro s i rest ha hw
    unfold step
    rw [ha]
    dsimp only
    rw [runInput, hw]
    rfl

/-! ## Device reset -/

/-- Settles O9: no unit of the state after reset is listed, so each one reads as its own reset value. -/
theorem resetUnits : Obligations.ResetUnits := by
  unfold Obligations.ResetUnits
  exact fun n m => ⟨rfl, rfl, rfl, rfl, rfl, rfl, rfl, rfl⟩

end Sys2Proof.Machine

/-! PROOFS of what checks, recalls, stores and installation keep: the contexts, the full/empty bits (07 R192), and what is on its way in the network. -/

namespace Sys2Proof.Machine

open Sys2Proof

/-! ## The parts of the state that an access keeps -/

/-- The contexts, the full/empty bits, the cycle, the numbers given out and the network of s are those of t. -/
structure Kept (s t : State) : Prop where
  ctxs : t.ctxs = s.ctxs
  cur : t.cur = s.cur
  full : t.full = s.full
  cycle : t.cycle = s.cycle
  seq : t.seq = s.seq
  nextOp : t.nextOp = s.nextOp
  net : t.net = s.net

theorem Kept.refl (s : State) : Kept s s := ⟨rfl, rfl, rfl, rfl, rfl, rfl, rfl⟩

theorem Kept.trans {s t u : State} (h : Kept s t) (g : Kept t u) : Kept s u :=
  ⟨g.ctxs.trans h.ctxs, g.cur.trans h.cur, g.full.trans h.full, g.cycle.trans h.cycle, g.seq.trans h.seq, g.nextOp.trans h.nextOp, g.net.trans h.net⟩

/-- The state of a pair is kept as the pair it is split from is. -/
theorem Kept.of_eq {α : Type} {s : State} {p : State × α} {t : State} {a : α} (h : p = (t, a)) (hk : Kept s p.1) : Kept s t := by
  subst h
  exact hk

/-- The running context is kept with the contexts. -/
theorem Kept.cx {s t : State} (h : Kept s t) : cx t = cx s := by
  unfold Machine.cx getCtx
  rw [h.ctxs, h.cur]

theorem Kept.regA {s t : State} (h : Kept s t) (a : Nat) : regA t a = regA s a := by
  unfold Machine.regA
  rw [h.cx]

theorem foldl_kept {α : Type} (f : State → α → State) (hf : ∀ s a, Kept s (f s a)) (l : List α) (s : State) : Kept s (l.foldl f s) := by
  induction l generalizing s with
  | nil => exact .refl s
  | cons a l ih => exact (hf s a).trans (ih _)

theorem modCore_kept (s : State) (c : Nat) (f : Core → Core) : Kept s (modCore s c f) := ⟨rfl, rfl, rfl, rfl, rfl, rfl, rfl⟩
theorem modGrove_kept (s : State) (g : Nat) (f : Grove → Grove) : Kept s (modGrove s g f) := ⟨rfl, rfl, rfl, rfl, rfl, rfl, rfl⟩
theorem modPkg_kept (s : State) (p : Nat) (f : Pkg → Pkg) : Kept s (modPkg s p f) := ⟨rfl, rfl, rfl, rfl, rfl, rfl, rfl⟩
theorem memWrite_kept (s : State) (k : Nat) (bs : List Byte) : Kept s (memWrite s k bs) := ⟨rfl, rfl, rfl, rfl, rfl, rfl, rfl⟩
theorem freeStep_kept (s : State) : Kept s (freeStep s) := ⟨rfl, rfl, rfl, rfl, rfl, rfl, rfl⟩

/-! ## Writes of memory and of the units beside it -/

theorem unownByte_kept (s : State) (k : Nat) : Kept s (unownByte s k) := by
  unfold unownByte
  split
  · exact ⟨rfl, rfl, rfl, rfl, rfl, rfl, rfl⟩
  · exact .refl s

theorem unownBytes_kept (n : Nat) (s : State) (k : Nat) : Kept s (unownBytes n s k) := by
  induction n generalizing s k with
  | zero => exact .refl s
  | succ n ih => exact (unownByte_kept s k).trans (ih _ _)

theorem homeWrite_kept (s : State) (k : Nat) (bs : List Byte) : Kept s (homeWrite s k bs) := by
  unfold homeWrite
  split
  · exact memWrite_kept s k bs
  · exact (unownBytes_kept _ s k).trans (memWrite_kept _ k bs)

theorem mend_kept (s : State) (k n : Nat) : Kept s (mend s k n) := by
  unfold mend
  split
  · exact .refl s
  · exact ⟨rfl, rfl, rfl, rfl, rfl, rfl, rfl⟩

theorem hotCount_kept (s : State) (pkg port pa dlv stv : Nat) : Kept s (hotCount s pkg port pa dlv stv) :=
  ⟨rfl, rfl, rfl, rfl, rfl, rfl, rfl⟩

theorem uncBump_kept (s : State) (pkg cls : Nat) : Kept s (uncBump s pkg cls) := modPkg_kept s pkg _

theorem cxlLines_kept (s : State) (waits : Bool) (f : Nat → Bool) (pa k n : Nat) : Kept s (cxlLines s waits f pa k n) := by
  unfold cxlLines
  split
  · exact .refl s
  · refine foldl_kept _ (fun t i => ?_) _ s
    dsimp only
    split
    · exact .refl t
    · split
      · split
        · exact (freeStep_kept t).trans (hotCount_kept _ _ _ _ _ _)
        · exact hotCount_kept t _ _ _ _ _
      · exact .refl t

theorem cxlDelivers_kept (s : State) (w : Who) (va : Nat) (f : Nat → Bool) (k n : Nat) : Kept s (cxlDelivers s w va f k n) := by
  unfold cxlDelivers
  split
  · exact .refl s
  · exact cxlLines_kept s true f _ k n

theorem paDeliver_kept (s : State) (pa : Nat) (l : List (Nat × Nat)) : Kept s (paDeliver s pa l) := by
  induction l generalizing s pa with
  | nil => exact .refl s
  | cons x l ih => exact (cxlLines_kept s true _ pa _ _).trans (ih _ _)

/-! ## Checks -/

theorem setAD_kept (s : State) (e : TlbEntry) (wr : Bool) : Kept s (setAD s e wr).1 := by
  unfold setAD
  extract_lets add
  split
  · exact .refl s
  · exact homeWrite_kept s _ _

theorem installTlb_kept (s : State) (w : Who) (va : Nat) (e : TlbEntry) : Kept s (installTlb s w va e) := ⟨rfl, rfl, rfl, rfl, rfl, rfl, rfl⟩

theorem usedHit_kept (s : State) (w : Who) (acc : Acc) (va : Nat) : Kept s (usedHit s w acc va).1 := by
  unfold usedHit
  split
  · exact .refl s
  · split
    · exact .refl s
    · exact freeStep_kept s

theorem ite_kept {c : Prop} [Decidable c] {s t u : State} (ht : Kept s t) (hu : Kept s u) : Kept s (if c then t else u) := by
  split
  · exact ht
  · exact hu

theorem translate_kept (s : State) (w : Who) (acc : Acc) (va : Nat) : Kept s (translate s w acc va).1 := by
  unfold translate
  extract_lets p finish walked
  have hf (t : State) (e : TlbEntry) (ht : Kept s t) : Kept s (finish t e).1 := by
    dsimp only [finish]
    split_ifs <;> exact ht
  have hw (t : State) (keep : Bool) (ht : Kept s t) : Kept s (walked t keep).1 := by
    dsimp only [walked]
    split
    · exact ht
    · exact ht
    · next e _ =>
      split
      · have hk := ht.trans (setAD_kept t e acc.writes)
        exact hf _ _ (ite_kept (hk.trans (installTlb_kept _ w va _)) hk)
      · exact ht
  split
  · exact .refl s
  · split
    · split
      · exact hw s false (.refl s)
      · exact .refl s
    · split
      · next t e h =>
        have hk := Kept.of_eq h (usedHit_kept s w acc va)
        exact hf _ e (ite_kept hk (hk.trans (installTlb_kept t w va e)))
      · next t h => exact hw t true (Kept.of_eq h (usedHit_kept s w acc va))

theorem checkPages_kept (s : State) (w : Who) (acc : Acc) (l done : List (Nat × Nat)) : Kept s (checkPages s w acc l done).1 := by
  induction l generalizing s done with
  | nil => exact .refl s
  | cons x l ih =>
    have ht := translate_kept s w acc x.1
    unfold checkPages
    split
    · exact .refl s
    · split
      · next h => exact (Kept.of_eq h ht).trans (ih _ _)
      · next h => exact Kept.of_eq h ht
      · next h => exact Kept.of_eq h ht
      · next h => exact Kept.of_eq h ht

theorem check_kept (s : State) (w : Who) (acc : Acc) (ap : Bool) (va : Word) (n : Nat) : Kept s (check s w acc ap va n).1 := by
  unfold check
  split
  · exact .refl s
  · split
    · exact .refl s
    · exact checkPages_kept s w acc _ []
    · split_ifs <;> exact .refl s
    · split_ifs <;> exact .refl s
    · split
      · exact .refl s
      · split_ifs <;> exact .refl s
    · split_ifs <;> exact .refl s

theorem checkMany_kept (s : State) (w : Who) (acc : Acc) (ap : Bool) (l : List (Word × Nat)) (done : List Chk) :
    Kept s (checkMany s w acc ap l done).1 := by
  induction l generalizing s done with
  | nil => exact .refl s
  | cons x l ih =>
    have hc := check_kept s w acc ap x.1 x.2
    unfold checkMany
    split
    · next h => exact (Kept.of_eq h hc).trans (ih _ _)
    · next h => exact (Kept.of_eq h hc).trans (ih _ _)
    · next h => exact Kept.of_eq h hc

/-! ## Recalls and stores -/

theorem combine_kept (s : State) (p : Partial) : Kept s (combine s p) := by
  unfold combine
  split
  · exact .refl s
  · have h := homeWrite_kept s p.key (leBytes p.width (atomicNew p.op p.uns (8 * p.width) (leNat (coherentBytes s p.key p.width)) p.value.toNat 0))
    exact ⟨h.ctxs, h.cur, h.full, h.cycle, h.seq, h.nextOp, h.net⟩

theorem recallLines_kept (s : State) (k n : Nat) : Kept s (recallLines s k n).1 := by
  unfold recallLines
  split
  · exact .refl s
  · have h := foldl_kept combine combine_kept (sortPartials (s.partials.filter (fun p => p.inSpan k n)) [])
      { s with partials := s.partials.filter (fun p => !p.inSpan k n) }
    exact ⟨h.ctxs, h.cur, h.full, h.cycle, h.seq, h.nextOp, h.net⟩

theorem recallSpans_kept (s : State) (l : List (Nat × Nat)) (n : Nat) : Kept s (recallSpans s l n).1 := by
  induction l generalizing s n with
  | nil => exact .refl s
  | cons x l ih =>
    have hr := recallLines_kept s x.1 x.2
    unfold recallSpans
    split
    · next h => exact (Kept.of_eq h hr).trans (ih _ _)
    · next h => exact Kept.of_eq h hr

theorem recallMany_kept (s : State) (l : List (Word × Nat)) (cs : List Chk) : Kept s (recallMany s l cs).1 := by
  fun_induction recallMany s l cs with
  | case1 s va n rest sp cs t i h => exact Kept.of_eq h (recallSpans_kept s sp 0)
  | case2 s va n rest sp cs t h ih => exact (Kept.of_eq h (recallSpans_kept s sp 0)).trans ih
  | case3 s x rest c cs h ih => exact ih
  | case4 => exact .refl _

theorem spansStore_kept (s : State) (ctx : Nat) (l : List (Nat × Nat)) (bs : List Byte) : Kept s (spansStore s ctx l bs) := by
  induction l generalizing s bs with
  | nil => exact .refl s
  | cons x l ih =>
    unfold spansStore
    refine Kept.trans ?_ (ih _ _)
    have h := mend_kept s x.1 x.2
    exact ite_kept ⟨h.ctxs, h.cur, h.full, h.cycle, h.seq, h.nextOp, h.net⟩ ⟨h.ctxs, h.cur, h.full, h.cycle, h.seq, h.nextOp, h.net⟩

theorem aperturePush_kept (s : State) (pkg slot ofs : Nat) (bs : List Byte) : Kept s (aperturePush s pkg slot ofs bs) := by
  unfold aperturePush
  split
  · exact .refl s
  · exact ⟨rfl, rfl, rfl, rfl, rfl, rfl, rfl⟩

theorem writeMany_kept (s : State) (w : Who) (ctx : Nat) (l : List (List Byte)) (cs : List Chk) : Kept s (writeMany s w ctx l cs) := by
  induction l generalizing s cs with
  | nil => exact .refl s
  | cons bs l ih =>
    cases cs with
    | nil => exact .refl s
    | cons c cs =>
      unfold writeMany
      split
      · exact (aperturePush_kept s _ _ _ bs).trans (ih _ _)
      · exact (spansStore_kept s ctx _ bs).trans (ih _ _)
      · exact .refl s

/-- An ordinary store keeps the contexts and every full/empty bit. -/
theorem storeResult_kept {s t : State} {ap : Bool} {l : List (Word × List Byte)} (h : storeResult s ap l = some t) : Kept s t := by
  have hc := checkMany_kept s (thr s) .write ap (l.map (fun e => (e.1, e.2.length))) []
  unfold storeResult at h
  dsimp only at h
  split at h
  · cases h
  · split at h
    · cases h
    · next s2 h2 =>
      split at h
      · cases h
      · obtain rfl := Option.some.inj h
        exact (hc.trans (Kept.of_eq h2 (recallMany_kept _ _ _))).trans (writeMany_kept s2 _ _ _ _)

/-! ## Installation -/

theorem countUnit_kept (s : State) (pkg : Nat) (o : Option Nat) : Kept s (countUnit s pkg o) := by
  unfold countUnit
  split
  · exact .refl s
  · split
    · exact uncBump_kept s pkg _
    · exact .refl s

theorem result_kept (s : State) (pkg r : Nat) : Kept s (result s pkg r) := modPkg_kept s pkg _

theorem physRead_kept (s : State) (pkg pa n : Nat) : Kept s (physRead s pkg pa n).1 := by
  have hr := recallSpans_kept s (paSpans s pkg pa n) 0
  simp only [physRead]
  split
  · exact .refl s
  · split
    · next h => exact (Kept.of_eq h hr).trans (uncBump_kept _ pkg 2)
    · next h =>
      split
      · exact (Kept.of_eq h hr).trans (countUnit_kept _ _ _)
      · exact (Kept.of_eq h hr).trans (paDeliver_kept _ _ _)

theorem cmdInstall_kept (s : State) (pkg : Nat) : Kept s (cmdInstall s pkg) := by
  have hp := physRead_kept s pkg (jta s pkg 0) 896
  unfold cmdInstall
  dsimp only
  split
  · exact result_kept s pkg 1
  · split
    · next h => exact (Kept.of_eq h hp).trans (result_kept _ pkg 1)
    · next h =>
      have ht := Kept.of_eq h hp
      exact ite_kept (ht.trans (result_kept _ pkg 2)) <| ite_kept (ht.trans (result_kept _ pkg 3)) <|
        (ht.trans (modPkg_kept _ pkg _)).trans (result_kept _ pkg 0)

theorem startCommand_install_kept (s : State) (pkg : Nat) : Kept s (startCommand s pkg 1) := by
  unfold startCommand
  split
  · exact .refl s
  · exact (modPkg_kept s pkg _).trans (by simpa only [command] using cmdInstall_kept (modPkg s pkg fun p => { p with op := 1 }) pkg)

/-- Settles O8: the state of a device reset is listed in full; installation and stores keep the bits. -/
theorem resetFullEmpty : Obligations.ResetFullEmpty := by
  unfold Obligations.ResetFullEmpty
  refine ⟨rfl, fun s t h => ?_, fun s t p h => ?_, fun s t ap l h => (storeResult_kept h).full⟩
  · obtain rfl : _ = t := Host.Outcome.next.inj h
    rfl
  · obtain rfl : startCommand s p 1 = t := Host.Outcome.next.inj h
    exact (startCommand_install_kept s p).full

end Sys2Proof.Machine

/-! PROOFS of branches, jumps and loops (07 R200-R204), of scalar loads and stores (07 R188, R189), and of the atomics (09 R259, R260). -/

namespace Sys2Proof.Machine

open Sys2Proof

/-! ## What a taken branch and a skipped body are settled to -/

theorem settle_taken {i : Instr} {s t : State} {n : Word} {reg : Bool} (hn : badTarget n = false) (ha : reg = true → n.toNat % 4 = 0) :
    settle i s (.taken t n reg) = jumpTo s t n := by
  have h : (badTarget n || (reg && n.toNat % 4 != 0)) = false := by
    rw [hn, Bool.false_or]
    cases reg with
    | false => rfl
    | true => simp [ha rfl]
  unfold settle
  simp only [h, Bool.false_eq_true, if_false]
  rfl

theorem settle_taken_bad {i : Instr} {s t : State} {n : Word} {reg : Bool} (h : badTarget n = true ∨ reg = true ∧ n.toNat % 4 ≠ 0) :
    settle i s (.taken t n reg) = takeTrap s i cInsnAddr n 0 := by
  have h' : (badTarget n || (reg && n.toNat % 4 != 0)) = true := by simpa using h
  unfold settle
  simp only [h', if_true]

theorem settle_skip {i : Instr} {s t : State} {n : Nat} (h : badTarget (skipBody s t n).2 = false) :
    settle i s (.skip t ((cx s).pc + 4 + word (4 * n))) = goOn t (skipBody s t n).1 (skipBody s t n).2 := by
  unfold skipBody at h
  simp only [settle, h, Bool.false_eq_true, if_false]
  rfl

theorem settle_skip_bad {i : Instr} {s t : State} {n : Nat} (h : badTarget (skipBody s t n).2 = true) :
    settle i s (.skip t ((cx s).pc + 4 + word (4 * n))) = takeTrap s i cInsnAddr (skipBody s t n).2 0 := by
  unfold skipBody at h ⊢
  simp only [settle, h, if_true]

/-! ## Conditional branches (07 R200, R202) -/

theorem branch_gives {n : Instr} {a b i : Nat} {f : Word → Word → Bool} {s : State} {c : Prop} (he : exec n s = branch n a b i f s)
    (hr : isRelease n = false) (hc : f (regA s a) (regA s b) = true ↔ c) : BranchGives n [rA a, rA b] s c (signExt i 16 * 4) := by
  intro hsrc
  have hfree (r : Res) : releaseHeld n s r = r := releaseHeld_free (.inl hr) r
  refine ⟨fun h hg => ?_, fun h ht => ?_, fun h ht => ?_⟩
  · have hf : f (regA s a) (regA s b) = false := by simpa using mt hc.1 h
    exact completes_of (t := s) he (by simp only [hf, Bool.false_eq_true, if_false]) (.inl hr) hsrc hg
  · rw [answers_of hsrc he (if_pos (hc.2 h)) (hfree _)]
    exact congrArg _ (settle_taken ht nofun)
  · rw [answers_of hsrc he (if_pos (hc.2 h)) (hfree _)]
    exact congrArg _ (settle_taken_bad (.inl ht))

/-- Settles O14: each branch tests its condition on its two registers. -/
theorem conditionalBranches : Obligations.ConditionalBranches := by
  unfold Obligations.ConditionalBranches
  intro s a b i
  exact
    ⟨branch_gives (f := fun x y => x == y) rfl rfl beq_iff_eq,
     branch_gives (f := fun x y => x != y) rfl rfl bne_iff_ne,
     branch_gives (f := fun x y => decide (x.toInt < y.toInt)) rfl rfl decide_eq_true_iff,
     branch_gives (f := fun x y => decide (y.toInt ≤ x.toInt)) rfl rfl decide_eq_true_iff,
     branch_gives (f := fun x y => decide (x < y)) rfl rfl decide_eq_true_iff,
     branch_gives (f := fun x y => decide (y ≤ x)) rfl rfl decide_eq_true_iff,
     branch_gives (f := fun x _ => x == 0) rfl rfl beq_iff_eq,
     branch_gives (f := fun x _ => x != 0) rfl rfl bne_iff_ne⟩

/-! ## Jumps (07 R201, R202) -/

/-- Settles O15: a jump is a taken branch whose own effect is its link. -/
theorem jumps : Obligations.Jumps := by
  unfold Obligations.Jumps
  intro s d a j
  refine ⟨fun h => ⟨?_, ?_⟩, fun h => ⟨?_, ?_⟩, fun hsrc h h4 => ⟨?_, ?_⟩, fun hsrc h => ⟨?_, ?_⟩⟩
  · refine (answers_of (i := .jmp j) (sourcesNone_of s) (by rfl) rfl).trans (congrArg _ ?_)
    exact settle_taken h nofun
  · refine (answers_of (i := .jal j) (sourcesNone_of s) (by rfl) rfl).trans (congrArg _ ?_)
    exact settle_taken h nofun
  · refine (answers_of (i := .jmp j) (sourcesNone_of s) (by rfl) rfl).trans (congrArg _ ?_)
    exact settle_taken_bad (.inl h)
  · refine (answers_of (i := .jal j) (sourcesNone_of s) (by rfl) rfl).trans (congrArg _ ?_)
    exact settle_taken_bad (.inl h)
  · refine (answers_of (i := .jr a) hsrc (by rfl) rfl).trans (congrArg _ ?_)
    exact settle_taken h fun _ => h4
  · refine (answers_of (i := .jalr d a) hsrc (by rfl) rfl).trans (congrArg _ ?_)
    exact settle_taken h fun _ => h4
  · refine (answers_of (i := .jr a) hsrc (by rfl) rfl).trans (congrArg _ ?_)
    exact settle_taken_bad (h.imp_right fun h => ⟨rfl, h⟩)
  · refine (answers_of (i := .jalr d a) hsrc (by rfl) rfl).trans (congrArg _ ?_)
    exact settle_taken_bad (h.imp_right fun h => ⟨rfl, h⟩)

/-! ## Hardware loops (02 R62-R64) -/

theorem loopSet_zero (s : State) (n : Nat) {k : Word} (hk : k ≠ 0) : loopSet 0 n k s = .ok (loopZero s n k) := if_neg hk
theorem loopSet_one (s : State) (n : Nat) {k : Word} (hk : k ≠ 0) : loopSet 1 n k s = .ok (loopOne s n k) := if_neg hk
theorem loopSet_zero_skip (s : State) (n : Nat) : loopSet 0 n 0 s = .skip (loopZero s n 0) ((cx s).pc + 4 + word (4 * n)) := rfl
theorem loopSet_one_skip (s : State) (n : Nat) : loopSet 1 n 0 s = .skip (loopOne s n 0) ((cx s).pc + 4 + word (4 * n)) := rfl

/-- An instruction whose effect skips a body goes on past it, or traps. -/
theorem skips_of {i : Instr} {srcs : List Nat} {body : State → Res} {s t : State} {n : Nat} (hsrc : SrcsGood s srcs)
    (he : exec i s = finish i srcs body s) (hr : isRelease i = false) (hb : body s = .skip t ((cx s).pc + 4 + word (4 * n))) : Skips i s t n := by
  have ha := answers_of hsrc he hb (releaseHeld_free (.inl hr) _)
  exact ⟨fun h => ha.trans (congrArg _ (settle_skip h)), fun h => ha.trans (congrArg _ (settle_skip_bad h))⟩

theorem levelEnd_again {l : LoopLevel} {pc : Word} (ha : l.act = true) (hp : l.cur = pc) (hc : 1 < l.cnt.toNat) :
    levelEnd l pc = ({ l with cnt := l.cnt - 1, org := l.sta, cur := l.fin }, some l.sta) := by
  simp [levelEnd, ha, hp, hc]

theorem levelEnd_last {l : LoopLevel} {pc : Word} (ha : l.act = true) (hp : l.cur = pc) (hc : l.cnt.toNat ≤ 1) :
    levelEnd l pc = ({ l with cnt := 0, act := false }, none) := by
  simp [levelEnd, ha, hp, hc]

theorem levelEnd_elsewhere {l : LoopLevel} {pc : Word} (h : l.act = false ∨ l.cur ≠ pc) : levelEnd l pc = (l, none) := by
  obtain h | h := h <;> simp [levelEnd, h]

/-- Settles O16: LOOP and LOOPI set a level up, or skip; the end-of-body check by the level's count. -/
theorem hardwareLoops : Obligations.HardwareLoops := by
  unfold Obligations.HardwareLoops
  refine ⟨fun s c k n => ⟨fun h => ⟨?_, ?_⟩, fun h => ⟨?_, ?_⟩, fun h hsrc => ⟨?_, ?_⟩, fun h => ⟨?_, ?_⟩⟩,
    fun l pc => ⟨levelEnd_again, levelEnd_last, levelEnd_elsewhere⟩⟩
  · exact completes_of (i := .loop 0 c n) (body := fun s => loopSet 0 n (regA s c) s) rfl (loopSet_zero s n h)
  · exact completes_of (i := .loop 1 c n) (body := fun s => loopSet 1 n (regA s c) s) rfl (loopSet_one s n h)
  · exact completes_of (i := .loopi 0 k n) (body := fun s => loopSet 0 n (word k) s) rfl (loopSet_zero s n h)
  · exact completes_of (i := .loopi 1 k n) (body := fun s => loopSet 1 n (word k) s) rfl (loopSet_one s n h)
  · exact skips_of (body := fun s => loopSet 0 n (regA s c) s) hsrc rfl rfl (h ▸ loopSet_zero_skip s n)
  · exact skips_of (body := fun s => loopSet 1 n (regA s c) s) hsrc rfl rfl (h ▸ loopSet_one_skip s n)
  · exact skips_of (body := fun s => loopSet 0 n (word k) s) (sourcesNone_of s) rfl rfl (h ▸ loopSet_zero_skip s n)
  · exact skips_of (body := fun s => loopSet 1 n (word k) s) (sourcesNone_of s) rfl rfl (h ▸ loopSet_one_skip s n)

/-! ## Scalar loads and stores (07 R188, R189) -/

/-- A load of n bytes writes their value to Ad. -/
theorem loadTo_completes {i : Instr} {srcs : List Nat} {d n : Nat} {z ap : Bool} {addr : State → Word} {s t : State} {bs : List Byte} {v : Word}
    (he : exec i s = loadTo i srcs d n z ap addr s) (hr : isRelease i = false) (hv : loadValue bs n z = v)
    (hl : loadResult s (ap && (addr s).toNat % 8 == 0) [(addr s, n)] = some (t, [bs])) : Completes i srcs s (setA t d v) := by
  subst hv
  exact completes_of he (by rw [load1, loads_of hl]; rfl) (.inl hr)

/-- A store writes the low bytes of its register. -/
theorem storeFrom_completes {i : Instr} {srcs : List Nat} {r n : Nat} {ap : Bool} {addr : State → Word} {s t : State}
    (he : exec i s = storeFrom i srcs r n ap addr s) (hr : isRelease i = false)
    (hl : storeResult s (ap && (addr s).toNat % 8 == 0) [(addr s, leBytes n (regA s r).toNat)] = some t) : Completes i srcs s t :=
  completes_of he (by rw [store1, stores_of hl]) (.inl hr)

theorem loadValue_eq (bs : List Byte) (n z : Nat) : loadValue bs n (z == 1) = if z = 1 then word (leNat bs) else signExt (leNat bs) (8 * n) := by
  unfold loadValue
  by_cases h : z = 1 <;> simp [h]

/-- Settles O17: each load and store is one of a number of bytes at its address. -/
theorem scalarAccesses : Obligations.ScalarAccesses := by
  unfold Obligations.ScalarAccesses
  refine ⟨fun s t d a b i x z w bs => ?_, fun s t d a b i x w => ?_⟩
  · exact
      ⟨fun h => ⟨loadTo_completes (z := false) (ap := false) (addr := fun s => baseAddr s a i) rfl rfl rfl h,
          loadTo_completes (z := true) (ap := false) (addr := fun s => baseAddr s a i) rfl rfl rfl h⟩,
       fun h => ⟨loadTo_completes (z := false) (ap := false) (addr := fun s => baseAddr s a i) rfl rfl rfl h,
          loadTo_completes (z := true) (ap := false) (addr := fun s => baseAddr s a i) rfl rfl rfl h⟩,
       fun h => ⟨loadTo_completes (z := false) (ap := false) (addr := fun s => baseAddr s a i) rfl rfl rfl h,
          loadTo_completes (z := true) (ap := false) (addr := fun s => baseAddr s a i) rfl rfl rfl h⟩,
       fun h => loadTo_completes (z := true) (ap := true) (addr := fun s => baseAddr s a i) rfl rfl rfl h,
       fun h => loadTo_completes (z := z == 1) (ap := false) (addr := fun s => indexAddr s a b x w) rfl rfl (loadValue_eq bs _ z) h⟩
  · exact
      ⟨fun h => storeFrom_completes (ap := false) (addr := fun s => baseAddr s a i) rfl rfl h,
       fun h => storeFrom_completes (ap := false) (addr := fun s => baseAddr s a i) rfl rfl h,
       fun h => storeFrom_completes (ap := false) (addr := fun s => baseAddr s a i) rfl rfl h,
       fun h => storeFrom_completes (ap := true) (addr := fun s => baseAddr s a i) rfl rfl h,
       fun h => storeFrom_completes (ap := false) (addr := fun s => indexAddr s a b x w) rfl rfl h⟩

/-! ## Atomics (09 R259, R260) -/

theorem atomicAt_misaligned {s : State} {va : Word} {n : Nat} {upd : Bool} {k : State → Nat → Res} (h : va.toNat % n ≠ 0) :
    atomicAt s va n upd k = .trap s cAtomicAlign va 0 := if_pos h

theorem atomicAt_of {s s1 : State} {va : Word} {n m key : Nat} {upd : Bool} (ha : va.toNat % n = 0)
    (hc : check s (thr s) .both false va n = (s1, .ok [(key, m)])) (hb : (upd && !keyIsScratch key) = true ∨ firstBad s1 key n = none)
    (k : State → Nat → Res) : atomicAt s va n upd k = k s1 key := by
  unfold atomicAt
  rw [if_neg (not_not.2 ha), hc]
  dsimp only
  obtain h | h := hb
  · rw [if_pos h]
  · rw [readable_of h, ite_self]

theorem atomicDo_of {s1 s2 v : State} {va : Word} {b key w op : Nat} {uns : Bool} {c : Word}
    (hr : recallLines (settleBytes (drainTo s1 s1.cur (keyCore key)) key (2 ^ w)) key (2 ^ w) = (v, none))
    (h2 : s2 = cxlDelivers v (thr v) va.toNat (fun _ => false) key (2 ^ w)) (k : State → Nat → Res) :
    atomicDo s1 va key (2 ^ w) op uns (regA s1 b) c k = k (atomicAfter s1 s2 b key w op uns c) (homeValue s2 key w) := by
  subst h2
  unfold atomicDo
  dsimp only
  rw [hr]
  rfl

/-- A check leaves the registers as they are. -/
theorem checked_regA {s s1 : State} {w : Who} {acc : Acc} {ap : Bool} {va : Word} {n : Nat} {x : Chk} (h : check s w acc ap va n = (s1, x)) (a : Nat) :
    regA s1 a = regA s a := (Kept.of_eq h (check_kept s w acc ap va n)).regA a

/-- A misaligned atomic of either shape traps, with its sources readable. -/
theorem atomicOp_misaligned {i : Instr} {s : State} {d a b w op : Nat} {uns : Bool} (he : exec i s = atomicOp i d a b w op uns s)
    (hr : isRelease i = false) (hs : SrcsGood s (if op = 7 then [rA d, rA a, rA b] else [rA a, rA b])) (h : (regA s a).toNat % 2 ^ w ≠ 0) :
    exec i s = .next (takeTrap s i cAtomicAlign (regA s a) 0) :=
  answers_of hs he (atomicAt_misaligned h) (releaseHeld_free (.inl hr) _)

/-- What an atomic at a place that can be used completes with. -/
theorem atomicOp_completes {i : Instr} {s s1 s2 v : State} {d a b w op key n : Nat} {uns : Bool} {x : Word}
    (he : exec i s = atomicOp i d a b w op uns s) (hr : isRelease i = false) (ha : (regA s a).toNat % 2 ^ w = 0)
    (hc : check s (thr s) .both false (regA s a) (2 ^ w) = (s1, .ok [(key, n)])) (hb : firstBad s1 key (2 ^ w) = none)
    (hv : recallLines (settleBytes (drainTo s1 s1.cur (keyCore key)) key (2 ^ w)) key (2 ^ w) = (v, none))
    (h2 : s2 = cxlDelivers v (thr v) (regA s a).toNat (fun _ => false) key (2 ^ w))
    (hx : (if op = 8 then word (homeValue s2 key w) else signExt (homeValue s2 key w) (8 * 2 ^ w)) = x) :
    Completes i (if op = 7 then [rA d, rA a, rA b] else [rA a, rA b]) s (setA (atomicAfter s1 s2 b key w op uns (regA s1 d)) d x) := by
  subst hx
  rw [← checked_regA hc a] at h2
  exact completes_of he (by rw [atomicAt_of ha hc (.inr hb), atomicDo_of hv h2]) (.inl hr)

theorem srcsGood_pair {s : State} {d a b : Nat} (h : SrcsGood s [rA d, rA a, rA b]) : SrcsGood s [rA a, rA b] := by
  unfold SrcsGood at h ⊢
  simp only [List.any_cons, Bool.or_eq_false_iff] at h ⊢
  exact h.2

/-- The new values of the atomics as numbers. -/
theorem atomicNew_values (w old v c : Nat) :
    atomicNew 0 false w old v c = (old + v) % 2 ^ w ∧ atomicNew 6 false w old v c = v ∧
    atomicNew 7 false w old v c = (if old = c then v else old) ∧ atomicNew 1 true w old v c = min old v ∧ atomicNew 2 true w old v c = max old v ∧
    (atomicNew 1 false w old v c = old ∨ atomicNew 1 false w old v c = v) ∧
    toSigned w (atomicNew 1 false w old v c) ≤ toSigned w old ∧ toSigned w (atomicNew 1 false w old v c) ≤ toSigned w v ∧
    toSigned w old ≤ toSigned w (atomicNew 2 false w old v c) ∧ toSigned w v ≤ toSigned w (atomicNew 2 false w old v c) := by
  have hmin : atomicNew 1 false w old v c = if toSigned w old ≤ toSigned w v then old else v := by simp [atomicNew]
  have hmax : atomicNew 2 false w old v c = if toSigned w old ≤ toSigned w v then v else old := by simp [atomicNew]
  refine ⟨rfl, rfl, rfl, ?_, ?_, ?_, ?_⟩
  · simp [atomicNew, min_def]
  · simp [atomicNew, max_def]
  · rw [hmin]
    split
    · exact .inl rfl
    · exact .inr rfl
  · rw [hmin, hmax]
    split <;> omega

/-- Settles O22: each atomic is one of its operation at its place; AUPD joins a partial in global memory. -/
theorem atomics : Obligations.Atomics := by
  unfold Obligations.Atomics
  refine ⟨fun s s1 s2 v d a b u w o key n => ⟨fun ha hs i hi => ?_, fun ha hs => atomicOp_misaligned (w := 2) rfl rfl hs ha, fun ha hc => ⟨fun hb hv h2 =>
    ⟨?_, ?_, ?_, ?_, ?_, ?_, ?_, ?_, ?_, ?_⟩, fun hk => ?_⟩⟩, fun w old v c _ _ => atomicNew_values w old v c⟩
  · have hp := srcsGood_pair hs
    simp only [List.mem_cons, List.not_mem_nil, or_false] at hi
    obtain rfl | rfl | rfl | rfl | rfl | rfl | rfl | rfl | rfl := hi
    · exact atomicOp_misaligned (op := 0) (uns := false) rfl rfl hp ha
    · exact atomicOp_misaligned (op := 1) (uns := u == 1) rfl rfl hp ha
    · exact atomicOp_misaligned (op := 2) (uns := u == 1) rfl rfl hp ha
    · exact atomicOp_misaligned (op := 3) (uns := false) rfl rfl hp ha
    · exact atomicOp_misaligned (op := 4) (uns := false) rfl rfl hp ha
    · exact atomicOp_misaligned (op := 5) (uns := false) rfl rfl hp ha
    · exact atomicOp_misaligned (op := 6) (uns := false) rfl rfl hp ha
    · exact atomicOp_misaligned (op := 7) (uns := false) rfl rfl hs ha
    · exact answers_of (i := .aupd a b o u w) hp (by rfl) (atomicAt_misaligned ha)
  · exact atomicOp_completes (op := 0) (uns := false) rfl rfl ha hc hb hv h2 rfl
  · exact atomicOp_completes (op := 1) (uns := u == 1) rfl rfl ha hc hb hv h2 rfl
  · exact atomicOp_completes (op := 2) (uns := u == 1) rfl rfl ha hc hb hv h2 rfl
  · exact atomicOp_completes (op := 3) (uns := false) rfl rfl ha hc hb hv h2 rfl
  · exact atomicOp_completes (op := 4) (uns := false) rfl rfl ha hc hb hv h2 rfl
  · exact atomicOp_completes (op := 5) (uns := false) rfl rfl ha hc hb hv h2 rfl
  · exact atomicOp_completes (op := 6) (uns := false) rfl rfl ha hc hb hv h2 rfl
  · exact atomicOp_completes (op := 7) (uns := false) rfl rfl ha hc hb hv h2 rfl
  · rintro rfl
    exact atomicOp_completes (op := 8) (uns := false) rfl rfl ha hc hb hv h2 rfl
  · intro hk
    refine completes_of (i := .aupd a b o u w) (by rfl) ?_
    rw [atomicAt_of ha hc (.inr hb)]
    dsimp only
    rw [← checked_regA hc a] at h2
    rw [if_pos hk, atomicDo_of hv h2]
  · refine completes_of (i := .aupd a b o u w) (by rfl) ?_
    rw [atomicAt_of ha hc (.inl (by rw [hk]; rfl))]
    dsimp only
    rw [if_neg (by rw [hk]; nofun)]
    rfl

end Sys2Proof.Machine

/-! PROOFS of what an access touches: the issuing core's scratchpad through the local alias (03 R66, R70), and the stores held for their homes (04
R103-R105). -/

namespace Sys2Proof.Machine

open Sys2Proof

/-! ## Keys of scratchpad bytes (03 R66) -/

section
variable {core ofs : Nat} (h : ofs < 2 ^ 17)
include h

theorem scratchKey_offset_lt : coreId core * 2 ^ 17 + ofs < 2 ^ 30 := by
  have hid : coreId core < 8192 := Nat.mod_lt _ (by norm_num)
  omega

theorem keyPkg_scratchKey : keyPkg (scratchKey core ofs) = corePkg core := by
  have hl := scratchKey_offset_lt (core := core) h
  unfold keyPkg scratchKey
  omega

theorem keyIsScratch_scratchKey : keyIsScratch (scratchKey core ofs) = true := by
  have hl := scratchKey_offset_lt (core := core) h
  unfold keyIsScratch scratchKey
  rw [beq_iff_eq]
  omega

theorem keyCore_scratchKey : keyCore (scratchKey core ofs) = core := by
  have hl := scratchKey_offset_lt (core := core) h
  unfold keyCore
  rw [keyPkg_scratchKey h]
  unfold scratchKey corePkg coreId at *
  omega

end

/-! ## A machine with no failed unit, no update and no store on its way -/

theorem mend_of_noBad {s : State} (h : s.bad = []) (k n : Nat) : mend s k n = s := by
  unfold mend
  rw [h]
  rfl

theorem firstBad_of_noBad {s : State} (h : s.bad = []) (k n : Nat) : firstBad s k n = none := by
  unfold firstBad
  rw [h]
  rfl

theorem storeBad_of_noBad {s : State} (h : s.bad = []) (k n : Nat) : storeBad s k n = none := by
  unfold storeBad
  rw [h]
  rfl

theorem recallLines_of_noPartials {s : State} (h : s.partials = []) (k n : Nat) : recallLines s k n = (s, none) := by
  unfold recallLines
  rw [h]
  rfl

theorem drainWith_of_noStores {s : State} (h : s.stores = []) (f : PendingStore → Bool) : drainWith f s = s := by
  unfold drainWith
  rw [h]
  rfl

theorem cxlDelivers_scratch {k : Nat} (h : keyIsScratch k = true) (s : State) (w : Who) (va : Nat) (f : Nat → Bool) (n : Nat) :
    cxlDelivers s w va f k n = s := by
  unfold cxlDelivers
  rw [h]
  rfl

/-! ## One access whose check gives one place -/

theorem recallMany_one {s : State} (h : s.partials = []) (va : Word) (n k m : Nat) : recallMany s [(va, n)] [.ok [(k, m)]] = (s, none) := by
  simp only [recallMany, recallSpans, recallLines_of_noPartials h]

theorem badMany_one {s : State} (h : s.bad = []) (wr : Bool) (va : Word) (n k m : Nat) : badMany s wr [(va, n)] [.ok [(k, m)]] = none := by
  cases wr <;> simp [badMany, firstBadIn, storeBadIn, firstBad_of_noBad h, storeBad_of_noBad h]

/-- A load of one place of a scratchpad reads its bytes, with nothing on its way. -/
theorem loadResult_scratch {s : State} {ap : Bool} {va : Word} {n k : Nat} (hc : check s (thr s) .read ap va n = (s, .ok [(k, n)]))
    (hk : keyIsScratch k = true) (hp : s.partials = []) (hb : s.bad = []) (hs : s.stores = []) :
    loadResult s ap [(va, n)] = some (s, [cellsRead s.mem k n]) := by
  have hr : readMany s (thr s) s.cur [(va, n)] [.ok [(k, n)]] = (s, .ok [cellsRead s.mem k n]) := by
    simp only [readMany, spansDrain, spansSettle, hk, if_true, drainTo, drainWith_of_noStores hs, spansMiss, spansDeliver, cxlDelivers_scratch hk,
      spansView, readKeys, List.append_nil]
  unfold loadResult
  simp only [checkMany, hc, List.nil_append, chkRes, Option.isSome_none, Bool.false_eq_true, if_false, recallMany_one hp, badMany_one hb, hr]

/-- A store whose check gives one place is performed there or held. -/
theorem storeResult_one {s : State} {ap : Bool} {va : Word} {bs : List Byte} {k : Nat}
    (hc : check s (thr s) .write ap va bs.length = (s, .ok [(k, bs.length)])) (hp : s.partials = []) (hb : s.bad = []) :
    storeResult s ap [(va, bs)] = some (spansStore s s.cur [(k, bs.length)] bs) := by
  unfold storeResult
  simp only [List.map_cons, List.map_nil, checkMany, hc, List.nil_append, chkRes, Option.isSome_none, Bool.false_eq_true, if_false,
    recallMany_one hp, badMany_one hb, writeMany]

/-- A store to the core's own scratchpad is performed at once. -/
theorem spansStore_own {s : State} (hb : s.bad = []) {k : Nat} (hk : keyIsScratch k = true) (hc : keyCore k = cxCore s) (bs : List Byte) :
    spansStore s s.cur [(k, bs.length)] bs = memWrite s k bs := by
  unfold cxCore at hc
  simp only [spansStore, hk, hc, beq_self_eq_true, Bool.and_self, if_true, mend_of_noBad hb, List.take_length]

/-! ## The local alias (03 R66, R70) -/

theorem check_local {s : State} {acc : Acc} {ap : Bool} {va : Word} {n : Nat} (hf : acc ≠ .fetch) (hv : addrClass va = .localWin)
    (h0 : fld va 17 35 = 0) (hj : inCores s (cxCore s) (cx s).job = true) (hn : 1 ≤ n) (hl : fld va 0 17 + n ≤ 2 ^ 17) :
    check s (thr s) acc ap va n = (s, .ok [(scratchKey (cxCore s) (fld va 0 17), n)]) := by
  have hj' : inCores s (thr s).core (thr s).job = true := hj
  have hd : checkScratch s (thr s) acc false (thr s).core (fld va 0 17) n va = .ok [(scratchKey (cxCore s) (fld va 0 17), n)] := by
    unfold checkScratch
    rw [if_neg hf, hj', if_neg (by nofun), if_neg (by nofun), if_neg (by omega)]
    rfl
  unfold check
  rw [if_neg (by omega), hv]
  dsimp only
  rw [if_neg (not_not.2 h0), hd]

/-- Settles O18: the check gives the core's own bytes, and with nothing on its way the access touches the memory alone. -/
theorem localScratchpad : Obligations.LocalScratchpad := by
  unfold Obligations.LocalScratchpad
  intro s ap va bs hv h0 hj hn hl hp hb hs
  have ho : fld va 0 17 < 2 ^ 17 := by omega
  have hk := keyIsScratch_scratchKey (core := cxCore s) ho
  refine ⟨loadResult_scratch (check_local nofun hv h0 hj hn hl) hk hp hb hs, ?_, fun k => cellRead_cellsWrite _ _ _ _⟩
  rw [storeResult_one (check_local nofun hv h0 hj hn hl) hp hb, spansStore_own hb hk (keyCore_scratchKey ho)]

/-! ## Stores held for their homes (04 R103-R105) -/

/-- The store of bytes at a key by the running thread, on its way to its home. -/
def heldStore (s : State) (k : Nat) (bs : List Byte) : PendingStore :=
  { ctx := s.cur, job := (cx s).job, since := s.cycle, key := k, bytes := bs, remote := keyIsScratch k, notice := (thr s).notice }

theorem spansStore_global {s : State} (hb : s.bad = []) {k : Nat} (hk : keyIsScratch k = false) (bs : List Byte) :
    spansStore s s.cur [(k, bs.length)] bs = { s with stores := s.stores ++ [heldStore s k bs] } := by
  simp only [spansStore, hk, Bool.false_and, Bool.false_eq_true, if_false, mend_of_noBad hb, List.take_length]
  rw [heldStore, hk]
  rfl

/-- The store on its way last is what its core reads where it lies. -/
theorem pendingByte_append_inside {l : List PendingStore} {p : PendingStore} {c k : Nat} (hc : ctxCore p.ctx = c) (h1 : p.key ≤ k)
    (h2 : k < p.key + p.bytes.length) : pendingByte (l ++ [p]) c k = some (p.bytes.getD (k - p.key) 0) := by
  induction l with
  | nil =>
    have hlt : k - p.key < p.bytes.length := by omega
    simp [pendingByte, hc, h1, h2, List.getD_eq_getElem?_getD, hlt]
  | cons q l ih => rw [List.cons_append, pendingByte, ih]

/-- Elsewhere it changes nothing. -/
theorem pendingByte_append_outside {l : List PendingStore} {p : PendingStore} {k : Nat} (h : k < p.key ∨ p.key + p.bytes.length ≤ k) (c : Nat) :
    pendingByte (l ++ [p]) c k = pendingByte l c k := by
  induction l with
  | nil =>
    have hn : (ctxCore p.ctx = c && decide (p.key ≤ k) && decide (k < p.key + p.bytes.length)) = false := by
      by_contra hc
      simp only [Bool.not_eq_false, Bool.and_eq_true, decide_eq_true_eq] at hc
      omega
    simp [pendingByte, hn]
  | cons q l ih => rw [List.cons_append, pendingByte, ih, pendingByte]

/-- Settles O19: the store joins those on their way, and its own core reads it there first. -/
theorem globalStores : Obligations.GlobalStores := by
  unfold Obligations.GlobalStores
  intro s t ap va bs k hc hk hp hb h
  rw [storeResult_one hc hp hb, spansStore_global hb hk] at h
  obtain rfl := Option.some.inj h
  refine ⟨rfl, rfl, fun a m j h1 h2 => ?_, fun a m j hj => ?_⟩
  · unfold viewByte
    rw [pendingByte_append_inside (c := cxCore s) (p := heldStore s k bs) rfl h1 h2]
    rfl
  · unfold viewByte
    rw [pendingByte_append_outside (p := heldStore s k bs) hj]
    rfl

end Sys2Proof.Machine

/-! PROOF about barriers (02 R57-R61): a completion that releases a parked record can write the ready pool's ring in memory. -/

namespace Sys2Proof.Machine

open Sys2Proof

/-- A record parked on the barrier at the first byte of core 0's scratchpad. -/
def parkedRec : QRec := plainRec { zeroRec 0 0 with pc := 4 }

/-- Core 0 holds the parked record, and grove 0's ready pool continues in its ring, which holds one record. -/
def ringBusy : State :=
  { State.reset with
    cores := [(0, { Core.reset with park := [{ obj := .barrier (scratchKey 0 0), qrec := parkedRec }] })]
    groves := [(0, { Grove.reset with ring := [(1, parkedRec)] })] }

/-- A barrier that a write completes. -/
def lastArrival : Barrier := { c := 0, a := 1, e := 1, t := 0 }

/-- The completion writes the released record into slot 0 of the ring, far from the barrier. -/
theorem ringBusy_written : cellRead (writeBarrier ringBusy (scratchKey 0 0) lastArrival).mem (ringKey ringBusy 0 0) = 1 := by
  decide

/-- Refutes O34: with the ready pool continued in its ring (02 R42), the record that the completion releases is written to memory, outside the barrier. -/
theorem not_barriers : ¬ Obligations.Barriers := by
  unfold Obligations.Barriers
  intro h
  obtain ⟨-, hframe⟩ := h.2 ringBusy (scratchKey 0 0) lastArrival (by decide) (by decide) (by decide) (by decide)
  have hk := hframe (ringKey ringBusy 0 0) (.inl (by decide))
  rw [ringBusy_written] at hk
  exact absurd hk (by decide)

end Sys2Proof.Machine

/-! PROOFS of the element-wise vector operations (08 R205-R214): elements and flags of a result, tags, and the integer elements. -/

namespace Sys2Proof.Machine

open Sys2Proof

/-! ## Elements of a packed register -/

theorem elemAt_lt (w x e : Nat) : elemAt w x e < 2 ^ w := Nat.mod_lt _ (Nat.two_pow_pos w)

theorem packElems_lt (w : Nat) (l : List Nat) : packElems w l < 2 ^ (w * l.length) := by
  induction l with
  | nil => exact Nat.two_pow_pos _
  | cons x l ih =>
    have hx : x % 2 ^ w < 2 ^ w := Nat.mod_lt _ (Nat.two_pow_pos w)
    rw [packElems, List.length_cons, Nat.mul_succ, Nat.add_comm (w * l.length), Nat.pow_add]
    calc x % 2 ^ w + 2 ^ w * packElems w l < 2 ^ w + 2 ^ w * packElems w l := by omega
      _ = 2 ^ w * (packElems w l + 1) := by ring
      _ ≤ 2 ^ w * 2 ^ (w * l.length) := Nat.mul_le_mul_left _ ih

theorem elemAt_packElems (w : Nat) (l : List Nat) (e : Nat) : elemAt w (packElems w l) e = l.getD e 0 % 2 ^ w := by
  induction l generalizing e with
  | nil => simp [elemAt, packElems]
  | cons x l ih =>
    have hx : x % 2 ^ w < 2 ^ w := Nat.mod_lt _ (Nat.two_pow_pos w)
    cases e with
    | zero => simp [elemAt, packElems]
    | succ e =>
      have hd : packElems w (x :: l) / 2 ^ w = packElems w l := by
        rw [packElems, Nat.add_mul_div_left _ _ (Nat.two_pow_pos w), Nat.div_eq_of_lt hx, Nat.zero_add]
      rw [List.getD_cons_succ, ← ih, elemAt, elemAt, Nat.mul_succ, Nat.add_comm (w * e), Nat.pow_add, ← Nat.div_div_eq_div_mul, hd]

/-- What a register holds that n elements of width w were packed into. -/
theorem vnat_mkV {w : Nat} {l : List Nat} (h : w * l.length ≤ 1024) (tag planes : Nat) : vnat (mkV (packElems w l) tag planes) = packElems w l := by
  have hl : packElems w l < 2 ^ 1024 := (packElems_lt w l).trans_le (Nat.pow_le_pow_right Nat.zero_lt_two h)
  rw [vnat, mkV, BitVec.toNat_ofNat, Nat.mod_eq_of_lt hl]

/-! ## The flags of a result -/

/-- The flags of a list of elements' results together. -/
def allFlags (l : List (Nat × Nat)) : Nat := l.foldl (fun a p => a ||| p.2) 0

theorem foldl_or_testBit (l : List (Nat × Nat)) (a i : Nat) :
    (l.foldl (fun a p => a ||| p.2) a).testBit i = (a.testBit i || l.any (fun p => p.2.testBit i)) := by
  induction l generalizing a with
  | nil => simp
  | cons p l ih => rw [List.foldl_cons, ih, Nat.testBit_or, List.any_cons, Bool.or_assoc]

theorem allFlags_testBit (l : List (Nat × Nat)) (i : Nat) : (allFlags l).testBit i = l.any (fun p => p.2.testBit i) := by
  rw [allFlags, foldl_or_testBit, Nat.zero_testBit, Bool.false_or]

theorem cx_orFlags (s : State) (f : Nat) : cx (orFlags s f) = { cx s with stat := (cx s).stat ||| word f } := by
  unfold orFlags
  split
  · next h => simp [h]
  · exact cx_modCx s _

theorem getCtx_orFlags_other (s : State) (f : Nat) {c : Nat} (h : c ≠ s.cur) : getCtx (orFlags s f) c = getCtx s c := by
  unfold orFlags
  split
  · rfl
  · exact getCtx_setCtx_other s _ h

/-- Setting flags changes the contexts alone. -/
theorem orFlags_eq (s : State) (f : Nat) : ∃ l, orFlags s f = { s with ctxs := l } := by
  unfold orFlags
  split
  · exact ⟨s.ctxs, rfl⟩
  · exact ⟨_, rfl⟩

/-! ## An element-wise result (08 R205, R206) -/

theorem laneOf_lt {w n : Nat} {f : Nat → Nat × Nat} (hf : ∀ e, e < n → (f e).1 < 2 ^ w ∧ (f e).2 < 64) (s : State) (d : Nat) (mask : Nat → Bool)
    {e : Nat} (he : e < n) : (laneOf s d w mask f e).1 < 2 ^ w ∧ (laneOf s d w mask f e).2 < 64 := by
  unfold laneOf
  split
  · exact hf e he
  · exact ⟨elemAt_lt w _ e, by norm_num⟩

/-- The running context of an element-wise result. -/
theorem cx_laneResult (s : State) (d w n : Nat) (mask : Nat → Bool) (tag planes : Nat) (f : Nat → Nat × Nat) :
    ∃ bad, cx (laneResult s d w n mask tag planes f) = { cx s with
      v := kset (cx s).v d (mkV (packElems w (((List.range n).map (laneOf s d w mask f)).map Prod.fst)) tag planes), badRegs := bad,
      stat := (cx s).stat ||| word (allFlags ((List.range n).map (laneOf s d w mask f))) } := by
  rw [laneResult, cx_orFlags, setVPart, cx_modCx]
  exact ⟨_, rfl⟩

theorem stat_laneResult {s : State} {w n : Nat} {f : Nat → Nat × Nat} (hf : ∀ e, e < n → (f e).1 < 2 ^ w ∧ (f e).2 < 64) (d : Nat)
    (mask : Nat → Bool) (i : Nat) :
    ((cx s).stat ||| word (allFlags ((List.range n).map (laneOf s d w mask f)))).getLsbD i = true ↔
      (cx s).stat.getLsbD i = true ∨ ∃ e, e < n ∧ mask e = true ∧ (f e).2.testBit i = true := by
  have hbit : (allFlags ((List.range n).map (laneOf s d w mask f))).testBit i = true ↔ ∃ e, e < n ∧ mask e = true ∧ (f e).2.testBit i = true := by
    rw [allFlags_testBit, List.any_map, List.any_eq_true]
    refine exists_congr fun e => ?_
    rw [List.mem_range]
    refine and_congr_right fun _ => ?_
    rw [Function.comp, laneOf]
    split <;> simp_all
  have hlt : i < 64 ∨ ¬ ∃ e, e < n ∧ mask e = true ∧ (f e).2.testBit i = true := by
    by_cases hi : i < 64
    · exact .inl hi
    · refine .inr fun ⟨e, he, _, hb⟩ => ?_
      have h2 : (f e).2 < 2 ^ i := (hf e he).2.trans_le ((by norm_num : 64 ≤ 2 ^ 6).trans (Nat.pow_le_pow_right (by norm_num) (by omega)))
      rw [Nat.testBit_lt_two_pow h2] at hb
      cases hb
  rw [BitVec.getLsbD_or, Bool.or_eq_true, word, BitVec.getLsbD_ofNat, Bool.and_eq_true, decide_eq_true_eq, hbit]
  obtain h | h := hlt
  · simp only [h, true_and]
  · simp only [h, and_false]

/-- Settles O23: the elements from the packing, the flags from their union, and everything else from what the result writes. -/
theorem vectorLanes : Obligations.VectorLanes := by
  unfold Obligations.VectorLanes
  rintro s t d w n tag planes mask f hw hf rfl
  obtain ⟨bad, hcx⟩ := cx_laneResult s d w n mask tag planes f
  obtain ⟨l, hl⟩ := orFlags_eq (setVPart s d (mkV (packElems w (((List.range n).map (laneOf s d w mask f)).map Prod.fst)) tag planes) (laneDwords w n mask))
    (allFlags ((List.range n).map (laneOf s d w mask f)))
  have hstate : laneResult s d w n mask tag planes f = _ := hl
  have hd : regV (laneResult s d w n mask tag planes f) d = mkV (packElems w (((List.range n).map (laneOf s d w mask f)).map Prod.fst)) tag planes := by
    rw [regV, hcx, getV, kget_kset_same]
  refine ⟨fun e he => ?_, by rw [hd]; rfl, by rw [hd]; rfl, fun j hj => ?_, fun i _ => ?_, fun i hi => ?_, fun j => ⟨?_, ?_, ?_⟩, fun c hc => ?_, ?_⟩
  · have hlane := (laneOf_lt hf s d mask he).1
    rw [hd, vnat_mkV (by simpa using hw), elemAt_packElems]
    rw [List.map_map, List.getD_eq_getElem?_getD, List.getElem?_map, List.getElem?_range he]
    change (laneOf s d w mask f e).1 % 2 ^ w = _
    rw [Nat.mod_eq_of_lt hlane, laneOf]
    split <;> rfl
  · rw [regV, hcx, getV, kget_kset_other _ _ _ hj]
    rfl
  · rw [hcx]
    exact stat_laneResult hf d mask i
  · have h64 : ∀ e, e < n → (f e).2.testBit i = false := fun e he =>
      Nat.testBit_lt_two_pow ((hf e he).2.trans_le (Nat.pow_le_pow_right (n := 2) (by norm_num) hi))
    rw [hcx, Bool.eq_iff_iff]
    refine (stat_laneResult hf d mask i).trans ⟨?_, .inl⟩
    rintro (h | ⟨e, he, -, hb⟩)
    · exact h
    · rw [h64 e he] at hb
      cases hb
  · rw [regA, hcx]; rfl
  · rw [regM, hcx]; rfl
  · rw [regB, hcx]; rfl
  · rw [laneResult, getCtx_orFlags_other _ _ (by exact hc)]
    exact getCtx_setCtx_other s _ hc
  · rw [hstate]
    exact ⟨rfl, rfl, rfl, rfl, rfl, rfl⟩

end Sys2Proof.Machine

/-! PROOFS of the element-wise vector operations (2): which tags each accepts (08 R207-R210, R213, R214), and the integer elements (05 R121). -/

namespace Sys2Proof.Machine

open Sys2Proof

/-! ## What an element-wise instruction answers -/

section
variable {i : Instr} {s : State} {d a b m : Nat}

theorem vop2_completes {ok : Nat → Bool} {f : Nat → Nat → Nat → Nat × Nat} (he : exec i s = vop2 i d a b m ok f s) (hr : isRelease i = false)
    (ht : ok (regV s a).tag = true) (hf : sameFormat (regV s a) (regV s b) = true) : Completes i [rV a, rV b, rM m] s (lanes2 s d a b m f) := by
  refine completes_of he ?_ (.inl hr)
  simp only [ht, hf, Bool.not_true, Bool.false_eq_true, if_false]
  rfl

theorem vop3_completes {f : Nat → Nat → Nat → Nat → Nat × Nat} (he : exec i s = vop3 i d a b m f s) (hr : isRelease i = false)
    (ht : mulTags (regV s a).tag = true) (hf : sameFormat (regV s a) (regV s b) = true) (hd : sameFormat (regV s a) (regV s d) = true) :
    Completes i [rV d, rV a, rV b, rM m] s (lanes3 s d a b m f) := by
  refine completes_of he ?_ (.inl hr)
  simp only [ht, hf, hd, Bool.not_true, Bool.false_eq_true, if_false]
  rfl

theorem vop1_completes {ok : Nat → Bool} {f : Nat → Nat → Nat × Nat} (he : exec i s = vop1 i d a m ok f s) (hr : isRelease i = false)
    (ht : ok (regV s a).tag = true) : Completes i [rV a, rM m] s (lanes1 s d a m f) := by
  refine completes_of he ?_ (.inl hr)
  simp only [ht, Bool.not_true, Bool.false_eq_true, if_false]
  rfl

theorem vlogic_completes {f : Nat → Nat → Nat} (he : exec i s = vlogic i d a b m f s) (hr : isRelease i = false) :
    Completes i [rV a, rV b, rM m] s (logicLanes s d a b m f) := completes_of he rfl (.inl hr)

/-- The trap of an operand with a tag that the instruction does not accept. -/
theorem tagTrap_of {srcs : List Nat} {body : State → Res} {n : Nat} {v : VReg} (hs : SrcsGood s srcs) (he : exec i s = finish i srcs body s)
    (hb : body s = tagTrap s n v) : exec i s = .next (takeTrap s i cTag 0 (n + v.tag * 16 + v.planes * 256)) := answers_of hs he hb rfl

theorem vop2_traps {ok : Nat → Bool} {f : Nat → Nat → Nat → Nat × Nat} (he : exec i s = vop2 i d a b m ok f s) (hs : SrcsGood s [rV a, rV b, rM m]) :
    (ok (regV s a).tag = false → exec i s = .next (takeTrap s i cTag 0 (1 + (regV s a).tag * 16 + (regV s a).planes * 256))) ∧
    (ok (regV s a).tag = true → sameFormat (regV s a) (regV s b) = false →
      exec i s = .next (takeTrap s i cTag 0 (2 + (regV s b).tag * 16 + (regV s b).planes * 256))) := by
  refine ⟨fun ht => tagTrap_of hs he ?_, fun ht hf => tagTrap_of hs he ?_⟩
  · simp only [ht, Bool.not_false, if_true]
  · simp only [ht, hf, Bool.not_true, Bool.not_false, Bool.false_eq_true, if_false, if_true]

theorem vop3_traps {f : Nat → Nat → Nat → Nat → Nat × Nat} (he : exec i s = vop3 i d a b m f s) (hs : SrcsGood s [rV d, rV a, rV b, rM m]) :
    (mulTags (regV s a).tag = false → exec i s = .next (takeTrap s i cTag 0 (1 + (regV s a).tag * 16 + (regV s a).planes * 256))) ∧
    (mulTags (regV s a).tag = true → sameFormat (regV s a) (regV s b) = false →
      exec i s = .next (takeTrap s i cTag 0 (2 + (regV s b).tag * 16 + (regV s b).planes * 256))) ∧
    (mulTags (regV s a).tag = true → sameFormat (regV s a) (regV s b) = true → sameFormat (regV s a) (regV s d) = false →
      exec i s = .next (takeTrap s i cTag 0 (0 + (regV s d).tag * 16 + (regV s d).planes * 256))) := by
  refine ⟨fun ht => tagTrap_of hs he ?_, fun ht hf => tagTrap_of hs he ?_, fun ht hf hd => tagTrap_of hs he ?_⟩
  · simp only [ht, Bool.not_false, if_true]
  · simp only [ht, hf, Bool.not_true, Bool.not_false, Bool.false_eq_true, if_false, if_true]
  · simp only [ht, hf, hd, Bool.not_true, Bool.not_false, Bool.false_eq_true, if_false, if_true]

theorem vop1_traps {ok : Nat → Bool} {f : Nat → Nat → Nat × Nat} (he : exec i s = vop1 i d a m ok f s) (hs : SrcsGood s [rV a, rM m])
    (ht : ok (regV s a).tag = false) : exec i s = .next (takeTrap s i cTag 0 (1 + (regV s a).tag * 16 + (regV s a).planes * 256)) := by
  refine tagTrap_of hs he ?_
  simp only [ht, Bool.not_false, if_true]

end

/-! ## The integer elements (05 R121) -/

theorem tagWidth_pos (t : Nat) : 8 ≤ tagWidth t := by
  unfold tagWidth
  split_ifs <;> omega

section
variable {t x : Nat}

/-- The pattern of an integer is congruent to it. -/
theorem ofSigned_emod (w : Nat) (i : Int) : ((ofSigned w i : Nat) : Int) = i % 2 ^ w :=
  Int.toNat_of_nonneg (Int.emod_nonneg _ (by positivity))

theorem ofSigned_lt (w : Nat) (i : Int) : ofSigned w i < 2 ^ w := by
  have h := Int.emod_lt_of_pos i (b := 2 ^ w) (by positivity)
  have he := ofSigned_emod w i
  zify
  omega

/-- Two numbers below 2^w that are congruent are the same. -/
theorem ofSigned_eq {w n : Nat} {i : Int} (hn : n < 2 ^ w) (h : i % 2 ^ w = (n : Int) % 2 ^ w) : ofSigned w i = n := by
  have hi := ofSigned_emod w i
  rw [h, Int.emod_eq_of_lt (by positivity) (by exact_mod_cast hn)] at hi
  exact_mod_cast hi

/-- An element is the integer that its bits say, less 2^w when it is signed and negative. -/
theorem elemInt_cases (hx : x < 2 ^ tagWidth t) :
    (elemInt t x = x ∧ (tagSigned t = true → x < 2 ^ (tagWidth t - 1))) ∨
    (elemInt t x = (x : Int) - 2 ^ tagWidth t ∧ tagSigned t = true ∧ 2 ^ (tagWidth t - 1) ≤ x) := by
  unfold elemInt toSigned
  rw [Nat.mod_eq_of_lt hx]
  cases h : tagSigned t with
  | false => exact .inl ⟨by simp, nofun⟩
  | true =>
    rw [if_pos rfl]
    split
    · next h => exact .inl ⟨rfl, fun _ => h⟩
    · next h => exact .inr ⟨rfl, rfl, by omega⟩

/-- The range of a signed element. -/
theorem elemInt_range (hx : x < 2 ^ tagWidth t) :
    (tagSigned t = true → -2 ^ (tagWidth t - 1) ≤ elemInt t x ∧ elemInt t x < 2 ^ (tagWidth t - 1)) ∧
    (tagSigned t = false → 0 ≤ elemInt t x ∧ elemInt t x < 2 ^ tagWidth t) := by
  have hw : (2 : Int) ^ tagWidth t = 2 * 2 ^ (tagWidth t - 1) := by
    rw [← pow_succ', Nat.sub_add_cancel (by have := tagWidth_pos t; omega)]
  have hx' : (x : Int) < 2 ^ tagWidth t := by exact_mod_cast hx
  obtain ⟨h, hs⟩ | ⟨h, hs, hx2⟩ := elemInt_cases hx
  · refine ⟨fun g => ?_, fun _ => by omega⟩
    have := hs g
    zify at this
    omega
  · refine ⟨fun _ => ?_, fun g => by rw [hs] at g; cases g⟩
    zify at hx2
    omega

/-- The pattern of an integer in the element's range is the element of that integer. -/
theorem elemInt_ofSigned {i : Int} (h : (tagSigned t = true ∧ -2 ^ (tagWidth t - 1) ≤ i ∧ i < 2 ^ (tagWidth t - 1)) ∨
    (tagSigned t = false ∧ 0 ≤ i ∧ i < 2 ^ tagWidth t)) : elemInt t (ofSigned (tagWidth t) i) = i := by
  have hw : (2 : Int) ^ tagWidth t = 2 * 2 ^ (tagWidth t - 1) := by
    rw [← pow_succ', Nat.sub_add_cancel (by have := tagWidth_pos t; omega)]
  have hlt := ofSigned_lt (tagWidth t) i
  have he := ofSigned_emod (tagWidth t) i
  obtain ⟨hs, h1, h2⟩ | ⟨hs, h1, h2⟩ := h
  · by_cases h0 : 0 ≤ i
    · rw [Int.emod_eq_of_lt h0 (by omega)] at he
      obtain ⟨g, -⟩ | ⟨-, -, g⟩ := elemInt_cases hlt
      · rw [g, he]
      · zify at g
        omega
    · have hm : i % 2 ^ tagWidth t = i + 2 ^ tagWidth t := by
        rw [← Int.add_emod_right, Int.emod_eq_of_lt (by omega) (by omega)]
      obtain ⟨-, g⟩ | ⟨g, -, -⟩ := elemInt_cases hlt
      · have := g hs
        zify at this
        omega
      · omega
  · rw [Int.emod_eq_of_lt h1 h2] at he
    obtain ⟨g, -⟩ | ⟨-, g, -⟩ := elemInt_cases hlt
    · rw [g, he]
    · rw [hs] at g
      cases g

/-- An element is congruent to the integer that it stands for. -/
theorem elemInt_emod (hx : x < 2 ^ tagWidth t) : elemInt t x % 2 ^ tagWidth t = (x : Int) % 2 ^ tagWidth t := by
  obtain ⟨h, -⟩ | ⟨h, -, -⟩ := elemInt_cases hx
  · rw [h]
  · rw [h, Int.sub_emod_right]

variable {y : Nat} (ht : isFloatTag t = false)
include ht

theorem subElem_int (hy : y < 2 ^ tagWidth t) : subElem t x y = ((x + 2 ^ tagWidth t - y) % 2 ^ tagWidth t, 0) := by
  unfold subElem
  rw [ht]
  refine Prod.ext (ofSigned_eq (Nat.mod_lt _ (by positivity)) ?_) rfl
  push_cast [Nat.cast_sub (show y ≤ x + 2 ^ tagWidth t by omega)]
  rw [Int.emod_emod, show (x : Int) + 2 ^ tagWidth t - y = x - y + 2 ^ tagWidth t by ring, Int.add_emod_right]

theorem fmsElem_int {z : Nat} (hz : z < 2 ^ tagWidth t) : ((fmsElem t x y z).1 + x * y) % 2 ^ tagWidth t = z ∧ (fmsElem t x y z).2 = 0 := by
  unfold fmsElem
  rw [ht]
  refine ⟨?_, rfl⟩
  have h := ofSigned_emod (tagWidth t) ((z : Int) - x * y)
  change (ofSigned (tagWidth t) ((z : Int) - x * y) + x * y) % 2 ^ tagWidth t = z
  zify
  rw [h, Int.emod_add_emod, Int.sub_add_cancel, Int.emod_eq_of_lt (by positivity) (by exact_mod_cast hz)]

theorem minElem_int : elemInt t (minElem t x y).1 = min (elemInt t x) (elemInt t y) := by
  unfold minElem opBits
  simp only [ht, Bool.false_eq_true, if_false]
  norm_num
  split <;> simp_all [min_def]

theorem maxElem_int : elemInt t (maxElem t x y).1 = max (elemInt t x) (elemInt t y) := by
  unfold maxElem opBits
  simp only [ht, Bool.false_eq_true, if_false]
  norm_num
  split <;> simp_all [max_def]

theorem negElem_int (hx : x < 2 ^ tagWidth t) : (signElem true t x).1 = (2 ^ tagWidth t - x) % 2 ^ tagWidth t := by
  have hc : -elemInt t x ≡ -(x : Int) [ZMOD 2 ^ tagWidth t] := Int.ModEq.neg (elemInt_emod hx)
  unfold signElem
  simp only [ht, Bool.false_eq_true, if_false, if_true]
  refine ofSigned_eq (Nat.mod_lt _ (by positivity)) (hc.trans ?_)
  push_cast [Nat.cast_sub hx.le]
  rw [Int.ModEq, Int.emod_emod, sub_eq_neg_add, Int.add_emod_right]

theorem absElem_int (hx : x < 2 ^ tagWidth t) : (signElem false t x).1 = if 0 ≤ elemInt t x then x else 2 ^ tagWidth t - x := by
  unfold signElem
  simp only [ht, Bool.false_eq_true, if_false]
  obtain ⟨h, -⟩ | ⟨h, -, hp⟩ := elemInt_cases hx
  · rw [h, if_pos (by positivity)]
    exact ofSigned_eq hx rfl
  · have hpos : 0 < x := (Nat.two_pow_pos _).trans_le hp
    have hneg : elemInt t x < 0 := by
      zify at hx
      omega
    have hn : ((elemInt t x).natAbs : Int) = ((2 ^ tagWidth t - x : Nat) : Int) := by
      push_cast [Nat.cast_sub hx.le]
      rw [abs_of_neg hneg, h]
      ring
    rw [if_neg (by omega), hn]
    exact ofSigned_eq (Nat.sub_lt (by positivity) hpos) rfl

end

theorem shlElem_eq {t x : Nat} (n : Nat) : shlElem t x n = (x * 2 ^ n % 2 ^ tagWidth t, 0) := by
  unfold shlElem
  split
  · next h =>
    have hd : 2 ^ tagWidth t ∣ x * 2 ^ n := Dvd.dvd.mul_left (pow_dvd_pow 2 h) x
    rw [Nat.mod_eq_zero_of_dvd hd]
  · rfl

/-- Past the width of a number, its quotient is 0 or −1. -/
theorem ediv_two_pow_of_le {i : Int} {w n : Nat} (hl : -2 ^ w ≤ i) (hr : i < 2 ^ w) (hn : w ≤ n) : i / 2 ^ n = i / 2 ^ w := by
  have hp : (2 : Int) ^ w ≤ 2 ^ n := pow_le_pow_right₀ (by norm_num) hn
  by_cases h0 : 0 ≤ i
  · rw [Int.ediv_eq_zero_of_lt h0 hr, Int.ediv_eq_zero_of_lt h0 (hr.trans_le hp)]
  · rw [Int.ediv_eq_neg_one_of_neg_of_le (by omega) (by omega), Int.ediv_eq_neg_one_of_neg_of_le (by omega) (by omega)]

theorem elemInt_shrElem {t x : Nat} (hx : x < 2 ^ tagWidth t) (n : Nat) : elemInt t (shrElem t x n).1 = elemInt t x / 2 ^ n := by
  have hmin : elemInt t x / 2 ^ min n (tagWidth t) = elemInt t x / 2 ^ n := by
    obtain h | h := le_total n (tagWidth t)
    · rw [Nat.min_eq_left h]
    · have hx' : (x : Int) < 2 ^ tagWidth t := by exact_mod_cast hx
      have hl : -2 ^ tagWidth t ≤ elemInt t x ∧ elemInt t x < 2 ^ tagWidth t := by
        obtain ⟨g, -⟩ | ⟨g, -, -⟩ := elemInt_cases hx <;> omega
      rw [Nat.min_eq_right h, ediv_two_pow_of_le hl.1 hl.2 h]
  unfold shrElem
  rw [hmin]
  apply elemInt_ofSigned
  obtain ⟨hs, hu⟩ := elemInt_range hx
  have hp : (0 : Int) < 2 ^ n := by positivity
  have h1 : (1 : Int) ≤ 2 ^ n := hp
  cases h : tagSigned t with
  | true =>
    obtain ⟨hl, hr⟩ := hs h
    have hq : (0 : Int) < 2 ^ (tagWidth t - 1) := by positivity
    refine .inl ⟨rfl, (Int.le_ediv_iff_mul_le hp).2 (by nlinarith), (Int.ediv_lt_iff_lt_mul hp).2 (by nlinarith)⟩
  | false =>
    obtain ⟨hl, hr⟩ := hu h
    exact .inr ⟨rfl, Int.ediv_nonneg hl hp.le, (Int.ediv_lt_iff_lt_mul hp).2 (by nlinarith)⟩

/-- Settles O24: each operation is one of its shape, and the integer elements by the lemmas above. -/
theorem vectorArithmetic : Obligations.VectorArithmetic := by
  unfold Obligations.VectorArithmetic
  refine ⟨fun s d a b m => ⟨fun ht hf => ⟨?_, ?_, ?_, ?_⟩, fun ht hf => ⟨?_, fun hd => ⟨?_, ?_⟩⟩, fun ht hf => ⟨?_, ?_⟩, fun ht => ⟨?_, ?_⟩,
    fun ht => ⟨?_, ?_, ?_, ?_⟩, ?_, ?_, ?_, fun p hp hs => ?_, fun i hi hs => ?_, fun p hp hs ht => ?_⟩, fun t x y z n ht hx hy hz => ?_⟩
  · exact vop2_completes (ok := arithTags) rfl rfl ht hf
  · exact vop2_completes (ok := arithTags) rfl rfl ht hf
  · exact vop2_completes (ok := arithTags) rfl rfl ht hf
  · exact vop2_completes (ok := arithTags) rfl rfl ht hf
  · exact vop2_completes (ok := mulTags) rfl rfl ht hf
  · exact vop3_completes rfl rfl ht hf hd
  · exact vop3_completes rfl rfl ht hf hd
  · exact vop2_completes (ok := shiftTags) rfl rfl ht hf
  · exact vop2_completes (ok := shiftTags) rfl rfl ht hf
  · exact vop1_completes (ok := signTags) rfl rfl ht
  · exact vop1_completes (ok := signTags) rfl rfl ht
  · exact vop1_completes (ok := floatTags) rfl rfl ht
  · exact vop1_completes (ok := floatTags) rfl rfl ht
  · exact vop1_completes (ok := floatTags) rfl rfl ht
  · exact vop1_completes (ok := floatTags) rfl rfl ht
  · exact vlogic_completes (f := fun x y => x &&& y) rfl rfl
  · exact vlogic_completes (f := fun x y => x ||| y) rfl rfl
  · exact vlogic_completes (f := fun x y => x ^^^ y) rfl rfl
  · simp only [List.mem_cons, List.not_mem_nil, or_false] at hp
    obtain rfl | rfl | rfl | rfl | rfl | rfl | rfl := hp
    · exact vop2_traps (f := addElem) rfl hs
    · exact vop2_traps (f := subElem) rfl hs
    · exact vop2_traps (f := minElem) rfl hs
    · exact vop2_traps (f := maxElem) rfl hs
    · exact vop2_traps (f := mulElem) rfl hs
    · exact vop2_traps (f := shlElem) rfl hs
    · exact vop2_traps (f := shrElem) rfl hs
  · simp only [List.mem_cons, List.not_mem_nil, or_false] at hi
    obtain rfl | rfl := hi
    · exact vop3_traps (f := fmaElem) rfl hs
    · exact vop3_traps (f := fmsElem) rfl hs
  · simp only [List.mem_cons, List.not_mem_nil, or_false] at hp
    obtain rfl | rfl | rfl | rfl | rfl | rfl := hp
    · exact vop1_traps (f := signElem false) rfl hs ht
    · exact vop1_traps (f := signElem true) rfl hs ht
    · exact vop1_traps (f := fun t => vrcpElem (fmtOf t)) rfl hs ht
    · exact vop1_traps (f := fun t => vrsqElem (fmtOf t)) rfl hs ht
    · exact vop1_traps (f := fun t => vexp2Elem (fmtOf t)) rfl hs ht
    · exact vop1_traps (f := fun t => vlog2Elem (fmtOf t)) rfl hs ht
  · obtain ⟨hfms, hflags⟩ := fmsElem_int (x := x) (y := y) ht hz
    exact ⟨by simp [addElem, ht], subElem_int ht hy, by simp [mulElem, ht], by simp [fmaElem, ht], hfms, hflags, minElem_int ht, maxElem_int ht,
      negElem_int ht hx, absElem_int ht hx, shlElem_eq n, elemInt_shrElem hx n⟩

end Sys2Proof.Machine

/-! PROOFS about NaN operands (05 R117, R120, R131) and about comparison, selection, conversion and reduction of vectors (08 R211-R220). -/

namespace Sys2Proof.Machine

open Sys2Proof

/-! ## NaN operands (05 R117) -/

/-- A value that is a NaN, by its constructor. -/
theorem isNan_iff {x : FVal} : x.isNan = true ↔ ∃ s, x = .nan s := by
  cases x <;> simp [FVal.isNan]

theorem unpack_isNan (f : Fmt) (x : Nat) : (unpack f x).isNan = (decide (x / 2 ^ f.mb % 2 ^ f.eb = f.top) && x % 2 ^ f.mb != 0) := by
  unfold unpack
  dsimp only
  split
  · next h => split <;> simp_all [FVal.isNan]
  · next h => split <;> simp_all [FVal.isNan]

theorem unpack_nanBits_isNan {f : Fmt} (hm : 0 < f.mb) : (unpack f (nanBits f)).isNan = true := by
  have hlt : 2 ^ (f.mb - 1) < 2 ^ f.mb := Nat.pow_lt_pow_right (by norm_num) (by omega)
  have htop : f.top < 2 ^ f.eb := by
    unfold Fmt.top
    have := Nat.two_pow_pos f.eb
    omega
  have hq : nanBits f / 2 ^ f.mb = f.top := by
    rw [nanBits, Nat.mul_comm, Nat.mul_add_div (Nat.two_pow_pos _), Nat.div_eq_of_lt hlt, Nat.add_zero]
  have hr : nanBits f % 2 ^ f.mb = 2 ^ (f.mb - 1) := by
    rw [nanBits, Nat.mul_comm, Nat.mul_add_mod, Nat.mod_eq_of_lt hlt]
  rw [unpack_isNan, hq, hr, Nat.mod_eq_of_lt htop]
  simp

section
variable {f : Fmt} {x y z : FVal}

theorem FVal.neg_isNan : x.neg.isNan = x.isNan := by cases x <;> rfl

theorem roundVal_nan (mode rnd : Nat) (h : x.isNan = true) : (roundVal f mode rnd x).1 = nanBits f := by
  obtain ⟨s, rfl⟩ := isNan_iff.1 h
  rfl

theorem faddX_nan (h : x.isNan = true ∨ y.isNan = true) : (faddX x y).1.isNan = true := by
  cases x <;> cases y <;> simp_all [FVal.isNan, faddX]

theorem fmulX_nan (h : x.isNan = true ∨ y.isNan = true) : (fmulX x y).1.isNan = true := by
  cases x <;> cases y <;> simp_all [FVal.isNan, fmulX]

theorem faddBits_nan (h : x.isNan = true ∨ y.isNan = true) : (faddBits f x y).1 = nanBits f := roundVal_nan 0 0 (faddX_nan h)

theorem fmulBits_nan (h : x.isNan = true ∨ y.isNan = true) : (fmulBits f x y).1 = nanBits f := roundVal_nan 0 0 (fmulX_nan h)

theorem fmaBits_nan (h : x.isNan = true ∨ y.isNan = true ∨ z.isNan = true) : (fmaBits f x y z).1 = nanBits f := by
  refine roundVal_nan 0 0 (faddX_nan ?_)
  obtain h | h | h := h
  · exact .inl (fmulX_nan (.inl h))
  · exact .inl (fmulX_nan (.inr h))
  · exact .inr h

theorem fcmp_nan (h : x.isNan = true ∨ y.isNan = true) : fcmp x y = none := by
  cases x <;> cases y <;> simp_all [FVal.isNan, fcmp]

theorem fminmax_nan {a b : Nat} (max : Bool) (h : (unpack f a).isNan = true ∨ (unpack f b).isNan = true) : (fminmax f max a b).1 = nanBits f := by
  simp only [fminmax, fcmp_nan h]

end

section
variable {t : Nat} (ht : isFloatTag t = true)
include ht

theorem addElem_of_float (x y : Nat) : addElem t x y = faddBits (fmtOf t) (unpack (fmtOf t) x) (unpack (fmtOf t) y) := if_pos ht
theorem subElem_of_float (x y : Nat) : subElem t x y = faddBits (fmtOf t) (unpack (fmtOf t) x) (unpack (fmtOf t) y).neg := if_pos ht
theorem mulElem_of_float (x y : Nat) : mulElem t x y = fmulBits (fmtOf t) (unpack (fmtOf t) x) (unpack (fmtOf t) y) := if_pos ht
theorem fmaElem_of_float (x y z : Nat) :
    fmaElem t x y z = fmaBits (fmtOf t) (unpack (fmtOf t) x) (unpack (fmtOf t) y) (unpack (fmtOf t) z) := if_pos ht
theorem fmsElem_of_float (x y z : Nat) :
    fmsElem t x y z = fmaBits (fmtOf t) (unpack (fmtOf t) x).neg (unpack (fmtOf t) y) (unpack (fmtOf t) z) := if_pos ht

/-- A format of floating-point elements has a fraction. -/
theorem fmtOf_mb_pos : 0 < (fmtOf t).mb := by
  obtain rfl | rfl | rfl := (isFloatTag_iff t).1 ht <;> decide

variable {x : Nat} (hx : (unpack (fmtOf t) x).isNan = true)
include hx

theorem signElem_nan (neg : Bool) : (signElem neg t x).1 = nanBits (fmtOf t) := by
  obtain ⟨s, hs⟩ := isNan_iff.1 hx
  simp only [signElem, ht, if_true, hs]

theorem elemVal_nan (p : Nat) (hlt : x < 2 ^ tagWidth t) : (elemVal t p x).isNan = true := by
  unfold elemVal
  rw [if_pos ht, Nat.mod_eq_of_lt hlt]
  exact hx

theorem convertElem_nan_float (p mode rnd : Nat) {u : Nat} (hu : isFloatTag u = true) (hlt : x < 2 ^ tagWidth t) :
    (convertElem t p u mode rnd x).1 = nanBits (fmtOf u) := by
  unfold convertElem
  rw [if_pos hu]
  split
  · next h =>
    subst h
    obtain ⟨s, hs⟩ := isNan_iff.1 hx
    rw [Nat.mod_eq_of_lt hlt, hs]
  · exact roundVal_nan _ _ (elemVal_nan ht hx p hlt)

theorem convertElem_nan_int (p mode rnd : Nat) {u : Nat} (hu : isFloatTag u = false) (hlt : x < 2 ^ tagWidth t) : (convertElem t p u mode rnd x).1 = 0 := by
  obtain ⟨s, hs⟩ := isNan_iff.1 (elemVal_nan ht hx p hlt)
  unfold convertElem
  rw [if_neg (by rw [hu]; nofun), hs]
  rfl

theorem opBits_nan (o y : Nat) : (opBits o t x y).1 = nanBits (fmtOf t) ∧ (opBits o t y x).1 = nanBits (fmtOf t) := by
  unfold opBits
  simp only [ht, if_true]
  split_ifs
  · exact ⟨fminmax_nan false (.inl hx), fminmax_nan false (.inr hx)⟩
  · exact ⟨fminmax_nan true (.inl hx), fminmax_nan true (.inr hx)⟩
  · exact ⟨faddBits_nan (.inl hx), faddBits_nan (.inr hx)⟩

theorem redLeaf_nan : (unpack fp32 (redLeaf t 5 x).1).isNan = true := by
  unfold redLeaf
  split
  · next h =>
    subst h
    exact hx
  · rw [roundVal_nan 0 0 hx]
    exact unpack_nanBits_isNan (by decide)

omit ht in
theorem approx_nan : (vrcpElem (fmtOf t) x).1 = nanBits (fmtOf t) ∧ (vrsqElem (fmtOf t) x).1 = nanBits (fmtOf t) ∧
    (vexp2Elem (fmtOf t) x).1 = nanBits (fmtOf t) ∧ (vlog2Elem (fmtOf t) x).1 = nanBits (fmtOf t) := by
  obtain ⟨s, hs⟩ := isNan_iff.1 hx
  simp only [vrcpElem, vrsqElem, vexp2Elem, vlog2Elem, hs, and_self]

theorem cmpElem_nan (c y : Nat) :
    cmpElem c t x y = (c == 1, if (unpack (fmtOf t) x).isSig = true ∨ (unpack (fmtOf t) y).isSig = true ∨ 2 ≤ c then 1 else 0) := by
  simp only [cmpElem, ht, if_true, fcmp_nan (.inl hx), flagIf, flNV, Bool.or_eq_true, decide_eq_true_eq, or_assoc]

end

/-! ## Reductions over a tree (05 R135, R137) -/

/-- A level of a tree over an even number of leaves, one of which is a NaN, has half as many and holds the default NaN. -/
theorem treeLevel_nan {t : Nat} (ht : isFloatTag t = true) (o m : Nat) (l : List Nat) (hl : l.length = 2 * m) :
    (treeLevel o t l).1.length = m ∧
    ((∃ x ∈ l, (unpack (fmtOf t) x).isNan = true) → nanBits (fmtOf t) ∈ (treeLevel o t l).1) := by
  induction m generalizing l with
  | zero =>
    obtain rfl := List.length_eq_zero_iff.1 hl
    exact ⟨rfl, by simp⟩
  | succ m ih =>
    match l, hl with
    | x :: y :: rest, hl =>
      obtain ⟨hlen, hmem⟩ := ih rest (by simpa [Nat.mul_succ] using hl)
      refine ⟨by simpa [treeLevel] using hlen, ?_⟩
      rintro ⟨z, hz, hn⟩
      simp only [treeLevel, List.mem_cons]
      obtain rfl | rfl | hz := by simpa only [List.mem_cons] using hz
      · exact .inl (opBits_nan ht hn o y).1.symm
      · exact .inl (opBits_nan ht hn o x).2.symm
      · exact .inr (hmem ⟨z, hz, hn⟩)

theorem treeReduce_nanBits {t : Nat} (ht : isFloatTag t = true) (o n : Nat) (l : List Nat) (hl : l.length = 2 ^ n) (hm : nanBits (fmtOf t) ∈ l) :
    (treeReduce o t n l).1 = nanBits (fmtOf t) := by
  induction n generalizing l with
  | zero =>
    obtain ⟨x, rfl⟩ := List.length_eq_one_iff.1 hl
    exact (List.mem_singleton.1 hm).symm
  | succ n ih =>
    obtain ⟨hlen, hmem⟩ := treeLevel_nan ht o (2 ^ n) l (by rw [hl, pow_succ'])
    exact ih _ hlen (hmem ⟨_, hm, unpack_nanBits_isNan (fmtOf_mb_pos ht)⟩)

theorem treeReduce_nan {t x : Nat} (ht : isFloatTag t = true) (hx : (unpack (fmtOf t) x).isNan = true) (o n : Nat) (l : List Nat) (hm : x ∈ l)
    (hl : l.length = 2 ^ (n + 1)) : (treeReduce o t (n + 1) l).1 = nanBits (fmtOf t) := by
  obtain ⟨hlen, hmem⟩ := treeLevel_nan ht o (2 ^ n) l (by rw [hl, pow_succ'])
  exact treeReduce_nanBits ht o n _ hlen (hmem ⟨x, hm, hx⟩)

/-- Settles O25: every operation goes through values, and a NaN among them stays one; the zeros as in O60. -/
theorem nanResults : Obligations.NanResults := by
  unfold Obligations.NanResults
  intro t x y z ht
  have hz := zeroOrder t ht
  refine ⟨fun hx => ?_, unpack_isNan (fmtOf t) x, ?_⟩
  · obtain ⟨hrcp, hrsq, hexp, hlog⟩ := approx_nan hx
    have hneg : (unpack (fmtOf t) x).neg.isNan = true := FVal.neg_isNan.trans hx
    simp only [addElem_of_float ht, subElem_of_float ht, mulElem_of_float ht, minElem_of_float ht, maxElem_of_float ht, fmaElem_of_float ht,
      fmsElem_of_float ht]
    exact ⟨faddBits_nan (.inl hx), faddBits_nan (.inr hx), faddBits_nan (.inl hx), faddBits_nan (.inr hneg), fmulBits_nan (.inl hx), fmulBits_nan (.inr hx),
      fminmax_nan false (.inl hx), fminmax_nan false (.inr hx), fminmax_nan true (.inl hx), fminmax_nan true (.inr hx),
      fmaBits_nan (.inl hx), fmaBits_nan (.inr (.inl hx)), fmaBits_nan (.inr (.inr hx)),
      fmaBits_nan (.inl hneg), fmaBits_nan (.inr (.inl hx)), fmaBits_nan (.inr (.inr hx)), signElem_nan ht hx false, signElem_nan ht hx true,
      fun p u mode rnd hu hlt => convertElem_nan_float ht hx p mode rnd hu hlt, fun p u mode rnd hu hlt => convertElem_nan_int ht hx p mode rnd hu hlt,
      fun o => opBits_nan ht hx o y, fun o n l hm hl => treeReduce_nan ht hx o n l hm hl, redLeaf_nan ht hx, hrcp, hrsq, hexp, hlog,
      fun c => cmpElem_nan ht hx c y⟩
  · obtain ⟨h1, h2, h3, h4, -⟩ := hz
    exact ⟨h1, h2, h3, h4⟩

/-! ## Integer trees -/

/-- The pairs of a list, each combined. -/
def pairUp (g : Nat → Nat → Nat) : List Nat → List Nat
  | x :: y :: rest => g x y :: pairUp g rest
  | l => l

theorem treeLevel_eq {o t : Nat} {g : Nat → Nat → Nat} (hg : ∀ x y, opBits o t x y = (g x y, 0)) (l : List Nat) : treeLevel o t l = (pairUp g l, 0) := by
  fun_induction pairUp g l with
  | case1 x y rest ih => simp only [treeLevel, hg, ih, Nat.or_self]
  | case2 l h => rw [treeLevel]; exact h

theorem foldl_pairUp {g : Nat → Nat → Nat} (ha : ∀ x y z, g (g x y) z = g x (g y z)) (l : List Nat) (c : Nat) : (pairUp g l).foldl g c = l.foldl g c := by
  fun_induction pairUp g l generalizing c with
  | case1 x y rest ih => rw [List.foldl_cons, ih, ← ha]; rfl
  | case2 l h => rfl

theorem length_pairUp {g : Nat → Nat → Nat} (m : Nat) (l : List Nat) (hl : l.length = 2 * m) : (pairUp g l).length = m := by
  fun_induction pairUp g l generalizing m with
  | case1 x y rest ih =>
    simp only [List.length_cons] at hl ⊢
    have := ih (m - 1) (by omega)
    omega
  | case2 l h =>
    match l, h, hl with
    | [], _, hl => rw [List.length_nil] at hl; simp only [List.length_nil]; omega
    | [x], _, hl => rw [List.length_singleton] at hl; omega
    | x :: y :: rest, h, _ => exact absurd rfl (h x y rest)

/-- A tree reduction by an associative operation combines the leaves in their order. -/
theorem treeReduce_cons {o t : Nat} {g : Nat → Nat → Nat} (hg : ∀ x y, opBits o t x y = (g x y, 0)) (ha : ∀ x y z, g (g x y) z = g x (g y z))
    (n x : Nat) (l : List Nat) (hl : (x :: l).length = 2 ^ n) : treeReduce o t n (x :: l) = (l.foldl g x, 0) := by
  induction n generalizing x l with
  | zero =>
    obtain rfl : l = [] := by simpa using hl
    rfl
  | succ n ih =>
    match l, hl with
    | [], hl =>
      rw [List.length_singleton, pow_succ'] at hl
      omega
    | y :: rest, hl =>
      have hlen : (pairUp g (x :: y :: rest)).length = 2 ^ n := length_pairUp _ _ (by rw [hl, pow_succ'])
      simp only [treeReduce, treeLevel_eq hg]
      rw [pairUp, ih _ _ hlen, foldl_pairUp ha, Nat.zero_or]
      rfl

section
variable {t : Nat} (ht : isFloatTag t = false)

theorem foldl_add_mod (M x : Nat) (l : List Nat) (hx : x < M) : l.foldl (fun a b => (a + b) % M) x = (x + l.sum) % M := by
  induction l generalizing x with
  | nil => simp [Nat.mod_eq_of_lt hx]
  | cons y l ih => rw [List.foldl_cons, ih _ (Nat.mod_lt _ (by omega)), List.sum_cons, Nat.mod_add_mod, Nat.add_assoc]

include ht

theorem opBits_int (o x y : Nat) : opBits o t x y =
    if o = 0 then ((x + y) % 2 ^ tagWidth t, 0)
    else if o = 1 then (if elemInt t x ≤ elemInt t y then x else y, 0)
    else if o = 2 then (if elemInt t x ≤ elemInt t y then y else x, 0)
    else if o = 3 then (x &&& y, 0) else if o = 4 then (x ||| y, 0) else (x ^^^ y, 0) := by
  unfold opBits
  rw [ht]
  rfl

/-- Reductions of integers by addition, or, exclusive or and and. -/
theorem treeReduce_int (n : Nat) (l : List Nat) (hl : l.length = 2 ^ n) (hx : ∀ x, x ∈ l → x < 2 ^ tagWidth t) :
    treeReduce 0 t n l = (l.sum % 2 ^ tagWidth t, 0) ∧ treeReduce 4 t n l = (l.foldl (fun a b => a ||| b) 0, 0) ∧
    treeReduce 5 t n l = (l.foldl (fun a b => a ^^^ b) 0, 0) ∧ treeReduce 3 t n l = (l.foldl (fun a b => a &&& b) (2 ^ tagWidth t - 1), 0) := by
  match l, hl, hx with
  | [], hl, _ => exact absurd hl.symm (by simp)
  | x :: l, hl, hx =>
    have hx0 := hx x List.mem_cons_self
    refine ⟨?_, ?_, ?_, ?_⟩
    · rw [treeReduce_cons (g := fun a b => (a + b) % 2 ^ tagWidth t) (fun a b => opBits_int ht 0 a b) (fun a b c => by simp [Nat.add_assoc]) n x l hl,
        foldl_add_mod _ _ _ hx0, List.sum_cons]
    · rw [treeReduce_cons (g := fun a b => a ||| b) (fun a b => opBits_int ht 4 a b) Nat.or_assoc n x l hl, List.foldl_cons, Nat.zero_or]
    · rw [treeReduce_cons (g := fun a b => a ^^^ b) (fun a b => opBits_int ht 5 a b) Nat.xor_assoc n x l hl, List.foldl_cons, Nat.zero_xor]
    · rw [treeReduce_cons (g := fun a b => a &&& b) (fun a b => opBits_int ht 3 a b) Nat.and_assoc n x l hl, List.foldl_cons, Nat.and_comm,
        Nat.and_two_pow_sub_one_eq_mod, Nat.mod_eq_of_lt hx0]

end

/-- Settles O27: each instruction's effect by its definition, and the integer reductions as folds. -/
theorem vectorConversion : Obligations.VectorConversion := by
  unfold Obligations.VectorConversion
  refine ⟨fun s d a r m t o fl v fv vs seed => ⟨fun ht hc => ?_, fun ht hr => ?_, fun ht hs => ?_⟩, fun t n l ht hl hx => treeReduce_int ht n l hl hx⟩
  · refine completes_of (i := .vcvt d a r m t) (by rfl) ?_
    simp only [ht, Bool.not_true, Bool.false_eq_true, if_false, hc]
  · refine completes_of (i := .vred d a m o) (by rfl) ?_
    unfold vel at hr ⊢
    simp only [ht, Bool.not_true, Bool.false_eq_true, if_false, List.map_map, Function.comp_def, hr]
  · refine completes_of (i := .vscan d a m o) (by rfl) ?_
    simp only [ht, Bool.not_true, Bool.false_eq_true, if_false, hs]

end Sys2Proof.Machine

/-! PROOFS of comparison, selection and rearrangement of vectors (08 R211, R212, R216-R218). -/

namespace Sys2Proof.Machine

open Sys2Proof

/-! ## The mask that a comparison leaves (08 R211) -/

theorem tagCount_le (t : Nat) : tagCount t ≤ 128 := by
  unfold tagCount tagWidth
  split_ifs <;> omega

theorem packElems_one_testBit (l : List Bool) (e : Nat) : (packElems 1 (l.map Bool.toNat)).testBit e = l.getD e false := by
  induction l generalizing e with
  | nil => simp [packElems]
  | cons b l ih =>
    have hb : b.toNat % 2 ^ 1 = b.toNat := Nat.mod_eq_of_lt b.toNat_lt
    rw [List.map_cons, packElems, hb, pow_one]
    cases e with
    | zero => cases b <;> simp [Nat.testBit_zero, Nat.add_mod]
    | succ e =>
      have hd : (b.toNat + 2 * packElems 1 (l.map Bool.toNat)) / 2 = packElems 1 (l.map Bool.toNat) := by
        have := b.toNat_lt
        omega
      rw [Nat.testBit_succ, hd, ih, List.getD_cons_succ]

/-- The bits of the comparisons below n. -/
theorem compareBits_getLsbD (n : Nat) (f : Nat → Bool × Nat) {e : Nat} (he : e < 128) :
    (BitVec.ofNat 128 (packElems 1 (((List.range n).map f).map (fun p => p.1.toNat)))).getLsbD e = (decide (e < n) && (f e).1) := by
  have hm : ((List.range n).map f).map (fun p => p.1.toNat) = ((List.range n).map (fun i => (f i).1)).map Bool.toNat := by
    rw [List.map_map, List.map_map]
    rfl
  rw [BitVec.getLsbD_ofNat, hm, packElems_one_testBit, decide_eq_true he, Bool.true_and]
  by_cases h : e < n
  · simp [List.getD_eq_getElem?_getD, h]
  · simp [List.getD_eq_getElem?_getD, h]

theorem cx_setM (s : State) (d : Nat) (v : BitVec 128) :
    (cx (setM s d v)).v = (cx s).v ∧ (cx (setM s d v)).a = (cx s).a := by
  unfold setM
  split
  · exact ⟨rfl, rfl⟩
  · rw [cx_modCx]
    exact ⟨rfl, rfl⟩

section
variable (s : State) (d a b m c : Nat)

theorem regM_compareResult (j : Nat) : regM (compareResult s d a b m c) j = regM (setM s d
    (BitVec.ofNat 128 (packElems 1 (((List.range (tagCount (regV s a).tag)).map (compareOf s a b m c)).map (fun p => p.1.toNat))))) j := by
  rw [regM, compareResult, getM, cx_orFlags]
  rfl

theorem regV_compareResult (j : Nat) : regV (compareResult s d a b m c) j = regV s j := by
  rw [regV, compareResult, getV, cx_orFlags]
  exact congrArg (fun v => kget v .zero j) (cx_setM s d _).1

theorem regA_compareResult (j : Nat) : regA (compareResult s d a b m c) j = regA s j := by
  rw [regA, compareResult, getA, cx_orFlags, regA, getA]
  rw [(cx_setM s d _).2]

theorem mem_compareResult : (compareResult s d a b m c).mem = s.mem := by
  obtain ⟨l, hl⟩ := orFlags_eq (setM s d
    (BitVec.ofNat 128 (packElems 1 (((List.range (tagCount (regV s a).tag)).map (compareOf s a b m c)).map (fun p => p.1.toNat)))))
    (((List.range (tagCount (regV s a).tag)).map (compareOf s a b m c)).foldl (fun f p => f ||| p.2) 0)
  rw [compareResult, hl]
  exact setM_mem s d _

end

/-- Settles O26: each instruction's effect by its definition under its tags, and the mask bit by bit. -/
theorem vectorSelection : Obligations.VectorSelection := by
  unfold Obligations.VectorSelection
  refine ⟨fun s d a b m c h t => ⟨fun ht hf => ?_, fun hf => ?_, fun ht hf => ?_, ?_, ?_, fun hi hs hg => ?_, fun hi hs hg => ?_, fun hi => ?_, fun hi => ?_,
    fun ht => ?_⟩, fun s d a b m c => ⟨fun e he => ?_, fun j hj => ?_, regV_compareResult s d a b m c, regA_compareResult s d a b m c,
    mem_compareResult s d a b m c⟩⟩
  · refine completes_of (i := .vcmp d a b m c) (by rfl) ?_
    simp only [ht, hf, Bool.not_true, Bool.false_eq_true, if_false]
    rfl
  · refine completes_of (i := .vsel d a b m) (by rfl) ?_
    simp only [hf, Bool.not_true, Bool.false_eq_true, if_false]
    rfl
  · refine completes_of (i := .vpack d a b) (by rfl) ?_
    simp only [ht, hf, Bool.not_true, Bool.false_eq_true, if_false]
  · exact completes_of (i := .vunpk d a h) (by rfl) rfl
  · exact completes_of (i := .vsplat d a t m) (by rfl) rfl
  · refine completes_of (i := .vext d a b) (by rfl) ?_ (.inl rfl) hs ((goes_setA_iff s s d _).2 hg)
    simp only [if_neg (Nat.not_le.2 hi)]
    rfl
  · refine completes_of (i := .vext d a b) (by rfl) ?_ (.inl rfl) hs ((goes_setA_iff s s d _).2 hg)
    simp only [if_pos hi]
  · refine completes_of (i := .vins d a b) (by rfl) ?_
    simp only [if_neg (Nat.not_le.2 hi)]
    rfl
  · refine completes_of (i := .vins d a b) (by rfl) ?_
    simp only [if_pos hi]
  · refine completes_of (i := .vperm d a b m) (by rfl) ?_
    have hy : ((regV s b).tag == 1 || ((regV s b).tag == 10 && decide (tagCount (regV s a).tag ≤ 32))) = true := by simpa using ht
    simp only [hy, Bool.not_true, Bool.false_eq_true, if_false]
    rfl
  · rw [regM_compareResult, regM_setM]
    split
    · next h0 => rw [BitVec.getLsbD_allOnes, decide_eq_true he, h0]; rfl
    · next h0 => rw [compareBits_getLsbD _ _ he, beq_eq_false_iff_ne.2 h0, Bool.false_or]
  · rw [regM_compareResult, regM_setM_other s _ hj]

end Sys2Proof.Machine

/-! PROOFS of the full/empty accesses, fences and prefetches (07 R192-R199), of the vector loads and stores (08 R221-R226) and of the bitmap and mask
operations (08 R227-R232). -/

namespace Sys2Proof.Machine

open Sys2Proof

/-! ## Releases -/

/-- A release that finds everything else ready waits for its thread's stores (04 R106). -/
theorem waits_acks_of {i : Instr} {srcs : List Nat} {body : State → Res} {s t : State} (he : exec i s = finish i srcs body s) (hb : body s = .ok t)
    (hr : isRelease i = true) (hk : (unacked s s.cur).isSome = true) (hf : fallsThrough i = true) : Waits i srcs s s (.acks (cxCore s)) := by
  intro h
  have hw : releaseHeld i s (.ok t) = .wait s (.acks (cxCore s)) := by
    unfold releaseHeld
    exact if_pos (by rw [hr, hk]; rfl)
  have e : exec i s = .next (unlessBad i s (waitOn s (.acks (cxCore s)))) := by
    rw [he, finish_of h, hb, hw]
    rfl
  exact ⟨fun g => by rw [e, unlessBad_of g], fun g => by rw [e, unlessBad_bad hf g]⟩

/-! ## Full/empty accesses (07 R192-R196) -/

/-- What an instruction finds at its dword, once its thread's earlier stores there are performed. -/
theorem atDword_of {s : State} {va : Word} {key : Nat} (h : scratchObj s (thr s) va 8 cFullEmpty = .key key) (hb : firstBad s key 8 = none)
    (k : State → Nat → Res) : atDword s va k = k (drainTo s s.cur (keyCore key)) key := by
  unfold atDword
  rw [dwordAt_of h, readable_of hb]

section
variable {s : State} {d a b key : Nat} (h : scratchObj s (thr s) (regA s a) 8 cFullEmpty = .key key)
include h

theorem ldfBody_full (take : Bool) (hb : firstBad s key 8 = none) {u : State} (hu : u = drainTo s s.cur (keyCore key))
    (hf : u.full.contains key = true) (hl : firstInLine u (.dword key true) = true) :
    ldfBody d a take s = .ok (setA (acquire (if take then setFull u key false else u) (cxCore (if take then setFull u key false else u))) d
      (counterRead u key)) := by
  unfold ldfBody
  rw [atDword_of h hb, ← hu]
  dsimp only
  rw [if_pos (by rw [hf, hl]; rfl)]

theorem ldfBody_empty (take : Bool) (hb : firstBad s key 8 = none) {u : State} (hu : u = drainTo s s.cur (keyCore key))
    (hf : u.full.contains key = false) : ldfBody d a take s = .wait u (.dword key true) := by
  unfold ldfBody
  rw [atDword_of h hb, ← hu]
  dsimp only
  rw [if_neg (by rw [hf]; nofun)]

theorem tagset_completes (hb : firstBad s key 8 = none) {u : State} (hu : u = drainTo s s.cur (keyCore key)) :
    Completes (.tagset a b) [rA a, rA b] s (setFull u key ((regA u b).getLsbD 0)) := by
  refine completes_of (by rfl) ?_
  rw [atDword_of h hb, ← hu]

theorem tagget_completes (hb : firstBad s key 8 = none) {u : State} (hu : u = drainTo s s.cur (keyCore key)) :
    Completes (.tagget d a) [rA a] s (setA u d (if u.full.contains key then 1 else 0)) := by
  refine completes_of (by rfl) ?_
  rw [atDword_of h hb, ← hu]

theorem ste_completes (hb : firstBad s key 8 = none) (hk : unacked s s.cur = none) {u : State} (hu : u = releaseWaits s s.cur)
    (hf : u.full.contains key = false) (hl : firstInLine u (.dword key false) = true) :
    Completes (.ste a b) [rA a, rA b] s (setFull (memWrite u key (leBytes 8 (regA u b).toNat)) key true) := by
  refine completes_of (by rfl) ?_ (.inr hk)
  rw [dwordAt_of h, readable_of hb, if_neg (by rw [hk]; nofun), ← hu]
  dsimp only
  rw [if_pos (by rw [hf, hl]; rfl)]

theorem ste_waits_full (hb : firstBad s key 8 = none) (hk : unacked s s.cur = none) {u : State} (hu : u = releaseWaits s s.cur)
    (hf : u.full.contains key = true) : Waits (.ste a b) [rA a, rA b] s u (.dword key false) := by
  refine waits_of (by rfl) ?_
  rw [dwordAt_of h, readable_of hb, if_neg (by rw [hk]; nofun), ← hu]
  dsimp only
  rw [if_neg (by rw [hf]; nofun)]

theorem ste_waits_acks (hb : firstBad s key 8 = none) (hk : (unacked s s.cur).isSome = true) :
    Waits (.ste a b) [rA a, rA b] s s (.acks (cxCore s)) := by
  refine waits_of (by rfl) ?_
  rw [dwordAt_of h, readable_of hb, if_pos hk]

theorem ste_bad {x : Nat} (hx : firstBad s key 8 = some x) (hs : SrcsGood s [rA a, rA b]) :
    exec (.ste a b) s = .next (takeTrap s (.ste a b) cUncorrectable (regA s a + word (x - key)) 0) := by
  refine answers_of (r := .trap s cUncorrectable (regA s a + word (x - key)) 0) hs (by rfl) ?_
  rw [dwordAt_of h]
  unfold readable
  rw [hx]

end

/-- Settles O20: each access by what it finds at its dword. -/
theorem fullEmptyAccesses : Obligations.FullEmptyAccesses := by
  unfold Obligations.FullEmptyAccesses
  intro s d a b key h
  refine ⟨fun u hu hb => ⟨fun hf hl => ⟨?_, ?_⟩, fun hf => ⟨?_, ?_⟩, tagset_completes h hb hu, tagget_completes h hb hu⟩,
    fun u hu hb => ⟨fun hk hf hl => ste_completes h hb hk hu hf hl, fun hk hf => ste_waits_full h hb hk hu hf, fun hk => ste_waits_acks h hb hk⟩,
    fun x hx hs => ste_bad h hx hs⟩
  · exact completes_of (i := .ldfTake d a) (by rfl) (ldfBody_full h true hb hu hf hl)
  · exact completes_of (i := .ldfPeek d a) (by rfl) (ldfBody_full h false hb hu hf hl)
  · exact waits_of (i := .ldfTake d a) (by rfl) (ldfBody_empty h true hb hu hf)
  · exact waits_of (i := .ldfPeek d a) (by rfl) (ldfBody_empty h false hb hu hf)

/-! ## Fences and prefetches (07 R197-R199) -/

theorem fenceE_completes {s u : State} {a b key : Nat} (h : counterObj s (thr s) (regA s a) 8 = .key key) (hb : firstBad s key 8 = none)
    (hu : u = drainTo s s.cur (keyCore key)) (hle : (regA u b).toNat ≤ (counterRead u key).toNat) :
    Completes (.fenceE a b) [rA a, rA b] s (acquire u (cxCore u)) := by
  refine completes_of (by rfl) ?_
  rw [counterAt_of h, readable_of hb, ← hu]
  exact if_pos hle

theorem fenceE_waits {s u : State} {a b key : Nat} (h : counterObj s (thr s) (regA s a) 8 = .key key) (hb : firstBad s key 8 = none)
    (hu : u = drainTo s s.cur (keyCore key)) (hlt : (counterRead u key).toNat < (regA u b).toNat) :
    Waits (.fenceE a b) [rA a, rA b] s u (.fence key) := by
  refine waits_of (by rfl) ?_
  rw [counterAt_of h, readable_of hb, ← hu]
  exact if_neg (Nat.not_le.2 hlt)

section
variable {s u : State} {va : Word} {pa key n : Nat}

/-- A prefetch of a line that can be read fills it. -/
theorem speculateAt_fills (hv : addrClass va = .translated) (hp : peek s (thr s) (va.toNat / 64 * 64) = some pa) (hk : key = paKey s (cxPkg s) pa)
    (hr : recallLines s key 64 = (u, none)) (hb : firstBad u key 64 = none) : speculateAt s (thr s) true va = prefetched u (cxCore s) pa key := by
  have hk' : paKey s (corePkg (thr s).core) pa = key := hk.symm
  simp only [speculateAt, hv, hp, hk', hr, hb, Option.isSome_none, Bool.false_eq_true, if_false, if_true]
  rfl

/-- One of a line that cannot be read is dropped. -/
theorem speculateAt_drops (hv : addrClass va = .translated) (hp : peek s (thr s) (va.toNat / 64 * 64) = some pa) (hk : key = paKey s (cxPkg s) pa)
    (hr : recallLines s key 64 = (u, some n) ∨ (recallLines s key 64 = (u, none) ∧ (firstBad u key 64).isSome = true)) :
    speculateAt s (thr s) true va = dropSpec u (cxCore s) := by
  have hk' : paKey s (corePkg (thr s).core) pa = key := hk.symm
  obtain hr | ⟨hr, hb⟩ := hr
  · simp only [speculateAt, hv, hp, hk', hr]
    rfl
  · simp only [speculateAt, hv, hp, hk', hr, hb, if_true]
    rfl

/-- So is one of an address that would fault. -/
theorem speculateAt_faults (h : (addrClass va = .translated ∧ peek s (thr s) (va.toNat / 64 * 64) = none) ∨ addrClass va = .nonCanonical) :
    speculateAt s (thr s) true va = dropSpec s (cxCore s) := by
  obtain ⟨hv, hp⟩ | hv := h
  · simp only [speculateAt, hv, hp]
    rfl
  · simp only [speculateAt, hv]
    rfl

theorem speculateAt_none (h : addrClass va = .group ∨ addrClass va = .scratch ∨ addrClass va = .localWin ∨ addrClass va = .aperture) :
    speculateAt s (thr s) true va = s := by
  obtain hv | hv | hv | hv := h <;> simp only [speculateAt, hv]

end

theorem pref_completes {s t : State} {a : Nat} (h : speculateAt s (thr s) true (regA s a) = t) : Completes (.pref a) [rA a] s t :=
  completes_of (by rfl) (by rw [h])

/-- Settles O21: each fence by what it finds, and the prefetch by its address. -/
theorem fencesAndPrefetch : Obligations.FencesAndPrefetch := by
  unfold Obligations.FencesAndPrefetch
  intro s a b key pa n
  refine ⟨completes_of (i := .acq) (by rfl) rfl, fun hk => completes_of (i := .rel) (by rfl) rfl (.inr hk), fun hk => ?_, fun u h hb hu =>
    ⟨fenceE_completes h hb hu, fenceE_waits h hb hu⟩, fun u hv hp hk => ⟨fun hr hb => pref_completes (speculateAt_fills hv hp hk hr hb),
    fun hr => pref_completes (speculateAt_drops hv hp hk hr)⟩, fun h => pref_completes (speculateAt_faults h), fun u => rfl,
    fun h => pref_completes (speculateAt_none h)⟩
  exact waits_acks_of (i := .rel) (body := fun s => .ok (releaseWaits s s.cur)) (by rfl) rfl rfl hk rfl

/-! ## Vector loads and stores (08 R221-R226) -/

/-- A vector load whose accesses pass their checks writes Vd. -/
theorem vectorLoad_of {s u : State} {ap : Bool} {m t lim : Nat} {addr : Nat → Word} {bs : List (List Byte)}
    (h : loadResult s ap (vloadList s m t lim addr) = some (u, bs)) (d : Nat) :
    vectorLoad s ap d m t lim addr = .ok (setVPart u d (vectorLoaded s u d m t lim bs) (loadedDwords u m t lim)) := loads_of h _

/-- A vector store of Vd's own tag, or of dwords, whose accesses pass their checks. -/
theorem vectorStore_of {s u : State} {ap : Bool} {d m t lim : Nat} {addr : Nat → Word} (ht : t = 0 ∨ (regV s d).tag = t)
    (h : storeResult s ap (vstoreList s d m t lim addr) = some u) : vectorStore s ap d m t lim addr = .ok u := by
  have ht' : ¬ ((t ≠ 0 && (regV s d).tag ≠ t) = true) := by simpa [or_iff_not_imp_left] using ht
  unfold vectorStore
  dsimp only
  rw [if_neg ht']
  exact stores_of h _

/-- Settles O28: each instruction is a load or store of its list of accesses. -/
theorem vectorMemory : Obligations.VectorMemory := by
  unfold Obligations.VectorMemory
  refine ⟨fun s u d a b m t bs => ⟨fun h => ?_, fun h => ?_, fun hb h => ?_, fun ht => ⟨fun h => ?_, fun h => ?_, fun hb h => ?_⟩⟩,
    fun s u v w d a m n bs cs ha => ⟨fun h => ?_, fun hd h => ?_, fun hd hm hc hk hr hb => ?_⟩⟩
  · exact completes_of (i := .vld d a m t) (by rfl) (vectorLoad_of h d)
  · exact completes_of (i := .vlds d a b m t) (by rfl) (vectorLoad_of h d)
  · refine completes_of (i := .vldi d a b m t) (by rfl) ?_
    rw [if_neg (not_not.2 hb)]
    exact vectorLoad_of h d
  · exact completes_of (i := .vst d a m t) (by rfl) (vectorStore_of ht h)
  · exact completes_of (i := .vsts d a b m t) (by rfl) (vectorStore_of ht h)
  · refine completes_of (i := .vsti d a b m t) (by rfl) ?_
    rw [if_neg (not_not.2 hb)]
    exact vectorStore_of ht h
  · refine completes_of (i := .vldp d a m n) (by rfl) ?_
    simp only [ha, Bool.not_true, Bool.false_eq_true, if_false, loads_of h]
    rfl
  · refine completes_of (i := .vstp d a 0) (by rfl) ?_
    simp only [ha, hd, ne_eq, not_true_eq_false, Bool.not_true, Bool.false_eq_true, if_false, if_true, List.map_map, Function.comp_def]
    exact stores_of h _
  · refine completes_of (i := .vstp d a m) (by rfl) ?_
    simp only [ha, hd, hm, ne_eq, not_true_eq_false, Bool.not_true, Bool.false_eq_true, if_false, List.map_map, Function.comp_def, hc, hk, hr, hb]

/-! ## Bitmaps and masks (08 R227-R232) -/

theorem popBelow_eq (x n : Nat) : popBelow x n = ((List.range n).filter (fun e => x.testBit e)).length := by
  induction n with
  | zero => rfl
  | succ n ih =>
    rw [popBelow, ih, List.range_succ, List.filter_append, List.length_append]
    cases h : x.testBit n <;> simp [h]

/-- Settles O29: each instruction's effect by its definition. -/
theorem sparseAndMasks : Obligations.SparseAndMasks := by
  unfold Obligations.SparseAndMasks
  intro s d a b m
  refine ⟨fun ht => ?_, fun ha => ⟨?_, fun hb => ⟨?_, ?_⟩⟩, ?_, ?_, ?_, ?_, ?_, fun hs hg => ?_⟩
  · refine completes_of (i := .vnzs d a m) (by rfl) ?_
    simp only [ht, Bool.not_true, Bool.false_eq_true, if_false]
    rfl
  · refine completes_of (i := .vpopp d a m) (by rfl) ?_
    rw [if_neg (not_not.2 ha)]
    rfl
  · refine completes_of (i := .vband d a b m) (by rfl) ?_
    rw [if_neg (not_not.2 ha), if_neg (not_not.2 hb)]
    rfl
  · refine completes_of (i := .visect d a b m) (by rfl) ?_
    rw [if_neg (not_not.2 ha), if_neg (not_not.2 hb)]
    rfl
  · exact completes_of (i := .vmovmMaskToVector d a) (by rfl) rfl
  · exact completes_of (i := .vmovmVectorToMask d a) (by rfl) rfl
  · exact completes_of (i := .mand d a b) (by rfl) rfl
  · exact completes_of (i := .mor d a b) (by rfl) rfl
  · exact completes_of (i := .mnot d a) (by rfl) rfl
  · have hp := popBelow_eq (regM s a).toNat 128
    refine completes_of (i := .mpop d a) (by rfl) ?_ (.inl rfl) hs ((goes_setA_iff s s d _).2 hg)
    rw [hp]
    rfl

end Sys2Proof.Machine

/-! PROOFS of the sends (02 R19, R37; 09 R235-R241; 04 R106). -/

namespace Sys2Proof.Machine

open Sys2Proof

/-! ## Destinations and messages -/

theorem ite_none_iff {α : Type} {c : Prop} [Decidable c] {o : Option α} : (if c then none else o) = none ↔ c ∨ o = none := by
  split
  · next h => simp [h]
  · next h => simp [h]

/-- A destination word that names no core. -/
theorem destCore_eq_none_iff {s : State} {w : Who} {x : Word} {len : Bool} : destCore s w x len = none ↔
    (fld x 13 3 ≠ 0 ∨ fld x 28 4 ≠ 0 ∨ fld x 45 19 ≠ 0 ∨ 23 < fld x 0 5 ∨ (len = true ∧ 4096 < fld x 32 13) ∨ (len = false ∧ fld x 32 13 ≠ 0) ∨
      inTorus s (corePkg w.core) (fld x 16 12) = false ∨
      (fld x 16 12 = corePkg w.core ∧ inCores s (fld x 16 12 * 8192 + fld x 0 13) w.job = false)) := by
  unfold destCore
  cases len <;>
    simp only [ite_none_iff, reduceCtorEq, or_false, or_assoc, Bool.or_eq_true, decide_eq_true_eq, Bool.and_eq_true, Bool.not_eq_true',
      Bool.false_eq_true, if_false, if_true, ne_eq, false_and, true_and, false_or, Bool.true_eq_false]

/-- What a message leaves of the state that it enters the network from. -/
theorem inject_gives (s : State) (c : Nat) (m : Msg) : (inject s c m).mem = s.mem ∧
    (inject s c m).net = s.net ++ (List.range (max 1 ((m.payload.length + 255) / 256))).map (fun i =>
      { src := c, num := (getCore s c).nextNum, ofs := 256 * i, size := min 256 (m.payload.length - 256 * i) }) ∧
    (getCore (inject s c m) c).nextNum = ((getCore s c).nextNum + 1) % 65536 := by
  refine ⟨rfl, rfl, ?_⟩
  simp [inject, getCore]

/-! ## What a send finds -/

/-- Without room in the injector a send waits, once its payload has passed its checks. -/
theorem sendTo_waits {s v : State} {p : Word} {n : Nat} {cs : List Chk} (hc : checkMany s (thr s) .read false [(p, n)] [] = (v, cs))
    (hk : chkRes v false cs = none) (hr : hasRoom v (cxCore v) = false) (k : State → List Byte → Res) :
    sendTo s p n k = .wait v (.injector (cxCore v)) := by
  unfold sendTo
  rw [checked_of hc hk, hr]
  rfl

section
variable {s u v : State} {a b r p h dst key : Nat} {cores : List Nat} {bs : List Byte} {cs : List Chk}

theorem sendBody_of (hd : destCore s (thr s) (regA s a) true = some dst) (hr : sendReady s (regA s b) (fld (regA s a) 32 13) = some (u, bs)) :
    sendBody a b p h s = .ok (inject u (cxCore u) (newMsg dst (cx u).job h (capped u p) (regA u (b + 1)) (regA u (b + 2)) bs 0)) := by
  simp only [sendBody, hd]
  exact sendTo_of hr _

theorem sendBody_waits (hd : destCore s (thr s) (regA s a) true = some dst)
    (hc : checkMany s (thr s) .read false [(regA s b, fld (regA s a) 32 13)] [] = (v, cs)) (hk : chkRes v false cs = none)
    (hr : hasRoom v (cxCore v) = false) : sendBody a b p h s = .wait v (.injector (cxCore v)) := by
  simp only [sendBody, hd]
  exact sendTo_waits hc hk hr _

theorem sendBody_bad (hd : destCore s (thr s) (regA s a) true = none) : sendBody a b p h s = .trap s cMsgDest 0 0 := by
  simp only [sendBody, hd]

/-- The effect of SENDI. -/
def sendiBody (a b p h : Nat) (s : State) : Res :=
  match destCore s (thr s) (regA s a) false with
  | none => .trap s cMsgDest 0 0
  | some dst =>
    if !hasRoom s (cxCore s) then .wait s (.injector (cxCore s))
    else .ok (inject (releaseWaits s s.cur) (cxCore (releaseWaits s s.cur)) (newMsg dst (cx (releaseWaits s s.cur)).job h
      (capped (releaseWaits s s.cur) p) (regA (releaseWaits s s.cur) b) (regA (releaseWaits s s.cur) (b + 1)) [] 0))

theorem exec_sendi : exec (.sendi a b p h) s = finish (.sendi a b p h) [rA a, rA b, rA (b + 1)] (sendiBody a b p h) s := rfl

theorem sendiBody_of (hd : destCore s (thr s) (regA s a) false = some dst) (hr : hasRoom s (cxCore s) = true) (hu : u = releaseWaits s s.cur) :
    sendiBody a b p h s = .ok (inject u (cxCore u) (newMsg dst (cx u).job h (capped u p) (regA u b) (regA u (b + 1)) [] 0)) := by
  unfold sendiBody
  rw [hd, hr, hu]
  rfl

theorem sendiBody_waits (hd : destCore s (thr s) (regA s a) false = some dst) (hr : hasRoom s (cxCore s) = false) :
    sendiBody a b p h s = .wait s (.injector (cxCore s)) := by
  unfold sendiBody
  rw [hd, hr]
  rfl

theorem sendiBody_bad (hd : destCore s (thr s) (regA s a) false = none) : sendiBody a b p h s = .trap s cMsgDest 0 0 := by
  unfold sendiBody
  rw [hd]

/-- The effect of SENDM: what its routing set is sent, or the reset of a group whose record fails. -/
def sendmSends (x : Word) (b r p h : Nat) (cores : List Nat) (s : State) (bs : List Byte) : State :=
  if r = 2 && groupFails s (fld x 0 16) then uncBump (resetGroup s (cxPkg s) (cx s).job (fld x 0 16)) (cxPkg s) 2
  else sendCopies (fun dst => newMsg dst (cx s).job h (capped s p) (regA s (b + 1)) (regA s (b + 2)) bs 0) (cores.filter (fun c => inCores s c (cx s).job)) s

def sendmBody (a b r p h : Nat) (s : State) : Res :=
  match routeSet s (cxPkg s) (cx s).job r (regA s a) with
  | none => .trap s cMsgDest 0 0
  | some cores => sendTo s (regA s b) (fld (regA s a) 32 13) (fun t bs => .ok (sendmSends (regA s a) b r p h cores t bs))

theorem exec_sendm : exec (.sendm a b r p h) s = finish (.sendm a b r p h) [rA a, rA b, rA (b + 1), rA (b + 2)] (sendmBody a b r p h) s := rfl

theorem sendmBody_of (hd : routeSet s (cxPkg s) (cx s).job r (regA s a) = some cores)
    (hr : sendReady s (regA s b) (fld (regA s a) 32 13) = some (u, bs)) :
    sendmBody a b r p h s = .ok (sendmSends (regA s a) b r p h cores u bs) := by
  unfold sendmBody
  rw [hd]
  exact sendTo_of hr _

theorem sendmBody_waits (hd : routeSet s (cxPkg s) (cx s).job r (regA s a) = some cores)
    (hc : checkMany s (thr s) .read false [(regA s b, fld (regA s a) 32 13)] [] = (v, cs)) (hk : chkRes v false cs = none)
    (hr : hasRoom v (cxCore v) = false) : sendmBody a b r p h s = .wait v (.injector (cxCore v)) := by
  unfold sendmBody
  rw [hd]
  exact sendTo_waits hc hk hr _

theorem sendmBody_bad (hd : routeSet s (cxPkg s) (cx s).job r (regA s a) = none) : sendmBody a b r p h s = .trap s cMsgDest 0 0 := by
  unfold sendmBody
  rw [hd]

theorem sendmSends_copies {x : Word} (h2 : r ≠ 2 ∨ groupFails u (fld x 0 16) = false) : sendmSends x b r p h cores u bs =
    sendCopies (fun dst => newMsg dst (cx u).job h (capped u p) (regA u (b + 1)) (regA u (b + 2)) bs 0) (cores.filter (fun c => inCores u c (cx u).job)) u := by
  refine if_neg fun hc => ?_
  obtain ⟨h1, hg⟩ := by simpa using hc
  obtain h2 | h2 := h2
  · exact h2 h1
  · rw [h2] at hg
    cases hg

theorem sendmSends_resets {x : Word} (h2 : r = 2) (hg : groupFails u (fld x 0 16) = true) : sendmSends x b r p h cores u bs =
    uncBump (resetGroup u (cxPkg u) (cx u).job (fld x 0 16)) (cxPkg u) 2 := if_pos (by simp [h2, hg])

theorem word_or_zero (x : Word) : x ||| 0 = x := BitVec.or_zero

theorem word_andNot_or (x m : Word) : (x &&& ~~~m) ||| m = x ||| m := by
  refine BitVec.eq_of_getLsbD_eq fun i hi => ?_
  simp only [BitVec.getLsbD_or, BitVec.getLsbD_and, BitVec.getLsbD_not, decide_eq_true hi, Bool.true_and]
  cases x.getLsbD i <;> cases m.getLsbD i <;> rfl

/-- The effect of XDSP on a block at its key, once its payload is read. -/
def xdspSends (e : Word) (b p h key : Nat) (t : State) (bs : List Byte) : Res :=
  let u := drainTo t t.cur (keyCore key)
  readable u key 32 e (
    let count := counterRead u key
    let accept := decide (count < counterRead u (key + 8))
    match destCore u (thr u) (noLen (counterRead u (if accept then key + 16 else key + 24))) false with
    | none => .trap u cMsgDest 0 0
    | some dst =>
      let v := if accept then memWrite u key (qword (count + 1)) else u
      .ok (inject v (cxCore v) (newMsg dst (cx v).job h (capped v p) (regA v (b + 1))
        ((regA v (b + 2) &&& ~~~(word (2 ^ 63))) ||| (if accept then 0 else word (2 ^ 63))) bs 0)))

def xdspBody (a b p h : Nat) (s : State) : Res :=
  (counterObj s (thr s) (regA s a) 32).get s (fun key =>
    if keyPkg key ≠ cxPkg s then .trap s cCounter (regA s a) 0
    else if 4096 < (regA s (a + 1)).toNat then .trap s cMsgDest 0 0
    else sendTo s (regA s b) (regA s (a + 1)).toNat (xdspSends (regA s a) b p h key))

theorem exec_xdsp : exec (.xdsp a b p h) s = finish (.xdsp a b p h) [rA a, rA (a + 1), rA b, rA (b + 1), rA (b + 2)] (xdspBody a b p h) s := rfl

section
variable (hk : counterObj s (thr s) (regA s a) 32 = .key key) (hp : keyPkg key = cxPkg s)
include hk hp

theorem xdspBody_long (hl : 4096 < (regA s (a + 1)).toNat) : xdspBody a b p h s = .trap s cMsgDest 0 0 := by
  simp only [xdspBody, hk, Place.get, hp, ne_eq, not_true_eq_false, if_false, hl, if_true]

theorem xdspBody_sends (hl : (regA s (a + 1)).toNat ≤ 4096) :
    xdspBody a b p h s = sendTo s (regA s b) (regA s (a + 1)).toNat (xdspSends (regA s a) b p h key) := by
  simp only [xdspBody, hk, Place.get, hp, ne_eq, not_true_eq_false, if_false, if_neg (Nat.not_lt.2 hl)]

end

section
variable {e : Word} (hu : u = drainTo v v.cur (keyCore key)) (hb : firstBad u key 32 = none)
include hu hb

/-- A block whose count is below its limit takes the message to DEST. -/
theorem xdspSends_accept (hc : counterRead u key < counterRead u (key + 8)) (hd : destCore u (thr u) (noLen (counterRead u (key + 16))) false = some dst) :
    xdspSends e b p h key v bs = .ok (inject (memWrite u key (qword (counterRead u key + 1))) (cxCore u)
      (newMsg dst (cx u).job h (capped u p) (regA u (b + 1)) (regA u (b + 2) &&& ~~~(word (2 ^ 63))) bs 0)) := by
  unfold xdspSends
  rw [← hu]
  dsimp only
  rw [readable_of hb]
  simp only [hc, decide_true, if_true, hd, word_or_zero]
  rfl

/-- One at its limit sends it to RESID, marked. -/
theorem xdspSends_resid (hc : counterRead u (key + 8) ≤ counterRead u key) (hd : destCore u (thr u) (noLen (counterRead u (key + 24))) false = some dst) :
    xdspSends e b p h key v bs =
      .ok (inject u (cxCore u) (newMsg dst (cx u).job h (capped u p) (regA u (b + 1)) (regA u (b + 2) ||| word (2 ^ 63)) bs 0)) := by
  have hn : decide (counterRead u key < counterRead u (key + 8)) = false := decide_eq_false (BitVec.not_lt.2 hc)
  unfold xdspSends
  rw [← hu]
  dsimp only
  rw [readable_of hb]
  simp only [hn, Bool.false_eq_true, if_false, hd, word_andNot_or]

theorem xdspSends_eq {x : Word} (hx : x = noLen (counterRead u (if counterRead u key < counterRead u (key + 8) then key + 16 else key + 24))) :
    (destCore u (thr u) x false = none → xdspSends e b p h key v bs = .trap u cMsgDest 0 0) ∧
    (destCore u (thr u) x false = some dst → ∃ t, xdspSends e b p h key v bs = .ok t) := by
  subst hx
  refine ⟨fun hd => ?_, fun hd => ?_⟩
  · unfold xdspSends
    rw [← hu]
    dsimp only
    rw [readable_of hb]
    simp only [decide_eq_true_eq, hd]
  · by_cases hc : counterRead u key < counterRead u (key + 8)
    · rw [if_pos hc] at hd
      exact ⟨_, xdspSends_accept hu hb hc hd⟩
    · rw [if_neg hc] at hd
      exact ⟨_, xdspSends_resid hu hb (BitVec.not_lt.1 hc) hd⟩

end

/-! ## SPAWN (02 R37; 09 R239) -/

def spawnBody (a b p h : Nat) (s : State) : Res :=
  if (getCore s (cxCore s)).spawn.isSome then .wait s (.spawner (cxCore s))
  else if !spawnRangeOk s (cxPkg s) (cx s).job (regA s a) (regA s (a + 1)) then .trap s cSpawn 0 0
  else counterAt s (regA s (b + 1)) (fun key =>
    if keyPkg key ≠ cxPkg s then .trap s cCounter (regA s (b + 1)) 0
    else if trigFull s key then .trap s cTrigger 0 0
    else
      let u := releaseWaits s s.cur
      let v := armTrig (counterSet u key 0) { key := key, target := word (spawnPoints s a), job := (cx u).job, act := .empty }
      if spawnPoints s a = 0 then .ok v else .ok (modCore v (cxCore s) (fun w => { w with spawn := some (spawnOf s v a b p h key) })))

theorem exec_spawn : exec (.spawn a b p h) s = finish (.spawn a b p h) [rA a, rA (a + 1), rA b, rA (b + 1)] (spawnBody a b p h) s := rfl

section
variable (hidle : (getCore s (cxCore s)).spawn = none) (hr : spawnRangeOk s (cxPkg s) (cx s).job (regA s a) (regA s (a + 1)) = true)
  (hk : counterObj s (thr s) (regA s (b + 1)) 8 = .key key)

theorem spawnBody_busy (hbusy : (getCore s (cxCore s)).spawn ≠ none) : spawnBody a b p h s = .wait s (.spawner (cxCore s)) :=
  if_pos (Option.isSome_iff_ne_none.2 hbusy)

include hidle

theorem spawnBody_range (hbad : spawnRangeOk s (cxPkg s) (cx s).job (regA s a) (regA s (a + 1)) = false) :
    spawnBody a b p h s = .trap s cSpawn 0 0 := by
  simp only [spawnBody, hidle, Option.isSome_none, Bool.false_eq_true, if_false, hbad, Bool.not_false, if_true]

include hr hk

theorem spawnBody_away (hp : keyPkg key ≠ cxPkg s) : spawnBody a b p h s = .trap s cCounter (regA s (b + 1)) 0 := by
  simp only [spawnBody, hidle, Option.isSome_none, Bool.false_eq_true, if_false, hr, Bool.not_true, counterAt_of hk, hp, ne_eq, not_false_eq_true, if_true]

theorem spawnBody_full (hp : keyPkg key = cxPkg s) (hf : trigFull s key = true) : spawnBody a b p h s = .trap s cTrigger 0 0 := by
  simp only [spawnBody, hidle, Option.isSome_none, Bool.false_eq_true, if_false, hr, Bool.not_true, counterAt_of hk, hp, ne_eq, not_true_eq_false, hf, if_true]

theorem spawnBody_of (hp : keyPkg key = cxPkg s) (hf : trigFull s key = false) (hu : u = releaseWaits s s.cur)
    (hv : v = armTrig (counterSet u key 0) { key := key, target := word (spawnPoints s a), job := (cx u).job, act := .empty }) :
    spawnBody a b p h s = .ok (if spawnPoints s a = 0 then v else modCore v (cxCore s) (fun w => { w with spawn := some (spawnOf s v a b p h key) })) := by
  subst hu hv
  simp only [spawnBody, hidle, Option.isSome_none, Bool.false_eq_true, if_false, hr, Bool.not_true, counterAt_of hk, hp, ne_eq, not_true_eq_false, hf]
  split <;> rfl

end

/-- One point of the sequencer. -/
theorem spawnSequencerSend_sends {c : Nat} {q : SpawnSeq} (hq : (getCore s c).spawn = some q) (hr : hasRoom s c = true)
    (hj : quietJob s (corePkg c) q.job = false) :
    exec (.spawnSequencerSend c) s = .next (modCore (inject s c (newMsg (corePkg c * 8192 + denseCore (q.c0 + q.next % q.count)) q.job q.handler q.prio q.arg0
        (word (q.next % q.n0 + q.next / q.n0 % q.n1 * 2 ^ 21 + q.next / (q.n0 * q.n1) * 2 ^ 42)) [] (q.ctr + 1))) c
      (fun w => { w with spawn := if q.next + 1 < q.n0 * q.n1 * q.n2 then some { q with next := q.next + 1 } else none })) := by
  change execSpawnSequencerSend c s = _
  simp only [execSpawnSequencerSend, hq, hr, hj, Bool.not_true, Bool.or_self, Bool.false_eq_true, if_false]
  rfl

end

/-- Settles O30: each send by what it finds, clause by clause. -/
theorem sends : Obligations.Sends := by
  unfold Obligations.Sends
  refine ⟨fun s u a b r p h dst key cores bs => ⟨fun hk hd hr => ?_, fun hk hd hr hu => ?_, fun hk hd hr => ⟨fun h2 => ?_, fun h2 hg => ?_⟩,
    fun hk hc hp hl v hr hu hb => ⟨fun hlt hd => ?_, fun hle hd => ?_⟩, fun v hk hr => ⟨fun hd => ?_, fun hd => ?_⟩,
    fun v cs hc hk hr => ⟨fun hd => ?_, fun hd => ?_⟩, fun hd => ⟨fun hr => ?_, fun hr hk => ?_⟩, fun hs => ⟨fun hd => ?_, fun hd => ?_⟩,
    fun hs hd => ?_, fun hs hc hp => ⟨fun hl => ?_, fun hl => ⟨fun v cs hm hk hr => ?_, fun v x hr hu hb hx => ⟨fun hd => ?_, fun hd hk => ?_⟩⟩⟩,
    fun w x len => destCore_eq_none_iff, fun c m => inject_gives s c m⟩,
    fun s c q hq hr hj => spawnSequencerSend_sends hq hr hj,
    fun s u v a b p h key hr hk hp hf hidle hack hu hv => ⟨fun h0 => ?_, fun h0 => ?_⟩,
    fun s a b p h key hs => ⟨fun hbusy => ?_, fun hidle => ⟨fun hr => ?_, fun hr hk => ⟨fun hp => ?_, fun hp => ⟨fun hf => ?_, fun hf hack => ?_⟩⟩⟩⟩⟩
  · exact completes_of (i := .send a b p h) (by rfl) (sendBody_of hd hr) (.inr hk)
  · exact completes_of exec_sendi (sendiBody_of hd hr hu) (.inr hk)
  · exact completes_of exec_sendm ((sendmBody_of hd hr).trans (congrArg _ (sendmSends_copies h2))) (.inr hk)
  · exact completes_of exec_sendm ((sendmBody_of hd hr).trans (congrArg _ (sendmSends_resets h2 hg))) (.inr hk)
  · exact completes_of exec_xdsp ((xdspBody_sends hc hp hl).trans ((sendTo_of hr _).trans (xdspSends_accept hu hb hlt hd))) (.inr hk)
  · exact completes_of exec_xdsp ((xdspBody_sends hc hp hl).trans ((sendTo_of hr _).trans (xdspSends_resid hu hb hle hd))) (.inr hk)
  · exact waits_acks_of (i := .send a b p h) (body := sendBody a b p h) rfl (sendBody_of hd hr) rfl hk rfl
  · exact waits_acks_of exec_sendm (sendmBody_of hd hr) rfl hk rfl
  · exact waits_of (i := .send a b p h) (body := sendBody a b p h) rfl (sendBody_waits hd hc hk hr)
  · exact waits_of exec_sendm (sendmBody_waits hd hc hk hr)
  · exact waits_of exec_sendi (sendiBody_waits hd hr)
  · exact waits_acks_of exec_sendi (sendiBody_of hd hr rfl) rfl hk rfl
  · exact answers_of (i := .send a b p h) (body := sendBody a b p h) hs rfl (sendBody_bad hd)
  · exact answers_of hs exec_sendm (sendmBody_bad hd)
  · exact answers_of hs exec_sendi (sendiBody_bad hd)
  · exact answers_of hs exec_xdsp (xdspBody_long hc hp hl)
  · exact waits_of exec_xdsp ((xdspBody_sends hc hp hl).trans (sendTo_waits hm hk hr _))
  · exact answers_of hs exec_xdsp ((xdspBody_sends hc hp hl).trans ((sendTo_of hr _).trans ((xdspSends_eq (dst := dst) hu hb hx).1 hd)))
  · obtain ⟨t, ht⟩ := (xdspSends_eq (e := regA s a) (b := b) (p := p) (h := h) (bs := bs) hu hb hx).2 hd
    exact waits_acks_of exec_xdsp ((xdspBody_sends hc hp hl).trans ((sendTo_of hr _).trans ht)) rfl hk rfl
  · exact completes_of exec_spawn ((spawnBody_of hidle hr hk hp hf hu hv).trans (congrArg _ (if_pos h0))) (.inr hack)
  · exact completes_of exec_spawn ((spawnBody_of hidle hr hk hp hf hu hv).trans (congrArg _ (if_neg h0))) (.inr hack)
  · exact waits_of exec_spawn (spawnBody_busy hbusy)
  · exact answers_of hs exec_spawn (spawnBody_range hidle hr)
  · exact answers_of hs exec_spawn (spawnBody_away hidle hr hk hp)
  · exact answers_of hs exec_spawn (spawnBody_full hidle hr hk hp hf)
  · exact waits_acks_of exec_spawn (spawnBody_of hidle hr hk hp hf rfl rfl) rfl hack rfl

end Sys2Proof.Machine

/-! PROOFS of how threads leave their contexts and are resumed (02 R25-R31; 09 R242-R244). -/

namespace Sys2Proof.Machine

open Sys2Proof

/-! ## Stores that reach their homes keep the contexts -/

theorem registerByte_kept (s : State) (c k : Nat) (b : Byte) : Kept s (registerByte s c k b) := by
  have h := modCore_kept s c (fun u => { u with l1 := kset u.l1 k b })
  exact ⟨h.ctxs, h.cur, h.full, h.cycle, h.seq, h.nextOp, h.net⟩

theorem registerBytes_kept (s : State) (c k : Nat) (bs : List Byte) : Kept s (registerBytes s c k bs) := by
  induction bs generalizing s k with
  | nil => exact .refl s
  | cons b bs ih => exact ((ite_kept (.refl s) (modCore_kept s c _)).trans (registerByte_kept _ c k b)).trans (ih _ _)

theorem performStore_kept (s : State) (p : PendingStore) : Kept s (performStore s p) := by
  unfold performStore
  refine ite_kept ?_ (ite_kept ⟨rfl, rfl, rfl, rfl, rfl, rfl, rfl⟩ (memWrite_kept s _ _))
  exact registerBytes_kept s _ _ _

theorem drainWith_kept (f : PendingStore → Bool) (s : State) : Kept s (drainWith f s) := by
  unfold drainWith
  refine ite_kept (.refl s) ?_
  generalize goSplit _ _ _ = p
  have h0 : Kept s { s with stores := p.2 } := ⟨rfl, rfl, rfl, rfl, rfl, rfl, rfl⟩
  exact h0.trans (foldl_kept performStore performStore_kept p.1 _)

theorem releaseWaits_kept (s : State) (c : Nat) : Kept s (releaseWaits s c) := drainWith_kept _ s

/-! ## Effects -/

/-- An instruction that leaves its context finds the address that its thread goes on at. -/
theorem withNext_of {s : State} (h : badTarget (nextPc s s) = false) (k : Ctx → Word → Res) :
    withNext s k = k (loopEnd (cx s) (cx s).pc ((cx s).pc + 4)).1 (nextPc s s) := by
  have hb : ¬ badTarget (nextPc s s) = true := by rw [h]; decide
  exact if_neg hb

theorem retireThread_dormant (s : State) (c : Nat) : (getCtx (retireThread s c) c).status = .dormant := by
  unfold retireThread dormant
  simp only [getCtx_modCtx]

section
variable {s u v : State} {a b d key : Nat} {addr x : Word}

/-- The frame that YIELD writes, as the effect of YIELD names it. -/
theorem yieldFrame_eq (s : State) : (if (frameBadOfs (loopEnd (cx s) (cx s).pc ((cx s).pc + 4)).1).isSome = true then cx (releaseWaits s s.cur)
    else (loopEnd (cx s) (cx s).pc ((cx s).pc + 4)).1) = yieldFrame s := by
  rw [(releaseWaits_kept s s.cur).cx]
  rfl

/-- How YIELD ends with its frame, in the state u: in the ready pool, at once without a frame's memory, or waiting or trapping. -/
def yieldEnds (s u : State) : Spill → Res
  | .none => .ok u
  | .held => .wait u (.migration (corePkg (cxCore s)) (loopEnd (cx s) (cx s).pc ((cx s).pc + 4)).1.job
      (jobD u (corePkg (cxCore s)) (loopEnd (cx s) (cx s).pc ((cx s).pc + 4)).1.job).ovfl.toNat)
  | .at addr => .left (dormant (poolPush u (coreGrove (cxCore s))
      { r := suspRec (loopEnd (cx s) (cx s).pc ((cx s).pc + 4)).1 (nextPc s s) addr, age := 0,
        handler := (loopEnd (cx s) (cx s).pc ((cx s).pc + 4)).1.handler }) u.cur)
  | .failed e a => .left (spillFault u (encode .yield) e a false 0)
  | .corrupt addr a => .left (spillFault u (encode .yield) cUncorrectable a true addr)

theorem yieldBody_of (hp : poolFull s (coreGrove (cxCore s)) = false) (hn : badTarget (nextPc s s) = false) {r : Spill}
    (hs : spill (releaseWaits s s.cur) (cxCore s) (yieldFrame s) = (u, r)) : yieldBody s = yieldEnds s u r := by
  unfold yieldBody
  dsimp only
  rw [hp, if_neg Bool.false_ne_true, withNext_of hn, yieldFrame_eq, hs]
  cases r <;> rfl

theorem yieldBody_waits (hp : poolFull s (coreGrove (cxCore s)) = true) : yieldBody s = .wait s (.pool (coreGrove (cxCore s))) := if_pos hp

/-- The parts of memory that SUSPEND stores: the first dword of the record, what is live, the rest, and the first dword again (09 R243). -/
theorem suspendBody_of {parts : List (Word × List Byte)} (ha : (regA s a).toNat % 64 = 0) (hm : fld (regA s b) 32 32 = 0)
    (hn : badTarget (nextPc s s) = false) (hb : regA s b = 0 ∨ (regA s 30).toNat % 256 = 0)
    (hv : regA s b = 0 ∨ (List.range 32).any (fun i => (regA s b).getLsbD i && regBad (cx s) (rV i)) = false)
    (hp : parts = if regA s b = 0 then [] else liveParts (releaseWaits s s.cur) (regA s b).toNat (regA s 30))
    (hs : storeResult (releaseWaits s s.cur) false
      ((regA s a, (recBytes (bareRec (cx (releaseWaits s s.cur)) (nextPc s s) (regA s 30) (regA s b != 0))).take 8) :: parts ++
        [(regA s a + 8, (recBytes (bareRec (cx (releaseWaits s s.cur)) (nextPc s s) (regA s 30) (regA s b != 0))).drop 8),
         (regA s a, (recBytes (bareRec (cx (releaseWaits s s.cur)) (nextPc s s) (regA s 30) (regA s b != 0))).take 8)]) = some u) :
    suspendBody a b s = .left (dormant (endHold (releaseWaits u u.cur) (thr (releaseWaits u u.cur))
      (loopEnd (cx s) (cx s).pc ((cx s).pc + 4)).1.hold) (releaseWaits u u.cur).cur) := by
  subst hp
  simp only [suspendBody, ha, hm, ne_eq, not_true_eq_false, if_false]
  rw [if_neg (by rcases hb with hb | hb <;> simp [hb]), if_neg (by rcases hv with hv | hv <;> simp [hv]), withNext_of hn]
  exact stores_of hs _

theorem resumeBody_start (ht : fld (regA s b) 13 51 = 0) (hg : fld (regA s b) 0 5 ≤ 23)
    (hc : inCores s (cxPkg s * 8192 + fld (regA s b) 0 13) (cx s).job = true) (hr : RecordHere s (regA s a) .both key u)
    (hv : v = dropL1 u (cxCore s) key 64) : resumeBody d a b s =
      if bfld (homeRead u key 64) 0 8 = 0 then .ok (setA v d 0)
      else if (recOf (homeRead u key 64)).job ≠ (cx v).job then .trap v cRecord 0 0
      else holdAt v (regA s a) key (recOf (homeRead u key 64)) (fun w hold =>
        if poolFull w (coreGrove (cxPkg s * 8192 + fld (regA s b) 0 13)) then .wait w (.pool (coreGrove (cxPkg s * 8192 + fld (regA s b) 0 13)))
        else .ok (setA (poolPush (recordTaken w (cxPkg s) (cx v).job (regA s a) key hold) (coreGrove (cxPkg s * 8192 + fld (regA s b) 0 13))
          { r := recOf (homeRead u key 64), age := 0, handler := carriedOf w (cxPkg s) (cx v).job (regA s a) }) d 1)) := by
  subst hv
  have h0 : ¬ ((fld (regA s b) 13 51 ≠ 0 || 23 < fld (regA s b) 0 5 ||
      !inCores s (corePkg (cxCore s) * 8192 + fld (regA s b) 0 13) (cx s).job) = true) := by
    rw [show corePkg (cxCore s) = cxPkg s from rfl, hc, ht]
    simpa using hg
  simp only [resumeBody]
  rw [if_neg h0, recordAt_of hr]
  rfl

/-- What RESUME reads of HOLD before it takes the record. -/
theorem holdAt_of {w v : State} {r : Rec} {hold : Option Word} (h : HoldHere w addr key r v hold) (k : State → Option Word → Res) :
    holdAt w addr key r k = k v hold := by
  unfold holdAt
  rcases h with ⟨h1, rfl, rfl⟩ | ⟨h1, h2, y, h3, h4, rfl, rfl⟩
  · refine if_pos ?_
    rcases h1 with h1 | h1 <;> simp [h1]
  · rw [if_neg (by simp [h1, Option.isSome_iff_ne_none.1 h2]), h3]
    exact readable_of h4

end

/-- Settles O31: each effect is that of its own lemma above. -/
theorem threadsLeave : Obligations.ThreadsLeave := by
  unfold Obligations.ThreadsLeave
  intro s u w a b d key addr
  refine ⟨fun hu => ⟨?_, retireThread_dormant s s.cur⟩, ?_, fun hp hn hu => ⟨fun hs => ?_, fun hs => ?_, fun x hs => ?_⟩,
    fun hp => ?_, fun r ha hm hn hg hu hr => ⟨fun hb hs => ?_, fun hb h30 hv hs => ?_⟩, fun ht hg hc hr hw => ⟨fun h0 => ?_, fun h0 hj v hold hh => ⟨fun hp => ?_, fun hp => ?_⟩⟩⟩
  · exact answers_of (i := .endThread) (sourcesNone_of s) (by rfl) rfl
  · exact completes_of (i := .hbeat) (by rfl) rfl
  · exact answers_of (i := .yield) (sourcesNone_of s) rfl (yieldBody_of hp hn hs)
  · exact completes_of (i := .yield) rfl (yieldBody_of hp hn hs)
  · exact answers_of (i := .yield) (sourcesNone_of s) rfl (yieldBody_of hp hn hs)
  · exact waits_of (i := .yield) rfl (yieldBody_waits hp)
  · subst hr
    exact answers_of (i := .suspend a b) hg rfl (suspendBody_of (parts := []) ha hm hn (.inl hb) (.inl hb) (if_pos hb).symm hs)
  · subst hr
    exact answers_of (i := .suspend a b) hg rfl
      (suspendBody_of ha hm hn (.inr h30) (.inr hv) (if_neg hb).symm hs)
  · refine completes_of (i := .resume d a b) rfl ((resumeBody_start ht hg hc hr hw).trans (if_pos h0))
  all_goals
    have he := (resumeBody_start (d := d) ht hg hc hr hw).trans ((if_neg h0).trans ((if_neg (not_not_intro hj)).trans (holdAt_of hh _)))
  · exact waits_of (i := .resume d a b) rfl (he.trans (if_pos hp))
  · exact completes_of (i := .resume d a b) rfl (he.trans (if_neg (by rw [hp]; decide)))

end Sys2Proof.Machine

/-! PROOFS of fork, join and the deques, and of counters and their triggers (02 R40-R44, R54-R56; 09 R245, R246, R255, R256). -/

namespace Sys2Proof.Machine

open Sys2Proof

/-! ## The value of a counter -/

theorem leBytes_length (n v : Nat) : (leBytes n v).length = n := by
  induction n generalizing v with
  | zero => rfl
  | succ n ih => simp [leBytes, ih]

theorem leNat_leBytes (n v : Nat) : leNat (leBytes n v) = v % 256 ^ n := by
  induction n generalizing v with
  | zero => simp [leBytes, leNat, Nat.mod_one]
  | succ n ih =>
    have h : v % 256 ^ (n + 1) = v % 256 + 256 * (v / 256 % 256 ^ n) := by rw [pow_succ' 256 n, Nat.mod_mul]
    rw [leBytes, leNat, ih, BitVec.toNat_ofNat, h]

/-- Cells that hold the bytes of a list one after another read as that list. -/
theorem cellsRead_eq_of {m : List Host.Cell} {k : Nat} {bs : List Byte} (h : ∀ i, i < bs.length → cellRead m (k + i) = bs.getD i 0) :
    cellsRead m k bs.length = bs := by
  induction bs generalizing k with
  | nil => rfl
  | cons b bs ih =>
    have h0 := h 0 (by simp)
    have hs := ih (k := k + 1) fun i hi => by
      have := h (i + 1) (by simpa using hi)
      simpa [Nat.add_assoc, Nat.add_comm 1 i] using this
    simp only [List.length_cons, cellsRead, hs]
    congr 1

theorem cellsRead_cellsWrite (m : List Host.Cell) (k : Nat) (bs : List Byte) : cellsRead (cellsWrite m k bs) k bs.length = bs :=
  cellsRead_eq_of fun i hi => by
    rw [cellRead_cellsWrite, if_pos ⟨by omega, by omega⟩, Nat.add_sub_cancel_left]

/-- A counter reads as what was written there last. -/
theorem counterRead_of_mem {s t : State} {key : Nat} {v : Word} (h : t.mem = (memWrite s key (leBytes 8 v.toNat)).mem) : counterRead t key = v := by
  have hr : cellsRead t.mem key 8 = leBytes 8 v.toNat := by
    have := cellsRead_cellsWrite s.mem key (leBytes 8 v.toNat)
    rw [leBytes_length] at this
    rw [h]
    exact this
  unfold counterRead
  rw [hr, leNat_leBytes, Nat.mod_eq_of_lt (by have := v.isLt; omega)]
  exact BitVec.eq_of_toNat_eq (by rw [BitVec.toNat_ofNat, Nat.mod_eq_of_lt v.isLt])

/-! ## The ready pool -/

/-- Every core keeps its triggers and what is parked there. -/
def KeptParks (s t : State) : Prop := ∀ c, (getCore t c).trigs = (getCore s c).trigs ∧ (getCore t c).park = (getCore s c).park

theorem KeptParks.of_cores {s t : State} (h : t.cores = s.cores) : KeptParks s t := fun c => by
  unfold getCore
  rw [h]
  exact ⟨rfl, rfl⟩

theorem KeptParks.trans {s t u : State} (h : KeptParks s t) (g : KeptParks t u) : KeptParks s u := fun c =>
  ⟨(g c).1.trans (h c).1, (g c).2.trans (h c).2⟩

theorem modCore_keptParks (s : State) (c : Nat) {f : Core → Core} (h : ∀ u, (f u).trigs = u.trigs ∧ (f u).park = u.park) :
    KeptParks s (modCore s c f) := fun d => by
  by_cases hd : d = c
  · subst hd
    rw [getCore_modCore]
    exact h _
  · rw [getCore_modCore_other s f hd]
    exact ⟨rfl, rfl⟩

theorem modGrove_keptParks (s : State) (g : Nat) (f : Grove → Grove) : KeptParks s (modGrove s g f) := .of_cores rfl

theorem mend_cores (s : State) (k n : Nat) : (mend s k n).cores = s.cores := by
  unfold mend
  split <;> rfl

theorem unownBytes_keptParks (n : Nat) (s : State) (k : Nat) : KeptParks s (unownBytes n s k) := by
  induction n generalizing s k with
  | zero => exact .of_cores rfl
  | succ n ih =>
    refine .trans ?_ (ih _ _)
    unfold unownByte
    split
    · next c _ =>
      exact (modCore_keptParks (memWrite s k [coherentByte s k]) c (f := fun u => { u with l1 := kdel u.l1 k }) fun _ => ⟨rfl, rfl⟩ :)
    · exact .of_cores rfl

theorem homeWrite_keptParks (s : State) (k : Nat) (bs : List Byte) : KeptParks s (homeWrite s k bs) := by
  unfold homeWrite
  split
  · exact .of_cores rfl
  · exact (unownBytes_keptParks _ s k).trans (.of_cores rfl)

theorem ringPush_keptParks (s : State) (g : Nat) (q : QRec) : KeptParks s (ringPush s g q) := by
  unfold ringPush
  dsimp only
  split
  · exact .of_cores rfl
  · exact ((homeWrite_keptParks s _ _).trans (.of_cores (mend_cores _ _ _))).trans (modGrove_keptParks _ _ _)

theorem poolPush_keptParks (s : State) (g : Nat) (q : QRec) : KeptParks s (poolPush s g q) := by
  unfold poolPush
  dsimp only
  refine .trans ?_ (.of_cores rfl)
  split
  · exact .of_cores rfl
  · split
    · exact ringPush_keptParks s g q
    · exact .of_cores rfl

theorem poolPushes_keptParks (g : Nat) (l : List Parked) (s : State) : KeptParks s (l.foldl (fun t p => poolPush t g p.qrec) s) := by
  induction l generalizing s with
  | nil => exact .of_cores rfl
  | cons p l ih => exact (poolPush_keptParks s g p.qrec).trans (ih _)

/-- With room in the pool's own part a record is its last entry, and no memory is written. -/
theorem poolPush_of_room {s : State} {g : Nat} (hr : (getGrove s g).ring = []) (hl : (getGrove s g).pool.length < 512) (q : QRec) :
    poolPush s g q = eventsWhere (modGrove s g (fun u => { u with pool := u.pool ++ [q] })) (fun c => coreGrove c == g) := by
  unfold poolPush
  dsimp only
  rw [if_pos (by simp [hr, hl])]

theorem getGrove_poolPush_of_room {s : State} {g : Nat} (hr : (getGrove s g).ring = []) (hl : (getGrove s g).pool.length < 512) (q : QRec) :
    getGrove (poolPush s g q) g = { getGrove s g with pool := (getGrove s g).pool ++ [q] } := by
  rw [poolPush_of_room hr hl]
  exact getGrove_modGrove s g (fun u => { u with pool := u.pool ++ [q] })

/-- Records that all find room in the pool's own part stand there in their order. -/
theorem poolPushes_of_room {g : Nat} (l : List Parked) {s : State} (hr : (getGrove s g).ring = [])
    (hl : (getGrove s g).pool.length + l.length ≤ 512) :
    (l.foldl (fun t p => poolPush t g p.qrec) s).mem = s.mem ∧
      (getGrove (l.foldl (fun t p => poolPush t g p.qrec) s) g).pool = (getGrove s g).pool ++ l.map (fun p => p.qrec) := by
  induction l generalizing s with
  | nil => simp
  | cons p l ih =>
    rw [List.length_cons] at hl
    have hg := getGrove_poolPush_of_room hr (by omega) p.qrec
    obtain ⟨hm, hp⟩ := ih (s := poolPush s g p.qrec) (by rw [hg]; exact hr) (by rw [hg, List.length_append]; simp; omega)
    refine ⟨hm.trans ?_, hp.trans ?_⟩
    · rw [poolPush_of_room hr (by omega)]
      rfl
    · rw [hg]
      simp

/-- The release of parked records changes the parking place alone of what its core keeps of counters. -/
theorem getCore_wake (s : State) (c : Nat) (f : Obj → Bool) : (getCore (wake s c f) c).trigs = (getCore s c).trigs ∧
    (getCore (wake s c f) c).park = (getCore s c).park.filter (fun p => !f p.obj) := by
  unfold wake
  dsimp only
  split
  · next h =>
    have h0 : ∀ p ∈ (getCore s c).park, ¬ f p.obj = true := List.filter_eq_nil_iff.1 (List.isEmpty_iff.1 h)
    rw [List.filter_eq_self.2 fun p hp => by simp [h0 p hp]]
    exact ⟨rfl, rfl⟩
  · obtain ⟨ht, hp⟩ := poolPushes_keptParks (coreGrove c) ((getCore s c).park.filter (fun p => f p.obj))
      (modCore s c (fun u => { u with park := u.park.filter (fun p => !f p.obj) })) c
    rw [ht, hp, getCore_modCore]
    exact ⟨rfl, rfl⟩

/-! ## An update of a counter -/

section
variable (s : State) (key : Nat) (v : Word)

/-- The state in which an update has its value and its event, and has released nothing yet. -/
def valueSet (s : State) (key : Nat) (v : Word) : State :=
  eventsWhere (mend (memWrite s key (leBytes 8 v.toNat)) key 8) (fun c => c == keyCore key)

theorem updated_eq : updated s key v = wake (valueSet s key v) (keyCore key) (fun o => o == .counter key) := rfl

theorem valueSet_cores : (valueSet s key v).cores = s.cores := by
  unfold valueSet mend
  split <;> rfl

theorem valueSet_groves : (valueSet s key v).groves = s.groves := by
  unfold valueSet mend
  split <;> rfl

theorem valueSet_mem : (valueSet s key v).mem = (memWrite s key (leBytes 8 v.toNat)).mem := mend_mem _ _ _

theorem getCore_valueSet (c : Nat) : getCore (valueSet s key v) c = getCore s c := by
  unfold getCore
  rw [valueSet_cores]

theorem getGrove_valueSet (g : Nat) : getGrove (valueSet s key v) g = getGrove s g := by
  unfold getGrove
  rw [valueSet_groves]

theorem getCore_updated : (getCore (updated s key v) (keyCore key)).trigs = (getCore s (keyCore key)).trigs ∧
    (getCore (updated s key v) (keyCore key)).park = (getCore s (keyCore key)).park.filter (fun p => !(p.obj == .counter key)) := by
  rw [updated_eq]
  obtain ⟨ht, hp⟩ := getCore_wake (valueSet s key v) (keyCore key) (fun o => o == .counter key)
  rw [ht, hp, getCore_valueSet]
  exact ⟨rfl, rfl⟩

theorem trigsOn_updated : trigsOn (updated s key v) key = trigsOn s key := by
  unfold trigsOn
  rw [(getCore_updated s key v).1]

theorem parkedOn_updated : parkedOn (updated s key v) key = [] := by
  unfold parkedOn
  rw [(getCore_updated s key v).2]
  simp

theorem trigsOn_disarmed : trigsOn (disarmed s key) key = [] := by
  simp [trigsOn, disarmed]

theorem find_trig_eq : (getCore s (keyCore key)).trigs.find? (fun t => t.key == key) = (trigsOn s key).head? := (List.head?_filter ..).symm

theorem trigTest_of_none (h : (trigsOn s key).head? = none) : trigTest s key = s := by
  unfold trigTest
  dsimp only
  rw [find_trig_eq, h]

theorem trigTest_of_some {t : Trig} (h : (trigsOn s key).head? = some t) :
    trigTest s key = if t.target ≤ counterRead s key then fire (disarmed s key) (keyCore key) t else s := by
  unfold trigTest
  dsimp only
  rw [find_trig_eq, h]
  rfl

theorem counterSet_eq : counterSet s key v = trigTest (updated s key v) key := rfl

variable {s key v}

theorem updated_of_room (hr : (getGrove s (coreGrove (keyCore key))).ring = [])
    (hl : (getGrove s (coreGrove (keyCore key))).pool.length + (parkedOn s key).length ≤ 512) :
    (updated s key v).mem = (memWrite s key (leBytes 8 v.toNat)).mem ∧
      (getGrove (updated s key v) (coreGrove (keyCore key))).pool =
        (getGrove s (coreGrove (keyCore key))).pool ++ (parkedOn s key).map (fun p => p.qrec) := by
  have hw : updated s key v = valueSet s key v ∧ parkedOn s key = [] ∨
      updated s key v = (parkedOn s key).foldl (fun t p => poolPush t (coreGrove (keyCore key)) p.qrec)
        (modCore (valueSet s key v) (keyCore key) (fun u => { u with park := u.park.filter (fun p => !(p.obj == .counter key)) })) := by
    rw [updated_eq]
    unfold wake
    rw [getCore_valueSet]
    by_cases h : (parkedOn s key).isEmpty = true
    · exact .inl ⟨if_pos h, List.isEmpty_iff.1 h⟩
    · exact .inr (if_neg h)
  rcases hw with ⟨hw, hp⟩ | hw
  · rw [hw, hp, valueSet_mem, getGrove_valueSet]
    simp
  · have hg : getGrove (modCore (valueSet s key v) (keyCore key) (fun u => { u with park := u.park.filter (fun p => !(p.obj == .counter key)) }))
        (coreGrove (keyCore key)) = getGrove s (coreGrove (keyCore key)) := getGrove_valueSet s key v _
    obtain ⟨hm, hq⟩ := poolPushes_of_room (parkedOn s key) (s := modCore (valueSet s key v) (keyCore key)
      (fun u => { u with park := u.park.filter (fun p => !(p.obj == .counter key)) })) (by rw [hg]; exact hr) (by rw [hg]; exact hl)
    rw [hw, hm, hq, hg]
    exact ⟨valueSet_mem s key v, rfl⟩

end


/-! ## Fork, join and the deques -/

/-- The effect of JOIN. -/
def joinBody (a : Nat) (s : State) : Res :=
  counterAt s (regA s a) (fun key => readable s key 8 (regA s a) (
    if counterRead (releaseWaits s s.cur) key = 0 then .trap (releaseWaits s s.cur) cJoin 0 0
    else if counterRead (releaseWaits s s.cur) key = 1 then
      .ok (acquire (counterSet (releaseWaits s s.cur) key (counterRead (releaseWaits s s.cur) key - 1))
        (cxCore (counterSet (releaseWaits s s.cur) key (counterRead (releaseWaits s s.cur) key - 1))))
    else .left (retireThread (counterSet (releaseWaits s s.cur) key (counterRead (releaseWaits s s.cur) key - 1))
      (counterSet (releaseWaits s s.cur) key (counterRead (releaseWaits s s.cur) key - 1)).cur)))

theorem exec_join (s : State) (a : Nat) : exec (.join a) s = finish (.join a) [rA a] (joinBody a) s := rfl

theorem joinBody_of {s : State} {a key : Nat} (hk : counterObj s (thr s) (regA s a) 8 = .key key) (hb : firstBad s key 8 = none) : joinBody a s =
    if counterRead (releaseWaits s s.cur) key = 0 then .trap (releaseWaits s s.cur) cJoin 0 0
    else if counterRead (releaseWaits s s.cur) key = 1 then
      .ok (acquire (counterSet (releaseWaits s s.cur) key (counterRead (releaseWaits s s.cur) key - 1))
        (cxCore (counterSet (releaseWaits s s.cur) key (counterRead (releaseWaits s s.cur) key - 1))))
    else .left (retireThread (counterSet (releaseWaits s s.cur) key (counterRead (releaseWaits s s.cur) key - 1))
      (counterSet (releaseWaits s s.cur) key (counterRead (releaseWaits s s.cur) key - 1)).cur) := by
  unfold joinBody
  rw [counterAt_of hk, readable_of hb]

/-- Settles O32: each effect with the counter, the deque and the memory that its hypotheses give. -/
theorem forkJoin : Obligations.ForkJoin := by
  unfold Obligations.ForkJoin
  intro s u a b d key bs q rest
  refine ⟨fun hu hn ha hk hb hp hr => ?_, fun hk hb hu hr => ⟨fun h1 => ?_, fun h0 h1 hg => ?_, fun h0 hg => ?_⟩,
    fun ha hl hj hp => ?_, fun ha hd hs => ?_, fun cs ha hd hc hk => ?_, fun c => ⟨fun h => if_pos h, fun h => ⟨if_neg (by omega), fun hr hl => ?_⟩⟩⟩
  · subst hr
    refine completes_of (i := .fork a b) (by rfl) ?_
    simp only [hn, ha]
    simp only [ne_eq, not_true_eq_false, decide_false, Bool.or_false, Bool.false_eq_true, if_false]
    rw [counterAt_of hk, readable_of hb, if_neg (by rw [hp]; decide)]
    rfl
  · subst hr
    have hj := joinBody_of (s := s) (a := a) hk hb
    exact completes_of (exec_join s a) (hj.trans ((if_neg (by rw [h1]; decide)).trans (if_pos h1)))
  · subst hr
    have hj := joinBody_of (s := s) (a := a) hk hb
    exact answers_of hg (exec_join s a) (hj.trans ((if_neg h0).trans (if_neg h1)))
  · subst hr
    have hj := joinBody_of (s := s) (a := a) hk hb
    exact answers_of hg (exec_join s a) (hj.trans (if_pos h0))
  · refine completes_of (i := .dqpush d a) (by rfl) ?_
    simp only [ha, ne_eq, not_true_eq_false, if_false, load1]
    rw [loads_of hl, List.headD_cons, if_neg (not_not_intro hj), if_neg (by rw [hp]; decide)]
    by_cases h : (getCore u (cxCore s)).deque.length < 64
    · simp only [dequePush, if_pos h, if_true]
      rfl
    · simp only [dequePush, if_neg h, Bool.false_eq_true, if_false]
      rfl
  · refine completes_of (i := .dqpop d a) (by rfl) ?_
    simp only [ha, ne_eq, not_true_eq_false, if_false, hd, store1]
    exact stores_of hs _
  · refine completes_of (i := .dqpop d a) (by rfl) ?_
    simp only [ha, ne_eq, not_true_eq_false, if_false, hd]
    exact checked_of hc hk _
  · rw [getGrove_poolPush_of_room hr hl]

/-! ## Counters -/

section
variable {s u : State} {a b d key : Nat}

theorem addCounter_of (h : CounterHere s (regA s a) key u) :
    addCounter d a b s = .ok (setA (counterSet u key (counterRead u key + regA u b)) d (counterRead u key)) := by
  unfold addCounter
  rw [atCounter_of h, readable_of h.2.2]

/-- The effect of CNTW. -/
def cntwBody (d a b : Nat) (s : State) : Res :=
  atCounter s (regA s a) (fun s key => readable s key 8 (regA s a) (
    if regA s b ≤ counterRead s key then .ok (setA (acquire s (cxCore s)) d (counterRead s key)) else .wait s (.counter key)))

theorem exec_cntw : exec (.cntw d a b) s = finish (.cntw d a b) [rA a, rA b] (cntwBody d a b) s := rfl

theorem cntwBody_of (h : CounterHere s (regA s a) key u) : cntwBody d a b s =
    if regA u b ≤ counterRead u key then .ok (setA (acquire u (cxCore u)) d (counterRead u key)) else .wait u (.counter key) := by
  unfold cntwBody
  rw [atCounter_of h, readable_of h.2.2]

theorem cntt_completes {act : TrigAct} (hk : counterObj s (thr s) (regA s a) 8 = .key key)
    (ha : trigAction s key (regA s d) (regA s (d + 1)) (regA s (d + 2)) = some act) (hf : trigFull s key = false)
    (hb : firstBad s key 8 = none) (hu : unacked s s.cur = none) :
    Completes (.cntt d a b) [rA a, rA b, rA d, rA (d + 1), rA (d + 2)] s
      (armTrig (releaseWaits s s.cur) { key := key, target := regA s b, job := (cx s).job, act := act }) := by
  refine completes_of (i := .cntt d a b) (by rfl) ?_
  rw [counterAt_of hk, ha]
  dsimp only
  rw [if_neg (by rw [hf]; decide), readable_of hb]

end

theorem armTrig_eq (s : State) (t : Trig) : armTrig s t = trigTest (armed s t) t.key := rfl

theorem trigsOn_armed (s : State) (t : Trig) : trigsOn (armed s t) t.key = [t] := by
  simp only [trigsOn, armed, getCore_modCore, List.filter_append, List.filter_filter]
  simp

/-- A counter with no trigger and nothing parked, in a machine without failed units, changes its own bytes alone. -/
theorem counterSet_plain {s : State} {key : Nat} (v : Word) (ht : (getCore s (keyCore key)).trigs = [])
    (hp : (getCore s (keyCore key)).park = []) :
    (counterSet s key v).mem = (memWrite s key (leBytes 8 v.toNat)).mem := by
  have hw : updated s key v = valueSet s key v := by
    rw [updated_eq]
    unfold wake
    rw [getCore_valueSet, hp]
    rfl
  have hn : trigsOn (updated s key v) key = [] := by
    rw [trigsOn_updated]
    simp [trigsOn, ht]
  rw [counterSet_eq, trigTest_of_none _ _ (by rw [hn]; rfl), hw, valueSet_mem]

/-- Settles O33: an update is its value and its releases, and then the test of its trigger. -/
theorem counters : Obligations.Counters := by
  unfold Obligations.Counters
  intro s u a b d key act
  refine ⟨fun hk hu => ?_, fun h => ⟨?_, fun hle => ?_, fun hlt => ?_⟩, fun hu h => ?_, fun hk ha hf hb hu => cntt_completes hk ha hf hb hu,
    fun v w g hw hg => ?_, fun t => ?_, fun core t => ⟨fun h => ?_, fun dst handler prio a0 a1 h => ?_, fun ctl pa pb h => ?_⟩, fun v ht hp _ => ?_⟩
  · subst hu
    refine completes_of (i := .cnti a b) (by rfl) ?_
    unfold atCounter
    rw [counterAt_of hk]
  · exact completes_of (i := .cnta d a b) (by rfl) (addCounter_of h)
  · exact completes_of exec_cntw ((cntwBody_of h).trans (if_pos (by rwa [BitVec.le_def])))
  · exact waits_of exec_cntw ((cntwBody_of h).trans (if_neg (by rw [BitVec.le_def]; omega)))
  · have hb := addCounter_of (d := d) (b := b) h
    exact completes_of (i := .cntaRel d a b) (body := fun s => addCounter d a b (releaseWaits s s.cur)) rfl hb
  · subst hw hg
    refine ⟨fun h => ?_, fun t h => ?_, trigsOn_updated s key v, trigsOn_disarmed _ key, parkedOn_updated s key v, fun hr hl => ?_⟩
    · exact trigTest_of_none (updated s key v) key (by rw [trigsOn_updated]; exact h)
    · rw [counterSet_eq, trigTest_of_some (updated s key v) key (by rw [trigsOn_updated]; exact h)]
      exact ⟨fun hle => if_pos hle, fun hlt => if_neg (BitVec.not_le.2 hlt)⟩
    · obtain ⟨hm, hq⟩ := updated_of_room (v := v) hr hl
      exact ⟨counterRead_of_mem hm, hq⟩
  · rw [armTrig_eq, trigTest_of_some (t := t) _ _ (by rw [trigsOn_armed]; rfl)]
    exact ⟨fun hle => if_pos hle, fun hlt => if_neg (BitVec.not_le.2 hlt), trigsOn_armed s t, trigsOn_disarmed _ t.key⟩
  · simp only [fire, h]
  · simp only [fire, h]
  · simp only [fire, h]
  · have hm := counterSet_plain v ht hp
    refine ⟨hm, counterRead_of_mem hm, fun k hk => ?_⟩
    rw [hm]
    refine (cellRead_cellsWrite s.mem key _ k).trans (if_neg ?_)
    rw [leBytes_length]
    omega

end Sys2Proof.Machine

/-! PROOFS of rings and groups (02 R20; 09 R249, R250, R257, R258). -/

namespace Sys2Proof.Machine

open Sys2Proof

/-! ## Rings -/

section
variable {s u : State} {a b d i x : Nat} {r : Ring}

/-- Slot states that can be read let the instruction go on. -/
theorem statesGood_of {va : Word} {l : List Nat} (h : l.findSome? (fun j => firstBad s (r.stateKey j) 2) = none) (k : Res) :
    statesGood s r va l k = k := by
  unfold statesGood
  rw [h]

/-- A list of slots that begins with i finds no bad state there, or that of slot i first. -/
theorem findSome_first {f : Nat → Option Nat} {l : List Nat} : (i :: l).findSome? f = (f i).or (l.findSome? f) := by
  rw [List.findSome?_cons]
  cases f i <;> rfl

theorem findSome_one {f : Nat → Option Nat} : [i].findSome? f = f i := by
  rw [findSome_first]
  cases f i <;> rfl

theorem statesGood_one {va : Word} {l : List Nat} (h : (i :: l).findSome? (fun j => firstBad s (r.stateKey j) 2) = none) (k : Res) :
    statesGood s r va [i] k = k := by
  refine statesGood_of ?_ k
  rw [findSome_first, Option.or_eq_none_iff] at h
  rw [findSome_one]
  exact h.1

/-- The first bad state of a list traps, also when the first slot of the list is read before the others. -/
theorem statesGood_twice {va : Word} {l : List Nat} (h : (i :: l).findSome? (fun j => firstBad s (r.stateKey j) 2) = some x) (k : Res) :
    statesGood s r va [i] (statesGood s r va (i :: l) k) = .trap s cUncorrectable (va + word (x - r.key)) 0 := by
  have h1 : statesGood s r va (i :: l) k = .trap s cUncorrectable (va + word (x - r.key)) 0 := by
    unfold statesGood
    rw [h]
  rw [h1]
  rw [findSome_first] at h
  unfold statesGood
  rw [findSome_one]
  cases hi : firstBad s (r.stateKey i) 2 with
  | none => rfl
  | some y =>
    rw [hi] at h
    obtain rfl := Option.some.inj h
    rfl

end

/-- Settles O35: each effect on the ring that its address names; a bad position or slot state traps before anything changes. -/
theorem rings : Obligations.Rings := by
  unfold Obligations.Rings
  intro s u a b d i r h
  refine ⟨fun hs => ?_, fun hs => ?_, fun hi hr hb hu => ?_, fun hc hb => ⟨fun hp hf v hv => ?_, fun hp => ?_⟩, fun hc hi ht hb => ?_,
    fun x hc hb hs => ?_, fun x hi hr hb hs => ?_⟩
  · refine completes_of (i := .rget d a) (by rfl) ?_
    rw [atRing_of h]
    unfold ringGet
    rw [if_pos hs]
  · refine completes_of (i := .rget d a) (by rfl) ?_
    rw [atRing_of h]
    unfold ringGet
    rw [if_neg (by omega)]
  · refine completes_of (i := .rput a b) (by rfl) ?_
    rw [atRing_of h, hi]
    dsimp only
    rw [statesGood_one hb, if_pos hr, statesGood_of hb]
  · subst hv
    refine completes_of (i := .rtake d a b) (by rfl) ?_
    rw [atRing_of h]
    dsimp only
    rw [hc, readable_of hb, hf]
    simp only [Bool.not_true, Bool.false_eq_true, if_false, Bool.and_true]
    rw [if_pos (by simpa using hp)]
  · refine waits_of (i := .rtake d a b) (by rfl) ?_
    rw [atRing_of h]
    dsimp only
    rw [hc, readable_of hb]
    simp only [Bool.not_true, Bool.false_eq_true, if_false]
    rw [if_neg (by simp [BitVec.not_lt.2 hp])]
  · refine completes_of (i := .rfree d a b) (by rfl) ?_
    rw [atRing_of h]
    dsimp only
    rw [hc, hi]
    simp only [Bool.not_true, Bool.false_eq_true, if_false]
    rw [statesGood_one hb, ht, statesGood_of hb]
    rfl
  · refine answers_of (i := .rtake d a b) (r := .trap u cUncorrectable
      (regA u a + word (0x40 + 8 * (regA u b).toNat) + word (x - r.posKey (regA u b).toNat)) 0) hs (by rfl) ?_ rfl
    rw [atRing_of h]
    dsimp only
    rw [hc]
    simp only [Bool.not_true, Bool.false_eq_true, if_false]
    unfold readable
    rw [hb]
  · refine answers_of (i := .rput a b) (r := .trap u cUncorrectable (regA u a + word (x - r.key)) 0) hs (by rfl) ?_ rfl
    rw [atRing_of h, hi]
    dsimp only
    rw [if_pos hr]
    exact statesGood_twice hb _

/-! ## Groups -/

/-- The first place that the search leaves free lies after places that are all taken. -/
theorem lowestFree_some {f : Nat → Bool} {n i r : Nat} (h : lowestFree f n i = some r) : f r = false ∧ ∀ j, i ≤ j → j < r → f j = true := by
  induction n generalizing i with
  | zero => cases h
  | succ n ih =>
    unfold lowestFree at h
    split at h
    · next hi =>
      obtain ⟨hr, hj⟩ := ih h
      refine ⟨hr, fun j h1 h2 => ?_⟩
      rcases Nat.eq_or_lt_of_le h1 with rfl | h1
      · exact hi
      · exact hj j h1 h2
    · next hi =>
      obtain rfl := Option.some.inj h
      exact ⟨by simpa using hi, fun j h1 h2 => absurd h1 (by omega)⟩

theorem taken_of_lowestFree_none {f : Nat → Bool} {n i : Nat} (h : lowestFree f n i = none) : ∀ j, i ≤ j → j < i + n → f j = true := by
  induction n generalizing i with
  | zero => exact fun j h1 h2 => absurd h1 (by omega)
  | succ n ih =>
    unfold lowestFree at h
    split at h
    · next hi =>
      intro j h1 h2
      rcases Nat.eq_or_lt_of_le h1 with rfl | h1
      · exact hi
      · exact ih h j h1 (by omega)
    · cases h

/-- Fewer members than ranks leave a rank free, and the lowest free one is found. -/
theorem lowestFree_rank {n : Nat} (l : List Member) (h : l.length < n) :
    ∃ r, lowestFree (fun r => l.any (fun m => m.rank == r)) n 0 = some r ∧ (∀ x ∈ l, x.rank ≠ r) ∧ (∀ j, j < r → ∃ x ∈ l, x.rank = j) := by
  cases hf : lowestFree (fun r => l.any (fun m => m.rank == r)) n 0 with
  | none =>
    have hall := taken_of_lowestFree_none hf
    have hsub : Finset.range n ⊆ (l.map Member.rank).toFinset := fun j hj => by
      have := hall j (Nat.zero_le j) (by simpa using hj)
      simpa using this
    have hcard := (Finset.card_le_card hsub).trans (List.toFinset_card_le _)
    rw [Finset.card_range, List.length_map] at hcard
    omega
  | some r =>
    obtain ⟨h1, h2⟩ := lowestFree_some hf
    exact ⟨r, rfl, by simpa using h1, fun j hj => by simpa using h2 j (Nat.zero_le j) hj⟩

/-- Settles O36: joining, leaving and reading by what the group's slice holds, and the lowest rank by the search for it. -/
theorem groups : Obligations.Groups := by
  unfold Obligations.Groups
  rintro s u d b n pkg job core g m hg rfl rfl rfl rfl
  refine ⟨fun h hl => ?_, fun h hm hj => ?_, fun h hm => ?_, fun hu hr => ⟨fun h => ?_, fun h hm => ?_, fun h hm hj => ?_, fun h hm hj => ?_⟩,
    fun h hs hgo => ?_, fun h hm hs hgo => ?_, fun h hm hs hgo => ?_, fun l hl => ?_⟩
  · refine completes_of (i := .gjoin d b) (by rfl) ?_
    rw [groupNum_of hg]
    simp only [h]
    rw [if_neg (by omega)]
  · refine completes_of (i := .gjoin d b) (by rfl) ?_
    rw [groupNum_of hg]
    simp only [h, hm]
    rw [if_neg (by omega)]
    rfl
  · refine completes_of (i := .gjoin d b) (by rfl) ?_
    rw [groupNum_of hg]
    simp only [h, hm]
  · subst hr
    refine completes_of (i := .gleave d b) (by rfl) ?_
    rw [groupNum_of hg]
    simp only [h]
  · subst hr
    refine completes_of (i := .gleave d b) (by rfl) ?_
    rw [groupNum_of hg]
    simp only [h, hm]
  · subst hr
    refine completes_of (i := .gleave d b) (by rfl) ?_
    rw [groupNum_of hg]
    simp only [h, hm, if_pos hj]
    rfl
  · subst hr
    refine completes_of (i := .gleave d b) (by rfl) ?_
    rw [groupNum_of hg]
    simp only [h, hm, if_neg (Nat.not_lt.2 hj)]
  · refine completes_of (i := .ginfo d b) (by rfl) ?_ (.inl rfl) hs ((goes_setA_iff s s d _).2 hgo)
    rw [groupNum_of hg]
    simp only [h]
  · refine completes_of (i := .ginfo d b) (by rfl) ?_ (.inl rfl) hs ((goes_setA_iff s s d _).2 hgo)
    rw [groupNum_of hg]
    simp only [h, hm]
  · refine completes_of (i := .ginfo d b) (by rfl) ?_ (.inl rfl) hs ((goes_setA_iff s s d _).2 hgo)
    rw [groupNum_of hg]
    simp only [h, hm]
  · obtain ⟨r, hr, h1, h2⟩ := lowestFree_rank l hl
    have he : lowestRank l = r := by
      unfold lowestRank
      rw [hr]
      rfl
    rw [he]
    exact ⟨h1, h2⟩

end Sys2Proof.Machine

/-! PROOFS of group loads and the group barrier (04 R112; 09 R251-R253; 18 R413). -/

namespace Sys2Proof.Machine

open Sys2Proof

section
variable {s u v : State} {d a b t o n : Nat} {full : Bool} {x : GroupLoad} {g : Group}

/-- A good group address names its group and its offset. -/
theorem groupAddr_of {va : Word} {size : Nat} (hv : addrClass va = .group) (h0 : fld va 33 19 = 0) (ha : fld va 0 17 % size = 0) (k : Nat → Nat → Res) :
    groupAddr s va size k = k (fld va 17 16) (fld va 0 17) := by
  unfold groupAddr
  rw [hv]
  simp [h0, ha]

theorem groupGood_of (h : s.bad.contains (markOf (cxPkg s) (cx s).job n) = false) (k : State → Res) : groupGood s n k = k s :=
  if_neg (by unfold groupFails; rw [h]; decide)

/-- What a group load answers once its members were read. -/
theorem gldBody_of (hv : addrClass (regA s a) = .group) (h0 : fld (regA s a) 33 19 = 0) (ha : fld (regA s a) 0 17 % gldSize t = 0)
    (hb : s.bad.contains (markOf (cxPkg s) (cx s).job (fld (regA s a) 17 16)) = false)
    (hr : readMembers (drainWith (fun p => p.ctx == s.cur && p.remote) s) (cx s).job (gldSize t)
      (groupStart s (fld (regA s a) 17 16) (fld (regA s a) 0 17) full) = (v, x)) :
    gldBody d a t o full s = if x.left.isEmpty then .ok (gldDone v d t o x)
      else .wait (modCx v (fun c => { c with gload := some x })) (.groupLoad (cxPkg s) (cx s).job (fld (regA s a) 17 16)) := by
  unfold gldBody
  rw [groupAddr_of hv h0 ha, groupGood_of hb]
  dsimp only
  rw [hr]

/-- The group load with or without FULL runs its own effect. -/
theorem exec_groupLoad : exec (if full then .gldf d a t o else .gld d a t o) s =
    finish (if full then .gldf d a t o else .gld d a t o) [rA a] (gldBody d a t o full) s := by
  cases full <;> rfl

theorem groupLoad_noRelease : isRelease (if full then .gldf d a t o else .gld d a t o) = false := by cases full <;> rfl
theorem groupLoad_falls : fallsThrough (if full then .gldf d a t o else .gld d a t o) = true := by cases full <;> rfl

theorem gbarWait_waits {pkg job : Nat} {fresh : Bool} (h : 32768 ≤ phaseBehind g.phase t ∨ s.cycle < gbarDue s g (cxCore s) t) :
    gbarWait s d pkg job n g t fresh = .wait s (.group pkg job n t) := by
  unfold gbarWait
  exact if_pos (by simpa using h)

theorem gbarWait_over {pkg job : Nat} {fresh : Bool} (hk : phaseBehind g.phase t < 32768) (hd : gbarDue s g (cxCore s) t ≤ s.cycle) :
    gbarWait s d pkg job n g t fresh = .ok (if decide (phaseBehind g.phase t ≠ 0) && !fresh && !gbarWaited s g t
      then setStale (setA (acquire s (cxCore s)) d (word t)) else setA (acquire s (cxCore s)) d (word t)) := by
  unfold gbarWait
  exact if_neg (by simpa using ⟨hk, hd⟩)

/-- The effect of GBAR before it waits: its arrival. -/
def gbarArrive (s : State) (d pkg job n : Nat) (g : Group) (m : Member) : Res :=
  let w := setA (settleGroup (releaseWaits s s.cur) pkg job n (withMember g (cxCore s) (fun x => { x with arr := x.arr + 1 }))) d
    (word ((g.phase + m.arr) % 65536 + 2 ^ 63))
  match getGroup w pkg job n with
  | none => .trap w cGroupNumber 0 0
  | some g' => gbarWait w d pkg job n g' ((g.phase + m.arr) % 65536) true

/-- The effect of GBAR in a thread that has not lost its group's record. -/
def gbarIn (s : State) (d n : Nat) (g : Group) : Res :=
  if (regA s d).getLsbD 63 then gbarWait s d (cxPkg s) (cx s).job n g (fld (regA s d) 0 16) false
  else match memberOf g (cxCore s) with
    | none => .trap s cGroupNumber 0 0
    | some m => if (unacked s s.cur).isSome then .wait s (.acks (cxCore s)) else gbarArrive s d (cxPkg s) (cx s).job n g m

def gbarBody (d b : Nat) (s : State) : Res :=
  groupNum s (gbarNum s b) (fun n =>
    if (cx s).lost then .trap (modCx s (fun c => { c with lost := false })) cUncorrectable (groupVa n) 0
    else match getGroup s (cxPkg s) (cx s).job n with
    | none => .trap s cGroupNumber 0 0
    | some g => gbarIn s d n g)

theorem exec_gbar : exec (.gbar d b) s = finish (.gbar d b) [rA d, rA b] (gbarBody d b) s := rfl

theorem gbarBody_of (h : GroupOk s (gbarNum s b)) (hl : (cx s).lost = false)
    (hg : getGroup s (cxPkg s) (cx s).job (gbarNum s b).toNat = some g) : gbarBody d b s = gbarIn s d (gbarNum s b).toNat g := by
  unfold gbarBody
  rw [groupNum_of h, hl, hg]
  rfl

theorem gbarBody_lost (h : GroupOk s (gbarNum s b)) (hl : (cx s).lost = true) :
    gbarBody d b s = .trap (modCx s (fun c => { c with lost := false })) cUncorrectable (groupVa (gbarNum s b).toNat) 0 := by
  unfold gbarBody
  rw [groupNum_of h, hl]
  rfl

theorem gbarIn_waiting (h : (regA s d).getLsbD 63 = true) :
    gbarIn s d n g = gbarWait s d (cxPkg s) (cx s).job n g (fld (regA s d) 0 16) false := if_pos h

theorem gbarIn_arrives {m : Member} (h : (regA s d).getLsbD 63 = false) (hm : memberOf g (cxCore s) = some m) (hu : unacked s s.cur = none) :
    gbarIn s d n g = gbarArrive s d (cxPkg s) (cx s).job n g m := by
  unfold gbarIn
  rw [h, hm, hu]
  rfl

end

/-- Settles O37: a group load by what its members gave, the barrier by what its phase is behind. -/
theorem groupLoadsAndBarrier : Obligations.GroupLoadsAndBarrier := by
  unfold Obligations.GroupLoadsAndBarrier
  rintro s u v w d a b t o n pkg job core g g' m rfl rfl rfl
  refine ⟨fun hv h0 ha hb hu full x hr => ⟨fun hx => ?_, fun hx => ?_⟩, fun hok hn hl hd hg hm hk hu hv hw hg' => ⟨fun h1 h2 => ?_, fun h => ?_⟩,
    fun h => ?_, fun p j x c since seq h => ?_, fun hok hn hl hd hg hdue => ⟨fun h => ?_, fun h1 h2 h3 => ?_⟩, fun hok hn hl hs => ?_,
    fun p j x c hx hg => ?_⟩
  · subst hu
    exact completes_of exec_groupLoad ((gldBody_of hv h0 ha hb hr).trans (if_pos (by rw [hx]; rfl))) (.inl groupLoad_noRelease)
  · subst hu
    exact waits_of exec_groupLoad ((gldBody_of hv h0 ha hb hr).trans (if_neg (by simpa using hx))) groupLoad_falls
  · subst hn hu hv hw
    have hb := (gbarBody_of (d := d) hok hl hg).trans (gbarIn_arrives hd hm hk)
    unfold gbarArrive at hb
    dsimp only at hb
    rw [hg'] at hb
    exact completes_of exec_gbar (hb.trans ((gbarWait_over h1 h2).trans (by simp)))
  · subst hn hu hv hw
    have hb := (gbarBody_of (d := d) hok hl hg).trans (gbarIn_arrives hd hm hk)
    unfold gbarArrive at hb
    dsimp only at hb
    rw [hg'] at hb
    exact waits_of exec_gbar (hb.trans (gbarWait_waits h))
  · unfold gbarNum
    rw [h]
  · unfold gbarNum
    rw [h]
  · subst hn
    have hb := (gbarBody_of (d := d) hok hl hg).trans (gbarIn_waiting hd)
    have hlt : phaseBehind g.phase (fld (regA s d) 0 16) < 32768 := by omega
    refine completes_of exec_gbar (hb.trans ((gbarWait_over hlt hdue).trans (congrArg _ (if_neg ?_))))
    rcases h with h | ⟨_, h⟩ <;> simp [h]
  · subst hn
    have hb := (gbarBody_of (d := d) hok hl hg).trans (gbarIn_waiting hd)
    refine completes_of exec_gbar (hb.trans ((gbarWait_over h2 hdue).trans (congrArg _ (if_pos ?_))))
    simpa [h3] using (by omega : phaseBehind g.phase (fld (regA s d) 0 16) ≠ 0)
  · subst hn
    exact answers_of hs exec_gbar (gbarBody_lost hok hl) rfl
  · have h1 : (j * 65536 + x) / 65536 = j := by omega
    have h2 : (j * 65536 + x) % 65536 = x := by omega
    refine congrArg Host.Outcome.next ?_
    rw [h1, h2, hg] <;> rfl

end Sys2Proof.Machine

/-! PROOFS of the issue of engine operations (11 R291-R309). -/

namespace Sys2Proof.Machine

open Sys2Proof

section
variable {s : State} {a b d n o k unit opt : Nat} {l : List Word} {i : Instr} {ok : State → List Word → Bool}

/-- Fewer source registers can be read when more can. -/
theorem srcsGood_subset {l m : List Nat} (h : SrcsGood s l) (hs : m ⊆ l) : SrcsGood s m := by
  unfold SrcsGood at h ⊢
  rw [List.any_eq_false] at h ⊢
  exact fun x hx => h x (hs hx)

/-! ## The shape that the operations share -/

theorem withPlace_full (h : 16 ≤ waitingOps s (cxCore s) unit) (f : Nat → Res) :
    withPlace s unit f = .wait s (.engineRoom (cxCore s) unit) := if_pos h

theorem withSets_unowned (h : engSets s n k = none) (f : List Word → Res) : withSets s n k f = .trap s cSetOwner 0 0 := by
  unfold withSets
  rw [h]

theorem headerOk_misaligned (h : (l.getD 4 0).toNat % 16 ≠ 0) (r : Res) : headerOk s l r = .trap s cEngine 0 0 := if_pos h

/-- The operation enters the waiting room, or its thread waits for a place. -/
def Issues (i : Instr) (srcs : List Nat) (s : State) (unit : Nat) (t : State) : Prop :=
  (waitingOps s (cxCore s) unit < 16 → Completes i srcs s t) ∧
    (16 ≤ waitingOps s (cxCore s) unit → Waits i srcs s s (.engineRoom (cxCore s) unit))

theorem issues_of {srcs : List Nat} {body : State → Res} {f : Nat → State} (he : exec i s = finish i srcs body s)
    (hb : body s = withPlace s unit (fun id => .ok (f id))) (hr : isRelease i = false := by rfl) (hf : fallsThrough i = true := by rfl) :
    Issues i srcs s unit (f s.nextOp) :=
  ⟨fun h => completes_of he (hb.trans (withPlace_of h _)) (.inl hr), fun h => waits_of he (hb.trans (withPlace_full h _)) hf⟩

/-- The effect of an operation of that shape. -/
def issueBody (i : Instr) (unit n k a b opt : Nat) (ok : State → List Word → Bool) (s : State) : Res :=
  withSets s n k (fun l => if !ok s l then .trap s cEngine 0 0
    else headerOk s l (withPlace s unit (fun _ => .ok (addOp s unit i (regA s a) (regA s b) l opt))))

theorem issueEngine_eq : issueEngine i unit n k a b opt ok s = finish i [rA a, rA b] (issueBody i unit n k a b opt ok) s := rfl

theorem issueEngine_issues (he : exec i s = issueEngine i unit n k a b opt ok s) (hl : engSets s n k = some l) (hh : HeaderOk s l)
    (hok : ok s l = true) (hr : isRelease i = false := by rfl) (hf : fallsThrough i = true := by rfl) :
    Issues i [rA a, rA b] s unit (addOp s unit i (regA s a) (regA s b) l opt) := by
  refine issues_of (f := fun _ => addOp s unit i (regA s a) (regA s b) l opt) (he.trans issueEngine_eq) ?_ hr hf
  unfold issueBody
  rw [withSets_of hl, hok, headerOk_of hh]
  rfl

theorem issueEngine_bad (he : exec i s = issueEngine i unit n k a b opt ok s) (hs : SrcsGood s [rA a, rA b]) (hl : engSets s n k = some l)
    (h : ok s l = false ∨ (l.getD 4 0).toNat % 16 ≠ 0) : exec i s = .next (takeTrap s i cEngine 0 0) := by
  refine answers_of (r := .trap s cEngine 0 0) hs (he.trans issueEngine_eq) ?_ rfl
  unfold issueBody
  rw [withSets_of hl]
  by_cases hok : ok s l = true
  · rw [hok, headerOk_misaligned (h.resolve_left (by rw [hok]; decide))]
    rfl
  · exact if_pos (by simpa using hok)

theorem issueEngine_unowned (he : exec i s = issueEngine i unit n k a b opt ok s) (hs : SrcsGood s [rA a, rA b]) (hl : engSets s n k = none) :
    exec i s = .next (takeTrap s i cSetOwner 0 0) :=
  answers_of hs (he.trans issueEngine_eq) (withSets_unowned hl _) rfl

theorem exec_ecopy : exec (.ecopy a b n) s = issueEngine (.ecopy a b n) 0 n 4 a b 0 (fun _ l => copyOk l) s := rfl
theorem exec_egath : exec (.egath a b n o) s = issueEngine (.egath a b n o) 1 n 2 a b o (fun _ l => gatherOk o false l) s := rfl
theorem exec_escat : exec (.escat a b n o) s = issueEngine (.escat a b n o) 1 n 2 a b o (fun _ l => gatherOk o true l) s := rfl
theorem exec_enear : exec (.enear a b n) s = issueEngine (.enear a b n) 2 n 2 a b 0 (fun s l => nearOk (regA s a) (regA s b) l) s := rfl
theorem exec_eqry : exec (.eqry a n) s = issueEngine (.eqry a n) 3 n 1 a 0 0 (fun s l => queryOk (regA s a) l) s := rfl
theorem exec_migr : exec (.migr a b n) s =
    issueEngine (.migr a b n) 6 n 1 a b 0 (fun _ l => l.getD 0 0 == 0 && allZero ((l.drop 5).take 3)) s := rfl

/-! ## Plans, plays and streams -/

theorem qplay_issues {p : Plan} (hl : engSets s n 2 = some l) (hh : HeaderOk s l) (h0 : l.getD 0 0 = 0) (hz : allZero ((l.drop 5).take 3) = true)
    (ha : (regA s a).toNat < 64) (hp : kfind (getPkg s (cxPkg s)).plans (regA s a).toNat = some p) (hj : p.job = (cx s).job)
    (hb : apertureBytes p ((l.drop 8).take 8) ≤ 2 ^ 24) :
    Issues (.qplay a n) [rA a] s 4 (joinPlay (addOp s 4 (.qplay a n) (regA s a) 0 l 0) (regA s a).toNat p
      { pkg := cxPkg s, core := cxCore s, op := s.nextOp, bases := (l.drop 8).take 8, began := false, gone := false, done := false }) := by
  refine issues_of (i := .qplay a n) (f := fun id => joinPlay (addOp s 4 (.qplay a n) (regA s a) 0 l 0) (regA s a).toNat p
      { pkg := cxPkg s, core := cxCore s, op := id, bases := (l.drop 8).take 8, began := false, gone := false, done := false }) (by rfl) ?_
  rw [withSets_of hl]
  dsimp only
  rw [if_neg (by simp only [h0, hz]; simpa using ha), hp]
  dsimp only
  rw [if_neg (by simp only [hj]; simpa using hb), headerOk_of hh]

theorem qplay_bad (hs : SrcsGood s [rA a]) (hl : engSets s n 2 = some l)
    (h : l.getD 0 0 ≠ 0 ∨ allZero ((l.drop 5).take 3) = false ∨ 64 ≤ (regA s a).toNat) :
    exec (.qplay a n) s = .next (takeTrap s (.qplay a n) cEngine 0 0) := by
  refine answers_of (i := .qplay a n) (r := .trap s cEngine 0 0) hs (by rfl) ?_ rfl
  rw [withSets_of hl]
  exact if_pos (by simpa [or_assoc] using h)

theorem qload_issues (hl : engSets s n 1 = some l) (hh : HeaderOk s l) (h0 : l.getD 0 0 = 0) (hz : allZero ((l.drop 5).take 3) = true)
    (ha : (regA s a).toNat % 64 = 0) (hb : (regA s b).toNat < 64)
    (hp : ∀ p, kfind (getPkg s (cxPkg s)).plans (regA s b).toNat = some p → p.job = (cx s).job) :
    Issues (.qload a b n) [rA a, rA b] s 4 (addOp s 4 (.qload a b n) (regA s a) (regA s b) l 0) := by
  refine issues_of (i := .qload a b n) (f := fun _ => addOp s 4 (.qload a b n) (regA s a) (regA s b) l 0) (by rfl) ?_
  rw [withSets_of hl, if_neg (by simp only [h0, hz, ha]; simpa using hb), headerOk_of hh]
  cases hk : kfind (getPkg s (cxPkg s)).plans (regA s b).toNat with
  | none => rfl
  | some p => exact if_pos (hp p hk)

theorem qload_bad (hs : SrcsGood s [rA a, rA b]) (hl : engSets s n 1 = some l)
    (h : l.getD 0 0 ≠ 0 ∨ allZero ((l.drop 5).take 3) = false ∨ (regA s a).toNat % 64 ≠ 0 ∨ 64 ≤ (regA s b).toNat ∨ (l.getD 4 0).toNat % 16 ≠ 0) :
    exec (.qload a b n) s = .next (takeTrap s (.qload a b n) cEngine 0 0) := by
  refine answers_of (i := .qload a b n) (r := .trap s cEngine 0 0) hs (by rfl) ?_ rfl
  rw [withSets_of hl]
  by_cases h4 : (l.getD 4 0).toNat % 16 ≠ 0
  · rw [headerOk_misaligned h4, ite_self]
  · exact if_pos (by
      have h' : l.getD 0 0 ≠ 0 ∨ allZero ((l.drop 5).take 3) = false ∨ (regA s a).toNat % 64 ≠ 0 ∨ 64 ≤ (regA s b).toNat := by tauto
      simpa [or_assoc] using h')

/-- The key of the stream that EBIND names. -/
theorem ebind_issues (hl : engSets s n 1 = some l) (hh : HeaderOk s l) (hok : bindOk (regA s a) (regA s b) l = true)
    (hn : getStream s (cxPkg s) (fld (l.getD 0 0) 0 9 / 8 + fld (l.getD 0 0) 0 3 * 64) = none) :
    Issues (.ebind a b n) [rA a, rA b] s 2 (setStream (addOp s 2 (.ebind a b n) (regA s a) (regA s b) l 0) (cxPkg s)
      (fld (l.getD 0 0) 0 9 / 8 + fld (l.getD 0 0) 0 3 * 64) (boundStream s b l)) := by
  refine issues_of (i := .ebind a b n) (f := fun id => setStream (addOp s 2 (.ebind a b n) (regA s a) (regA s b) l 0) (cxPkg s)
      (fld (l.getD 0 0) 0 9 / 8 + fld (l.getD 0 0) 0 3 * 64) { boundStream s b l with op := id }) (by rfl) ?_
  rw [withSets_of hl]
  dsimp only
  rw [hok, headerOk_of hh, hn]
  rfl

theorem ebind_bad (hs : SrcsGood s [rA a, rA b]) (hl : engSets s n 1 = some l)
    (h : bindOk (regA s a) (regA s b) l = false ∨ (l.getD 4 0).toNat % 16 ≠ 0) :
    exec (.ebind a b n) s = .next (takeTrap s (.ebind a b n) cEngine 0 0) := by
  refine answers_of (i := .ebind a b n) (r := .trap s cEngine 0 0) hs (by rfl) ?_ rfl
  rw [withSets_of hl]
  dsimp only
  by_cases hok : bindOk (regA s a) (regA s b) l = true
  · rw [hok, headerOk_misaligned (h.resolve_left (by rw [hok]; decide))]
    rfl
  · exact if_pos (by simpa using hok)

end

/-- Settles O38: every operation by the shape that it shares with the others, or by its own checks above. -/
theorem engineIssue : Obligations.EngineIssue := by
  unfold Obligations.EngineIssue
  intro s a b n o l
  refine ⟨fun hh => ⟨fun hl hok => ?_, fun hl => ⟨fun hok => ?_, fun hok => ?_, fun hok => ?_, fun p h0 hz ha hp hj hb => ?_⟩,
      fun hl => ⟨fun hok => ?_, fun h0 hz => ?_, fun h0 hz ha hb hp => ?_, fun hok hn => ?_⟩⟩,
    fun hs => ?_⟩
  · exact issueEngine_issues exec_ecopy hl hh hok
  · exact issueEngine_issues exec_egath hl hh hok
  · exact issueEngine_issues exec_escat hl hh hok
  · exact issueEngine_issues exec_enear hl hh hok
  · exact qplay_issues hl hh h0 hz ha hp hj hb
  · have h := issueEngine_issues exec_eqry hl hh hok
    rwa [show regA s 0 = 0 from rfl] at h
  · exact issueEngine_issues exec_migr hl hh (by simp only [h0, hz]; rfl)
  · exact qload_issues hl hh h0 hz ha hb hp
  · exact ebind_issues hl hh hok hn
  have hab : SrcsGood s [rA a, rA b] := srcsGood_subset hs (by simp)
  have ha : SrcsGood s [rA a] := srcsGood_subset hs (by simp)
  have ha0 : SrcsGood s [rA a, rA 0] := srcsGood_subset hs (by simp)
  refine ⟨fun hl h => ?_, fun hl => ⟨fun h => ?_, fun h => ?_, fun h => ?_, qplay_bad ha hl⟩,
    fun hl => ⟨fun h => ?_, fun h => ?_, qload_bad hab hl, ebind_bad hab hl⟩, fun k _ hl => ⟨?_, ?_, ?_⟩⟩
  · exact issueEngine_bad exec_ecopy hab hl h
  · exact issueEngine_bad exec_egath hab hl h
  · exact issueEngine_bad exec_escat hab hl h
  · exact issueEngine_bad exec_enear hab hl h
  · exact issueEngine_bad exec_eqry ha0 hl h
  · refine issueEngine_bad exec_migr hab hl ?_
    rcases h with h | h | h
    · exact .inl (Bool.and_eq_false_iff.2 (.inl (beq_eq_false_iff_ne.2 h)))
    · exact .inl (Bool.and_eq_false_iff.2 (.inr h))
    · exact .inr h
  · rintro rfl
    exact issueEngine_unowned exec_ecopy hab hl
  · rintro rfl
    exact ⟨issueEngine_unowned exec_egath hab hl, issueEngine_unowned exec_escat hab hl,
      issueEngine_unowned exec_enear hab hl, answers_of (i := .qplay a n) (r := .trap s cSetOwner 0 0) ha (by rfl) (withSets_unowned hl _) rfl⟩
  · rintro rfl
    exact ⟨issueEngine_unowned exec_eqry ha0 hl, issueEngine_unowned exec_migr hab hl,
      answers_of (i := .qload a b n) (r := .trap s cSetOwner 0 0) hab (by rfl) (withSets_unowned hl _) rfl, answers_of (i := .ebind a b n) (r := .trap s cSetOwner 0 0) hab (by rfl) (withSets_unowned hl _) rfl⟩

end Sys2Proof.Machine

/-! PROOFS of subscriptions to a stream, and of Ethernet work (11 R300, R306-R308). -/

namespace Sys2Proof.Machine

open Sys2Proof

section
variable {s u v : State} {a b n key : Nat} {l : List Word} {bs : List Byte} {o : Option Nat} {r : Ring} {st : Stream} {q : QueuePair}

/-- The effect of ESUB on a stream that takes the ring's job and its slots: UNS unsubscribes, otherwise the ring is one more. -/
def esubOn (s : State) (pkg key : Nat) (y : Word) (r : Ring) (st : Stream) : Res :=
  if y.getLsbD 12 then
    if (st.taking.isSome || !st.passing.isEmpty) && subAt st r.key then .wait s (.engineRoom (cxCore s) 2)
    else .ok (setStream s pkg key { st with rings := st.rings.filter (fun x => scratchKey x.core x.ofs != r.key) })
  else if (if st.dir then 1 else 8) ≤ st.rings.length then .trap s cStream 0 0
  else
    let t := if st.dir then addConsumer s r (fld y 9 3) else s
    if isolatedAt t pkg (key / 128) (keyCore r.key) then .ok t
    else .ok (setStream t pkg key { st with rings := st.rings ++ [{ core := keyCore r.key, ofs := keyOfs r.key, consumer := fld y 9 3 }] })

def esubBody (a b : Nat) (s : State) : Res :=
  if fld (regA s b) 13 51 ≠ 0 then .trap s cEngine 0 0
  else atRing s (regA s a) (fun t r =>
    match getStream t (cxPkg s) (fld (regA s b) 3 6 + fld (regA s b) 0 3 * 64) with
    | none => .trap t cStream 0 0
    | some st =>
      if st.job ≠ (cx t).job || st.complete || decide (r.size < st.tile) || (!st.dir && fld (regA s b) 9 3 != 0) then .trap t cStream 0 0
      else esubOn t (cxPkg s) (fld (regA s b) 3 6 + fld (regA s b) 0 3 * 64) (regA s b) r st)

theorem exec_esub : exec (.esub a b) s = finish (.esub a b) [rA a, rA b] (esubBody a b) s := rfl

theorem esubBody_of (hr : RingHere s (regA s a) r u) (h0 : fld (regA s b) 13 51 = 0)
    (hs : getStream u (cxPkg s) (fld (regA s b) 3 6 + fld (regA s b) 0 3 * 64) = some st) (hj : st.job = (cx u).job)
    (hc : st.complete = false) (ht : st.tile ≤ r.size) (hd : st.dir = true ∨ fld (regA s b) 9 3 = 0) :
    esubBody a b s = esubOn u (cxPkg s) (fld (regA s b) 3 6 + fld (regA s b) 0 3 * 64) (regA s b) r st := by
  unfold esubBody
  rw [if_neg (not_not_intro h0), atRing_of hr, hs]
  refine if_neg ?_
  rcases hd with hd | hd <;> simp [hj, hc, ht, hd]

/-- The effect of NSEND and NRECV once their entry is read and accepted. -/
theorem postEntry_of {snd : Bool} (hq : getQp s (cxPkg s) (regA s b).toNat = some q) (hn : (regA s b).toNat < 1024) (hj : q.job = (cx s).job)
    (ha : (regA s a).toNat % 64 = 0) (hl : loadResult s false [(regA s a, 64)] = some (u, [bs])) (he : entryOk bs = true)
    (ho : OptKey u (entryOf bs (cxCore u)).cnt o) (hr : sendQueue q snd = [] ∨ (sendQueue q snd).length < Config.queuePairRoom) :
    postEntry snd a b s = .ok (modQp (if snd then releaseWaits u u.cur else u) (cxPkg s) (regA s b).toNat
      (fun q => setQueue q snd (sendQueue q snd ++ [entryOf bs (cxCore u)]))) := by
  unfold postEntry
  dsimp only
  rw [hq]
  dsimp only
  rw [if_neg (by simpa [hj] using hn), if_neg (not_not_intro ha)]
  unfold load1
  rw [loads_of hl, List.headD_cons]
  simp only [he, Bool.not_true, Bool.false_eq_true, if_false]
  rw [optCounter_of ho]
  refine if_pos ?_
  rcases hr with hr | hr <;> simp [hr]

theorem npoll_completes (hl : engSets s n 1 = some l) (hp : pollOk l = true) (hb : (regA s b).toNat % 32 = 0)
    (hs : storeResult s false [(regA s b, (pollGot s l).flatMap cqBytes)] = some u) :
    Completes (.npoll a b n) [rA b] s
      (setA (acquire (pollTaken u (cxPkg s) (pollCq l) (pollGot s l).length) (cxCore u)) a (word (pollGot s l).length)) := by
  refine completes_of (i := .npoll a b n) (by rfl) ?_
  rw [withSets_of hl]
  dsimp only
  rw [if_neg (by simp [hp, hb])]
  exact stores_of hs _

end

/-- Settles O39: a subscription by what its stream's rings are, Ethernet work by its entry. -/
theorem subscribeAndPost : Obligations.SubscribeAndPost := by
  unfold Obligations.SubscribeAndPost
  rintro s u a b n key l bs o r st q
  refine ⟨?_, ?_, fun hl hp hb hs => npoll_completes hl hp hb hs⟩
  · rintro hr h0 rfl hs hj hc ht hd
    have hb := esubBody_of hr h0 hs hj hc ht hd
    refine ⟨fun v hv hu hl => ⟨fun hi => ?_, fun hi => ?_⟩, fun hu h1 h2 => ?_⟩
    · subst hv
      refine completes_of exec_esub (hb.trans ?_)
      unfold esubOn
      rw [if_neg (by rw [hu]; decide), if_neg (Nat.not_le.2 hl)]
      exact if_neg (by rw [hi]; decide)
    · subst hv
      refine completes_of exec_esub (hb.trans ?_)
      unfold esubOn
      rw [if_neg (by rw [hu]; decide), if_neg (Nat.not_le.2 hl)]
      exact if_pos hi
    · refine completes_of exec_esub (hb.trans ?_)
      unfold esubOn
      rw [if_pos hu]
      exact if_neg (by simp [h1, h2])
  · rintro rfl hn hq hj ha hl he ho
    refine ⟨fun hr hk => ?_, fun hr => ?_⟩
    · exact completes_of (i := .nsend a b) rfl (postEntry_of (snd := true) hq hn hj ha hl he ho hr)
    · exact completes_of (i := .nrecv a b) rfl (postEntry_of (snd := false) hq hn hj ha hl he ho hr)

end Sys2Proof.Machine

/-! PROOF about the issue of Sawmill operations (10 R278): the statement takes every number for a register. -/

namespace Sys2Proof.Machine

open Sys2Proof

/-- A thread with the unit 40 of its registers unreadable, which no operand names, and whose job owns engine set 0. -/
def unit40Bad : State :=
  { State.reset with
    ctxs := [(0, { Ctx.reset with badRegs := [40] })]
    cores := [(0, { Core.reset with owner := [(0, Ctx.reset.job)] })] }

/-- The errors counted in class 0 of package 0 after an instruction. -/
def corruptCount : Host.Outcome State Fault Refusal → Nat
  | .next t => kget (getPkg t 0).unc 0 0
  | _ => 0

/-- MOP looks for its operand 40 among the A registers' units, and takes the trap of an unreadable register, which counts. -/
theorem mop_unit40Bad : corruptCount (exec (.mop 40 0 0) unit40Bad) = 1 := by decide

theorem takeTrap_unit40Bad : corruptCount (.next (takeTrap unit40Bad (.mop 40 0 0) cMatrix 0 0)) = 0 := by decide

/-- Refutes O40: the statement quantifies over register numbers that no word encodes. For a = 40, "every source can be read" speaks of a V register's
units, and MOP of the unit 40. -/
theorem not_sawmillIssue : ¬ Obligations.SawmillIssue := by
  unfold Obligations.SawmillIssue
  intro h
  obtain ⟨-, -, -, -, -, -, htraps⟩ := h unit40Bad unit40Bad 40 0 0 0 0 0 0 (List.replicate 8 0) none none [] (newOp unit40Bad .nop (.zero 0 0)) []
  obtain ⟨-, -, -, -, -, -, hsets, -⟩ := htraps (by unfold SrcsGood; decide)
  obtain ⟨hmop, -⟩ := hsets (by decide)
  have he := congrArg corruptCount (hmop (.inl (by decide)))
  rw [mop_unit40Bad, takeTrap_unit40Bad] at he
  exact absurd he (by decide)

end Sys2Proof.Machine

/-! PROOFS of CRUISE's issue and of the Blaze instructions (10 R267, R284, R286-R289). -/

namespace Sys2Proof.Machine

open Sys2Proof

section
variable {s u : State} {a b d m n : Nat} {l : List Word} {rows : List (List Byte)} {bs : List Byte} {o1 o3 : Option Nat} {op : SawOp}

theorem not_isNone_of_isSome {α : Type} {o : Option α} (h : o.isSome = true) : ¬ o.isNone = true := by
  cases o with
  | none => cases h
  | some x => exact Bool.false_ne_true

theorem cruise_completes (hl : engSets s n 1 = some l) (hg : geoOk (l.getD 0 0) = true) (hz : (l.drop 5).any (fun v => v != 0) = false)
    (hq : (panelKey s (thr s) 8 (geoQBytes (l.getD 0 0)) (regA s a)).isSome = true)
    (hk : (panelKey s (thr s) 8 (geoKBytes (l.getD 0 0)) (regA s b)).isSome = true)
    (hc : (panelKey s (thr s) 6 (geoScoreBytes (l.getD 0 0)) (l.getD 4 0)).isSome = true) (h1 : OptKey s (l.getD 1 0) o1)
    (h3 : OptKey s (l.getD 3 0) o3)
    (hop : op = withKeys (newOp s (.cruise a b n) (.cruise (regA s a) (regA s b) (l.getD 0 0) (l.getD 4 0))) l o1 o3) (hr : CruRoom s op) :
    Completes (.cruise a b n) [rA a, rA b] s (cruQueued s op) := by
  subst hop
  refine completes_of (i := .cruise a b n) (by rfl) ?_
  rw [withSets_of hl]
  dsimp only
  rw [if_neg (by rw [hg, hz]; decide), if_neg (not_isNone_of_isSome hq), if_neg (not_isNone_of_isSome hk), if_neg (not_isNone_of_isSome hc),
    withCounters_of h1 h3]
  refine (queueIssue_of hr _).trans ?_
  unfold cruQueued
  cases (withKeys (newOp s (.cruise a b n) (.cruise (regA s a) (regA s b) (l.getD 0 0) (l.getD 4 0))) l o1 o3).after.isSome <;> rfl

theorem cruise_bad (hs : SrcsGood s [rA a, rA b]) (hl : engSets s n 1 = some l)
    (h : geoOk (l.getD 0 0) = false ∨ (l.drop 5).any (fun v => v != 0) = true) :
    exec (.cruise a b n) s = .next (takeTrap s (.cruise a b n) cMatrix 0 0) := by
  refine answers_of (i := .cruise a b n) (r := .trap s cMatrix 0 0) hs (by rfl) ?_ rfl
  rw [withSets_of hl]
  refine if_pos ?_
  rw [Bool.or_eq_true, Bool.not_eq_true']
  exact h

theorem blaze_completes (ha : (regA s a).toNat % 64 = 0) (h0 : fld (regA s b) 8 24 = 0) (hd : fld (regA s b) 0 8 ≠ 0)
    (hl : loadResult s false (blazeRows (regA s a) (fld (regA s b) 0 8)) = some (u, rows)) :
    Completes (.blaze a b m d) [rA a, rA b] s
      (setMaskDesc (setB u d (BitVec.ofNat 256 (blazeWord m (fld (regA s b) 0 8) (regA s b) rows))) d (fld (regA s b) 0 8)) := by
  refine completes_of (i := .blaze a b m d) (by rfl) ?_
  rw [if_neg (not_not_intro ha), if_neg (by simp [h0, hd])]
  exact loads_of hl _

theorem blaze_bad (hs : SrcsGood s [rA a, rA b]) (ha : (regA s a).toNat % 64 = 0) (h : fld (regA s b) 8 24 ≠ 0 ∨ fld (regA s b) 0 8 = 0) :
    exec (.blaze a b m d) s = .next (takeTrap s (.blaze a b m d) cMatrix 0 0) := by
  refine answers_of (i := .blaze a b m d) (r := .trap s cMatrix 0 0) hs (by rfl) ?_ rfl
  rw [if_neg (not_not_intro ha), if_pos (by simpa using h)]

theorem blzmovLoad_completes (ha : (regA s a).toNat % 32 = 0) (h1 : 1 ≤ (regA s b).toNat) (h2 : (regA s b).toNat < 256)
    (hl : loadResult s false [(regA s a, 32)] = some (u, [bs])) :
    Completes (.blzmovLoad a b d) [rA a, rA b] s
      (setMaskDesc (setB u d (BitVec.ofNat 256 (leNat bs &&& gridMask (regA s b).toNat))) d (regA s b).toNat) := by
  refine completes_of (i := .blzmovLoad a b d) (by rfl) ?_
  dsimp only
  rw [if_neg (not_not_intro ha), if_neg (by simp only [Bool.or_eq_true, decide_eq_true_eq]; omega)]
  exact loads_of hl _

theorem blzmovLoad_bad (hs : SrcsGood s [rA a, rA b]) (ha : (regA s a).toNat % 32 = 0) (h : (regA s b).toNat = 0 ∨ 256 ≤ (regA s b).toNat) :
    exec (.blzmovLoad a b d) s = .next (takeTrap s (.blzmovLoad a b d) cMatrix 0 0) := by
  refine answers_of (i := .blzmovLoad a b d) (r := .trap s cMatrix 0 0) hs (by rfl) ?_ rfl
  rw [if_neg (not_not_intro ha), if_pos (by simpa using h)]

/-- The effect of BLZPOP. -/
def blzpopBody (a b n : Nat) (s : State) : Res :=
  if maskDesc s n = 0 then descTrap s
  else if fld (regA s b) 5 59 ≠ 0 || (!(regA s b).getLsbD 4 && decide (maskDesc s n % 16 < fld (regA s b) 0 4)) then .trap s cMatrix 0 0
  else .ok (setA s a (word (popBelow (if (regA s b).getLsbD 4 then (regB s n).toNat &&& gridMask (maskDesc s n)
    else ((regB s n).toNat &&& gridMask (maskDesc s n)) / 2 ^ (16 * fld (regA s b) 0 4) % 2 ^ 16) 256)))

theorem exec_blzpop : exec (.blzpop a b n) s = finish (.blzpop a b n) [rA b, rB n] (blzpopBody a b n) s := rfl

end

/-- Settles O41: each effect on the operands that its hypotheses accept, and each trap. -/
theorem cruiseAndBlaze : Obligations.CruiseAndBlaze := by
  unfold Obligations.CruiseAndBlaze
  intro s u a b d m n rows bs l o1 o3 op
  refine ⟨fun hl hg hz hq hk hc h1 h3 hop hr => cruise_completes hl hg hz hq hk hc h1 h3 hop hr, fun ha h0 hd hl => blaze_completes ha h0 hd hl,
    fun hd => ⟨?_, fun ha hl => ?_, fun he => ?_⟩, fun ha h1 h2 hl => blzmovLoad_completes ha h1 h2 hl,
    fun hd h0 => ⟨fun h4 hs hgo => ?_, fun h4 hr hs hgo => ?_⟩, fun hs hl h => cruise_bad hs hl h,
    fun hs => ⟨fun ha => ?_, fun ha h => blaze_bad hs ha h, fun ha => ?_, fun ha h => blzmovLoad_bad hs ha h⟩,
    fun hs => ⟨fun ha => ?_, fun ha hd => ?_⟩, fun hs => ⟨fun hd => ?_, fun hd => ?_⟩, fun hs => ⟨fun hd => ?_, fun hd h => ?_⟩⟩
  · exact completes_of (i := .blzmov b d) (by rfl) (if_neg hd)
  · refine completes_of (i := .blzmovStore a b) (by rfl) ?_
    rw [if_neg (not_not_intro ha), if_neg hd]
    exact stores_of hl _
  · refine completes_of (i := .blzmovAnd b d) (by rfl) ?_
    exact if_neg (by simp [hd, ← he])
  · refine completes_of exec_blzpop ?_ (.inl rfl) hs ((goes_setA_iff s s a _).2 hgo)
    unfold blzpopBody
    rw [if_neg hd, if_neg (by simp [h0, h4]), h4]
    rfl
  · refine completes_of exec_blzpop ?_ (.inl rfl) hs ((goes_setA_iff s s a _).2 hgo)
    unfold blzpopBody
    rw [if_neg hd, if_neg (by simp [h0, Nat.not_lt.2 hr]), h4]
    rfl
  · exact answers_of (i := .blaze a b m d) (r := .trap s cMatrix (regA s a) 0) hs (by rfl) (if_pos ha) rfl
  · exact answers_of (i := .blzmovLoad a b d) (r := .trap s cMatrix (regA s a) 0) hs (by rfl) (if_pos ha) rfl
  · exact answers_of (i := .blzmovStore a b) (r := .trap s cMatrix (regA s a) 0) hs (by rfl) (if_pos ha) rfl
  · exact answers_of (i := .blzmovStore a b) (r := descTrap s) hs (by rfl) ((if_neg (not_not_intro ha)).trans (if_pos hd)) rfl
  · have hb : SrcsGood s [rB b] := srcsGood_subset hs (by simp)
    exact answers_of (i := .blzmov b d) (r := descTrap s) hb (by rfl) (if_pos hd) rfl
  · refine answers_of (i := .blzmovAnd b d) (r := descTrap s) hs (by rfl) ?_ rfl
    exact if_pos (by simpa using hd)
  · exact answers_of (r := descTrap s) hs exec_blzpop (if_pos hd) rfl
  · refine answers_of (r := .trap s cMatrix 0 0) hs exec_blzpop ((if_neg hd).trans (if_pos ?_)) rfl
    simpa using h

end Sys2Proof.Machine

/-! PROOFS of engine registers, system instructions and control registers (06 R171; 11 R310-R317; 17 R399). -/

namespace Sys2Proof.Machine

open Sys2Proof

section
variable {s u : State} {a n i : Nat} {v : Word} {bs : List Byte}

/-! ## Engine registers -/

theorem engSets_one (h : kfind (getCore s (cxCore s)).owner n = some (cx s).job) :
    engSets s n 1 = some ((List.range 8).map (fun i => kget (getCore s (cxCore s)).e 0 (8 * n + i))) := by
  unfold engSets
  exact if_pos (by simp [h])

theorem engSets_one_unowned (h : kfind (getCore s (cxCore s)).owner n ≠ some (cx s).job) : engSets s n 1 = none := by
  unfold engSets
  exact if_neg (by simpa using h)

theorem engSets_register (n : Nat) (f : Nat → Word) : ((List.range 8).map (fun i => f (8 * (n / 8) + i))).getD (n % 8) 0 = f n := by
  have h : n % 8 < 8 := Nat.mod_lt _ (by decide)
  rw [List.getD_eq_getElem?_getD, List.getElem?_map, List.getElem?_range h, Option.map_some, Option.getD_some, Nat.div_add_mod]

theorem ewr_completes (h : kfind (getCore s (cxCore s)).owner (n / 8) = some (cx s).job) :
    Completes (.ewr a n) [rA a] s (modCore s (cxCore s) (fun w => withEng w n (regA s a))) := by
  refine completes_of (i := .ewr a n) (by rfl) ?_
  have hc : claimSet s (cxCore s) (n / 8) (cx s).job = s := if_pos h
  dsimp only
  rw [hc]
  rfl

theorem ewr_claims (h : kfind (getCore s (cxCore s)).owner (n / 8) ≠ some (cx s).job) :
    Completes (.ewr a n) [rA a] s
      (modCore (modCore s (cxCore s) (fun w => claimedSet w n (cx s).job)) (cxCore s) (fun w => withEng w n (regA s a))) := by
  refine completes_of (i := .ewr a n) (by rfl) ?_
  have hc : claimSet s (cxCore s) (n / 8) (cx s).job = modCore s (cxCore s) (fun w => claimedSet w n (cx s).job) := if_neg h
  dsimp only
  rw [hc]
  rfl

/-! ## Safe points -/

/-- The effect of SAFEPT in a core in safe-point mode, once the frame's record is read. -/
def safeptLeaves (s : State) (bs : List Byte) : Res :=
  if badTarget (loopEnd (cx s) (cx s).pc ((cx s).pc + 4)).2 then .trap s cInsnAddr (loopEnd (cx s) (cx s).pc ((cx s).pc + 4)).2 0
  else if (unacked s s.cur).isSome then .wait s (.acks (cxCore s))
  else .left (holdSafe (releaseWaits s s.cur) s.cur
    { liveCtx (loopEnd (cx s) (cx s).pc ((cx s).pc + 4)).1 bs with pc := (loopEnd (cx s) (cx s).pc ((cx s).pc + 4)).2 } true)

def safeptBody (i : Nat) (s : State) : Res :=
  if !(getCore s (cxCore s)).spm then .ok s
  else if (getCore s (cxCore s)).lmapn.toNat ≤ i then .trap s cLiveMap 0 0
  else load1 s false ((getCore s (cxCore s)).lmapb + word (16 * i)) 16 safeptLeaves

theorem exec_safept : exec (.safept i) s = finish (.safept i) [] (safeptBody i) s := rfl

theorem safeptBody_leaves (hm : (getCore s (cxCore s)).spm = true) (hi : i < (getCore s (cxCore s)).lmapn.toNat)
    (hl : loadResult s false [((getCore s (cxCore s)).lmapb + word (16 * i), 16)] = some (u, [bs])) :
    safeptBody i s = safeptLeaves u bs := by
  unfold safeptBody
  rw [if_neg (by rw [hm]; decide), if_neg (Nat.not_le.2 hi)]
  exact loads_of hl _

/-! ## Control registers -/

theorem getLsbD_ofNat_mod (v : Word) (n i : Nat) : (word (v.toNat % 2 ^ n)).getLsbD i = (decide (i < 64) && (decide (i < n) && v.getLsbD i)) := by
  rw [BitVec.getLsbD_ofNat, Nat.testBit_mod_two_pow]
  rfl

/-- A write of STAT takes the low 21 bits and leaves the descriptors. -/
theorem statWrite_bit (old v : Word) (hi : i < 64) :
    (statWrite old v).getLsbD i = if 21 ≤ i then old.getLsbD i && decide (32 ≤ i) else v.getLsbD i := by
  unfold statWrite
  rw [BitVec.getLsbD_or, BitVec.getLsbD_and, BitVec.getLsbD_and]
  have h1 : (word (0xFFFFFFFF * 2 ^ 32)).getLsbD i = decide (32 ≤ i) := by
    revert i
    decide
  have h2 : (0x1FFFFF : Word).getLsbD i = decide (i < 21) := by
    revert i
    decide
  rw [h1, h2]
  by_cases h : 21 ≤ i
  · simp [h, Nat.not_lt.2 h]
  · simp [h, Nat.lt_of_not_le h, show ¬ 32 ≤ i by omega]

theorem regA_controlWrite (s : State) (i : Nat) (v : Word) (j : Nat) : regA (controlWrite s i v) j = regA s j := by
  unfold controlWrite
  split <;> try rfl
  all_goals simp [regA, setStat, setLoop, loopWrite, getA]

end

/-- Settles O42: each instruction by its effect, each control register by what it is in the state. -/
theorem systemInstructions : Obligations.SystemInstructions := by
  unfold Obligations.SystemInstructions
  refine ⟨fun s u a n i bs => ⟨fun h => ⟨ewr_completes h, fun hs hg => ?_⟩, fun h => ⟨ewr_claims h, ?_⟩, ?_, ?_, fun he => ?_, fun he => ?_,
    fun hu => ?_, fun hu => ?_, fun hs hg => ?_, ?_, fun hm => ?_, fun hm hi => ?_, fun hm hi hl hb hu => ?_, fun hd => ?_, fun hd => ?_⟩,
    fun s v => ?_⟩
  · refine completes_of (i := .erd a n) (by rfl) ?_ (.inl rfl) hs ((goes_setA_iff s s a _).2 hg)
    rw [withSets_of (engSets_one h), engSets_register n (fun n => kget (getCore s (cxCore s)).e 0 n)]
  · exact answers_of (i := .erd a n) (r := .trap s cSetOwner 0 0) (sourcesNone_of s) (by rfl) (withSets_unowned (engSets_one_unowned h) _) rfl
  · exact completes_of (i := .nop) (by rfl) rfl
  · exact completes_of (i := .synci) (by rfl) rfl
  · exact completes_of (i := .wfe) (by rfl) (if_pos he)
  · refine waits_of (i := .wfe) (by rfl) ?_
    exact if_neg (by rw [he]; decide)
  · exact completes_of (i := .tlbinvPage a) (by rfl) rfl
  · exact completes_of (i := .tlbinvJob) (by rfl) rfl
  · exact completes_of (i := .crd a i) (by rfl) rfl (.inl rfl) hs ((goes_setA_iff s s a _).2 hg)
  · exact completes_of (i := .cwr a i) (by rfl) rfl
  · exact completes_of exec_safept (if_pos (by rw [hm]; rfl))
  · exact answers_of (sourcesNone_of s) exec_safept ((if_neg (by rw [hm]; decide)).trans (if_pos hi)) rfl
  · have he : safeptLeaves u bs = .left (holdSafe (releaseWaits u u.cur) u.cur
        { liveCtx (loopEnd (cx u) (cx u).pc ((cx u).pc + 4)).1 bs with pc := (loopEnd (cx u) (cx u).pc ((cx u).pc + 4)).2 } true) := by
      unfold safeptLeaves
      rw [if_neg (by rw [hb]; decide), hu]
      rfl
    exact answers_of (sourcesNone_of s) exec_safept ((safeptBody_leaves hm hi hl).trans he) rfl
  · exact answers_of (i := .brk a) (sourcesNone_of s) (by rfl) (if_pos hd) rfl
  · refine answers_of (i := .brk a) (r := .trap s cBreak 0 0) (sourcesNone_of s) (by rfl) ?_ rfl
    exact if_neg (by omega)
  · refine ⟨rfl, rfl, rfl, rfl, rfl, rfl, rfl, rfl, rfl, rfl, rfl, rfl, rfl, rfl, rfl, rfl, rfl, rfl, rfl, rfl, rfl, rfl, rfl, rfl, rfl, rfl, rfl, rfl,
      fun i hi => ?_, ?_⟩
    · have h : (cx (controlWrite s 4 v)).stat = statWrite (cx s).stat v := by simp [controlWrite, setStat]
      rw [h]
      exact statWrite_bit _ v hi
    · refine ⟨?_, ?_, ?_, ?_, ?_, ?_, ?_, ?_, ?_, ?_, fun i => ⟨controlWrite_mem s i v, regA_controlWrite s i v⟩⟩ <;>
        simp [controlWrite, setLoop, loopWrite, low48, fld]

end Sys2Proof.Machine

/-! PROOFS of taking an exception and returning from it (17 R380-R383; 11 R310, R311). -/

namespace Sys2Proof.Machine

open Sys2Proof

section
variable {s u v w : State} {ctx : Nat} {f : FaultInfo} {i : Instr} {cause hi : Nat} {faddr : Word}

/-- A trap that no soft trap and no failed unit causes leaves its thread where it is. -/
theorem trapAs_of (h : cause ≠ cSoftTrap) : trapAs s i cause faddr hi =
    deliverTrap s s.cur { cause := cause, fpc := (cx s).pc, faddr := faddr, finfo := word (encode i + hi * 2 ^ 32), pc := (cx s).pc } := if_neg h

/-- A soft trap goes on after its instruction once its handler returns. -/
theorem trapAs_soft (h : badTarget (nextPc s s) = false) : trapAs s i cSoftTrap faddr hi =
    deliverTrap (setCtx s s.cur (loopEnd (cx s) (cx s).pc ((cx s).pc + 4)).1) s.cur
      { cause := cSoftTrap, fpc := (cx s).pc, faddr := faddr, finfo := word (encode i + hi * 2 ^ 32), pc := nextPc s s } := by
  have hb : ¬ badTarget (nextPc s s) = true := by rw [h]; decide
  unfold trapAs
  rw [if_pos rfl]
  exact if_neg hb

theorem takeTrap_of (h : cause ≠ cUncorrectable) : takeTrap s i cause faddr hi = trapAs s i cause faddr hi := by
  unfold takeTrap
  rw [if_neg h]

/-- The fault information of a frame that cannot be written keeps the instruction's word alone. -/
theorem instead_eq (f : FaultInfo) (cause : Nat) (faddr : Word) :
    f.instead cause faddr = { f with cause := cause, faddr := faddr, finfo := word (f.finfo.toNat % 2 ^ 32) } := by
  unfold FaultInfo.instead fld
  rw [Nat.pow_zero, Nat.div_one]

/-- What the fault record of a context says for each end of its frame's write (17 R380, R381). -/
def trapNotice (ctx : Nat) (c : Ctx) (f : FaultInfo) : Spill → Notice
  | .held => faultNotice ctx c f (faultRec c f false 0)
  | .at addr => faultNotice ctx c f (faultRec c f true addr)
  | .none => faultNotice ctx c (f.instead cSpill 0) (faultRec c f false 0)
  | .failed e a => faultNotice ctx c (f.instead e a) (faultRec c f false 0)
  | .corrupt addr a => faultNotice ctx c (if f.cause = cUncorrectable && !f.frame then f else f.instead cUncorrectable a) (faultRec c f true addr)

/-- A trap with an entry of the fault ring left, in a thread whose stores are acknowledged, is what its frame's place makes of it. -/
theorem deliverTrap_of {r : Spill} (hf : ringFree s (corePkg (ctxCore ctx)) (getCtx s ctx).job = true) (hu : unacked s ctx = none)
    (hs : spill (releaseWaits s ctx) (ctxCore ctx) (getCtx s ctx) = (u, r)) (hr : r ≠ .held) :
    deliverTrap s ctx f = report (dormant u ctx) (corePkg (ctxCore ctx)) (trapNotice ctx (getCtx s ctx) f r) := by
  unfold deliverTrap
  dsimp only
  rw [hf, hu, hs]
  match r, hr with
  | .held, hr => exact absurd rfl hr
  | .none, _ => rfl
  | .at addr, _ => rfl
  | .failed e a, _ => rfl
  | .corrupt addr a, _ => rfl

/-- A trap without an entry left, or with a store not acknowledged, stays with its context. -/
theorem deliverTrap_waits (h : ringFree s (corePkg (ctxCore ctx)) (getCtx s ctx).job = false ∨ (unacked s ctx).isSome = true) :
    deliverTrap s ctx f = modCtx s ctx (fun c => { c with status := .faulting f s.cycle }) := by
  unfold deliverTrap
  refine if_pos ?_
  rcases h with h | h <;> simp [h]

/-- A record goes to the first entry that no other claims, and a launch to FCORE. -/
theorem deliver_of {pkg k : Nat} {n : Notice} {d : Job} {x : List Byte} (hj : jobOn s pkg n.job = some d)
    (hk : lowestFree (fun i => (kget (getPkg s pkg).claims [] n.job).contains i) 512 0 = some k)
    (hw : hwWrite s (hwWho (pkg * 8192 + d.fcore) n.job) (ringBase d + word (128 * k))
      (recBytes n.r ++ qword (word n.cause) ++ qword n.fpc ++ qword n.faddr ++ qword n.finfo ++ qword n.hold ++ leBytes 24 0) = (v, .ok x)) :
    deliver s pkg n = (launchPush (claimEntry v pkg n.job k (kget (getPkg s pkg).claims [] n.job) n.kept) (pkg * 8192 + d.fcore) n.coreId
      (faultLaunch pkg d n (ringBase d + word (128 * k))), true) := by
  unfold deliver
  rw [hj]
  dsimp only
  rw [hk]
  dsimp only
  rw [hw]
  unfold claimEntry keptSet
  rfl

/-- ERET frees the entry, ends what the handler holds, and continues the recorded thread. -/
theorem eretBody_of {key : Nat} {c : Ctx} (hr : RecordHere s (regA s 1) .both key u) (hf : (recOf (homeRead u key 64)).ff = true)
    (hc : (recOf (homeRead u key 64)).fc = true) (hj : (recOf (homeRead u key 64)).job = (cx s).job)
    (hv : v = freeEntry (dropL1 (homeWrite u key (leBytes 8 0)) (cxCore s) key 64) (cxPkg s) (cx s).job (regA s 1))
    (hw : restored (endHold (releaseWaits v v.cur) (thr v) (cx v).hold) (cxCore s) (recOf (homeRead u key 64)) = (w, .ok c)) :
    eretBody s = .left (freeFrame (setCtx (dropICache (acquire w (cxCore s)) (cxCore s)) w.cur
      (withHandler c (carriedOf u (cxPkg s) (cx s).job (regA s 1)))) (cxCore s) (cx s).job (recOf (homeRead u key 64)).w1) := by
  subst hv
  unfold eretBody
  rw [recordAt_of hr]
  dsimp only
  rw [if_neg (by simp [hf, hc, hj]), show corePkg (cxCore s) = cxPkg s from rfl, hw]
  rfl

end

/-- Settles O43: each way into the fault handler by the lemma of its branch, and the return. -/
theorem exceptions : Obligations.Exceptions := by
  unfold Obligations.Exceptions
  refine ⟨fun s d a hs => ?_, fun s i faddr hi h => ?_, fun s i cause hi faddr h1 h2 => ?_, fun s u ctx f addr hf hu hs => ?_,
    fun s u ctx f addr x e hf hu => ⟨fun hs => ?_, fun hs => ?_, fun hs => ⟨fun h => ?_, fun h1 h2 => ?_⟩⟩, fun s u i faddr hi hu => ?_,
    fun s u d a b hu hw hs hb => ?_, fun s ctx f h => deliverTrap_waits h, fun s v pkg i n d x hj hk hw => deliver_of hj hk hw,
    fun s u v w key c hs hr hf hc hj hu hv hw => ?_⟩
  · exact answers_of (i := .trap d a) (r := .trap s cSoftTrap (regA s a) 0) hs (by rfl) rfl rfl
  · exact (takeTrap_of (by decide)).trans (trapAs_soft h)
  · exact (takeTrap_of h2).trans (trapAs_of h1)
  · exact deliverTrap_of hf hu hs (by simp)
  · rw [← instead_eq]
    exact deliverTrap_of hf hu hs (by simp)
  · rw [← instead_eq]
    exact deliverTrap_of hf hu hs (by simp)
  · refine (deliverTrap_of hf hu hs (by simp)).trans ?_
    simp only [trapNotice]
    rw [if_neg (by rcases h with h | h <;> simp [h]), instead_eq]
  · refine (deliverTrap_of hf hu hs (by simp)).trans ?_
    simp only [trapNotice]
    rw [if_pos (by simp [h1, h2])]
  · subst hu
    unfold takeTrap
    rw [if_pos rfl]
    exact trapAs_of (by decide)
  · subst hu
    have hbad : [rA a, rA b].any (regBad (cx s)) = true := by simp [hb]
    have ht : regTrap s (.add d a b) = deliverTrap (uncBump s (cxPkg s) 0) (uncBump s (cxPkg s) 0).cur
        { cause := cUncorrectable, fpc := (cx (uncBump s (cxPkg s) 0)).pc, faddr := 0, finfo := word (encode (.add d a b)),
          pc := (cx (uncBump s (cxPkg s) 0)).pc } := by
      unfold regTrap
      rw [trapAs_of (by decide), Nat.zero_mul, Nat.add_zero]
    rw [← ht]
    exact finish_bad (i := .add d a b) (body := fun s => .ok (setA s d (regA s a + regA s b))) hw hbad
  · exact answers_of (i := .eret) hs (by rfl) (eretBody_of hr hf hc hj hv hw)

end Sys2Proof.Machine

/-! PROOFS of Skidder slots: arithmetic, predicates, reductions and loop generators (12 R324, R326-R328, R330). -/

namespace Sys2Proof.Machine

open Sys2Proof

section
variable {s : State} {pkg stk slot el isl key w k n i : Nat} {st : Stream} {e r : Elem} {t : Token} {g : GenState} {rest : List (Nat × Nat × Nat)}

/-! ## Bitwise results as tokens -/

theorem datum_toNat (x : BitVec 32) : datum x.toNat = { data := x, level := 0 } := by
  unfold datum
  rw [BitVec.ofNat_toNat, BitVec.setWidth_eq]

theorem datum_and (x y : BitVec 32) : datum (x.toNat &&& y.toNat) = { data := x &&& y, level := 0 } := by
  rw [← BitVec.toNat_and, datum_toNat]

theorem datum_or (x y : BitVec 32) : datum (x.toNat ||| y.toNat) = { data := x ||| y, level := 0 } := by
  rw [← BitVec.toNat_or, datum_toNat]

theorem datum_xor (x y : BitVec 32) : datum (x.toNat ^^^ y.toNat) = { data := x ^^^ y, level := 0 } := by
  rw [← BitVec.toNat_xor, datum_toNat]

/-! ## Reductions -/

/-- What KRED sets by the level of its token. -/
def kredSets (s : State) (pkg key el : Nat) (st : Stream) (e r : Elem) (w : Nat) (t : Token) : State :=
  if t.level = 0 then setStream (freeStep s) pkg key (kEffect st el e w (freeResult s) none
    (some (BitVec.ofNat 32 (opBits (kAux4 w) (kFMT w) (kNumL r w) (t.data.toNat % 2 ^ kWidth (kFMT w))).1)))
  else if t.level = 7 then setStream s pkg key (kEffect st el e w t.data (some t) none)
  else if t.level < kAux7 w then setStream (freeStep s) pkg key (kEffect st el e w (freeResult s) none none)
  else if t.level = kAux7 w then setStream s pkg key (kEffect st el e w (BitVec.ofNat 32 (kNumL r w)) (some (datum (kNumL r w)))
    (some (BitVec.ofNat 32 (identityBits (kAux4 w) (kFMT w)))))
  else setStream s pkg key (kEffect st el e w 0 (some (marker (t.level - kAux7 w))) none)

theorem kred_of (h : kTurn s pkg (streamKey stk slot) el isl 0x11 = some (st, e, r, w)) : exec (.kred pkg stk slot el isl) s =
    .next (kClose pkg (streamKey stk slot) (passIdle pkg (streamKey stk slot)
      (kredSets s pkg (streamKey stk slot) el st e r w (kSource r (kSA w))))) := by
  show execKred pkg stk slot el isl s = _
  unfold execKred
  dsimp only
  rw [h]
  rfl

theorem kNum_of {op : Nat} {f : Nat → Nat → Nat → Nat} (h : kTurn s pkg (streamKey stk slot) el isl op = some (st, e, r, w)) :
    kNum op f pkg stk slot el isl s = .next (kDone s pkg (streamKey stk slot) el st e w (datum (f (kFMT w) (kNumA r w) (kNumB r w)))) := by
  unfold kNum
  exact kPure_of h

theorem kcvt_of (h : kTurn s pkg (streamKey stk slot) el isl 0x0E = some (st, e, r, w)) : exec (.kcvt pkg stk slot el isl) s =
    .next (kDone (freeStep s) pkg (streamKey stk slot) el st e w
      (datum (convertElem (kFMT w) 0 (cvtTag (kAux7 w)) (kAux4 w) (seedRnd (freeNow s)) (kNumA r w)).1)) := by
  show execKcvt pkg stk slot el isl s = _
  unfold execKcvt
  dsimp only
  rw [h]
  rfl

theorem bool_ite_eq_toNat (b : Bool) : (if b then 1 else 0) = b.toNat := by
  cases b <;> rfl

theorem ksel_source (c : Bool) (x y : Nat) : (kSource r (if c then x else y)).data = if c then (kSource r x).data else (kSource r y).data := by
  cases c <;> rfl

/-! ## Loop generators -/

/-- An element has its turn when one of its slots does. -/
theorem kBegin_of_kTurn {op : Nat} (h : kTurn s pkg key el isl op = some (st, e, r, w)) : kBegin s pkg key el el = some (st, e, r) := by
  unfold kTurn at h
  split at h
  · cases h
  · next hb =>
    dsimp only at h
    split_ifs at h
    simp only [Option.some.injEq, Prod.mk.injEq] at h
    obtain ⟨rfl, rfl, rfl, -⟩ := h
    exact hb

theorem klgen_starts (h : kTurn s pkg (streamKey stk slot) el isl 0x28 = some (st, e, r, w)) (hg : e.gen = none) :
    exec (.klgen pkg stk slot el isl) s =
      .next (kClose pkg (streamKey stk slot) (passIdle pkg (streamKey stk slot) (genStart s pkg (streamKey stk slot) st el isl e r w))) := by
  show execKlgen pkg stk slot el isl s = _
  unfold execKlgen
  dsimp only
  rw [kBegin_of_kTurn h, h]
  dsimp only
  rw [hg]
  rfl

theorem klgen_runs (h : kBegin s pkg (streamKey stk slot) el el = some (st, e, r)) (hg : e.gen = some g) (hs : g.slot = isl)
    (hc : genCan (atStart st) el r g = true) : exec (.klgen pkg stk slot el isl) s =
      .next (kClose pkg (streamKey stk slot) (passIdle pkg (streamKey stk slot) (genStep s pkg (streamKey stk slot) st el e g))) := by
  show execKlgen pkg stk slot el isl s = _
  unfold execKlgen
  dsimp only
  rw [h]
  dsimp only
  rw [hg]
  dsimp only
  rw [hc, hs]
  simp only [decide_true, Bool.and_true, if_true]
  rfl

section
variable (hf : g.frames = (k, n, i) :: rest) (hw : w = e.slots.getD g.slot 0)
include hf hw

theorem genStep_ends (hn : n ≤ i) (ho : outRoom st el (kOUT w) = true) : genStep s pkg key st el e g =
    setStream s pkg key (enqueueOn (withElem st el (genLeft e g rest g.c)) el (kOUT w) (marker k)) := by
  subst hw
  unfold genStep
  dsimp only
  rw [hf]
  dsimp only
  rw [if_pos hn, if_pos ho]
  rfl

theorem genStep_index (hn : i < n) (hk : k ≤ 1) (ho : outRoom st el (kOUT w) = true) : genStep s pkg key st el e g =
    setStream s pkg key (enqueueOn (withElem st el (genLeft e g ((k, n, i + 1) :: rest) (g.c + 1))) el (kOUT w) (genIndex e g i)) := by
  subst hw
  unfold genStep
  dsimp only
  rw [hf]
  dsimp only
  rw [if_neg (Nat.not_le.2 hn), if_pos hk, if_pos ho]
  rfl

theorem genStep_inner (hn : i < n) (hk : 1 < k) (ht : headOf e (kSA w) = some t) (h0 : t.level = 0) : genStep s pkg key st el e g =
    setStream s pkg key (withElem st el (genLeft (dequeue e (2 ^ kSA w)) g ((k - 1, t.data.toNat, 0) :: (k, n, i + 1) :: rest) g.c)) := by
  subst hw
  unfold genStep
  dsimp only
  rw [hf]
  dsimp only
  rw [if_neg (Nat.not_le.2 hn), if_neg (Nat.not_le.2 hk), ht]
  dsimp only
  rw [if_neg (by omega), if_neg (not_not_intro h0)]
  rfl

end

end

/-- Settles O44: a slot's result by its operation, KRED by its token's level, KLGEN by its innermost frame. -/
theorem skidderOperations : Obligations.SkidderOperations := by
  unfold Obligations.SkidderOperations
  refine ⟨?_, ?_⟩
  · rintro s pkg stk slot el isl key w st e r rfl
    refine ⟨fun h => ?_, fun h => ?_, fun h => ?_, fun h => ?_, fun h => ?_, fun h => ?_, fun h => ?_, fun h => ?_, fun h => ?_, fun h => ?_,
      fun h => ?_, fun h => ?_, fun h => ?_, fun h => ?_, fun h => ?_, fun h => ?_, fun h => ?_, fun h => ?_, fun h => ?_⟩
    · show execKadd pkg stk slot el isl s = _
      exact kNum_of h
    · show execKsub pkg stk slot el isl s = _
      exact kNum_of h
    · show execKmul pkg stk slot el isl s = _
      exact kNum_of h
    · show execKmac pkg stk slot el isl s = _
      exact kPure_of h
    · show execKand pkg stk slot el isl s = _
      rw [← datum_and]
      exact kPure_of h
    · show execKor pkg stk slot el isl s = _
      rw [← datum_or]
      exact kPure_of h
    · show execKxor pkg stk slot el isl s = _
      rw [← datum_xor]
      exact kPure_of h
    · show execKshl pkg stk slot el isl s = _
      exact kNum_of h
    · show execKshr pkg stk slot el isl s = _
      exact kNum_of h
    · show execKcmp pkg stk slot el isl s = _
      rw [bool_ite_eq_toNat]
      exact kPure_of h
    · show execKsel pkg stk slot el isl s = _
      rw [ksel_source]
      exact kPure_of h
    · show execKmin pkg stk slot el isl s = _
      exact kNum_of h
    · show execKmax pkg stk slot el isl s = _
      exact kNum_of h
    · exact kcvt_of h
    · show execKpopc pkg stk slot el isl s = _
      exact kPure_of h
    · show execKpass pkg stk slot el isl s = _
      exact kPure_of h
    · show execKend pkg stk slot el isl s = _
      exact kPure_of h
    · show execKsetp pkg stk slot el isl s = _
      exact kPreds_of h
    · show execKclrp pkg stk slot el isl s = _
      exact kPreds_of h
  · rintro s pkg stk slot el isl key w k n i st e r t g rest rfl
    refine ⟨?_, ?_, ?_⟩
    · rintro h rfl
      rw [kred_of h]
      unfold kredSets
      refine ⟨fun h0 => ?_, fun h7 => ?_, fun h0 h7 hl => ?_, fun h0 h7 hl => ?_, fun h7 hl => ?_⟩
      · rw [if_pos h0]
        rfl
      · rw [if_neg (by omega), if_pos h7]
        rfl
      · rw [if_neg (by omega), if_neg (by omega), if_pos hl]
        rfl
      · rw [if_neg (by omega), if_neg (by omega), if_neg (by omega), if_pos hl]
        rfl
      · rw [if_neg (by omega), if_neg (by omega), if_neg (by omega), if_neg (by omega)]
        rfl
    · rintro h hg rfl h0
      rw [klgen_starts h hg]
      unfold genStart
      dsimp only
      rw [if_neg (by omega), if_neg (not_not_intro h0)]
      rfl
    · rintro hb hg rfl hc hf rfl
      rw [klgen_runs hb hg rfl hc]
      refine ⟨fun hn ho => ?_, fun hn hk ho => ?_, fun hn hk ht h0 => ?_⟩
      · rw [genStep_ends hf rfl hn ho]
        rfl
      · rw [genStep_index hf rfl hn hk ho]
        rfl
      · rw [genStep_inner hf rfl hn hk ht h0]
        rfl

end Sys2Proof.Machine

/-! PROOFS of the stream port, memory elements, near-bank forms and waves of the Skidder (12 R329, R331-R333, R343, R345; 11 R300). -/

namespace Sys2Proof.Machine

open Sys2Proof

section
variable {s u v v' : State} {pkg stk slot el isl w n : Nat} {st st' : Stream} {e r : Elem} {bs : List Byte} {x at_ : Word}

/-! ## The stream port -/

section
variable (h : kTurn s pkg (streamKey stk slot) el isl 0x20 = some (st, e, r, w))
include h

theorem kdeq_ends (hp : st.len ≤ st.pos) :
    exec (.kdeq pkg stk slot el isl) s = .next (kDone s pkg (streamKey stk slot) el (dequeuedAll st) e w (marker 7)) := by
  show execKdeq pkg stk slot el isl s = _
  unfold execKdeq
  dsimp only
  rw [h]
  dsimp only
  rw [if_pos hp]
  rfl

theorem kdeq_takes (hp : st.pos < st.len) (hd : st.dir = true) (ht : takeBytes s st (kBytes (kFMT w)) = some (u, st', .ok bs)) :
    exec (.kdeq pkg stk slot el isl) s =
      .next (kDone u pkg (streamKey stk slot) el (movedOn st' (kBytes (kFMT w))) e w (datum (leNat bs))) := by
  show execKdeq pkg stk slot el isl s = _
  unfold execKdeq
  dsimp only
  rw [h]
  dsimp only
  rw [if_neg (Nat.not_le.2 hp), if_pos hd, ht]
  rfl

theorem kdeq_fails (hp : st.pos < st.len) (hd : st.dir = true) (ht : takeBytes s st (kBytes (kFMT w)) = some (u, st', .error x)) :
    exec (.kdeq pkg stk slot el isl) s = .next (kEnds u pkg (streamKey stk slot) st' 2 x) := by
  show execKdeq pkg stk slot el isl s = _
  unfold execKdeq
  dsimp only
  rw [h]
  dsimp only
  rw [if_neg (Nat.not_le.2 hp), if_pos hd, ht]
  rfl

theorem kdeq_reads (hp : st.pos < st.len) (hd : st.dir = false)
    (hr : skidRead s pkg (streamKey stk slot) st (st.base + word st.pos) (kBytes (kFMT w)) (st.pos != 0) = (u, some bs)) :
    exec (.kdeq pkg stk slot el isl) s = .next (kDone (skidLines u pkg stk st (st.base + word st.pos) (kBytes (kFMT w)) (st.pos != 0)) pkg
      (streamKey stk slot) el (movedOn st (kBytes (kFMT w))) e w (datum (leNat bs))) := by
  show execKdeq pkg stk slot el isl s = _
  unfold execKdeq
  dsimp only
  rw [h]
  dsimp only
  rw [if_neg (Nat.not_le.2 hp), if_neg (by rw [hd]; decide), hr]
  rfl

end

section
variable (h : kTurn s pkg (streamKey stk slot) el isl 0x21 = some (st, e, r, w))
include h

section
variable (ha : (kSource r (kSA w)).level = 0) (hd : st.dir = true) (hl : st.wrote + kBytes (kFMT w) ≤ st.len)
  (hw : skidWrite s pkg (streamKey stk slot) st (st.base + word st.wrote) (leBytes (kBytes (kFMT w)) (kSource r (kSA w)).data.toNat) = (u, true))
  (hv : v = skidLines u pkg stk st (st.base + word st.wrote) (kBytes (kFMT w)) (st.wrote != 0))
include ha hd hl hw hv

theorem kenq_writes (hf : freePassed v (wroteOn st (kBytes (kFMT w))) (passedCount (wroteOn st (kBytes (kFMT w)))) = .ok (v', st')) :
    exec (.kenq pkg stk slot el isl) s = .next (kSilent v' pkg (streamKey stk slot) el st' e w none) := by
  subst hv
  unfold wroteOn at hf
  show execKenq pkg stk slot el isl s = _
  unfold execKenq
  dsimp only
  rw [h]
  dsimp only
  rw [if_pos hd, if_neg (by omega), if_neg (not_not_intro ha), if_neg (by omega), hw]
  dsimp only
  rw [hf]
  rfl

theorem kenq_writes_fails (hf : freePassed v (wroteOn st (kBytes (kFMT w))) (passedCount (wroteOn st (kBytes (kFMT w)))) = .error x) :
    exec (.kenq pkg stk slot el isl) s = .next (kEnds v pkg (streamKey stk slot) (wroteOn st (kBytes (kFMT w))) 2 x) := by
  subst hv
  unfold wroteOn at hf
  show execKenq pkg stk slot el isl s = _
  unfold execKenq
  dsimp only
  rw [h]
  dsimp only
  rw [if_pos hd, if_neg (by omega), if_neg (not_not_intro ha), if_neg (by omega), hw]
  dsimp only
  rw [hf]
  rfl

end

section
variable (ha : (kSource r (kSA w)).level = 0) (hd : st.dir = false)
  (hs : st' = withPart st (st.part ++ leBytes (kBytes (kFMT w)) (kSource r (kSA w)).data.toNat))
include ha hd hs

theorem kenq_keeps (hl : st'.part.length < st.tile) :
    exec (.kenq pkg stk slot el isl) s = .next (kSilent s pkg (streamKey stk slot) el st' e w none) := by
  subst hs
  unfold withPart at hl ⊢
  dsimp only at hl
  show execKenq pkg stk slot el isl s = _
  unfold execKenq
  dsimp only
  rw [h]
  simp only [hd, ha, Bool.false_eq_true, if_false, if_true, decide_eq_true_eq]
  rw [if_neg (Nat.not_le.2 hl)]
  simp only [if_neg (Nat.not_le.2 hl), OfNat.zero_ne_ofNat, if_false]
  rfl

theorem kenq_delivers (hl : st.tile ≤ st'.part.length) (hb : ringBad s st' = none) : exec (.kenq pkg stk slot el isl) s =
    .next (kSilent (deliverTile s st' ((padTile st').take st.tile)) pkg (streamKey stk slot) el (withPart st' (st'.part.drop st.tile)) e w none) := by
  subst hs
  unfold withPart at hl hb ⊢
  dsimp only at hl
  simp only [hd] at hb
  show execKenq pkg stk slot el isl s = _
  unfold execKenq
  dsimp only
  rw [h]
  simp only [hd, ha, Bool.false_eq_true, if_false, if_true, decide_eq_true_eq]
  rw [if_pos hl, hb]
  simp only [if_pos hl, OfNat.zero_ne_ofNat, if_false]
  rfl

end

theorem kenq_ends (hd : st.dir = true) (ha : (kSource r (kSA w)).level = 7) (hf : freePassed s st st.passing.length = .ok (v', st')) :
    exec (.kenq pkg stk slot el isl) s = .next (kEnds (setStream (freeStep v') pkg (streamKey stk slot)
      (kEffect st' el e w (freeResult v') none none)) pkg (streamKey stk slot) (kEffect st' el e w 0 none none) 0 0) := by
  show execKenq pkg stk slot el isl s = _
  unfold execKenq
  dsimp only
  rw [h]
  dsimp only
  rw [if_pos hd, if_pos ha, hf]
  rfl

end

theorem freePassed_of {g : Ring} {sub : RingSub} {rest : List RingSub} (hr : st.rings = sub :: rest) (hn : n ≠ 0) (hg : subRing s sub = some g)
    (hb : ringBad s st = none) :
    freePassed s st n = .ok ((st.passing.take n).foldl (fun s x => ringFree' s g x.1 sub.consumer) s, leftPassing st n) := by
  cases n with
  | zero => exact absurd rfl hn
  | succ n =>
    unfold freePassed
    rw [show st.rings.head? = some sub by rw [hr]; rfl]
    simp only [hg, hb]
    rfl

/-! ## Memory elements and near-bank forms -/

theorem kmrd_of {b : Token} (h : kTurn s pkg (streamKey stk slot) el isl 0x30 = some (st, e, r, w))
    (hm : memRead s pkg (streamKey stk slot) stk st e w (kSource r (kSA w)) = (u, some b)) :
    exec (.kmrd pkg stk slot el isl) s = .next (kDone u pkg (streamKey stk slot) el st e w b) := by
  show execKmrd pkg stk slot el isl s = _
  unfold execKmrd
  dsimp only
  rw [h]
  dsimp only
  rw [hm]
  rfl

theorem kmwr_of (h : kTurn s pkg (streamKey stk slot) el isl 0x31 = some (st, e, r, w)) (hl : (kSource r (kSA w)).level = (kSource r (kSB w)).level)
    (hm : memWriteElem s pkg (streamKey stk slot) stk st e w (kSource r (kSA w)) (kSource r (kSB w)) = (u, true)) :
    exec (.kmwr pkg stk slot el isl) s = .next (kSilent u pkg (streamKey stk slot) el st e w none) := by
  show execKmwr pkg stk slot el isl s = _
  unfold execKmwr
  dsimp only
  rw [h]
  dsimp only
  rw [if_neg (not_not_intro hl), hm]
  rfl

/-- A near-bank form whose command succeeds gives a token that the spec does not state. -/
theorem kNear_of {op nb k : Nat} {src : Word} (h : kTurn s pkg (streamKey stk slot) el isl op = some (st, e, r, w))
    (hs : src = if nb = 1 then window st e + word (kSource r (kSA w)).data.toNat else window st e + word (kSource r (kSB w)).data.toNat)
    (hc : nbCommand s (streamWho (streamKey stk slot / 64) st) nb (kf w 0 2) ((kSource r (kSB w)).data.toNat % 2 ^ (8 * nbSize (kf w 0 2))) 256
      [(window st e + word (kSource r (kSA w)).data.toNat, src)] = (u, k, 0, 0, at_)) :
    kNear op nb pkg stk slot el isl s = .next (kDone (freeStep u) pkg (streamKey stk slot) el st e w { data := freeResult u, level := 0 }) := by
  subst hs
  unfold kNear
  dsimp only
  rw [h]
  dsimp only
  rw [hc]
  rfl

/-! ## Waves -/

section
variable {l : List (List Byte)} {out : List (Nat × Token)} (h : kBegin s pkg (streamKey stk slot) el (waveTurn el) = some (st, e, r))
  (hw : waveReady (atStart st) el r = true) (hl : (waveLevels e).any (fun x => x != (waveLevels e).headD 0) = false)
include h hw hl

theorem wave_markers (hn : (waveLevels e).headD 0 ≠ 0) (hm : waveMarkers ((waveLevels e).headD 0) (sortOrd (ordSlots e)) s = (u, out)) :
    exec (.wave pkg stk slot el) s = .next (waveDone u pkg (streamKey stk slot) el st e out) := by
  unfold waveLevels at hl hn hm
  show execWave pkg stk slot el s = _
  unfold execWave
  dsimp only
  rw [h]
  dsimp only
  rw [hw, hl]
  simp only [Bool.not_true, Bool.false_eq_true, if_false]
  rw [if_pos hn, hm]
  rfl

theorem wave_accesses (hn : (waveLevels e).headD 0 = 0) (hc : waveCheck s (streamKey stk slot) st e (sortOrd (ordSlots e)) = (u, .done l))
    (hr : waveRun u pkg (streamKey stk slot) stk (waveKept st el e) el e (sortOrd (ordSlots e)) [] = (v, some out)) :
    exec (.wave pkg stk slot el) s = .next (waveDone v pkg (streamKey stk slot) el (waveKept st el e) e out) := by
  unfold waveLevels at hl hn
  unfold waveKept at hr
  show execWave pkg stk slot el s = _
  unfold execWave
  dsimp only
  rw [h]
  dsimp only
  rw [hw, hl]
  simp only [Bool.not_true, Bool.false_eq_true, if_false]
  rw [if_neg (not_not_intro hn), hc]
  dsimp only
  rw [hr]
  rfl

end

end

/-- Settles O45: each slot by its own lemma above, in the stream that its turn names. -/
theorem skidderMemory : Obligations.SkidderMemory := by
  unfold Obligations.SkidderMemory
  rintro s u v v' pkg stk slot el isl key w st st' e r a b bs rfl rfl rfl
  refine ⟨fun h => ⟨kdeq_ends h, kdeq_takes h, fun x => kdeq_fails h, fun hp hd hr hv => ?_⟩, fun h ha hbs => ⟨fun hd hl hw hv => ⟨?_, fun x => ?_⟩,
      fun hd hs => ⟨fun hl => ?_, fun hl hb => ?_⟩⟩, fun h hd ha hf => kenq_ends h hd ha hf,
    fun n g sub rest hr hn hg hb => freePassed_of hr hn hg hb, fun h hm => kmrd_of h hm, fun h hl hm => kmwr_of h hl hm,
    fun k at_ => ⟨fun h hc => ?_, fun h hc => ?_, fun h hc => ?_⟩, ?_⟩
  · subst hv
    exact kdeq_reads h hp hd hr
  · subst hbs
    exact kenq_writes h ha hd hl hw hv
  · subst hbs
    exact kenq_writes_fails h ha hd hl hw hv
  · subst hbs
    exact kenq_keeps h ha hd hs hl
  · subst hbs
    exact kenq_delivers h ha hd hs hl hb
  · show execKnbadd pkg stk slot el isl s = _
    exact kNear_of h rfl hc
  · show execKnbscl pkg stk slot el isl s = _
    exact kNear_of h rfl hc
  · show execKnbsum pkg stk slot el isl s = _
    exact kNear_of h rfl hc
  · rintro n l out h hw hl rfl
    exact ⟨fun hn hm => wave_markers h hw hl hn hm, fun hn hc hr => wave_accesses h hw hl hn hc hr⟩

end Sys2Proof.Machine

/-! PROOFS of the events of engines, of the Sawmill and of Cruise (11 R293, R294, R296; 10 R265, R272-R285). -/

namespace Sys2Proof.Machine

open Sys2Proof

/-! ## Engine operations -/

section
variable {s u v : State} {core n : Nat} {o : EngOp} {bs bs' : List (List Byte)}

section
variable (h : (getCore s core).ops[n]? = some o)
include h

theorem engineStart_waits (hp : o.phase = .waiting) (hm : afterMet s (opAfter core o) (o.sets.getD 2 0) = false) :
    exec (.engineOperationStart core n) s = .next s := by
  refine congrArg Host.Outcome.next ?_
  rw [h]
  dsimp only
  rw [hp]
  exact if_pos (by rw [hm]; simp)

theorem engineStart_starts (hp : o.phase = .waiting) (hq : (getPkg s (corePkg core)).quiet.contains o.job = false)
    (hm : afterMet s (opAfter core o) (o.sets.getD 2 0) = true) :
    exec (.engineOperationStart core n) s = .next (runOp (opStarted s core o) core o) := by
  refine congrArg Host.Outcome.next ?_
  rw [h]
  dsimp only
  rw [hp]
  dsimp only
  rw [hq, hm, if_neg (by decide)]
  unfold opStarted
  refine congrArg (fun t => runOp t core o) ?_
  by_cases h4 : o.unit = 4 ∧ o.word / 2 ^ 16 % 32 = 1
  · rw [if_pos h4, if_pos (by simpa using h4)]
  · rw [if_neg h4, if_neg (by simpa using h4)]

theorem engineStart_runs (hp : o.phase = .running) : exec (.engineOperationStart core n) s = .next (runOp s core o) := by
  refine congrArg Host.Outcome.next ?_
  rw [h]
  dsimp only
  rw [hp]

theorem engineCompletion_leaves (hp : o.phase = .finished) (h4 : o.sets.getD 4 0 = 0) :
    exec (.engineOperationCompletion core n) s = .next (opLeft s core o) := by
  refine congrArg Host.Outcome.next ?_
  rw [h]
  dsimp only
  rw [if_neg (not_not_intro hp), if_pos h4]
  rfl

theorem engineCompletion_writes (hp : o.phase = .finished) (h4 : o.sets.getD 4 0 ≠ 0)
    (hw : engineWrite s (opWho core o) o.id [(o.sets.getD 4 0, statusBytes s core o)] = (u, .done bs)) :
    exec (.engineOperationCompletion core n) s = .next (opLeft u core o) := by
  refine congrArg Host.Outcome.next ?_
  rw [h]
  dsimp only
  rw [if_neg (not_not_intro hp), if_neg h4, hw]
  rfl

end

/-- An ECOPY whose accesses succeed and whose bytes do not meet ends with code 0. -/
theorem runOp_copy (hu : o.unit = 0) (hr : engineRead s (opWho core o) o.id (copyReads o) = (u, .done bs))
    (hw : engineWrite u (opWho core o) o.id (copyWrites o bs) = (v, .done bs')) (hc : copyClash u (opWho core o) (copyMoves o) = false) :
    runOp s core o = opDeliver (finishEng v core o.id 0 0 0) core o (copyLen o * (copyPlaces o).length) := by
  unfold runOp
  rw [hu]
  show startCopy s core o = _
  unfold startCopy
  unfold copyReads copyMoves copyPlaces copyLen at hr
  unfold copyWrites copyMoves copyPlaces copyLen at hw
  unfold copyMoves copyPlaces copyLen at hc
  dsimp only
  rw [hr]
  dsimp only
  rw [hw]
  dsimp only
  rw [hc]
  rfl

end

/-- Settles O46: each event by its operation's phase. -/
theorem engineEvents : Obligations.EngineEvents := by
  unfold Obligations.EngineEvents
  intro s u v core n o bs bs' h
  refine ⟨fun hp hq => ⟨engineStart_starts h hp hq, engineStart_waits h hp⟩, fun hp => ⟨engineStart_runs h hp, fun hu hr hw hc => ?_⟩,
    fun hp => ⟨engineCompletion_leaves h hp, engineCompletion_writes h hp⟩⟩
  rw [engineStart_runs h hp, runOp_copy hu hr hw hc]

/-! ## The Sawmill -/

theorem modGrove_congr {s : State} {g : Nat} {f f' : Grove → Grove} (h : f (getGrove s g) = f' (getGrove s g)) : modGrove s g f = modGrove s g f' := by
  unfold modGrove
  rw [h]

section
variable {s u : State} {g n t q k : Nat} {op : SawOp} {rest : List SawOp} {r : SawRun} {x pa pb c : Word}

theorem mayEnter_of {o : Obj} {wait queue : List SawOp} (hn : wait[n]? = some op) (hm : afterMet s op.after op.target = true) (hl : queue.length < 32)
    (hb : op.after.isSome = true ∨ behindOther s o (wait.take n) queue op.core op.born = false) : mayEnter s o wait queue n = true := by
  unfold mayEnter
  rw [hn]
  rcases hb with hb | hb <;> simp [hm, hl, hb]

theorem queueEntry_saw (hn : (getGrove s g).sawWait[n]? = some op) (hm : afterMet s op.after op.target = true)
    (hl : (getGrove s g).saw.length < 32)
    (hb : op.after.isSome = true ∨ behindOther s (.sawmill g) ((getGrove s g).sawWait.take n) (getGrove s g).saw op.core op.born = false) :
    exec (.sawmillQueueEntry g n) s =
      .next (modGrove s g (fun w => { w with saw := (getGrove s g).saw ++ [op], sawWait := w.sawWait.eraseIdx n })) := by
  refine congrArg Host.Outcome.next ((if_pos (mayEnter_of hn hm hl hb)).trans (modGrove_congr ?_))
  rw [hn]
  rfl

theorem queueEntry_cru (hn : (getGrove s g).cruWait[n]? = some op) (hm : afterMet s op.after op.target = true)
    (hl : (getGrove s g).cru.length < 32)
    (hb : op.after.isSome = true ∨ behindOther s (.cruise g) ((getGrove s g).cruWait.take n) (getGrove s g).cru op.core op.born = false) :
    exec (.sawmillQueueEntry g ((getGrove s g).sawWait.length + n)) s =
      .next (modGrove s g (fun w => { w with cru := (getGrove s g).cru ++ [op], cruWait := w.cruWait.eraseIdx n })) := by
  have h0 : mayEnter s (.sawmill g) (getGrove s g).sawWait (getGrove s g).saw ((getGrove s g).sawWait.length + n) = false := by
    unfold mayEnter
    rw [List.getElem?_eq_none (Nat.le_add_right _ n)]
  have hk : (getGrove s g).sawWait.length + n - (getGrove s g).sawWait.length = n := Nat.add_sub_cancel_left ..
  refine congrArg Host.Outcome.next ((if_neg (by rw [h0]; decide)).trans ((if_pos ?_).trans (modGrove_congr ?_)))
  · rw [hk, mayEnter_of hn hm hl hb]
    simp
  · rw [hk, hn]
    rfl

theorem sawmillStart_begins (h : (getGrove s g).saw = op :: rest) (hr : isRead op.kind = false) (hs : sawReady s g = true)
    (hq : quietJob s (grovePkg g) op.job = false) : exec (.sawmillStart g) s = .next (sawBegun s g op rest) := by
  refine congrArg Host.Outcome.next ?_
  rw [h]
  dsimp only
  rw [hr, hs, hq]
  rfl

/-- What a Sawmill operation does at its completion, and whether it is then done. -/
def sawDoes (s : State) (r : SawRun) : State × Bool :=
  match r.op.kind with
  | .zero t mode => (doZero s r.op t mode, true)
  | .load isB _ ctl => (r.runs.foldl (fun s st => doLoad s r.op isB ctl st) s, true)
  | .run _ _ _ => (r.runs.foldl (fun s st => doRun s r.op st) s, true)
  | .masked _ _ _ _ _ _ _ _ _ => (r.runs.foldl (fun s st => doRun s r.op st) s, true)
  | .store dst stride t cvt => doStore s r.op dst stride t cvt
  | .scale t rows cols pl => (doScale s r.op t rows cols pl, true)
  | .read _ _ => (s, true)
  | .cruise _ _ _ _ => (s, true)

theorem sawmillCompletion_of (h : (getGrove s g).sawRun = some r) {done : Bool} (hd : sawDoes s r = (u, done)) :
    exec (.sawmillCompletion g) s = .next (if done then sawDone u g r.op else u) := by
  have he : exec (.sawmillCompletion g) s = .next (if (sawDoes s r).2 then sawDone (sawDoes s r).1 g r.op else (sawDoes s r).1) := by
    refine congrArg Host.Outcome.next ?_
    rw [h]
    rfl
  simpa only [hd] using he

/-! ## Cruise -/

theorem cruiseStart_begins (h : (getGrove s g).cru = op :: rest) (hr : cruReady s g = true) (hq : quietJob s (grovePkg g) op.job = false) :
    exec (.cruiseStart g) s = .next (modGrove (countCruise s (grovePkg g)) g (fun w => { w with cru := rest, cruRun := some op })) := by
  refine congrArg Host.Outcome.next ?_
  rw [h]
  dsimp only
  rw [hr, hq]
  rfl

theorem cruiseCompletion_stores (h : (getGrove s g).cruRun = some op) (ho : op.kind = .cruise pa pb x c)
    (hq : cruRead s op pa (geoQBytes x / 1024) (geoQN x) = .ok q) (hk : cruRead s op pb (geoKBytes x / 1024) (geoKN x) = .ok k)
    (hf : fencedFor s (hwWho op.core op.job) (keyCore (sawKey op.core c)) = false)
    (hb : ∀ e, e ∈ cruEntries x → storeBad s (cruPlace (sawKey op.core c) e) 4 = none) :
    exec (.cruiseCompletion g) s = .next (cruDone (cruStored s (sawKey op.core c) q k x) g op 0) := by
  have hany : (cruEntries x).any (fun e => (storeBad s (sawKey op.core c + 4 * (16 * e.1 + e.2)) 4).isSome) = false :=
    List.any_eq_false.2 fun e he => by
      have := hb e he
      unfold cruPlace at this
      rw [this]
      decide
  unfold cruEntries at hany
  refine congrArg Host.Outcome.next ?_
  rw [h]
  dsimp only
  rw [ho]
  dsimp only
  rw [hq, hk, hf, hany]
  rfl

end

/-- Settles O47: entry, start and completion by what stands in the grove's queues. -/
theorem sawmillEvents : Obligations.SawmillEvents := by
  unfold Obligations.SawmillEvents
  intro s u g n t mode q k op rest r x pa pb c sa sb
  refine ⟨fun hn hm hl hb => queueEntry_saw hn hm hl hb, fun hn hm hl hb => queueEntry_cru hn hm hl hb, fun h hr hs hq => sawmillStart_begins h hr hs hq,
    fun h => ?_, fun h hr hq => cruiseStart_begins h hr hq, fun h ho hq hk hf hb => cruiseCompletion_stores h ho hq hk hf hb⟩
  refine ⟨fun ho => ?_, fun isB ho => ?_, fun ho => ?_, fun row tadv m d ho => ?_, fun cvt ho => ⟨fun hd => ?_, fun hd => ?_⟩,
    fun rows cols pl ho => ?_⟩
  · exact sawmillCompletion_of (done := true) h (by unfold sawDoes; rw [ho])
  · exact sawmillCompletion_of (done := true) h (by unfold sawDoes; rw [ho])
  · exact sawmillCompletion_of (done := true) h (by unfold sawDoes; rw [ho])
  · exact sawmillCompletion_of (done := true) h (by unfold sawDoes; rw [ho])
  · exact sawmillCompletion_of (done := true) h (by unfold sawDoes; rw [ho]; exact hd)
  · exact sawmillCompletion_of (done := false) h (by unfold sawDoes; rw [ho]; exact hd)
  · exact sawmillCompletion_of (done := true) h (by unfold sawDoes; rw [ho])

end Sys2Proof.Machine

/-! PROOFS of packets at their receiver, resends, acceptance and discards (02 R19-R23, R45, R48; 17 R390, R391; 19 R429). -/

namespace Sys2Proof.Machine

open Sys2Proof

section
variable {s t u : State} {n core num i : Nat} {p : Packet} {m : Msg} {c : Claim} {h : HandlerEntry} {r : Refused}

/-! ## The first packet of a message -/

section
variable (hf : findHandler s core m m.payload.length = (t, .ok h))
include hf

theorem firstPacket_accepted (hl : m.payload = []) (ha : arrive t core (launchRec m 0 p.src h.addr 0) = (u, true)) :
    firstPacket s core p m = acceptPacket u p := by
  unfold firstPacket
  dsimp only
  rw [hf]
  dsimp only
  rw [if_pos (by rw [hl]; rfl), ha]

theorem firstPacket_refused (hl : m.payload = []) (ha : arrive t core (launchRec m 0 p.src h.addr 0) = (u, false)) :
    firstPacket s core p m = refusePacket t p := by
  unfold firstPacket
  dsimp only
  rw [hf]
  dsimp only
  rw [if_pos (by rw [hl]; rfl), ha]

theorem firstPacket_claims (hl : m.payload ≠ [])
    (hi : lowestFree (fun j => (getCore t core).slots.contains (h.pool + j * h.size)) h.slots 0 = some i) :
    firstPacket s core p m =
      morePacket (claimSlot t core p m (h.pool + i * h.size) h.addr) core p m (claimNew t p m (h.pool + i * h.size) h.addr) := by
  unfold firstPacket
  dsimp only
  rw [hf]
  dsimp only
  rw [if_neg (by rwa [List.length_eq_zero_iff]), hi]
  rfl

theorem firstPacket_noSlot (hl : m.payload ≠ [])
    (hi : lowestFree (fun j => (getCore t core).slots.contains (h.pool + j * h.size)) h.slots 0 = none) :
    firstPacket s core p m = refusePacket t p := by
  unfold firstPacket
  dsimp only
  rw [hf]
  dsimp only
  rw [if_neg (by rwa [List.length_eq_zero_iff]), hi]

end

/-! ## Arrival -/

/-- The claim that the packets of a message have made before. -/
def claimOf (s : State) (p : Packet) (m : Msg) : Option Claim := (getCore s m.dst).claims.find? (fun c => c.src == p.src && c.num == p.num)

/-- What a packet of a held message finds at its receiver. -/
def packetMeets (s : State) (n : Nat) (p : Packet) (m : Msg) : State :=
  if (getPkg s (corePkg p.src)).unreachable.contains (corePkg m.dst) then s
  else if !inCores s m.dst m.job then purgeMsg s p.src p.num
  else if (getPkg s (corePkg m.dst)).quiet.contains m.job then pushOr s (refusePacket (netWithout s n) p) m
  else if fencedFor s (hwWho p.src m.job) m.dst then
    if entryHeld s m.dst m then s else
    let s := match claimOf s p m with
      | some c => dropClaim s m.dst c
      | none => s
    purgeMsg (discardMsg (entryPc s m.dst m).1 m.dst p.src m m.payload.length cFenced (entryPc s m.dst m).2 (windowAddr m.dst 0)) p.src p.num
  else match claimOf s p m with
    | some c => morePacket (netWithout s n) m.dst p m c
    | none => if entryHeld s m.dst m then s else pushOr s (firstPacket (netWithout s n) m.dst p m) m

theorem arrival_of (hp : s.net[n]? = some p) (hm : heldMsg s p.src p.num = some m) : exec (.packetArrival n) s = .next (packetMeets s n p m) := by
  refine congrArg Host.Outcome.next ?_
  rw [hp]
  dsimp only
  rw [hm]
  rfl

section
variable (hr : (getPkg s (corePkg p.src)).unreachable.contains (corePkg m.dst) = false)
include hr

theorem packetMeets_outside (hc : inCores s m.dst m.job = false) : packetMeets s n p m = purgeMsg s p.src p.num := by
  unfold packetMeets
  rw [hr, hc]
  rfl

variable (hc : inCores s m.dst m.job = true)
include hc

theorem packetMeets_quiet (hq : (getPkg s (corePkg m.dst)).quiet.contains m.job = true) :
    packetMeets s n p m = pushOr s (refusePacket (netWithout s n) p) m := by
  unfold packetMeets
  rw [hr, hc, hq]
  rfl

variable (hq : (getPkg s (corePkg m.dst)).quiet.contains m.job = false)
include hq

theorem packetMeets_fence_held (hf : fencedFor s (hwWho p.src m.job) m.dst = true) (he : entryHeld s m.dst m = true) : packetMeets s n p m = s := by
  unfold packetMeets
  rw [hr, hc, hq, hf, he]
  rfl

theorem packetMeets_fence (hf : fencedFor s (hwWho p.src m.job) m.dst = true) (he : entryHeld s m.dst m = false) (hn : claimOf s p m = none) :
    packetMeets s n p m = purgeMsg (discardMsg (entryPc s m.dst m).1 m.dst p.src m m.payload.length cFenced (entryPc s m.dst m).2
      (windowAddr m.dst 0)) p.src p.num := by
  unfold packetMeets
  rw [hr, hc, hq, hf, he, hn]
  rfl

variable (hf : fencedFor s (hwWho p.src m.job) m.dst = false)
include hf

theorem packetMeets_claim (hn : claimOf s p m = some c) : packetMeets s n p m = morePacket (netWithout s n) m.dst p m c := by
  unfold packetMeets
  rw [hr, hc, hq, hf, hn]
  rfl

theorem packetMeets_held (hn : claimOf s p m = none) (he : entryHeld s m.dst m = true) : packetMeets s n p m = s := by
  unfold packetMeets
  rw [hr, hc, hq, hf, hn, he]
  rfl

theorem packetMeets_first (hn : claimOf s p m = none) (he : entryHeld s m.dst m = false) :
    packetMeets s n p m = pushOr s (firstPacket (netWithout s n) m.dst p m) m := by
  unfold packetMeets
  rw [hr, hc, hq, hf, hn, he]
  rfl

end

/-! ## Discards -/

theorem discard_apart (h : (getCore s core).claims[n]? = some c) (hl : c.last + 2 ^ 20 ≤ s.cycle) (ha : apart s (corePkg core) (corePkg c.src) = true) :
    exec (.partialMessageDiscard core n) s = .next (dropClaim s core c) := by
  refine congrArg Host.Outcome.next ?_
  rw [h]
  exact if_pos (by rw [ha, decide_eq_true hl]; rfl)

theorem discard_late (h : (getCore s core).claims[n]? = some c) (hl : c.last + 2 ^ 20 < s.cycle) (ha : apart s (corePkg core) (corePkg c.src) = false)
    (hp : (getCore s core).phys ≠ 32) (he : entryHeld s core c.msg = false) : exec (.partialMessageDiscard core n) s =
      .next (discardMsg (purgeMsg (dropClaim (entryPc s core c.msg).1 core c) c.src c.num) core c.src c.msg c.len cFenced (entryPc s core c.msg).2
        (windowAddr core 0)) := by
  refine congrArg Host.Outcome.next ?_
  rw [h]
  exact (if_neg (by rw [ha, Bool.and_false]; decide)).trans (if_pos (by rw [he, decide_eq_true hl, decide_eq_true hp]; rfl))

end

/-- Settles O48: a packet by what it finds at its receiver; a refused one by when it is due; a claim by its age. -/
theorem messageEvents : Obligations.MessageEvents := by
  unfold Obligations.MessageEvents
  intro s t u n core num i p m c r h
  refine ⟨fun hp => ⟨fun hm => ?_, fun hm hr => ?_⟩, fun t => ?_, fun hr => ⟨fun hd => ?_, fun hd => ?_⟩, fun hm hl ht => ?_,
    fun a b => ?_, fun h => ⟨discard_apart h, discard_late h⟩⟩
  · refine congrArg Host.Outcome.next ?_
    rw [hp]
    dsimp only
    rw [hm]
    rfl
  · rw [arrival_of hp hm]
    refine ⟨fun hc => ?_, fun hc hq => ?_, fun hc hq hf => ⟨fun he => ?_, fun he hn => ?_⟩,
      fun hc hq hf => ⟨fun hn => ?_, fun hn he => ?_, fun hn he hh => ?_⟩⟩
    · rw [packetMeets_outside hr hc]
    · rw [packetMeets_quiet hr hc hq]
    · rw [packetMeets_fence_held hr hc hq hf he]
    · rw [packetMeets_fence hr hc hq hf he hn]
    · rw [packetMeets_claim hr hc hq hf hn]
    · rw [packetMeets_held hr hc hq hf hn he]
    · rw [packetMeets_first hr hc hq hf hn he]
      refine ⟨fun hl ha => ?_, fun hl ha => ?_, fun hl hi => ?_, fun hl hi => ?_⟩
      · rw [firstPacket_accepted hh hl ha]
      · rw [firstPacket_refused hh hl ha]
      · rw [firstPacket_claims hh hl hi]
      · rw [firstPacket_noSlot hh hl hi]
  · unfold pushOr
    simp only [Bool.and_eq_true, decide_eq_true_eq]
  · refine congrArg Host.Outcome.next ?_
    rw [hr]
    exact if_pos hd
  · refine congrArg Host.Outcome.next ?_
    rw [hr]
    exact if_neg (Nat.not_le.2 hd)
  · subst ht
    refine congrArg Host.Outcome.next ?_
    rw [hm]
    exact if_neg (not_not_intro hl)
  · unfold apart
    rw [Bool.or_eq_true]

end Sys2Proof.Machine

/-! PROOFS of the events of records (02 R31-R33, R43, R47-R50): deck refill, aging, the start of a record,
hardware suspension. -/
namespace Sys2Proof.Machine
open Sys2Proof

section

theorem refillOne_empty {s : State} {core prio : Nat} (h : kget (getCore s core).deckOrder [] prio = []) :
    refillOne s core prio = flushLaunches s core := by
  unfold refillOne
  dsimp only
  rw [h]

theorem refillOne_taken {s v : State} {core prio job : Nat} {rest : List Nat} {bs : List Byte}
    (h : kget (getCore s core).deckOrder [] prio = job :: rest) (hl : (queueOf (getCore s core) prio).length < 32)
    (hf : (getCore s core).fenced = none)
    (hr : hwRead (deckTaken s core prio job rest) (hwWho core job)
      (deckAddr (jobD s (corePkg core) job) core prio (deckOf s core job prio).head) 64 = (v, .ok bs)) :
    refillOne s core prio = flushLaunches (enqueue v core (plainRec (recOf bs))) core := by
  have hn : ¬ (decide (32 ≤ (queueOf (getCore s core) prio).length) || (getCore s core).fenced.isSome) = true := by
    simp [hf, hl]
  unfold deckTaken at hr
  unfold refillOne
  dsimp only
  rw [h]
  dsimp only
  rw [if_neg hn, hr]

theorem overdue_iff (s : State) (core prio : Nat) (q : QRec) :
    overdue s core prio q = true ↔
      prio ≠ 0 ∧ q.age + 4096 ≤ s.cycle ∧ (jobD s (corePkg core) q.r.job).cap < prio := by
  simp [overdue, and_assoc]

/-! ## Aging -/

theorem agedMove_early {s : State} {core prio n : Nat} {q : QRec} (hq : (queueOf (getCore s core) prio)[n]? = some q)
    (h : overdue s core prio q = false) : agedMove s core prio n = none := by
  unfold agedMove
  rw [hq]
  dsimp only
  rw [h]
  rfl

theorem agedMove_launch {s : State} {core prio n : Nat} {q : QRec} (hq : (queueOf (getCore s core) prio)[n]? = some q)
    (h : overdue s core prio q = true) (hh : q.handler ≠ none) :
    agedMove s core prio n
      = some (flushLaunches (launchPush (queueWithout s core prio n) core (coreId core) (raised q prio)) core) := by
  obtain ⟨x, hx⟩ := Option.ne_none_iff_exists'.1 hh
  unfold agedMove raised
  rw [hq]
  dsimp only
  rw [h, hx]
  rfl

theorem agedMove_arrive {s t : State} {core prio n : Nat} {q : QRec} {b : Bool}
    (hq : (queueOf (getCore s core) prio)[n]? = some q) (h : overdue s core prio q = true) (hh : q.handler = none)
    (ha : arrive (queueWithout s core prio n) core (raised q prio).r = (t, b)) :
    agedMove s core prio n = if b then some (flushLaunches t core) else none := by
  unfold queueWithout raised at ha
  unfold agedMove
  rw [hq]
  dsimp only
  rw [h, hh]
  dsimp only [Bool.not_true]
  rw [if_neg (by decide), ha]
  cases b <;> rfl

theorem agedMove_eq_none_iff {s : State} {core prio n : Nat} {q : QRec}
    (hq : (queueOf (getCore s core) prio)[n]? = some q) :
    agedMove s core prio n = none ↔
      overdue s core prio q = false ∨
        (q.handler = none ∧ (arrive (queueWithout s core prio n) core (raised q prio).r).2 = false) := by
  by_cases ho : overdue s core prio q = false
  · simp [agedMove_early hq ho, ho]
  · have ho' : overdue s core prio q = true := by simpa using ho
    by_cases hh : q.handler = none
    · rw [agedMove_arrive hq ho' hh (Prod.eta _).symm]
      cases (arrive (queueWithout s core prio n) core (raised q prio).r).2 <;> simp [ho', hh]
    · rw [agedMove_launch hq ho' hh]
      simp [ho', hh]

theorem recordAging_first {s : State} {core prio n : Nat} (h : ∀ i, i < n → agedMove s core prio i = none) :
    exec (.recordAging core prio n) s = .next ((agedMove s core prio n).getD s) := by
  refine congrArg Host.Outcome.next (if_neg ?_)
  simp only [List.any_eq_true, List.mem_range, not_exists, not_and]
  intro i hi
  simp [h i hi]

theorem recordAging_behind {s : State} {core prio n i : Nat} (hi : i < n) (h : (agedMove s core prio i).isSome = true) :
    exec (.recordAging core prio n) s = .next s :=
  congrArg Host.Outcome.next (if_pos (List.any_eq_true.2 ⟨i, List.mem_range.2 hi, h⟩))

theorem recordAging_stays {s : State} {core prio n : Nat} (h : agedMove s core prio n = none) :
    exec (.recordAging core prio n) s = .next s := by
  refine congrArg Host.Outcome.next ?_
  rw [h]
  exact ite_self s

/-! ## The start of a record -/

section
variable {s t : State} {core ctx i p : Nat} {q : QRec} {l : List QRec} (hd : dormantCtx s core = some ctx)
  (hf : (getCore s core).fenced = none) (ho : (getCore s core).offMark = false)
include hd hf ho

theorem recordStart_queue (hq : queuePick s core = some (p, q)) :
    exec (.recordStart core) s = .next (flushLaunches (startLaunch (queueTaken s core p) ctx q) core) := by
  refine congrArg Host.Outcome.next ?_
  dsimp only
  rw [hd]
  dsimp only
  rw [hf, ho, hq]
  rfl

theorem recordStart_pool (hq : queuePick s core = none)
    (hp : poolPick s core (poolAll (getGrove s (coreGrove core))) = some i)
    (ht : poolTake s (coreGrove core) i = (t, some q)) :
    exec (.recordStart core) s = .next (if frameHeld s core q then s else startResume t ctx q) := by
  refine congrArg Host.Outcome.next ?_
  dsimp only
  rw [hd]
  dsimp only
  rw [hf, ho, hq]
  dsimp only
  rw [hp]
  dsimp only
  rw [ht]
  rfl

theorem recordStart_deque (hq : queuePick s core = none)
    (hp : poolPick s core (poolAll (getGrove s (coreGrove core))) = none) (hl : (getCore s core).deque = q :: l)
    (hm : mayStart s core q.r.job = true) :
    exec (.recordStart core) s = .next (if frameHeld s core q then s else startResume (dequeTaken s core l) ctx q) := by
  refine congrArg Host.Outcome.next ?_
  dsimp only
  rw [hd]
  dsimp only
  rw [hf, ho, hq]
  dsimp only
  rw [hp]
  dsimp only
  rw [hl]
  dsimp only
  rw [hm]
  cases frameHeld s core q <;> rfl

theorem recordStart_stolen (hq : queuePick s core = none)
    (hp : poolPick s core (poolAll (getGrove s (coreGrove core))) = none) (hl : (getCore s core).deque = [])
    (hs : stealFrom s core = some (p, q)) :
    exec (.recordStart core) s
      = .next (if frameHeld s core q then s else startResume (dequeStolen s p) ctx (stolen q)) := by
  refine congrArg Host.Outcome.next ?_
  dsimp only
  rw [hd]
  dsimp only
  rw [hf, ho, hq]
  dsimp only
  rw [hp]
  dsimp only
  rw [hl]
  dsimp only
  rw [hs]
  rfl

end

/-- The only record of a deque is not stolen from an owner that would pop it itself. -/
theorem ownerPops_of_stealFrom {s : State} {c core : Nat} {q : QRec} (h : stealFrom s c = some (core, q))
    (hl : (getCore s core).deque.length = 1) : ownerPops s core = false := by
  obtain ⟨k, -, hk⟩ := List.mem_filterMap.1 (List.mem_of_head? h)
  dsimp only at hk
  split at hk
  · cases hk
  · split at hk
    · next r _ =>
      split at hk
      · next hc =>
        obtain ⟨hv, -⟩ := Prod.mk.inj (Option.some.inj hk)
        rw [hv, hl] at hc
        simpa using (Bool.and_eq_true_iff.1 hc).2
      · cases hk
    · cases hk

/-- With no record beyond the pool's own store, a take moves nothing up. -/
theorem poolTake_pool {s : State} {g k : Nat} {x : QRec} (h : (getGrove s g).pool[k]? = some x)
    (hr : (getGrove s g).ring = []) (hb : (getGrove s g).behind = []) :
    poolTake s g k = (modGrove s g (fun u => { u with pool := u.pool.eraseIdx k }), some x) := by
  obtain ⟨hk, -⟩ := List.getElem?_eq_some_iff.1 h
  unfold poolTake
  dsimp only
  rw [if_pos hk, h]
  unfold poolSettle
  simp only [getGrove_modGrove, hr, hb]
  rfl

/-! ## Hardware suspension -/

section
variable {s t : State} {ctx since seq home : Nat} {o : Obj} (hw : (getCtx s ctx).status = .waiting o since seq)
include hw

/-- A request that can be performed, and a thread whose object was lost, keep the context. -/
theorem hardwareSuspension_keeps
    (h : requestReady s ctx = true ∨ (getCtx s ctx).lost = true ∨ groupGone s o = true) :
    exec (.hardwareSuspension ctx) s = .next s := by
  refine congrArg Host.Outcome.next ?_
  dsimp only
  rw [hw]
  dsimp only
  split
  · rfl
  · refine if_pos ?_
    obtain h | h | h := h <;> simp [h]

variable (hp : parkHome ctx o = some home) (h0 : 0 < (jobD s (corePkg (ctxCore ctx)) (getCtx s ctx).job).wth)
  (hc : since + (jobD s (corePkg (ctxCore ctx)) (getCtx s ctx).job).wth ≤ s.cycle)
  (hl : (getCore s home).park.length < 64) (hr : requestReady s ctx = false) (hu : unacked s ctx = none)
  (hlost : (getCtx s ctx).lost = false) (hg : groupGone s o = false)
include hp h0 hc hl hr hu hlost hg

theorem hardwareSuspension_parks {addr : Word}
    (hs : spill (releaseWaits s ctx) (ctxCore ctx) (getCtx s ctx) = (t, .at addr)) :
    exec (.hardwareSuspension ctx) s = .next (parkedAt t ctx home (getCtx s ctx) o addr) := by
  refine congrArg Host.Outcome.next ?_
  dsimp only
  rw [hw]
  dsimp only
  rw [hp]
  dsimp only
  rw [if_neg (by simp [Nat.pos_iff_ne_zero.1 h0, hc, hl, hr, hu, hlost, hg]), hs]
  rfl

theorem hardwareSuspension_noFrame
    (hs : spill (releaseWaits s ctx) (ctxCore ctx) (getCtx s ctx) = (t, .none)) :
    exec (.hardwareSuspension ctx) s = .next s := by
  refine congrArg Host.Outcome.next ?_
  dsimp only
  rw [hw]
  dsimp only
  rw [hp]
  dsimp only
  rw [if_neg (by simp [Nat.pos_iff_ne_zero.1 h0, hc, hl, hr, hu, hlost, hg]), hs]

end

end

/-- Settles O49: refill and aging of a landing queue, the start of a record by the place it comes from, suspension. -/
theorem recordEvents : Obligations.RecordEvents := by
  unfold Obligations.RecordEvents
  intro s t v core prio n job ctx i p home since seq q rest l bs c o addr
  refine ⟨fun h => congrArg Host.Outcome.next (refillOne_empty h),
    fun h hl hf hr => congrArg Host.Outcome.next (refillOne_taken h hl hf hr),
    fun hq => ⟨agedMove_eq_none_iff hq, fun ho hi => ⟨fun hh ha => ?_, fun hh ha => ?_, fun hh => ?_⟩, fun h => ?_⟩,
    overdue_iff s core prio q,
    fun hd hf ho => ⟨recordStart_queue hd hf ho, recordStart_pool hd hf ho, recordStart_deque hd hf ho,
      recordStart_stolen hd hf ho, fun _ => ownerPops_of_stealFrom⟩,
    fun hw h => hardwareSuspension_keeps hw (.inl h), fun hw h => hardwareSuspension_keeps hw (.inr h),
    fun g k x => poolTake_pool, ?_⟩
  · rw [recordAging_first hi, agedMove_arrive hq ho hh ha]
    rfl
  · rw [recordAging_first hi, agedMove_arrive hq ho hh ha]
    rfl
  · rw [recordAging_first hi, agedMove_launch hq ho hh]
    rfl
  · obtain h | ⟨i, hi, h⟩ := h
    · exact recordAging_stays (agedMove_early hq h)
    · exact recordAging_behind hi h
  · rintro rfl hw hp h0 hc hl hr hu hlost hg
    exact ⟨hardwareSuspension_parks hw hp h0 hc hl hr hu hlost hg,
      hardwareSuspension_noFrame hw hp h0 hc hl hr hu hlost hg⟩

end Sys2Proof.Machine

/-! PROOFS of the events of home slices and translation (03 R82-R87, 04 R105-R107, R114). -/
namespace Sys2Proof.Machine
open Sys2Proof

section

/-! ## Stores reach their homes -/

theorem storeRegistration_home {s : State} {n : Nat} {p : PendingStore} (h : s.stores[n]? = some p)
    (hr : p.remote = false) : exec (.storeRegistration n) s = .next (reachHome s n) := by
  refine congrArg Host.Outcome.next ?_
  rw [h]
  dsimp only
  rw [hr]
  rfl

theorem remoteStoreAcknowledgement_eq {s : State} {n : Nat} {p : PendingStore} (h : s.stores[n]? = some p)
    (hr : p.remote = true) :
    exec (.remoteStoreAcknowledgement n) s = .next (if awayStore s p then s else reachHome s n) := by
  refine congrArg Host.Outcome.next ?_
  rw [h]
  dsimp only
  rw [hr]
  rfl

theorem remoteStoreAcknowledgement_nacked {s : State} {n : Nat} {p : PendingStore} (h : s.stores[n]? = none)
    (hn : s.nacked[n - s.stores.length]? = some p) :
    exec (.remoteStoreAcknowledgement n) s = .next (turnedAway s (n - s.stores.length) p) := by
  refine congrArg Host.Outcome.next ?_
  rw [h]
  dsimp only
  rw [hn]
  rfl

/-! ## Owned words and partial results go home -/

theorem evictWord_owned {s : State} {core k : Nat} (h : (List.range 8).any (ownsByte s core k) = true)
    (hb : s.bad.contains (l1Mark core k) = false) : evictWord s core k = dropL1Word (dwordHome s core k) core k := by
  have hn : ¬ (!(List.range 8).any (ownsByte s core k)) = true := by simp [h]
  exact (if_neg hn).trans (if_neg (by rw [hb]; decide))

theorem evictWord_unowned {s : State} {core k : Nat} (h : (List.range 8).any (ownsByte s core k) = false) :
    evictWord s core k = dropL1Word s core k := by
  have hn : (!(List.range 8).any (ownsByte s core k)) = true := by simp [h]
  exact if_pos hn

theorem updateOnlyFlush_at {s : State} {g line i : Nat} {q : Partial}
    (h : s.partials.findIdx? (partialAt g line) = some i) (hq : s.partials[i]? = some q) :
    exec (.updateOnlyFlush g line) s
      = .next (if q.bad then keyNotice (partialsWithout s i) 0x1FFF (line / 64 * 64) else combine (partialsWithout s i) q) := by
  refine congrArg Host.Outcome.next ?_
  show (match s.partials.findIdx? (partialAt g line) with
    | none => s
    | some i => _) = _
  rw [h]
  dsimp only
  rw [hq]
  rfl

/-! ## Translation -/

theorem tlbMissRequest_migrating {s : State} {core job va : Nat} (h : migrating s (corePkg core) job va = true) :
    exec (.tlbMissRequest core job va) s = .next s :=
  congrArg Host.Outcome.next (if_pos (by simp [h]))

section
variable {s : State} {core job va : Nat} (ha : (astEntry s (corePkg core) job).getLsbD 0 = true)
  (hm : migrating s (corePkg core) job va = false) (hv : va < 28 * 2 ^ 52) (ht : tlbFind (getCore s core).tlb job va = none)
include ha hm hv ht

theorem tlbMissRequest_hit {e : TlbEntry} (h : tlbFind (getGrove s (transHome core job va)).tlb2 job va = some e) :
    exec (.tlbMissRequest core job va) s = .next (installAt s core (transHome core job va) e) := by
  refine congrArg Host.Outcome.next ?_
  rw [if_neg (by simp only [ha, hm, ht]; simpa using hv), h]

theorem tlbMissRequest_miss (h : tlbFind (getGrove s (transHome core job va)).tlb2 job va = none) :
    exec (.tlbMissRequest core job va) s
      = .next (missArrives s (transHome core job va) { core := core, job := job, va := va, due := 0 }) := by
  refine congrArg Host.Outcome.next ?_
  rw [if_neg (by simp only [ha, hm, ht]; simpa using hv), h]

end

theorem walkRetry_at {s : State} {g n : Nat} {m : Miss} (h : (getGrove s g).walkRef[n]? = some m) :
    exec (.walkRetry g n) s = .next (if s.cycle < m.due then s else walkAgain s g n m) := by
  refine congrArg Host.Outcome.next ?_
  rw [h]
  rfl

/-- What a completed walk of miss m leaves, after the slice has let its requesters go. -/
def walkResult (s t : State) (g : Nat) (m : Miss) : State :=
  if migrating t (grovePkg g) m.job m.va then t
  else match walk t (grovePkg g) (coreDie m.core) m.job m.va with
    | .leaf e =>
      let r := if permits .read e then setAD t e false else (t, e)
      installAll r.1 g ((getGrove s g).walks.filter (samePage m)) r.2
    | _ => t

theorem walkCompletion_at {s : State} {g n : Nat} {m : Miss} (h : (getGrove s g).walks[n]? = some m) :
    exec (.walkCompletion g n) s = .next (walkResult s (walkDone s g m) g m) := by
  refine congrArg Host.Outcome.next ?_
  rw [h]
  rfl

theorem walkResult_leaf {s t : State} {g : Nat} {m : Miss} {e : TlbEntry}
    (hm : migrating t (grovePkg g) m.job m.va = false) (h : walk t (grovePkg g) (coreDie m.core) m.job m.va = .leaf e) :
    walkResult s t g m = installAll (if permits .read e then setAD t e false else (t, e)).1 g
      ((getGrove s g).walks.filter (samePage m)) (if permits .read e then setAD t e false else (t, e)).2 := by
  unfold walkResult
  rw [if_neg (by simp [hm]), h]

theorem walkResult_absent {s t : State} {g : Nat} {m : Miss} (hm : migrating t (grovePkg g) m.job m.va = false)
    (h : walk t (grovePkg g) (coreDie m.core) m.job m.va = .absent) : walkResult s t g m = t := by
  unfold walkResult
  rw [if_neg (by simp [hm]), h]

theorem tlbinvCompletion_at {s : State} {pkg n : Nat} {x : Shoot} (h : (getPkg s pkg).shoots[n]? = some x) :
    exec (.tlbinvCompletion pkg n) s = .next (shotDown s pkg n x) := by
  refine congrArg Host.Outcome.next ?_
  rw [h]
  rfl

end

/-- Settles O50: each event of a home slice by what it finds there. -/
theorem homeEvents : Obligations.HomeEvents := by
  unfold Obligations.HomeEvents
  intro s t u n core key g line i job va pkg p q e e' m x
  refine ⟨fun h => ⟨storeRegistration_home h, fun hr ha => ?_, fun hr ha => ?_⟩, remoteStoreAcknowledgement_nacked,
    ⟨fun h hb => congrArg Host.Outcome.next (evictWord_owned h hb),
      fun h => congrArg Host.Outcome.next (evictWord_unowned h)⟩,
    fun h hq => ⟨fun hb => ?_, fun hb => ?_⟩, tlbMissRequest_migrating,
    fun ha hm hv ht => ⟨tlbMissRequest_hit ha hm hv ht, tlbMissRequest_miss ha hm hv ht⟩,
    fun h => ⟨fun hd => ?_, fun hd => ?_⟩, ?_, tlbinvCompletion_at⟩
  · rw [remoteStoreAcknowledgement_eq h hr, if_neg (by simp [ha])]
  · rw [remoteStoreAcknowledgement_eq h hr, if_pos ha]
  · rw [updateOnlyFlush_at h hq, if_neg (by simp [hb])]
  · rw [updateOnlyFlush_at h hq, if_pos hb]
  · rw [walkRetry_at h, if_neg (Nat.not_lt.2 hd)]
  · rw [walkRetry_at h, if_pos hd]
  · rintro h rfl
    rw [walkCompletion_at h]
    refine ⟨fun hm => congrArg Host.Outcome.next (if_pos hm), fun hm hw => ⟨fun hp ha => ?_, fun hp => ?_⟩,
      fun hm hw => congrArg Host.Outcome.next (walkResult_absent hm hw)⟩
    · rw [walkResult_leaf hm hw, if_pos hp, ha]
    · rw [walkResult_leaf hm hw, if_neg (by simp [hp])]

end Sys2Proof.Machine

/-! PROOFS of the page requests (13 R354-R356, 18 R405, 20 R441): retry, ring entry, the host's answer. -/
namespace Sys2Proof.Machine
open Sys2Proof

section

theorem landingRetry_waiting {s : State} {ctx since seq k : Nat}
    (h : (getCtx s ctx).status = .waiting (.landing k) since seq) :
    exec (.landingRetry ctx) s = .next (if since + 256 ≤ s.cycle then runsAgain s ctx else s) := by
  refine congrArg Host.Outcome.next ?_
  rw [h]
  rfl

theorem pageRequestEntry_oldest {s : State} {pkg i gen : Nat} {q : PageReq}
    (h : ((getPkg s pkg).landOrder.filterMap (pageWaiting (getPkg s pkg))).head? = some (i, gen, q)) :
    exec (.pageRequestEntry pkg) s = .next (if !ringRoom (getPkg s pkg) then s else entryWritten s pkg i gen q) := by
  refine congrArg Host.Outcome.next ?_
  rw [h]
  rfl

/-- An answer that no held message precedes acts at once. -/
theorem pageRequestAnswer_acts {s : State} {pkg value : Nat} (h : value.testBit 12 = false ∨ (getPkg s pkg).hostHeld = []) :
    exec (.pageRequestAnswer pkg value) s = .next (actAnswer s pkg value) := by
  refine congrArg Host.Outcome.next (if_neg ?_)
  obtain h | h := h <;> simp [h]

theorem pageRequestAnswer_held {s : State} {pkg value : Nat} (hv : value.testBit 12 = true)
    (h : (getPkg s pkg).hostHeld ≠ []) : exec (.pageRequestAnswer pkg value) s = .next (answerHeld s pkg value) :=
  congrArg Host.Outcome.next (if_pos (by simp [hv, h]))

section
variable {s : State} {pkg value gen : Nat} {q : PageReq}
  (h : kfind (getPkg s pkg).landing (value % 4096) = some { gen := gen, req := some q })
include h

theorem actAnswer_stale (hg : gen ≠ value / 2 ^ 32 % 2 ^ 32) : actAnswer s pkg value = staleAnswer s pkg := by
  unfold actAnswer
  dsimp only
  rw [h]
  exact if_pos hg

theorem actAnswer_yes (hg : gen = value / 2 ^ 32 % 2 ^ 32) (hv : value.testBit 12 = true) :
    actAnswer s pkg value = q.parked.foldl (fun t e => answerYes t pkg q e) (freeLandSlot s pkg (value % 4096)) := by
  unfold actAnswer
  dsimp only
  rw [h]
  exact (if_neg (not_not_intro hg)).trans (if_pos hv)

theorem actAnswer_no (hg : gen = value / 2 ^ 32 % 2 ^ 32) (hv : value.testBit 12 = false) :
    actAnswer s pkg value
      = refuseOps (q.parked.foldl (fun t e => answerNo t pkg e) (freeLandSlot s pkg (value % 4096))) pkg q := by
  unfold actAnswer
  dsimp only
  rw [h]
  exact (if_neg (not_not_intro hg)).trans (if_neg (by simp [hv]))

end

end

/-- Settles O51: the retry by the clock, the entry by the ring's room, the answer by its generation and its OK bit. -/
theorem pageRequests : Obligations.PageRequests := by
  unfold Obligations.PageRequests
  intro s ctx pkg i gen value since seq k q
  refine ⟨fun h => ⟨fun hc => ?_, fun hc => ?_⟩, fun h => ⟨fun hr => ?_, fun hr => ?_⟩, ?_, pageRequestAnswer_held⟩
  · rw [landingRetry_waiting h, if_pos hc]
  · rw [landingRetry_waiting h, if_neg (Nat.not_le.2 hc)]
  · rw [pageRequestEntry_oldest h, if_neg (by simp [hr])]
  · rw [pageRequestEntry_oldest h, if_pos (by simp [hr])]
  · rintro rfl h hv
    rw [pageRequestAnswer_acts hv]
    exact ⟨fun hg => congrArg _ (actAnswer_stale h hg), fun hg h1 => congrArg _ (actAnswer_yes h hg h1),
      fun hg h0 => congrArg _ (actAnswer_no h hg h0)⟩

end Sys2Proof.Machine

/-! PROOFS of the fault and fence events (02 R53, 17 R384-R392, 18 R408-R409). -/
namespace Sys2Proof.Machine
open Sys2Proof

section

theorem faultDelivery_faulting {s : State} {ctx since : Nat} {f : FaultInfo}
    (h : (getCtx s ctx).status = .faulting f since) :
    exec (.faultDelivery ctx) s
      = .next (if ringFree s (corePkg (ctxCore ctx)) (getCtx s ctx).job then deliverTrap s ctx f else s) := by
  refine congrArg Host.Outcome.next ?_
  rw [h]

theorem faultDeliveryRetry_faulting {s : State} {ctx since : Nat} {f : FaultInfo}
    (h : (getCtx s ctx).status = .faulting f since) :
    exec (.faultDeliveryRetry ctx) s = .next (if since + 256 ≤ s.cycle then deliverTrap s ctx f else s) := by
  refine congrArg Host.Outcome.next ?_
  rw [h]

theorem heartbeatMiss_fences {s : State} {ctx : Nat} (hd : (getCtx s ctx).status ≠ .dormant)
    (h0 : 0 < (jobD s (corePkg (ctxCore ctx)) (getCtx s ctx).job).hbi)
    (hb : (jobD s (corePkg (ctxCore ctx)) (getCtx s ctx).job).hbi ≤ heartbeat s ctx)
    (hf : (getCore s (ctxCore ctx)).fenced = none) :
    exec (.heartbeatMiss ctx) s = .next (fenceCore s (ctxCore ctx)) :=
  congrArg Host.Outcome.next (if_pos (by simp [hd, Nat.pos_iff_ne_zero.1 h0, hb, hf]))

theorem heartbeatMiss_unwatched {s : State} {ctx : Nat}
    (h : (jobD s (corePkg (ctxCore ctx)) (getCtx s ctx).job).hbi = 0) : exec (.heartbeatMiss ctx) s = .next s :=
  congrArg Host.Outcome.next (if_neg (by simp [h]))

theorem spareTakeover_fenced {s : State} {core since k : Nat} (hf : (getCore s core).fenced = some since)
    (hk : spareOf s (coreGrove core) = some k) :
    exec (.spareTakeover core) s = .next (if s.cycle < since + 64 then s else spareTaken s core k) := by
  refine congrArg Host.Outcome.next ?_
  dsimp only
  rw [hf, hk]
  rfl

theorem wfeTimeout_waiting {s : State} {ctx since seq k : Nat}
    (h : (getCtx s ctx).status = .waiting (.event k) since seq) :
    exec (.wfeTimeout ctx) s = .next (if since + 65536 ≤ s.cycle then wfeOver s ctx else s) := by
  refine congrArg Host.Outcome.next ?_
  rw [h]
  rfl

/-- An event of a package that has power happens. -/
theorem pkgEvent_powered {s t : State} {pkg : Nat} (h : hasPower s pkg = true) : pkgEvent s pkg t = .next t :=
  congrArg Host.Outcome.next (if_pos h)

theorem softError_corrected (s : State) {pkg c : Nat} (h : c < 8) :
    exec (.softError 11 (8 * pkg + c)) s = .next (corrBump s pkg c) := by
  refine congrArg Host.Outcome.next ?_
  rw [show (8 * pkg + c) / 8 = pkg by omega, show (8 * pkg + c) % 8 = c by omega]
  rfl

theorem softError_play (s : State) {n pkg : Nat} (h : pkg < 4096) :
    exec (.softError 12 (4096 * n + pkg)) s = .next (spoilPlay s n pkg) := by
  refine congrArg Host.Outcome.next ?_
  rw [show (4096 * n + pkg) / 4096 = n by omega, show (4096 * n + pkg) % 4096 = pkg by omega]
  rfl

theorem softError_slice {s : State} {key : Nat} (h : keyIsScratch key = false) :
    exec (.softError 13 key) s = .next (sliceSpoiled s key) :=
  congrArg Host.Outcome.next (if_neg (by simp [h]))

theorem patrolScrub_bad {s : State} {pkg block : Nat} (hp : hasPower s pkg = true) (hb : block < 2 ^ 34)
    (h : s.bad.contains (physKey pkg (32 * block)) = true) : exec (.patrolScrub pkg block) s = .next (uncBump s pkg 3) :=
  (pkgEvent_powered hp).trans (congrArg Host.Outcome.next (if_pos (by rw [h, decide_eq_true hb]; rfl)))

theorem patrolScrub_good {s : State} {pkg block : Nat} (h : s.bad.contains (physKey pkg (32 * block)) = false) :
    exec (.patrolScrub pkg block) s = .next s :=
  (congrArg (pkgEvent s pkg) (if_neg (by rw [h, Bool.and_false]; decide))).trans (congrArg Host.Outcome.next (ite_self s))

end

/-- Settles O52: the timed events by the clock, a soft error by the unit its kind names. -/
theorem faultEvents : Obligations.FaultEvents := by
  unfold Obligations.FaultEvents
  intro s ctx core since seq k key n pkg block f c
  refine ⟨fun h => ⟨fun hr => ?_, fun hr => ?_, fun hc => ?_, fun hc => ?_⟩, heartbeatMiss_fences, heartbeatMiss_unwatched,
    fun hf hk => ⟨fun hc => ?_, fun hc => ?_⟩, fun h => ⟨fun hc => ?_, fun hc => ?_⟩, pkgEvent_powered, rfl, rfl, rfl, rfl,
    rfl, rfl, rfl, rfl, rfl, rfl, rfl, softError_corrected s, softError_play s, softError_slice, patrolScrub_bad,
    patrolScrub_good⟩
  · rw [faultDelivery_faulting h, if_pos hr]
  · rw [faultDelivery_faulting h, if_neg (by simp [hr])]
  · rw [faultDeliveryRetry_faulting h, if_pos hc]
  · rw [faultDeliveryRetry_faulting h, if_neg (Nat.not_le.2 hc)]
  · rw [spareTakeover_fenced hf hk, if_neg (Nat.not_lt.2 hc)]
  · rw [spareTakeover_fenced hf hk, if_pos hc]
  · rw [wfeTimeout_waiting h, if_pos hc]
  · rw [wfeTimeout_waiting h, if_neg (Nat.not_le.2 hc)]

end Sys2Proof.Machine

/-! PROOFS of the job-table commands (13 R352, R353; 02 R35). -/
namespace Sys2Proof.Machine
open Sys2Proof

section

theorem startCommand_ignored {s : State} {pkg : Nat} (op : Nat) (h : (getPkg s pkg).busy = true ∨ hasPower s pkg = false) :
    startCommand s pkg op = s := by
  refine if_pos ?_
  obtain h | h := h <;> simp [h]

theorem startCommand_runs {s : State} {pkg : Nat} (op : Nat) (hb : (getPkg s pkg).busy = false)
    (hp : hasPower s pkg = true) : startCommand s pkg op = command (withOp s pkg op) pkg op :=
  if_neg (by simp [hb, hp])

section
variable {s t : State} {pkg : Nat}

/-! ## INSTALL, REMOVE -/

theorem cmdInstall_misaligned (h : jta s pkg 0 % 128 ≠ 0) : cmdInstall s pkg = result s pkg 1 := by
  unfold cmdInstall
  dsimp only
  rw [if_pos h]

theorem cmdInstall_unreadable (h : jta s pkg 0 % 128 = 0) (hr : physRead s pkg (jta s pkg 0) 896 = (t, none)) :
    cmdInstall s pkg = result t pkg 1 := by
  unfold cmdInstall
  dsimp only
  rw [if_neg (not_not_intro h), hr]

theorem cmdInstall_read {bs : List Byte} {job : Nat} {d : Job} {z : Bool} (h : jta s pkg 0 % 128 = 0)
    (hr : physRead s pkg (jta s pkg 0) 896 = (t, some bs)) (hd : descriptorOf bs = (job, d, z)) :
    cmdInstall s pkg = if !descriptorOk d z then result t pkg 2
      else if (jobOn t pkg job).isSome then result t pkg 3 else result (jobSet t pkg job d) pkg 0 := by
  unfold cmdInstall
  dsimp only
  rw [if_neg (not_not_intro h), hr]
  dsimp only
  rw [hd]
  rfl

theorem cmdRemove_absent (h : jobOn s pkg (jta s pkg 0) = none) : cmdRemove s pkg = result s pkg 1 := by
  unfold cmdRemove
  dsimp only
  rw [h]

theorem cmdRemove_installed {d : Job} (h : jobOn s pkg (jta s pkg 0) = some d) :
    cmdRemove s pkg = if jobBusy s pkg (jta s pkg 0) then result s pkg 3
      else result (teardown s pkg (jta s pkg 0) d) pkg 0 := by
  unfold cmdRemove
  dsimp only
  rw [h]

/-! ## ASET, SHOOT, BIND, GRANT -/

theorem cmdAset_accepted (h0 : jta s pkg 0 < 4096) (h1 : fld (getPkg s pkg).jta1 1 11 = 0)
    (h2 : fld (getPkg s pkg).jta1 52 12 = 0) :
    cmdAset s pkg = result (astSet s pkg (jta s pkg 0) (getPkg s pkg).jta1) pkg 0 :=
  if_neg (by simp [Nat.not_le.2 h0, h1, h2])

theorem cmdAset_refused (h : 4096 ≤ jta s pkg 0 ∨ fld (getPkg s pkg).jta1 1 11 ≠ 0 ∨ fld (getPkg s pkg).jta1 52 12 ≠ 0) :
    cmdAset s pkg = result s pkg 1 :=
  if_pos (by simpa [or_assoc] using h)

theorem cmdShoot_accepted (h0 : jta s pkg 0 < 3) (h1 : jta s pkg 1 < 4096) : cmdShoot s pkg = shootSet s pkg :=
  if_neg (by simp [Nat.not_le.2 h0, Nat.not_le.2 h1])

theorem cmdShoot_refused (h : 3 ≤ jta s pkg 0 ∨ 4096 ≤ jta s pkg 1) : cmdShoot s pkg = result s pkg 1 :=
  if_pos (by simpa using h)

theorem cmdBind_argument (h : 4096 ≤ jta s pkg 0 ∨ jta s pkg 1 / 2 ^ 12 % 2 ^ 51 ≠ 0) :
    cmdBind s pkg = result s pkg 1 :=
  if_pos (by simpa only [Bool.or_eq_true, decide_eq_true_iff] using h)

section
variable (h0 : jta s pkg 0 < 4096) (h1 : jta s pkg 1 / 2 ^ 12 % 2 ^ 51 = 0)
include h0 h1

theorem bind_argument_good :
    ¬ (decide (4096 ≤ jta s pkg 0) || decide (jta s pkg 1 / 2 ^ 12 % 2 ^ 51 ≠ 0)) = true := by
  simpa only [Bool.or_eq_true, decide_eq_true_iff, not_or, not_le, not_not] using And.intro h0 h1

theorem cmdBind_unbinds (hb : (jta s pkg 1).testBit 63 = true) :
    cmdBind s pkg = result (bindSet s pkg (jta s pkg 0) none) pkg 0 :=
  (if_neg (bind_argument_good h0 h1)).trans (if_pos hb)

theorem cmdBind_binds (hb : (jta s pkg 1).testBit 63 = false) (hj : (jobOn s pkg (jta s pkg 1 % 4096)).isSome = true) :
    cmdBind s pkg = result (bindSet s pkg (jta s pkg 0) (some (jta s pkg 1 % 4096))) pkg 0 :=
  (if_neg (bind_argument_good h0 h1)).trans ((if_neg (by simp [hb])).trans (if_neg fun hn => by simp [Option.isNone_iff_eq_none.1 hn] at hj))

theorem cmdBind_noJob (hb : (jta s pkg 1).testBit 63 = false) (hj : jobOn s pkg (jta s pkg 1 % 4096) = none) :
    cmdBind s pkg = result s pkg 1 :=
  (if_neg (bind_argument_good h0 h1)).trans ((if_neg (by simp [hb])).trans (if_pos (by simp [hj])))

end

theorem cmdBind_refused (h : 4096 ≤ jta s pkg 0 ∨ jta s pkg 1 / 2 ^ 12 % 2 ^ 51 ≠ 0 ∨
    ((jta s pkg 1).testBit 63 = false ∧ jobOn s pkg (jta s pkg 1 % 4096) = none)) : cmdBind s pkg = result s pkg 1 := by
  by_cases ha : 4096 ≤ jta s pkg 0 ∨ jta s pkg 1 / 2 ^ 12 % 2 ^ 51 ≠ 0
  · exact cmdBind_argument ha
  · obtain ⟨h0, h1⟩ := not_or.1 ha
    obtain ⟨hb, hj⟩ := (h.resolve_left h0).resolve_left h1
    exact cmdBind_noJob (Nat.not_le.1 h0) (not_not.1 h1) hb hj

theorem cmdGrant_refused (h : 4096 ≤ jta s pkg 0 ∨ jta s pkg 1 % 2 ^ 21 ≠ 0 ∨ 2 ^ 52 < jta s pkg 1 + jta s pkg 2 * 2 ^ 21) :
    cmdGrant s pkg = result s pkg 1 :=
  if_pos (by simpa only [Bool.or_eq_true, decide_eq_true_iff, or_assoc] using h)

theorem grantSet_append (s : State) (pkg job : Nat) (l : List (Nat × Nat)) (x : Nat × Nat) :
    grantSet s pkg job (l ++ [x]) = modPkg s pkg (fun p => { p with grants := kset p.grants job (l ++ [x]) }) := by
  unfold grantSet
  rw [show (l ++ [x]).isEmpty = false by simp]
  rfl

section
variable (h0 : jta s pkg 0 < 4096) (h1 : jta s pkg 1 % 2 ^ 21 = 0) (h2 : jta s pkg 1 + jta s pkg 2 * 2 ^ 21 ≤ 2 ^ 52)
include h0 h1 h2

theorem grant_argument_good : ¬ (decide (4096 ≤ jta s pkg 0) || decide (jta s pkg 1 % 2 ^ 21 ≠ 0) ||
    decide (2 ^ 52 < jta s pkg 1 + jta s pkg 2 * 2 ^ 21)) = true := by
  simp only [Bool.or_eq_true, decide_eq_true_iff, not_or, not_le, not_not, not_lt]
  exact ⟨⟨h0, h1⟩, h2⟩

theorem cmdGrant_clears (hn : jta s pkg 2 = 0) : cmdGrant s pkg = result (grantSet s pkg (jta s pkg 0) []) pkg 0 :=
  (if_neg (grant_argument_good h0 h1 h2)).trans (if_pos (by rw [hn, Nat.zero_mul]))

theorem cmdGrant_full (hn : 0 < jta s pkg 2) (hl : 16 ≤ (kget (getPkg s pkg).grants [] (jta s pkg 0)).length) :
    cmdGrant s pkg = result s pkg 4 :=
  (if_neg (grant_argument_good h0 h1 h2)).trans ((if_neg (by omega)).trans (if_pos hl))

theorem cmdGrant_adds (hn : 0 < jta s pkg 2) (hl : (kget (getPkg s pkg).grants [] (jta s pkg 0)).length < 16) :
    cmdGrant s pkg = result (grantSet s pkg (jta s pkg 0)
      (kget (getPkg s pkg).grants [] (jta s pkg 0) ++ [(jta s pkg 1, jta s pkg 2 * 2 ^ 21)])) pkg 0 := by
  rw [grantSet_append]
  exact (if_neg (grant_argument_good h0 h1 h2)).trans ((if_neg (by omega)).trans (if_neg (Nat.not_le.2 hl)))

end

/-! ## HOTREAD, REGION, QPSET -/

theorem cmdHotread_accepted {src pa x first n : Nat} (h : HotreadOk s pkg src pa x first n) :
    cmdHotread s pkg = result (mend (homeWrite (recallCounted s pkg (physKey pkg pa) (16 * n)) (physKey pkg pa)
      (hotEntries (getPkg s pkg) src first n)) (physKey pkg pa) (16 * n)) pkg 0 := by
  obtain ⟨rfl, rfl, rfl, rfl, rfl, h⟩ := h
  refine if_neg ?_
  simpa only [Bool.or_eq_true, decide_eq_true_iff, Bool.not_eq_true', not_or, not_le, not_lt, not_not, Bool.not_eq_false,
    Nat.pos_iff_ne_zero, and_assoc, ne_eq] using h

theorem cmdHotread_refused (h : ∀ src pa x first n : Nat, ¬ HotreadOk s pkg src pa x first n) :
    cmdHotread s pkg = result s pkg 1 := by
  refine if_pos (by_contra fun hn => h _ _ _ _ _ ⟨rfl, rfl, rfl, rfl, rfl, ?_⟩)
  simpa only [Bool.or_eq_true, decide_eq_true_iff, Bool.not_eq_true', not_or, not_le, not_lt, not_not, Bool.not_eq_false,
    Nat.pos_iff_ne_zero, and_assoc, ne_eq] using hn

theorem cmdRegion_argument (h : 2 ^ 52 ≤ jta s pkg 0 ∨ jta s pkg 2 = 0 ∨ 2 ^ 40 < jta s pkg 2) :
    cmdRegion s pkg = result s pkg 1 :=
  if_pos (by simpa only [Bool.or_eq_true, decide_eq_true_iff, or_assoc] using h)

section
variable (h0 : jta s pkg 0 < 2 ^ 52) (h1 : 0 < jta s pkg 2) (h2 : jta s pkg 2 ≤ 2 ^ 40)
include h0 h1 h2

theorem region_argument_good :
    ¬ (decide (2 ^ 52 ≤ jta s pkg 0) || decide (jta s pkg 2 = 0) || decide (2 ^ 40 < jta s pkg 2)) = true := by
  simp only [Bool.or_eq_true, decide_eq_true_iff, not_or, not_le, not_lt]
  exact ⟨⟨h0, Nat.pos_iff_ne_zero.1 h1⟩, h2⟩

theorem cmdRegion_room (hl : (getPkg s pkg).regions.length < 4096) :
    cmdRegion s pkg = result (regionSet s pkg (jta s pkg 0 % 2 ^ 32) (regionOf s pkg)) pkg 0 :=
  (if_neg (region_argument_good h0 h1 h2)).trans (if_neg (by simp [hl]))

theorem cmdRegion_full (hl : 4096 ≤ (getPkg s pkg).regions.length)
    (hk : kfind (getPkg s pkg).regions (jta s pkg 0 % 2 ^ 32) = none) : cmdRegion s pkg = result s pkg 4 :=
  (if_neg (region_argument_good h0 h1 h2)).trans (if_pos (by rw [decide_eq_true hl, hk]; rfl))

end

theorem cmdQpset_argument (h : 1024 ≤ jta s pkg 0) : cmdQpset s pkg = result s pkg 1 := if_pos h

section
variable (h0 : jta s pkg 0 < 1024)
include h0

theorem cmdQpset_clears (h : jta s pkg 1 = 0) : cmdQpset s pkg = result (qpSet s pkg (jta s pkg 0) none) pkg 0 :=
  (if_neg (Nat.not_le.2 h0)).trans (if_pos h)

theorem cmdQpset_unreadable (h : jta s pkg 1 ≠ 0) (hr : physRead s pkg (jta s pkg 1) 64 = (t, none)) :
    cmdQpset s pkg = result t pkg 1 := by
  refine (if_neg (Nat.not_le.2 h0)).trans ((if_neg h).trans ?_)
  rw [hr]

theorem cmdQpset_read {bs : List Byte} (h : jta s pkg 1 ≠ 0) (hr : physRead s pkg (jta s pkg 1) 64 = (t, some bs)) :
    cmdQpset s pkg = match contextOf bs with
      | none => result t pkg 1
      | some q => result (qpSet t pkg (jta s pkg 0) (some q)) pkg 0 := by
  refine (if_neg (Nat.not_le.2 h0)).trans ((if_neg h).trans ?_)
  rw [hr]
  rfl

theorem cmdQpset_sets {bs : List Byte} {q : QueuePair} (h : jta s pkg 1 ≠ 0)
    (hr : physRead s pkg (jta s pkg 1) 64 = (t, some bs)) (hc : contextOf bs = some q) :
    cmdQpset s pkg = result (qpSet t pkg (jta s pkg 0) (some q)) pkg 0 := by
  rw [cmdQpset_read h0 h hr, hc]

theorem cmdQpset_badContext {bs : List Byte} (h : jta s pkg 1 ≠ 0)
    (hr : physRead s pkg (jta s pkg 1) 64 = (t, some bs)) (hc : contextOf bs = none) :
    cmdQpset s pkg = result t pkg 1 := by
  rw [cmdQpset_read h0 h hr, hc]

end

end

theorem command_unknown {n : Nat} (s : State) (pkg : Nat) (h : n = 0 ∨ 9 < n) : command s pkg n = result s pkg 1 := by
  unfold command
  split <;> try omega
  rfl

/-- A write of the command register with the start bit starts the command of its low byte. -/
theorem registerWrite_starts {s : State} {pkg n : Nat} (h : n < 256) (hp : hasPower s pkg = true) :
    exec (.registerWrite pkg 0 (256 + n) 0) s = .next (startCommand s pkg n) := by
  have hv : (256 + n) % 2 ^ 64 = 256 + n := Nat.mod_eq_of_lt (by omega)
  have ht : (256 + n).testBit 8 = true := by
    rw [show 256 + n = 2 ^ 8 + n from rfl, Nat.testBit_two_pow_add_eq, Nat.testBit_lt_two_pow h]
    rfl
  refine congrArg Host.Outcome.next ((if_pos hp).trans ?_)
  unfold regWrite
  dsimp only
  rw [if_pos rfl, hv, if_pos ht, show (256 + n) % 256 = n by omega]

section
variable {s : State} {pkg : Nat} (hb : (getPkg s pkg).busy = false) (hp : hasPower s pkg = true)
include hb hp

theorem install_runs : exec (.install pkg) s = .next (cmdInstall (withOp s pkg 1) pkg) :=
  congrArg Host.Outcome.next (startCommand_runs 1 hb hp)
theorem remove_runs : exec (.remove pkg) s = .next (cmdRemove (withOp s pkg 2) pkg) :=
  congrArg Host.Outcome.next (startCommand_runs 2 hb hp)
theorem aset_runs : exec (.aset pkg) s = .next (cmdAset (withOp s pkg 3) pkg) :=
  congrArg Host.Outcome.next (startCommand_runs 3 hb hp)
theorem shoot_runs : exec (.shoot pkg) s = .next (cmdShoot (withOp s pkg 4) pkg) :=
  congrArg Host.Outcome.next (startCommand_runs 4 hb hp)
theorem bind_runs : exec (.bind pkg) s = .next (cmdBind (withOp s pkg 5) pkg) :=
  congrArg Host.Outcome.next (startCommand_runs 5 hb hp)
theorem grant_runs : exec (.grant pkg) s = .next (cmdGrant (withOp s pkg 6) pkg) :=
  congrArg Host.Outcome.next (startCommand_runs 6 hb hp)
theorem hotread_runs : exec (.hotread pkg) s = .next (cmdHotread (withOp s pkg 7) pkg) :=
  congrArg Host.Outcome.next (startCommand_runs 7 hb hp)
theorem region_runs : exec (.region pkg) s = .next (cmdRegion (withOp s pkg 8) pkg) :=
  congrArg Host.Outcome.next (startCommand_runs 8 hb hp)
theorem qpset_runs : exec (.qpset pkg) s = .next (cmdQpset (withOp s pkg 9) pkg) :=
  congrArg Host.Outcome.next (startCommand_runs 9 hb hp)

end

theorem commands_ignored {s : State} {pkg : Nat} (h : (getPkg s pkg).busy = true ∨ hasPower s pkg = false) :
    exec (.install pkg) s = .next s ∧ exec (.remove pkg) s = .next s ∧ exec (.aset pkg) s = .next s ∧
      exec (.shoot pkg) s = .next s ∧ exec (.bind pkg) s = .next s ∧ exec (.grant pkg) s = .next s ∧
      exec (.hotread pkg) s = .next s ∧ exec (.region pkg) s = .next s ∧ exec (.qpset pkg) s = .next s :=
  have hc (op : Nat) := congrArg (Host.Outcome.next (φ := Fault) (ρ := Refusal)) (startCommand_ignored op h)
  ⟨hc 1, hc 2, hc 3, hc 4, hc 5, hc 6, hc 7, hc 8, hc 9⟩

end

/-- Settles O53: each command by what its registers ask, and each RESULT by the check that fails first. -/
theorem hostCommands : Obligations.HostCommands := by
  unfold Obligations.HostCommands
  intro s t u pkg job src pa x first n bs d q z
  refine ⟨commands_ignored, fun hb hp => ?_⟩
  rw [install_runs hb hp, remove_runs hb hp, aset_runs hb hp, shoot_runs hb hp, bind_runs hb hp, grant_runs hb hp,
    hotread_runs hb hp, region_runs hb hp, qpset_runs hb hp]
  refine ⟨?_, ?_, ?_, ?_, ?_, ?_, ?_, ?_, ?_, ?_, ?_, ?_, ?_, ?_, ?_, ?_, ?_, ?_, fun h hn => ?_⟩
  · rintro rfl h hr hd hk hj
    rw [cmdInstall_read h hr hd, if_neg (by simp [hk]), if_neg (by simp [hj])]
  · rintro rfl rfl h
    rw [cmdRemove_installed h]
    exact ⟨fun hj => congrArg _ (if_neg (by simp [hj])), fun hj => congrArg _ (if_pos hj)⟩
  · rintro rfl h0 h1 h2
    exact congrArg _ (cmdAset_accepted h0 h1 h2)
  · rintro rfl h0 h1
    exact congrArg _ (cmdShoot_accepted h0 h1)
  · rintro rfl h0 h1
    exact ⟨fun h => congrArg _ (cmdBind_unbinds h0 h1 h), fun h hj => congrArg _ (cmdBind_binds h0 h1 h hj)⟩
  · rintro rfl rfl h0 h1 h2
    exact ⟨fun h => congrArg _ (cmdGrant_clears h0 h1 h2 h), fun h hl => congrArg _ (cmdGrant_adds h0 h1 h2 h hl)⟩
  · rintro rfl h
    exact congrArg _ (cmdHotread_accepted h)
  · rintro rfl h0 h1 h2 hl
    exact congrArg _ (cmdRegion_room h0 h1 h2 hl)
  · rintro rfl h0
    exact ⟨fun h => congrArg _ (cmdQpset_clears h0 h), fun h hr hc => congrArg _ (cmdQpset_sets h0 h hr hc)⟩
  · rintro rfl
    refine ⟨fun h => congrArg _ (cmdInstall_misaligned h), fun h hr => congrArg _ (cmdInstall_unreadable h hr),
      fun h hr hd => ?_⟩
    rw [cmdInstall_read h hr hd]
    exact ⟨fun hk => congrArg _ (if_pos (by simp [hk])), fun hk hj =>
      congrArg _ ((if_neg (by simp [hk])).trans (if_pos hj))⟩
  · rintro rfl h
    exact congrArg _ (cmdRemove_absent h)
  · rintro rfl h
    exact congrArg _ (cmdAset_refused h)
  · rintro rfl h
    exact congrArg _ (cmdShoot_refused h)
  · rintro rfl h
    exact congrArg _ (cmdBind_refused h)
  · rintro rfl rfl
    exact ⟨fun h => congrArg _ (cmdGrant_refused h),
      fun h0 h1 h2 h hl => congrArg _ (cmdGrant_full h0 h1 h2 h hl)⟩
  · rintro rfl h
    exact congrArg _ (cmdHotread_refused h)
  · rintro rfl
    exact ⟨fun h => congrArg _ (cmdRegion_argument h),
      fun h0 h1 h2 hl hk => congrArg _ (cmdRegion_full h0 h1 h2 hl hk)⟩
  · rintro rfl
    exact ⟨fun h => congrArg _ (cmdQpset_argument h), fun h0 h hr => congrArg _ (cmdQpset_unreadable h0 h hr),
      fun h0 h hr hc => congrArg _ (cmdQpset_badContext h0 h hr hc)⟩
  · rw [registerWrite_starts h hp, startCommand_runs n hb hp, command_unknown _ pkg hn]

end Sys2Proof.Machine

/-! PROOFS of the host's register writes, active messages and HDM accesses (13 R347, R350-R355; 20 R441). -/
namespace Sys2Proof.Machine
open Sys2Proof

section

/-! ## Registers -/

section
variable {s : State} {pkg v : Nat} (hp : hasPower s pkg = true) (hv : v < 2 ^ 64)
include hp hv

theorem registerWrite_powered (ofs : Nat) : exec (.registerWrite pkg ofs v 0) s = .next (regWrite s pkg ofs v false) := by
  refine congrArg Host.Outcome.next ((if_pos hp).trans ?_)
  rw [Nat.mod_eq_of_lt hv]
  rfl

theorem registerWrite_command :
    exec (.registerWrite pkg 0 v 0) s
      = .next (if v.testBit 8 then startCommand s pkg (v % 256) else withOp s pkg (v % 256)) := by
  rw [registerWrite_powered hp hv]
  rfl

end

/-! ## Active messages -/

section
variable {s t : State} {pkg page ofs size data job core : Nat} (hp : hasPower s pkg = true) (hg : page < 4096)
  (hr : powered s pkg = true)
include hp hg hr

theorem hostActiveMessage_refused (h : hostTarget s pkg page ofs size data = none) :
    exec (.hostActiveMessage pkg page ofs size data) s = .next (discard s pkg page) := by
  refine congrArg Host.Outcome.next ((if_pos hp).trans ((if_neg (by simp [hg, hr])).trans ?_))
  rw [h]

theorem hostActiveMessage_held (h : hostTarget s pkg page ofs size data = some (job, core))
    (hh : (getPkg s pkg).hostHeld ≠ []) :
    exec (.hostActiveMessage pkg page ofs size data) s
      = .next (hostHold (accept s pkg page) pkg core (hostRec pkg job data)) := by
  refine congrArg Host.Outcome.next ((if_pos hp).trans ((if_neg (by simp [hg, hr])).trans ?_))
  rw [h]
  exact if_pos (by simp [hh])

theorem hostActiveMessage_arrives {b : Bool} (h : hostTarget s pkg page ofs size data = some (job, core))
    (hh : (getPkg s pkg).hostHeld = []) (ha : hostArrive (accept s pkg page) core (hostRec pkg job data) = (t, b)) :
    exec (.hostActiveMessage pkg page ofs size data) s
      = .next (if b then t else hostHold (accept s pkg page) pkg core (hostRec pkg job data)) := by
  refine congrArg Host.Outcome.next ((if_pos hp).trans ((if_neg (by simp [hg, hr])).trans ?_))
  rw [h]
  dsimp only
  rw [hh, ha]
  cases b <;> rfl

end

/-! ## Held messages -/

section
variable {s t : State} {pkg v : Nat} {h : HostHeld} {l : List HostHeld} (hh : (getPkg s pkg).hostHeld = h :: l)
include hh

theorem hostMessageRetry_quiet (ha : h.answer = none) (hq : (getPkg s pkg).quiet.contains h.qrec.r.job = true) :
    exec (.hostMessageRetry pkg) s = .next s := by
  refine congrArg Host.Outcome.next ?_
  rw [hh]
  dsimp only
  rw [ha]
  exact if_pos hq

theorem hostMessageRetry_arrives {b : Bool} (ha : h.answer = none)
    (hq : (getPkg s pkg).quiet.contains h.qrec.r.job = false)
    (hr : hostArrive (heldRest s pkg l) h.core h.qrec.r = (t, b)) :
    exec (.hostMessageRetry pkg) s = .next (if b then t else s) := by
  unfold heldRest at hr
  refine congrArg Host.Outcome.next ?_
  rw [hh]
  dsimp only
  rw [ha]
  refine (if_neg (by rw [hq]; decide)).trans ?_
  rw [hr]
  cases b <;> rfl

theorem hostMessageRetry_answer (ha : h.answer = some v) :
    exec (.hostMessageRetry pkg) s = .next (actAnswer (heldRest s pkg l) pkg v) := by
  refine congrArg Host.Outcome.next ?_
  rw [hh]
  dsimp only
  rw [ha]
  rfl

end

/-! ## HDM accesses -/

theorem hostHdmAccess_outside {s : State} {pkg wr ofs size v : Nat} (h : (getPkg s pkg).hdm < ofs + size) :
    exec (.hostHdmAccess pkg wr ofs size v) s = .next s :=
  (congrArg (pkgEvent s pkg) (if_pos (by rw [decide_eq_true h]; rfl))).trans (congrArg Host.Outcome.next (ite_self s))

section
variable {s : State} {pkg wr ofs size v : Nat} (hp : hasPower s pkg = true) (hs : ofs + size ≤ (getPkg s pkg).hdm)
  (ht : hasTarget (getPkg s pkg) ioDie ofs = true)
include hp hs ht

theorem hostHdmAccess_inside :
    exec (.hostHdmAccess pkg wr ofs size v) s = .next
      (if wr ≠ 1 then hdmRead (recallCounted s pkg (physKey pkg ofs) size) pkg (physKey pkg ofs) size
        else if (storeBad (recallCounted s pkg (physKey pkg ofs) size) (physKey pkg ofs) size).isSome then
          recallCounted s pkg (physKey pkg ofs) size
        else mend (homeWrite (recallCounted s pkg (physKey pkg ofs) size) (physKey pkg ofs) (leBytes size v)) (physKey pkg ofs) size) :=
  congrArg Host.Outcome.next ((if_pos hp).trans (if_neg (by simp [hs, ht])))

end

theorem hdmRead_good {s : State} {pkg k n : Nat} (h : firstBad s k n = none) :
    hdmRead s pkg k n = modPkg s pkg (fun p => { p with hdmRead := some (leNat (homeRead s k n)) }) := by
  unfold hdmRead
  dsimp only
  rw [h]

theorem hdmRead_bad {s : State} {pkg k n x : Nat} (h : firstBad s k n = some x) :
    hdmRead s pkg k n = modPkg (countUnit s pkg (some x)) pkg (fun p => { p with hdmRead := none }) := by
  unfold hdmRead
  dsimp only
  rw [h]

end

/-- Settles O54: register writes by their offset, messages by their target and what is held, HDM accesses by their bytes. -/
theorem hostAccesses : Obligations.HostAccesses := by
  unfold Obligations.HostAccesses
  intro s t pkg v page ofs size data core job wr r h l
  refine ⟨fun hp => ⟨fun hv => ⟨fun h8 => ?_, fun h8 hb => ?_, fun h8 hb => ?_, registerWrite_powered hp hv _,
    registerWrite_powered hp hv _, registerWrite_powered hp hv _, registerWrite_powered hp hv _,
    registerWrite_powered hp hv _, registerWrite_powered hp hv _, registerWrite_powered hp hv _⟩,
    fun hg hr => ⟨hostActiveMessage_refused hp hg hr, ?_⟩, ?_⟩, fun hp => ⟨?_, ?_⟩, fun hr => ?_,
    fun hh => ⟨hostMessageRetry_quiet hh, fun ha hq => ⟨fun hr => ?_, fun hr => ?_⟩, hostMessageRetry_answer hh⟩,
    hostHdmAccess_outside⟩
  · rw [registerWrite_command hp hv, if_neg (by simp [h8])]
  · rw [registerWrite_command hp hv, if_pos h8, startCommand_ignored _ (.inl hb)]
  · rw [registerWrite_command hp hv, if_pos h8, startCommand_runs _ hb hp]
  · rintro ht rfl
    exact ⟨fun hh => ⟨fun ha => hostActiveMessage_arrives hp hg hr ht hh ha,
      fun ha => hostActiveMessage_arrives hp hg hr ht hh ha⟩, hostActiveMessage_held hp hg hr ht⟩
  · rintro hs ht rfl
    rw [hostHdmAccess_inside hp hs ht]
    refine ⟨fun hw hb => ?_, fun hw hb => ?_, fun x hw hb => ?_⟩
    · rw [if_neg (not_not_intro hw), if_neg (by simp [hb])]
    · rw [if_pos hw, hdmRead_good hb]
    · rw [if_pos hw, hdmRead_bad hb]
  · exact congrArg Host.Outcome.next (if_neg (by simp [hp]))
  · exact congrArg Host.Outcome.next (if_neg (by simp [hp]))
  · exact (congrArg (pkgEvent s pkg) (if_pos (by simp [hr]))).trans (congrArg Host.Outcome.next (ite_self s))
  · rw [hostMessageRetry_arrives hh ha hq hr, if_pos rfl]
  · rw [hostMessageRetry_arrives hh ha hq hr, if_neg (by decide)]

end Sys2Proof.Machine

/-! PROOFS of the platform events (16 R369-R376): governor, monitors, boot, fuses, debug, power, SPDM. -/
namespace Sys2Proof.Machine
open Sys2Proof

section

/-- A change of a package depends on the package as it is alone. -/
theorem modPkg_congr {s : State} {pkg : Nat} {f g : Pkg → Pkg} (h : f (getPkg s pkg) = g (getPkg s pkg)) :
    modPkg s pkg f = modPkg s pkg g := by
  unfold modPkg
  rw [h]

/-! ## Governor and monitors -/

theorem govLimit_of_mem {old v : Nat} (h1 : 1 ≤ v) (h2 : v ≤ 256) : govLimit old v = v := if_pos (by simp [h1, h2])

theorem govWrite_sets {s : State} {pkg v : Nat} (h1 : 1 ≤ v % 512) (h2 : v % 512 ≤ 256) (h3 : 1 ≤ v / 2 ^ 16 % 512)
    (h4 : v / 2 ^ 16 % 512 ≤ 256) : govWrite s pkg v = governed s pkg (v % 512) (v / 2 ^ 16 % 512) := by
  refine modPkg_congr ?_
  rw [govLimit_of_mem h1 h2, govLimit_of_mem h3 h4]

theorem govWrite_keeps {s : State} {pkg v : Nat} (h1 : v % 512 = 0) (h2 : v / 2 ^ 16 % 512 = 0) :
    govWrite s pkg v = governed s pkg (getPkg s pkg).govn (getPkg s pkg).govc := by
  refine modPkg_congr ?_
  rw [h1, h2]
  rfl

theorem monitorRefresh_early {s : State} {pkg n temp vcore : Nat} (h : s.cycle % 2 ^ 16 ≠ 0) :
    exec (.monitorRefresh pkg n temp vcore) s = .next s :=
  (congrArg (pkgEvent s pkg) (if_neg (by rw [decide_eq_false h, Bool.and_false]; decide))).trans
    (congrArg Host.Outcome.next (ite_self s))

theorem refresh_eq (s : State) (pkg n temp vcore : Nat) : refresh s pkg n temp vcore =
    monitored s pkg n (monitorWord ((kget (getPkg s pkg).monitors 0 n).getLsbD 41) pkg n temp vcore) :=
  modPkg_congr rfl

theorem monitorRefresh_due {s : State} {pkg n temp vcore : Nat} (hp : hasPower s pkg = true) (hn : n < 5)
    (h : s.cycle % 2 ^ 16 = 0) : exec (.monitorRefresh pkg n temp vcore) s =
      .next (monitored s pkg n (monitorWord ((kget (getPkg s pkg).monitors 0 n).getLsbD 41) pkg n temp vcore)) :=
  (pkgEvent_powered hp).trans (congrArg Host.Outcome.next
    ((if_pos (by rw [decide_eq_true hn, decide_eq_true h]; rfl)).trans (refresh_eq s pkg n temp vcore)))

theorem pkgEvent_unpowered {s t : State} {pkg : Nat} (h : hasPower s pkg = false) : pkgEvent s pkg t = .next s :=
  congrArg Host.Outcome.next (if_neg (by rw [h]; decide))

theorem lifecycleChange_unknown {s : State} {pkg next : Nat} (h : 2 < next) :
    exec (.lifecycleChange pkg next) s = .next s := by
  obtain ⟨k, rfl⟩ := Nat.exists_eq_add_of_le' h
  exact congrArg Host.Outcome.next (ite_self s)

/-! ## Boot, recovery, fuses -/

section
variable {s : State} {pkg : Nat}

theorem boot_standby {image : Nat} (hp : (getPkg s pkg).power = .standby) (hr : (getPkg s pkg).recovery = false) :
    exec (.boot pkg image) s
      = .next (if stagesGood (getPkg s pkg) image = true then startFirmware s pkg image else recovering s pkg) :=
  congrArg Host.Outcome.next (if_neg (by simp [hp, hr]))

theorem boot_refused {image : Nat} (h : (getPkg s pkg).power ≠ .standby ∨ (getPkg s pkg).recovery = true) :
    exec (.boot pkg image) s = .next s :=
  congrArg Host.Outcome.next (if_pos (by simpa using h))

theorem recoveryImageWrite_recovering {image : Nat} (hp : (getPkg s pkg).power = .standby)
    (hr : (getPkg s pkg).recovery = true) : exec (.recoveryImageWrite pkg image) s
      = .next (if stagesGood (getPkg s pkg) image = true then startFirmware s pkg image else s) := by
  refine congrArg Host.Outcome.next ?_
  rw [hp, hr]
  rfl

theorem recoveryImageWrite_running {image : Nat} (hp : (getPkg s pkg).power ≠ .standby) :
    exec (.recoveryImageWrite pkg image) s = .next s :=
  congrArg Host.Outcome.next (if_neg (by simp [hp]))

theorem fuseWrite_refused {kind v : Nat} (h : (getPkg s pkg).power ≠ .standby ∨ (getPkg s pkg).life ≠ .manufacture) :
    exec (.fuseWrite pkg kind v) s = .next s :=
  congrArg Host.Outcome.next (if_pos (by simpa using h))

section
variable (hp : (getPkg s pkg).power = .standby) (hl : (getPkg s pkg).life = .manufacture)
include hp hl

theorem fuseWrite_revokes {v : Nat} (hv : v < 4) : exec (.fuseWrite pkg 0 v) s = .next (withRevoked s pkg v) :=
  congrArg Host.Outcome.next ((if_neg (by simp [hp, hl])).trans ((if_pos rfl).trans (if_pos hv)))

theorem fuseWrite_rollback {kind v : Nat} (hk : 0 < kind) : exec (.fuseWrite pkg kind v) s = .next (withRollback s pkg v) :=
  congrArg Host.Outcome.next ((if_neg (by simp [hp, hl])).trans (if_neg (Nat.pos_iff_ne_zero.1 hk)))

end

/-! ## Debug -/

theorem debugToken_allowed {level token : Nat} (hp : (getPkg s pkg).power ≠ .off)
    (h : level = 1 ∨ level = 2 ∧ (getPkg s pkg).life ≠ .deployed) : exec (.debugToken pkg level token) s =
      .next (if tokenGood (getPkg s pkg) level token = true then unlocked s pkg level else s) := by
  refine congrArg Host.Outcome.next ?_
  cases ht : tokenGood (getPkg s pkg) level token
  · exact (if_pos (by simp)).trans (if_neg (by decide)).symm
  · refine (if_neg ?_).trans (if_pos rfl).symm
    obtain rfl | ⟨rfl, hl⟩ := h
    · simp [hp]
    · simp [hp, hl]

theorem debugToken_deployed {token : Nat} (hl : (getPkg s pkg).life = .deployed) :
    exec (.debugToken pkg 2 token) s = .next s :=
  congrArg Host.Outcome.next (if_pos (by simp [hl]))

theorem debugToken_off {level token : Nat} (hp : (getPkg s pkg).power = .off) :
    exec (.debugToken pkg level token) s = .next s :=
  congrArg Host.Outcome.next (if_pos (by simp [hp]))

theorem debugAccess_off {n space addr size v : Nat} (hp : (getPkg s pkg).power = .off) :
    exec (.debugAccess pkg n space addr size v) s = .next s :=
  congrArg Host.Outcome.next (if_pos hp)

section
variable (hp : (getPkg s pkg).power ≠ .off) {space addr size v : Nat}
include hp

theorem debugAccess_writes (hd : 2 ≤ (getPkg s pkg).debug) :
    exec (.debugAccess pkg 1 space addr size v) s = .next (debugWrite s pkg space addr size v) :=
  congrArg Host.Outcome.next ((if_neg hp).trans ((if_pos rfl).trans (if_pos (by simp [hd]))))

theorem debugAccess_writeLocked (hd : (getPkg s pkg).debug < 2) (h : space ≠ 5) :
    exec (.debugAccess pkg 1 space addr size v) s = .next s :=
  congrArg Host.Outcome.next ((if_neg hp).trans ((if_pos rfl).trans (if_neg (by simp [hd, h]))))

theorem debugAccess_reads (h : space ≠ 2)
    (hd : 2 ≤ (getPkg s pkg).debug ∨ (1 ≤ (getPkg s pkg).debug ∧ traceable s pkg space addr = true)) :
    exec (.debugAccess pkg 0 space addr size v) s = .next (debugRead s pkg space addr size) :=
  congrArg Host.Outcome.next ((if_neg hp).trans ((if_neg (by decide)).trans ((if_neg h).trans (if_pos (by simpa using hd)))))

theorem debugAccess_readLocked (h : space ≠ 2) (hd : (getPkg s pkg).debug < 2)
    (ht : (getPkg s pkg).debug = 0 ∨ traceable s pkg space addr = false) :
    exec (.debugAccess pkg 0 space addr size v) s = .next s := by
  refine congrArg Host.Outcome.next
    ((if_neg hp).trans ((if_neg (by decide)).trans ((if_neg h).trans (if_neg ?_))))
  obtain ht | ht := ht
  · simp [ht]
  · simp [ht, hd]

omit hp in
theorem readReg_monitor {n : Nat} (s : State) (pkg : Nat) (hn : n < 5) :
    readReg s pkg (0x2000 + 8 * n) = monitorRead s pkg n := by
  interval_cases n <;> rfl

theorem debugAccess_monitor {n : Nat} (hn : n < 5) :
    exec (.debugAccess pkg 0 2 (0x2000 + 8 * n) size v) s = .next (monitorRead s pkg n) :=
  congrArg Host.Outcome.next ((if_neg hp).trans ((if_neg (by decide)).trans ((if_pos rfl).trans (readReg_monitor s pkg hn))))

end

/-! ## Power -/

theorem powerStateChange_run (hp : (getPkg s pkg).power = .standby) (hb : (getPkg s pkg).booted = true)
    (hr : (getPkg s pkg).recovery = false) : exec (.powerStateChange pkg 2) s = .next (inPower
      (if (getPkg s pkg).life = .returned then zeroHbm (turnBeats s pkg false) pkg false else turnBeats s pkg false) pkg .run) :=
  congrArg Host.Outcome.next (if_pos (by simp [hp, hb, hr]))

/-! ## SPDM -/

theorem answer_up {code v : Nat} (h : spdmUp s pkg = true) : answer s pkg code v = answered s pkg code v :=
  if_neg (by simp [h])

theorem getMeasurements_index {index : Nat} (h : spdmUp s pkg = true) (h1 : 1 ≤ index) (h4 : index ≤ 4) :
    exec (.getMeasurements pkg index) s = .next (answered s pkg 0x60 (measurement (getPkg s pkg) index)) :=
  congrArg Host.Outcome.next ((if_pos (by simp [h1, h4])).trans (answer_up h))

theorem getMeasurements_other {index : Nat} (h : spdmUp s pkg = true) (hi : index = 0 ∨ 4 < index) :
    exec (.getMeasurements pkg index) s = .next (answered s pkg 0x7F 0x07) := by
  refine congrArg Host.Outcome.next ((if_neg ?_).trans (answer_up h))
  simp only [Bool.and_eq_true, decide_eq_true_iff]
  omega

theorem negotiateAlgorithms_up {asym hash : Nat} (h : spdmUp s pkg = true) :
    exec (.negotiateAlgorithms pkg asym hash) s
      = .next (chosen (answered s pkg 0x63 (algorithms asym hash)) pkg (algorithms asym hash)) := by
  rw [← answer_up h]
  exact congrArg Host.Outcome.next (if_neg (by simp [h]))

end

end

/-- Settles O55: each platform event by the state of power, life cycle and debug level that it asks for. -/
theorem platformEvents : Obligations.PlatformEvents := by
  unfold Obligations.PlatformEvents
  refine ⟨?_, ?_⟩
  · intro s pkg v n temp vcore image kind level token space addr size next
    refine ⟨fun hp => ⟨fun h1 h2 h3 h4 => ?_, fun h1 h2 => ?_, monitorRefresh_due hp, pkgEvent_powered hp,
      pkgEvent_powered hp, pkgEvent_powered hp, pkgEvent_powered hp, pkgEvent_powered hp⟩,
      fun hp => ⟨pkgEvent_unpowered hp, pkgEvent_unpowered hp, pkgEvent_unpowered hp, pkgEvent_unpowered hp,
        pkgEvent_unpowered hp⟩, rfl, monitorRefresh_early, rfl,
      fun hp => ⟨boot_standby hp, fun hr => ⟨boot_refused (.inr hr), recoveryImageWrite_recovering hp hr⟩⟩,
      fun hp => ⟨boot_refused (.inl hp), recoveryImageWrite_running hp⟩,
      fun hp => ⟨debugToken_allowed hp, debugToken_deployed, debugAccess_writes hp, debugAccess_writeLocked hp,
        debugAccess_reads hp, debugAccess_readLocked hp, debugAccess_monitor hp⟩,
      fun hp => ⟨debugToken_off hp, debugAccess_off hp⟩, fun hp hl => ⟨fuseWrite_revokes hp hl, fuseWrite_rollback hp hl⟩,
      fuseWrite_refused, lifecycleChange_unknown, rfl, rfl, fun hp hb hr => ⟨fun hl => ?_, fun hl => ?_⟩, rfl⟩
    · exact (pkgEvent_powered hp).trans (congrArg _ (govWrite_sets h1 h2 h3 h4))
    · exact (pkgEvent_powered hp).trans (congrArg _ (govWrite_keeps h1 h2))
    · rw [powerStateChange_run hp hb hr, if_neg hl]
    · rw [powerStateChange_run hp hb hr, if_pos hl]
  · intro s pkg asym hash slot ofs len nonce index code h
    have ha (code v : Nat) := congrArg (Host.Outcome.next (φ := Fault) (ρ := Refusal)) (answer_up (code := code) (v := v) h)
    exact ⟨ha _ _, ha _ _, negotiateAlgorithms_up h, ha _ _, ha _ _, ha _ _, getMeasurements_index h,
      getMeasurements_other h, ha _ _⟩

end Sys2Proof.Machine

/-! PROOFS of pre-emption and safe-point mode (17 R394-R401). -/
namespace Sys2Proof.Machine
open Sys2Proof

section

/-! ## Pre-emption and restoration -/

theorem saveJobs_eq (s : State) (pkg : Nat) (jobs : List Nat) : saveJobs s pkg jobs = preempted s pkg jobs := by
  unfold saveJobs preempted savedOf imagesOf
  dsimp only

/-- What a pre-emption does once its jobs are quiesced: it saves them, or waits for what has started. -/
def quiesced (t : State) (pkg : Nat) (jobs : List Nat) : State :=
  if jobsQuiet t pkg jobs then saveJobs t pkg jobs else preemptLater t pkg jobs

theorem execPreEmption_eq (s : State) (pkg n : Nat) : execPreEmption pkg n s =
    event (if !mayPreempt s pkg (jobList 16 n) then s else quiesced (quiesce s pkg (jobList 16 n)) pkg (jobList 16 n)) := by
  unfold execPreEmption quiesced preemptLater
  rfl

theorem preEmption_allowed {s : State} {pkg n : Nat} (h : mayPreempt s pkg (jobList 16 n) = true) :
    exec (.preEmption pkg n) s = .next (quiesced (quiesce s pkg (jobList 16 n)) pkg (jobList 16 n)) := by
  show execPreEmption pkg n s = _
  rw [execPreEmption_eq, h]
  rfl

theorem preEmption_refused {s : State} {pkg n : Nat} (h : mayPreempt s pkg (jobList 16 n) = false) :
    exec (.preEmption pkg n) s = .next s := by
  show execPreEmption pkg n s = _
  rw [execPreEmption_eq, h]
  rfl

theorem quiesced_quiet {t : State} {pkg : Nat} {jobs : List Nat} (h : jobsQuiet t pkg jobs = true) :
    quiesced t pkg jobs = preempted t pkg jobs := by
  unfold quiesced
  rw [if_pos h, saveJobs_eq]

theorem quiesced_busy {t : State} {pkg : Nat} {jobs : List Nat} (h : jobsQuiet t pkg jobs = false) :
    quiesced t pkg jobs = preemptLater t pkg jobs := by
  unfold quiesced
  rw [if_neg (by simp [h])]

theorem endPreemption_quiet {s : State} {pkg : Nat} {jobs : List Nat} (h : (getPkg s pkg).preempting = [jobs])
    (hm : mayPreempt s pkg jobs = true) (hq : jobsQuiet (quiesce s pkg jobs) pkg jobs = true) :
    endPreemption s pkg = preempted (quiesce s pkg jobs) pkg jobs := by
  have hf : (getPkg s pkg).preempting.find? (fun jobs => mayPreempt s pkg jobs && jobsQuiet (quiesce s pkg jobs) pkg jobs)
      = some jobs := by
    rw [h]
    exact List.find?_cons_of_pos (by rw [hm, hq]; rfl)
  unfold endPreemption
  rw [hf]
  exact saveJobs_eq _ pkg jobs

theorem endPreemption_busy {s : State} {pkg : Nat} {jobs : List Nat} (h : (getPkg s pkg).preempting = [jobs])
    (hq : jobsQuiet (quiesce s pkg jobs) pkg jobs = false) : endPreemption s pkg = s := by
  have hf : (getPkg s pkg).preempting.find? (fun jobs => mayPreempt s pkg jobs && jobsQuiet (quiesce s pkg jobs) pkg jobs)
      = none := by
    rw [h]
    exact List.find?_cons_of_neg (by rw [hq, Bool.and_false]; decide)
  unfold endPreemption
  rw [hf]

theorem restoration_saved {s : State} {pkg job : Nat} {v : SavedJob} (h : kfind (getPkg s pkg).preempted job = some v) :
    exec (.restoration pkg job) s = .next (if (savedWith s pkg v).any (placeTaken s pkg) then s
      else (savedWith s pkg v).foldl (fun t w => restoreJob t pkg w) (unquiet s pkg v.jobs)) := by
  refine congrArg Host.Outcome.next ?_
  rw [h]
  rfl

/-! ## Safe-point mode -/

theorem safePointModeSet_installed {s : State} {pkg job : Nat} {d : Job} (h : jobOn s pkg job = some d) :
    exec (.safePointModeSet pkg job) s = .next (spmMarked (spmCores (spmJob s pkg job) pkg job) pkg job) := by
  refine congrArg Host.Outcome.next ?_
  rw [h]
  rfl

theorem releaseSafe_eq (s : State) (pkg job : Nat) :
    releaseSafe s pkg job = (heldRecs s pkg job).foldl poolHeld (safeTaken s pkg job) := by
  unfold releaseSafe heldRecs safeTaken
  rfl

theorem execSafePointRelease_eq (s : State) (pkg job : Nat) :
    execSafePointRelease pkg job s = event (releaseSafe (spmCoresLeft (spmLeft s pkg job) pkg job) pkg job) := by
  unfold execSafePointRelease spmCoresLeft spmLeft
  rfl

/-- A request that can be performed is performed before its thread is stopped. -/
theorem performReady_one (s : State) (ctx : Nat) :
    performReady [ctx] 1 s = if requestReady s ctx = true then performWaiting s ctx else s := by
  unfold performReady
  cases h : requestReady s ctx <;> simp [List.find?, h, performReady]

/-- What becomes of a thread whose time in safe-point mode is over. -/
def safePointStopped (u : State) (ctx : Nat) : State :=
  match (getCtx u ctx).status with
  | .dormant => u
  | .faulting f _ => deliverTrap u ctx f
  | _ =>
    let w := withdrawReads (releaseWaits u ctx) ctx
    { holdSafe { w with cur := ctx } ctx (stoppedCtx (getCtx w ctx)) false with cur := w.cur }

theorem safePointTimeout_due {s : State} {ctx : Nat}
    (hj : (getPkg s (corePkg (ctxCore ctx))).spmJobs.contains (getCtx s ctx).job = true)
    (hc : (getCtx s ctx).spMark + 2 ^ 20 ≤ s.cycle) (hd : (getCtx s ctx).status ≠ .dormant) :
    exec (.safePointTimeout ctx) s
      = .next (safePointStopped (if requestReady s ctx = true then performWaiting s ctx else s) ctx) := by
  rw [← performReady_one]
  exact congrArg Host.Outcome.next (if_pos (by rw [bne_iff_ne.2 hd, hj, decide_eq_true hc]; rfl))

section
variable {u : State} {ctx since : Nat}

theorem safePointStopped_holds
    (h : (getCtx u ctx).status = .running ∨ ∃ o k, (getCtx u ctx).status = .waiting o since k) :
    safePointStopped u ctx = { holdSafe { withdrawReads (releaseWaits u ctx) ctx with cur := ctx } ctx
        (stoppedCtx (getCtx (withdrawReads (releaseWaits u ctx) ctx) ctx)) false with
      cur := (withdrawReads (releaseWaits u ctx) ctx).cur } := by
  unfold safePointStopped
  obtain h | ⟨o, k, h⟩ := h <;> rw [h]

theorem safePointStopped_dormant (h : (getCtx u ctx).status = .dormant) : safePointStopped u ctx = u := by
  unfold safePointStopped
  rw [h]

theorem safePointStopped_faulting {f : FaultInfo} (h : (getCtx u ctx).status = .faulting f since) :
    safePointStopped u ctx = deliverTrap u ctx f := by
  unfold safePointStopped
  rw [h]

end

end

/-- Settles O56: pre-emption by the quiet of its jobs, restoration by the places, safe points by the thread's state. -/
theorem preemptionEvents : Obligations.PreemptionEvents := by
  unfold Obligations.PreemptionEvents
  intro s t pkg n job ctx jobs v d f since
  refine ⟨?_, preEmption_refused, ?_, fun h => ⟨fun ha => ?_, fun ha => ?_⟩, safePointModeSet_installed, ?_, ?_⟩
  · rintro rfl hm rfl
    rw [preEmption_allowed hm]
    exact ⟨fun hq => congrArg _ (quiesced_busy hq), fun hq => congrArg _ (quiesced_quiet hq)⟩
  · rintro h rfl
    exact ⟨endPreemption_quiet h, endPreemption_busy h⟩
  · rw [restoration_saved h, if_neg (by simp [ha])]
  · rw [restoration_saved h, if_pos ha]
  · rintro u w hj hc hd rfl
    rw [safePointTimeout_due hj hc hd]
    refine ⟨?_, fun h => congrArg _ (safePointStopped_dormant h), fun h => congrArg _ (safePointStopped_faulting h)⟩
    rintro h rfl
    exact congrArg _ (safePointStopped_holds h)
  · intro ht
    rw [ht]
    show execSafePointRelease pkg job s = _
    rw [execSafePointRelease_eq, releaseSafe_eq]
    rfl

end Sys2Proof.Machine

/-! PROOFS of the plays of a collective (13 R358-R360; 19 R432-R434): start, completion, redo, abort. -/
namespace Sys2Proof.Machine
open Sys2Proof

section

theorem playAbort_at {s : State} {play cause : Nat} {y : Play} (h : s.plays[play]? = some y) :
    exec (.playAbort play cause) s = .next (if y.ended then endMembers s play
      else if mayAbort s y cause then abortPlay s play cause else s) := by
  refine congrArg Host.Outcome.next ?_
  rw [h]

section
variable {s : State} {play chunk : Nat} {y : Play} {c : Chunk} (h : s.plays[play]? = some y) (he : y.ended = false)
  (hc : y.plan.chunks[chunk]? = some c)
include h he hc

/-! ## Start and redo -/

theorem chunkStart_ready (hx : (chunkState y chunk).started = false) (hb : allBegan y = true)
    (hg : contributed y c false = true) : exec (.chunkStart play chunk) s =
      .next (if c.waitc ≠ 0xFF && decide (kget y.ctrs 0 c.waitc < c.waitn) then s
        else chunkStarted s play chunk c (chunkState y chunk)) := by
  refine congrArg Host.Outcome.next ?_
  rw [h]
  dsimp only
  rw [hc]
  exact if_neg (by simp [he, hx, hb, hg])

theorem chunkRedo_unheld (hx : (chunkState y chunk).started = true) (hh : (chunkState y chunk).held = none)
    (ha : (chunkState y chunk).alt = false) : exec (.chunkRedo play chunk) s =
      .next (if (chunkState y chunk).edges.isNone || decide ((chunkState y chunk).startedAt + 2 ^ 20 ≤ s.cycle) then
        chunkRedone s play chunk c (chunkState y chunk) else s) := by
  refine congrArg Host.Outcome.next ?_
  rw [h]
  dsimp only
  rw [hc]
  exact if_neg (by simp [he, hx, hh, ha])

/-! ## Completion -/

section
variable (hx : (chunkState y chunk).started = true) (hf : (chunkState y chunk).finished = false)
include hx hf

theorem chunkCompletion_gathers (hh : (chunkState y chunk).held = none) :
    exec (.chunkCompletion play chunk) s = .next (gatherChunk s play chunk y c (chunkState y chunk)) := by
  refine congrArg Host.Outcome.next ?_
  rw [h]
  dsimp only
  rw [hc]
  dsimp only
  rw [if_neg (by simp [he, hx, hf]), hh]

theorem chunkCompletion_delivers {held : List (Nat × List Byte)} (hh : (chunkState y chunk).held = some held) :
    exec (.chunkCompletion play chunk) s
      = .next (acknowledged (delivered s play chunk c (chunkState y chunk).alt held (receivers y c (chunkState y chunk).alt))
        play chunk c (chunkState y chunk)) := by
  refine congrArg Host.Outcome.next ?_
  rw [h]
  dsimp only
  rw [hc]
  dsimp only
  rw [if_neg (by simp [he, hx, hf]), hh]
  rfl

end

end

theorem gatherChunk_kept {s t : State} {play chunk : Nat} {y : Play} {c : Chunk} {x : ChunkState}
    {got : List (Nat × List Byte)} (he : x.edges ≠ none)
    (hp : ∀ m ∈ rootOf y x.alt :: contributors y c x.alt, powered s (memberPkg y m) = true)
    (hr : readContribs s y c (contributors y c x.alt) = (t, .ok got)) :
    gatherChunk s play chunk y c x = chunkKept t play chunk x (chunkHeld y c x.alt got) := by
  unfold gatherChunk
  rw [if_neg (by simp [he, List.all_eq_true.2 hp, -List.all_cons]), hr]
  rfl

theorem gatherChunk_unpowered {s : State} {play chunk : Nat} {y : Play} {c : Chunk} {x : ChunkState}
    (hp : ∃ m ∈ rootOf y x.alt :: contributors y c x.alt, powered s (memberPkg y m) = false) :
    gatherChunk s play chunk y c x = s := by
  obtain ⟨m, hm, hp⟩ := hp
  have ha : (rootOf y x.alt :: contributors y c x.alt).all (fun m => powered s (memberPkg y m)) = false :=
    List.all_eq_false.2 ⟨m, hm, by simp [hp]⟩
  exact if_pos (by rw [ha, Bool.not_false, Bool.or_true])

section
variable {t : State} {play chunk : Nat} {c : Chunk} {x : ChunkState} {z : Play} (h : t.plays[play]? = some z)
include h

theorem acknowledged_waits (hw : ∃ m ∈ receivers z c x.alt, z.wrote.contains (chunk, m) = false) :
    acknowledged t play chunk c x = t := by
  obtain ⟨m, hm, hw⟩ := hw
  have ha : (receivers z c x.alt).all (fun m => z.wrote.contains (chunk, m)) = false :=
    List.all_eq_false.2 ⟨m, hm, by rw [hw]; decide⟩
  unfold acknowledged
  rw [h]
  dsimp only
  rw [ha]
  rfl

theorem acknowledged_all (hw : ∀ m ∈ receivers z c x.alt, z.wrote.contains (chunk, m) = true) :
    acknowledged t play chunk c x =
      if (List.range z.plan.chunks.length).all (fun i => i == chunk || (chunkState z i).finished) then
        endPlay (chunkFinished t play chunk c x) play 0
      else chunkFinished t play chunk c x := by
  unfold acknowledged
  rw [h]
  dsimp only
  rw [List.all_eq_true.2 hw]
  rfl

end

theorem othersFinished_eq_false {z : Play} {chunk : Nat}
    (h : ∃ i, i < z.plan.chunks.length ∧ i ≠ chunk ∧ (chunkState z i).finished = false) :
    (List.range z.plan.chunks.length).all (fun i => i == chunk || (chunkState z i).finished) = false := by
  obtain ⟨i, hi, hn, hf⟩ := h
  exact List.all_eq_false.2 ⟨i, List.mem_range.2 hi, by simp [hn, hf]⟩

theorem othersFinished_eq_true {z : Play} {chunk : Nat}
    (h : ∀ i, i < z.plan.chunks.length → i ≠ chunk → (chunkState z i).finished = true) :
    (List.range z.plan.chunks.length).all (fun i => i == chunk || (chunkState z i).finished) = true := by
  refine List.all_eq_true.2 fun i hi => ?_
  by_cases hn : i = chunk
  · simp [hn]
  · simp [h i (List.mem_range.1 hi) hn]

end

/-- Settles O57: each event of a chunk by the chunk's state, the abort by its cause. -/
theorem playEvents : Obligations.PlayEvents := by
  unfold Obligations.PlayEvents
  rintro s t play chunk cause y z c x got held h rfl
  refine ⟨fun he => ?_, fun he hc => ⟨fun hx hb hg => ?_, fun hx hf hh hn => ⟨fun hp hr => ?_, fun hp => ?_⟩, ?_,
    fun hx hh ha => ?_⟩, fun he ha => ?_, fun he ha => ?_⟩
  · rw [playAbort_at h, if_pos he]
  · rw [chunkStart_ready h he hc hx hb hg]
    refine ⟨fun hw => congrArg _ (if_neg ?_), fun h1 h2 => congrArg _ (if_pos (by simp [h1, h2]))⟩
    obtain hw | hw := hw <;> simp [hw]
  · rw [chunkCompletion_gathers h he hc hx hf hh, gatherChunk_kept hn hp hr]
  · rw [chunkCompletion_gathers h he hc hx hf hh, gatherChunk_unpowered hp]
  · rintro hx hf hh rfl hz
    rw [chunkCompletion_delivers h he hc hx hf hh]
    refine ⟨fun hw => congrArg _ (acknowledged_waits hz hw), fun hw => ?_⟩
    rw [acknowledged_all hz hw]
    exact ⟨fun ho => congrArg _ (if_neg (by rw [othersFinished_eq_false ho]; decide)),
      fun ho => congrArg _ (if_pos (othersFinished_eq_true ho))⟩
  · rw [chunkRedo_unheld h he hc hx hh ha]
    refine ⟨fun hr => congrArg _ (if_pos (by simpa using hr)), fun h1 h2 => congrArg _ (if_neg (by simpa [h1] using h2))⟩
  · rw [playAbort_at h, if_neg (by simp [he]), if_pos ha]
  · rw [playAbort_at h, if_neg (by simp [he]), if_neg (by simp [ha])]

end Sys2Proof.Machine

/-! PROOFS of links, lanes, routers, unreachable packages, UCIe and CXL ports (18 R422-R424; 19 R426-R431, R438). -/
namespace Sys2Proof.Machine
open Sys2Proof

section

/-! ## Pelrek links and lanes -/

theorem linkRetransmission_port {s : State} {pkg port : Nat} (hp : hasPower s pkg = true) (h : port < 154) :
    exec (.linkRetransmission pkg port) s = .next (retransmitted s pkg port) := by
  refine (pkgEvent_powered hp).trans (congrArg Host.Outcome.next ((if_neg (Nat.not_le.2 h)).trans ?_))
  unfold retransmitted failedLane
  cases (linkLanes s pkg port)[(freeNow s).toNat % (linkLanes s pkg port).length]? <;> rfl

theorem laneDisable_port {s : State} {pkg port : Nat} (lane : Nat) (hp : hasPower s pkg = true) (h : port < 128) :
    exec (.laneDisable pkg port lane) s
      = .next (if lane < 2 then loseLane s pkg port lane else setRate s pkg port (lane % 2) ((lane - 2) / 2)) :=
  (pkgEvent_powered hp).trans (congrArg Host.Outcome.next (if_neg (Nat.not_le.2 h)))

theorem laneDown_port {s : State} {pkg port lane : Nat} (hp : hasPower s pkg = true) (h : port < 128) (hl : lane < 2) :
    exec (.laneDown pkg port lane) s
      = .next (if 16 ≤ kget (getLink s pkg port).run 0 lane then loseLane s pkg port lane else s) := by
  refine (pkgEvent_powered hp).trans (congrArg Host.Outcome.next (if_congr ?_ rfl rfl))
  simp [h, hl]

theorem portsDropped_eq (s : State) (pkg : Nat) : portsDropped s pkg =
    (List.range 128).foldl (fun t k => if (getLink t pkg k).up then dropBoth t pkg k else t) s := by
  unfold portsDropped
  rfl

theorem execRouterUncorrectable_eq (s : State) (pkg : Nat) : execRouterUncorrectable pkg s =
    pkgEvent s pkg (abortPlaysOf (reroute (portsDropped (routerLost s pkg) pkg) pkg) pkg) := by
  unfold execRouterUncorrectable routerLost
  dsimp only
  rw [portsDropped_eq]

theorem routerUncorrectable_powered {s : State} {pkg : Nat} (hp : hasPower s pkg = true) :
    exec (.routerUncorrectable pkg) s
      = .next (abortPlaysOf (reroute (portsDropped (routerLost s pkg) pkg) pkg) pkg) :=
  (execRouterUncorrectable_eq s pkg).trans (pkgEvent_powered hp)

/-! ## Traffic to an unreachable package -/

section
variable {s : State} {ctx va since seq : Nat} (h : (getCtx s ctx).status = .waiting (.away va) since seq)
include h

theorem execUnreachableTimeout_away : execUnreachableTimeout 0 ctx s
    = event (if since + awayTime ≤ s.cycle then awayFault s ctx va else s) := by
  unfold execUnreachableTimeout awayFault
  simp only [h]

theorem unreachableTimeout_access :
    exec (.unreachableTimeout 0 ctx) s = .next (if since + 2 ^ 22 ≤ s.cycle then awayFault s ctx va else s) :=
  execUnreachableTimeout_away h

end

theorem unreachableTimeout_store {s : State} {n : Nat} {p : PendingStore} (h : s.stores[n]? = some p)
    (ha : awayStore s p = true) (hc : p.since + 2 ^ 22 ≤ s.cycle) :
    exec (.unreachableTimeout 1 n) s = .next (awayLost s n p) := by
  refine congrArg Host.Outcome.next ?_
  dsimp only
  rw [h]
  exact if_pos (by rw [ha, awayTime, decide_eq_true hc]; rfl)

theorem unreachableTimeout_message {s : State} {core num : Nat} {m : Msg} (hn : num < 65536)
    (h : heldMsg s core num = some m) (hl : m.left ≠ 0)
    (hu : (getPkg s (corePkg core)).unreachable.contains (corePkg m.dst) = true) (hc : m.sent + 2 ^ 22 ≤ s.cycle) :
    exec (.unreachableTimeout 2 (core * 65536 + num)) s = .next (awayMsg s core m) := by
  unfold heldMsg at h
  refine congrArg Host.Outcome.next ?_
  rw [show (core * 65536 + num) / 65536 = core by omega, show (core * 65536 + num) % 65536 = num by omega]
  dsimp only
  rw [h]
  exact if_pos (by rw [decide_eq_true hl, hu, awayTime, decide_eq_true hc]; rfl)

/-! ## UCIe links and CXL ports -/

section
variable {s : State} {pkg link : Nat} (hp : hasPower s pkg = true) (hl : link < 10)
  (hu : (getLink s pkg (ucieKey link)).up = true)
include hp hl hu

theorem ucieLaneRepair_up : exec (.ucieLaneRepair pkg link) s = .next (degraded s pkg (ucieKey link)) :=
  (pkgEvent_powered hp).trans (congrArg Host.Outcome.next (if_pos (by rw [hu, decide_eq_true hl]; rfl)))

/-- What a UCIe link's loss leaves: the dies that no link joins any more are isolated. -/
def diesCutOff (t : State) (pkg : Nat) (alone : List Nat) : State :=
  if alone.isEmpty then t else cutOff (reroute (dropDies (isolatedDies t pkg alone) pkg alone) pkg) pkg

theorem ucieLinkDown_up : exec (.ucieLinkDown pkg link) s = .next (diesCutOff (dropLink s pkg (ucieKey link)) pkg
    ((ucieDies link).filter (dieAlone (dropLink s pkg (ucieKey link)) pkg))) := by
  show execUcieLinkDown pkg link s = _
  unfold execUcieLinkDown diesCutOff dropLink isolatedDies
  rw [pkgEvent_powered hp, if_pos (by rw [hu, decide_eq_true hl]; rfl)]

end

theorem diesCutOff_none (t : State) (pkg : Nat) : diesCutOff t pkg [] = t := rfl

theorem diesCutOff_some {t : State} {pkg : Nat} {alone : List Nat} (h : alone ≠ []) :
    diesCutOff t pkg alone = cutOff (reroute (dropDies (isolatedDies t pkg alone) pkg alone) pkg) pkg :=
  if_neg (by simpa using h)

theorem cxlPortRecovery_port {s : State} {pkg port : Nat} (hp : hasPower s pkg = true) (h : port < 4) :
    exec (.cxlPortRecovery pkg port) s = .next (portBack s pkg port) :=
  (pkgEvent_powered hp).trans (congrArg Host.Outcome.next (if_pos h))

theorem cxlPortFailure_up {s : State} {pkg port : Nat} (tmo : Nat) (hp : hasPower s pkg = true) (h : port < 4)
    (hu : portUp (getPkg s pkg) port = true) :
    exec (.cxlPortFailure pkg port tmo) s = .next (portFailed s pkg port (if tmo = 1 then 1 else 0)) :=
  (pkgEvent_powered hp).trans (congrArg Host.Outcome.next (if_pos (by rw [hu, decide_eq_true h]; rfl)))

end

/-- Settles O58: link and lane events by port and lane, time-outs by the clock, UCIe by the dies left alone. -/
theorem linkEvents : Obligations.LinkEvents := by
  unfold Obligations.LinkEvents
  intro s t pkg port lane link core num n ctx va since seq p m
  refine ⟨fun hp => ⟨linkRetransmission_port hp, fun h => ⟨fun hl => ?_, fun hl => ⟨?_, fun hr => ?_, fun hr => ?_⟩⟩,
    routerUncorrectable_powered hp⟩, fun h => ⟨fun hc => ?_, fun hc => ?_⟩, unreachableTimeout_store,
    unreachableTimeout_message, fun hp hl hu => ⟨ucieLaneRepair_up hp hl hu, fun ht => ?_⟩,
    fun hp h => ⟨cxlPortRecovery_port hp h, fun hu => ⟨cxlPortFailure_up 1 hp h hu, cxlPortFailure_up 0 hp h hu⟩⟩⟩
  · rw [laneDisable_port lane hp h, if_neg (Nat.not_lt.2 hl)]
  · rw [laneDisable_port lane hp h, if_pos hl]
  · rw [laneDown_port hp h hl, if_pos hr]
  · rw [laneDown_port hp h hl, if_neg (Nat.not_le.2 hr)]
  · rw [unreachableTimeout_access h, if_pos hc]
  · rw [unreachableTimeout_access h, if_neg (Nat.not_le.2 hc)]
  · rw [ucieLinkDown_up hp hl hu, ← ht]
    exact ⟨fun ha => by rw [ha, diesCutOff_none], fun ha => congrArg _ (diesCutOff_some ha)⟩

end Sys2Proof.Machine

/-! PROOFS of the Ethernet events (13 R361-R364; 19 R435): work entries, receive, completion, retry, port failure. -/
namespace Sys2Proof.Machine
open Sys2Proof

section

/-! ## A work entry is reached -/

section
variable {s t : State} {pkg qp : Nat} {q : QueuePair} {e : WorkEntry} {rest : List WorkEntry}
  (h : getQp s pkg qp = some q) (hq : (getPkg s pkg).quiet.contains q.job = false)
include h hq

theorem reachEntry_head {snd : Bool} {got : Arrived} (hs : sendQueue q snd = e :: rest) :
    reachEntry s pkg qp snd got =
      if q.err then finishEntry s pkg qp snd 4 0 0 false
      else if e.reached then s
      else if snd && !(getLink s pkg (ethKey q.port)).up then failEntry s pkg qp snd 3 noMessage
      else if !regionOk (getPkg s pkg) q e snd then failEntry s pkg qp snd 1 got
      else if !snd then markReached s pkg qp snd
      else match engineRead s (ethWho q e) (ethId qp snd) [(e.addr, e.len)] with
        | (s, .done _) => markReached s pkg qp snd
        | (s, .fail c _ a) => failEntry (ethCount s (ethWho q e) c a) pkg qp snd 1 noMessage
        | (s, .wait) => s := by
  unfold reachEntry
  rw [h]
  dsimp only
  rw [hs]
  dsimp only
  rw [hq]
  rfl

theorem workEntryReached_error (hs : q.sends = e :: rest) (he : q.err = true) :
    exec (.workEntryReached pkg qp 1) s = .next (finishEntry s pkg qp true 4 0 0 false) :=
  congrArg Host.Outcome.next ((reachEntry_head h hq (snd := true) hs).trans (if_pos he))

theorem workEntryReached_linkDown (hs : q.sends = e :: rest) (he : q.err = false) (hr : e.reached = false)
    (hl : (getLink s pkg (ethKey q.port)).up = false) :
    exec (.workEntryReached pkg qp 1) s = .next (failEntry s pkg qp true 3 noMessage) := by
  refine congrArg Host.Outcome.next ((reachEntry_head h hq (snd := true) hs).trans ?_)
  rw [he, hr, hl]
  rfl

theorem workEntryReached_badRegion (hs : q.sends = e :: rest) (he : q.err = false) (hr : e.reached = false)
    (hl : (getLink s pkg (ethKey q.port)).up = true) (hg : regionOk (getPkg s pkg) q e true = false) :
    exec (.workEntryReached pkg qp 1) s = .next (failEntry s pkg qp true 1 noMessage) := by
  refine congrArg Host.Outcome.next ((reachEntry_head h hq (snd := true) hs).trans ?_)
  rw [he, hr, hl, hg]
  rfl

theorem workEntryReached_read {bs : List (List Byte)} (hs : q.sends = e :: rest) (he : q.err = false)
    (hr : e.reached = false) (hl : (getLink s pkg (ethKey q.port)).up = true)
    (hg : regionOk (getPkg s pkg) q e true = true)
    (hd : engineRead s (ethWho q e) (ethId qp true) [(e.addr, e.len)] = (t, .done bs)) :
    exec (.workEntryReached pkg qp 1) s = .next (markReached t pkg qp true) := by
  refine congrArg Host.Outcome.next ((reachEntry_head h hq (snd := true) hs).trans ?_)
  rw [he, hr, hl, hg, hd]
  rfl

theorem workEntryReached_receive (hs : q.recvs = e :: rest) (he : q.err = false) (hr : e.reached = false)
    (hg : regionOk (getPkg s pkg) q e false = true) :
    exec (.workEntryReached pkg qp 0) s = .next (markReached s pkg qp false) := by
  refine congrArg Host.Outcome.next ((reachEntry_head h hq (snd := false) hs).trans ?_)
  rw [he, hr, hg]
  rfl

end

/-! ## A message is received -/

/-- What a queue pair does with a message, once its head entry has been reached. -/
def received (t : State) (pkg qp len data : Nat) (got : Arrived) : State :=
  match getQp t pkg qp with
  | none => t
  | some q => match q.recvs with
    | [] => t
    | e :: _ =>
      if q.err || !e.reached || (getPkg t pkg).quiet.contains q.job then t
      else match engineWrite t (ethWho q e) (ethId qp false) [(e.addr, leBytes (min len e.len) data)] with
        | (s, .done _) => finishEntry s pkg qp false (if e.len < len then 2 else 0) got.1 got.2.1 got.2.2
        | (s, .fail c d a) => failEntry (writeFailed (ethCount s (ethWho q e) c a) (ethWho q e)
            [(e.addr, leBytes (min len e.len) data)] (.fail c d a)).1 pkg qp false 1 got
        | (s, .wait) => s

/-- The state in which a message meets its queue pair. -/
def reachedFor (s : State) (pkg qp : Nat) (got : Arrived) : State :=
  match getQp s pkg qp with
  | some q => if q.err then s else reachEntry s pkg qp false got
  | none => s

theorem ethReceive_eq (s : State) (pkg qp len data imm iv : Nat) : exec (.ethReceive pkg qp len data imm iv) s =
    .next (received (reachedFor s pkg qp (len, if iv = 1 then imm else 0, iv = 1)) pkg qp len data
      (len, if iv = 1 then imm else 0, iv = 1)) := rfl

theorem reachedFor_good {s : State} {pkg qp : Nat} {got : Arrived}
    (h : ∀ k, getQp s pkg qp = some k → k.err = false) : reachedFor s pkg qp got = reachEntry s pkg qp false got := by
  unfold reachedFor reachEntry
  cases hk : getQp s pkg qp with
  | none => rfl
  | some k => simp [h k hk]

theorem received_done {t u : State} {pkg qp len data : Nat} {got : Arrived} {q : QueuePair} {e : WorkEntry}
    {rest : List WorkEntry} {bs : List (List Byte)} (h : getQp t pkg qp = some q) (he : q.err = false)
    (hs : q.recvs = e :: rest) (hr : e.reached = true) (hq : (getPkg t pkg).quiet.contains q.job = false)
    (hw : engineWrite t (ethWho q e) (ethId qp false) [(e.addr, leBytes (min len e.len) data)] = (u, .done bs)) :
    received t pkg qp len data got
      = finishEntry u pkg qp false (if e.len < len then 2 else 0) got.1 got.2.1 got.2.2 := by
  unfold received
  rw [h]
  dsimp only
  rw [hs]
  dsimp only
  rw [he, hr, hq, hw]
  rfl

/-! ## Completion, retry, port failure -/

section
variable {s : State} {pkg qp : Nat} {q : QueuePair} {e : WorkEntry} (h : sentHead s pkg qp = some (q, e))
include h

theorem ethSendCompletion_sent : exec (.ethSendCompletion pkg qp) s = .next (finishEntry s pkg qp true 0 e.len 0 false) := by
  refine congrArg Host.Outcome.next ?_
  rw [h]

theorem rnrRetry_sent : exec (.rnrRetry pkg qp) s = .next (if s.cycle < q.rnrAt + 128000 then s
    else if q.rnr < 7 then rnrAgain s pkg qp else failEntry s pkg qp true 3 noMessage) := by
  refine congrArg Host.Outcome.next ?_
  rw [h]
  rfl

end

theorem ethPortDown_port {s : State} {pkg port : Nat} (hp : hasPower s pkg = true) (h : port < 10) :
    exec (.ethPortDown pkg port) s = .next (portGone s pkg port) :=
  (pkgEvent_powered hp).trans (congrArg Host.Outcome.next (if_pos h))

end

/-- Settles O59: a work entry by its queue pair's state, a message by the entry it meets, a retry by clock and count. -/
theorem ethernetEvents : Obligations.EthernetEvents := by
  unfold Obligations.EthernetEvents
  intro s t u pkg qp port len data imm iv q e rest bs
  refine ⟨fun h hs hq => ⟨workEntryReached_error h hq hs, fun he hr => ⟨workEntryReached_linkDown h hq hs he hr,
    workEntryReached_badRegion h hq hs he hr, workEntryReached_read h hq hs he hr⟩⟩,
    fun h hs hq => workEntryReached_receive h hq hs, fun ht hk h he hs hr hq hw => ?_,
    fun h => ⟨ethSendCompletion_sent h, fun hc => ?_, fun hc hn => ?_, fun hc hn => ?_⟩, ethPortDown_port⟩
  · rw [ethReceive_eq, reachedFor_good hk, ← ht, received_done h he hs hr hq hw]
  · rw [rnrRetry_sent h, if_pos hc]
  · rw [rnrRetry_sent h, if_neg (Nat.not_lt.2 hc), if_pos hn]
  · rw [rnrRetry_sent h, if_neg (Nat.not_lt.2 hc), if_neg (Nat.not_lt.2 hn)]

end Sys2Proof.Machine

end
